-- ==== Sys2Proof/Word.lean ====
section
/-! DEFINITION. The plain data types every other file uses: bytes, words and sparse tables. -/
namespace Sys2Proof

/-- One byte. -/
abbrev Byte := BitVec 8

/-- A run of bytes, lowest address first. -/
abbrev Bytes := List Byte

/-- A 64-bit register or seam word. -/
abbrev Word64 := BitVec 64

/-- A 32-bit word. -/
abbrev Word32 := BitVec 32

/-- A sparse table: keys strictly rising, no entry equal to the table's default (Machine/Tab.lean). -/
abbrev Tab (α : Type) := List (Nat × α)

end Sys2Proof
end

