-- ==== Sys2Proof/Syntax.lean ====
section
/-! DEFINITION. The commands of the block: one constructor per row of spec/opcode_table.json, with the operands that
come from outside the block in that row's step (what arrives on a port, a pin or a wire). -/
namespace Sys2Proof

/-- Parts of memory whose read carries the controllers' uncorrectable flag in this step (R44, R55, R469, R471):
`stacked` names 64 B sectors by their stack address, `capacity` 64 B parts by their port address. -/
structure Ue where
  stacked  : List Nat := []
  capacity : List Nat := []
  deriving DecidableEq, Repr

/-- A seam message as the receiving endpoint takes it (R12), with what the check bits of R11 found in it. -/
structure SeamMsg where
  toEast        : Bool
  header        : Word64
  payload       : List Word64
  corrected     : Nat
  uncorrectable : Bool
  deriving DecidableEq, Repr

/-- What a CURFEW message carries (R13, R426 to R431); the spec gives its payload no layout. -/
inductive SeamCurfewBody where
  | arm (t dawn : Nat)
  | cancel
  | stopped
  | dawn (t : Nat)
  deriving DecidableEq, Repr

/-- What a TIME sync carries (R25, R26): the time island's counter, the correction for the follower in ns
(positive: the follower is behind), and a steering change or jump applied at once. -/
structure TimeSyncBody where
  counter    : Nat
  correction : Int
  steer      : Int
  deriving DecidableEq, Repr

/-- What a MAILBOX message carries (R21): a table fetch command for East with its digest, East's reply, or a
configuration value for an East unit. -/
inductive SeamMailboxBody where
  | fetch (ticket : Nat) (kind index address length : Nat) (digest : Bytes)
  | reply (ticket : Nat) (status : Nat)
  | setting (id value : Nat)
  | drop (ticket kind index count : Nat)
  deriving DecidableEq, Repr

/-- What a TRACE message carries (R416, R425). -/
inductive SeamTraceBody where
  | control (buf subop : Nat)
  | trigger (buf : Nat) (time : Nat) (condition : Nat) (argument : Nat)
  | status (buf state : Nat)
  deriving DecidableEq, Repr

/-- A host read's outcome on the initiator side of the front-end port (R288, R455): a status and the data. -/
structure HostRead where
  status : Nat
  data   : Bytes
  deriving DecidableEq, Repr

/-- A link frame (R194): the 32 header bytes as they stand on the wire, the payload (ciphertext outside CONTROL
mode) and the 16 tag bytes. -/
structure Frame where
  header  : Bytes
  payload : Bytes
  tag     : Bytes
  deriving DecidableEq, Repr

/-- The ciphertext of a crossing (R193), with the parts of memory that read as flagged while what it carries is delivered. -/
structure CrossingText where
  bytes : Bytes
  ue    : Ue := {}
  deriving DecidableEq, Repr

/-- A sealed record of R10 as the receiver takes it: its counter, its ciphertext and its tag. -/
structure SealedRecord where
  counter : Nat
  sealed  : Bytes
  tag     : Bytes
  deriving DecidableEq, Repr

/-- An exchange record in a MESSAGE (R108, R109): source number, destination lantern, the source incarnation and
counter of its IV, ciphertext and tag. -/
structure ExchangeMsg where
  source      : Nat
  dest        : Nat
  incarnation : Nat
  counter     : Nat
  sealed      : Bytes
  tag         : Bytes
  deriving DecidableEq, Repr

/-- A request at a target side (R454): the port (0 to 15 lantern ports, 16 the front-end port) and its fields. -/
structure PortReq where
  port : Nat
  addr : Word64
  len  : Nat
  id   : Nat
  part : Nat
  deriving DecidableEq, Repr

/-- A unit that owns memory: a lantern or a capacity engine. -/
inductive MemUnit where
  | lantern (l : Nat)
  | capacity (c : Nat)
  deriving DecidableEq, Repr

/-- An access at the host register port (R477). -/
structure RegAccess where
  func   : Nat
  tee    : Bool
  offset : Nat
  size8  : Bool
  data   : Word64
  deriving DecidableEq, Repr

/-- A mailbox request being served: mailbox 0 to 15 the partitions', 16 the manager's, 17 the management mailbox;
`slot` the request slot. -/
structure MbReq where
  mb   : Nat
  slot : Nat
  ue   : Ue := {}
  deriving DecidableEq, Repr

/-- One wick of a task in one of its lanterns: task number, physical lantern, wick rank. -/
structure WickRef where
  task    : Nat
  lantern : Nat
  rank    : Nat
  deriving DecidableEq, Repr

/-- What the boot finds outside the block (R319): the self-tests' outcome, the OTP and flash ports' answers, the
entropy source's health, and the East half's version and build parameters. -/
structure BootIn where
  selfTest    : Bool
  otpOk       : Bool
  flashOk     : Bool
  healthOk    : Bool
  slotKatOk   : Bool
  eastVersion : Nat
  eastBuild   : List Nat
  failedWicks : List (Nat × Nat)
  ue          : Ue := {}
  deriving DecidableEq, Repr

/-- A word of 8 B of a wick's scratchpad memory (R105). -/
inductive ScratchWord where
  | staging
  | act (word : Nat)
  | acc (word : Nat)
  deriving DecidableEq, Repr

/-- What is reported of a physical wick (R105, R139): a failed self-test or background test, an uncorrectable error of a scratchpad
word, an error that the check bits corrected. -/
inductive WickCause where
  | selfTest
  | backgroundTest
  | scratchpad (at_ : ScratchWord)
  | corrected
  deriving DecidableEq, Repr

/-- Units that report progress (R391). -/
inductive HungUnit where
  | lantern (l : Nat)
  | frontEnd
  | feAgent
  | copyEngine
  deriving DecidableEq, Repr

/-- A snuffable reset domain (R389). -/
inductive SnuffDomain where
  | lantern (l : Nat)
  | linkPort (p : Nat)
  | block
  deriving DecidableEq, Repr

/-- Islands and units of R427 that stop at a curfew, one per row of its table and half or instance. -/
inductive Island where
  | frontEnd
  | feAgent
  | wicks (l : Nat)
  | crypto (l : Nat)
  | capacity (c : Nat)
  | copyEngine
  | link (half : Nat)
  deriving DecidableEq, Repr

/-- Ready cycles counted over the last 100 µs (R351): per lantern its 64 channels out of 200,000, per capacity
port out of 100,000, per link port out of 125,000. -/
structure AvailIn where
  lanterns : List (List Nat)
  capacity : List Nat
  links    : List Nat
  deriving DecidableEq, Repr

/-- What an SPDM frame brings about in a link handshake (R215): the two sides' messages are DMTF's and are not laid
out by the spec, so the step is named by its outcome. -/
inductive SpdmEvent where
  | progress
  | sessionEstablished (session : Word32) (exportMaster : Bytes) (chainRoot : Bytes) (transcript : Bytes)
  | confirm (selfNode peerNode : Nat) (version : Nat) (domain : Bytes) (epoch : Nat) (mac : Bytes)
  | endSession
  | failure (status : Nat)
  deriving DecidableEq, Repr

/-- An MCTP message assembled by the management port (R512, R513): whether its packets came in sequence with a
start, the vendor number, the sender's endpoint ID, its MCTP tag and the body after the vendor number. -/
structure MctpMsg where
  inSequence : Bool
  vendor     : Word32
  eid        : Nat
  tag        : Nat
  body       : Bytes
  deriving DecidableEq, Repr

/-- Common command codes of R511. -/
inductive I3cCcc where
  | entdaa (addr : Nat)
  | setdasa (staticAddr addr : Nat)
  | rstdaa
  | enec
  | disec
  | setmwl (n : Nat)
  | setmrl (n : Nat)
  | getpid
  | getbcr
  | getdcr
  | getstatus
  | getmwl
  | getmrl
  deriving DecidableEq, Repr

/-- An IDE key operation named in IDE_KM (R254, R480). -/
structure IdeOp where
  func : Nat
  sid  : Nat
  sub  : Nat
  dir  : Nat
  kset : Nat
  deriving DecidableEq, Repr

/-- The acknowledgement of the IDE key port (R481). -/
inductive IdeAck where
  | ack
  | ackErr
  | timeout
  deriving DecidableEq, Repr

/-- The commands, in the order of spec/opcode_table.json. -/
inductive Instr where
  | powerOn (vbatKept : Bool) (inp : BootIn)
  | pwrOkFall
  | dusk
  | powerEventEnd
  | tamperEvent (causes : BitVec 16)
  | flashExtRequest
  | vigilKick (value : Word32)
  | vigilFault
  | llIntegrityFault
  | sramScrub (corrected : Nat) (uncorrectable : Bool)
  | keySlotScrub (upset : List Nat)
  | entropyFailure
  | lcReread (row0 row1 row2 : Word32)
  | lcShadowMismatch
  | blockResetSequence (inp : BootIn)
  | lanternSnuff (l : Nat) (failedWicks : List Nat) (ue : Ue)
  | linkPortSnuff (p : Nat)
  | snuffDrainTimeout (d : SnuffDomain)
  | terminalFault
  | unitHung (u : HungUnit)
  | wickSelfTest (l phys : Nat) (pass : Bool)
  | seamSession (m : SeamMsg)
  | seamKeyLoad (m : SeamMsg)
  | seamKeyClear (m : SeamMsg)
  | seamKeyClearAll (m : SeamMsg)
  | seamKeyAck (m : SeamMsg)
  | seamSnuff (m : SeamMsg)
  | seamCurfew (m : SeamMsg) (body : SeamCurfewBody)
  | seamTimeSync (m : SeamMsg) (body : TimeSyncBody)
  | seamTimeEcho (m : SeamMsg) (echo : Nat)
  | timeSyncSend
  | seamFault (m : SeamMsg)
  | seamFaultAck (m : SeamMsg)
  | seamMailbox (m : SeamMsg) (body : SeamMailboxBody) (ue : Ue)
  | seamTrace (m : SeamMsg) (body : SeamTraceBody)
  | seamCredit (m : SeamMsg)
  | dispatchRecord (r : SealedRecord)
  | completionReport (r : SealedRecord) (ue : Ue)
  | exchangeRecord (m : ExchangeMsg)
  | transitCrossing (toEast : Bool) (port : Nat) (counter : Nat) (sealed : CrossingText) (tag : Bytes)
  | requestPortRead (r : PortReq)
  | requestPortWrite (r : PortReq) (data : Bytes) (be : List Bool) (ue : Ue)
  | message (port : Nat) (addr : Word64) (payload : Bytes)
  | rotationDueRepeat (key : Nat)
  | stackedReadReturn (port id : Nat) (ue : Ue)
  | quarantineLapse (l page : Nat)
  | pageRepair (l page : Nat) (ue : Ue)
  | capReadReturn (port id : Nat) (ue : Ue)
  | capacityVerdict (c : Nat)
  | linkFrameVerdict (p : Nat)
  | sweepChunkStart (rot : Nat) (u : MemUnit)
  | sweepChunkDone (rot : Nat) (u : MemUnit) (ue : Ue)
  | doorbellWrite (a : RegAccess)
  | queueArbiterCycle
  | ringFetchReturn (qi : Nat) (host : HostRead) (ue : Ue)
  | commandDispatch (qi : Nat) (ue : Ue)
  | dispatchResume (qi : Nat) (ue : Ue)
  | task (qi : Nat) (ue : Ue)
  | copy (qi : Nat)
  | copyChunkDone (qi : Nat) (host : HostRead) (ue : Ue)
  | importCmd (qi : Nat)
  | importChunkDone (qi : Nat) (ue : Ue)
  | fabric (qi : Nat) (ue : Ue)
  | signal (qi : Nat) (ue : Ue)
  | wait (qi : Nat) (ue : Ue)
  | post (qi : Nat) (ue : Ue)
  | taskCompletionReport (t : Nat) (ue : Ue)
  | waitDeadline (ue : Ue)
  | wickAbort (w : WickRef)
  | wickFailed (l phys : Nat) (cause : WickCause)
  | endOp (w : WickRef)
  | loop (w : WickRef)
  | pred (w : WickRef)
  | barrier (w : WickRef)
  | move (w : WickRef) (ue : Ue)
  | gather (w : WickRef) (ue : Ue)
  | scatter (w : WickRef) (ue : Ue)
  | gemv (w : WickRef) (ue : Ue)
  | gemvSparse (w : WickRef) (ue : Ue)
  | elemwise (w : WickRef)
  | curve (w : WickRef)
  | norm (w : WickRef)
  | quantise (w : WickRef)
  | reduce (w : WickRef)
  | digest (w : WickRef)
  | attend (w : WickRef) (ue : Ue)
  | attnMerge (w : WickRef)
  | kvAppendAppend (w : WickRef) (ue : Ue)
  | kvAppendCommit (w : WickRef) (ue : Ue)
  | kvAppendRollback (w : WickRef) (ue : Ue)
  | topkRoute (w : WickRef) (ue : Ue)
  | expertSendDispatch (w : WickRef) (ue : Ue)
  | expertSendReturn (w : WickRef)
  | expertSendCancel (w : WickRef)
  | expertCombine (w : WickRef)
  | arrivalRecord (port : Nat)
  | gatherWindowExpiry (server slice : Nat)
  | answerRecord (port : Nat)
  | combineDeadline (slot l : Nat)
  | pilotItemStart (pi : Nat) (ue : Ue)
  | pilotItemRetire (pi : Nat) (ue : Ue)
  | trimPeriodEnd (g : Nat) (ue : Ue)
  | trimCompute (g : Nat) (ue : Ue)
  | biasBlockInstall (g : Nat)
  | efpLoad (port : Nat) (f : Frame) (ue : Ue)
  | efpStore (port : Nat) (f : Frame) (ue : Ue)
  | efpAtomic (port : Nat) (f : Frame) (ue : Ue)
  | efpReduce (port : Nat) (f : Frame) (ue : Ue)
  | efpTrigger (port : Nat) (f : Frame) (ue : Ue)
  | efpAck (port : Nat) (f : Frame)
  | efpData (port : Nat) (f : Frame) (ue : Ue)
  | efpNack (port : Nat) (f : Frame)
  | efpHello (port : Nat) (f : Frame)
  | efpSpdm (port : Nat) (f : Frame) (ev : SpdmEvent)
  | efpRoll (port : Nat) (f : Frame)
  | efpTimeProbe (port : Nat) (f : Frame)
  | efpTimeEcho (port : Nat) (f : Frame)
  | efpBulk (port : Nat) (f : Frame)
  | linkTrained (p : Nat)
  | linkLost (p : Nat)
  | portBringupRetry (p : Nat)
  | rollDue (p : Nat)
  | rollOverrun (p : Nat)
  | fabricTimeout (half entry : Nat) (ue : Ue)
  | backoffExpiry (half dst : Nat)
  | ackCoalesceExpiry (half dst : Nat)
  | combiningLineWriteback (half line : Nat)
  | bulkFlush (port via : Nat)
  | timeProbeRound
  | timeRootSet (peerTimes : List Nat)
  | regulatorEvaluation (a : AvailIn)
  | deratedExit (r : Nat)
  | windowAdjust (u : MemUnit) (levels : List Nat) (waited : Bool)
  | powerCapStep (estimate : Nat)
  | traceHeaderRewrite (half buf : Nat)
  | curfewStop (isl : Island)
  | dawnTime (ue : Ue)
  | ideKeyAck (a : IdeAck)
  | mctpMessage (m : MctpMsg)
  | setEndpointId (eid : Nat)
  | mgmtSessionExpiry
  | reportDigestExpiry
  | lockInterfaceRequest (p : Nat) (sid : Nat)
  | startInterfaceRequest (p : Nat) (nonce : Bytes)
  | stopInterfaceRequest (p : Nat) (ue : Ue)
  | keyProg (op : IdeOp) (key iv : Bytes)
  | kSetGo (op : IdeOp)
  | kSetStop (op : IdeOp)
  | getVersion (r : MbReq)
  | negotiate (r : MbReq)
  | settingGet (r : MbReq)
  | settingSet (r : MbReq)
  | partitionCreate (r : MbReq)
  | partitionDestroy (r : MbReq)
  | partitionReset (r : MbReq)
  | pasidBind (r : MbReq)
  | pasidUnbind (r : MbReq)
  | contextQuery (r : MbReq)
  | objectCreate (r : MbReq)
  | objectFree (r : MbReq)
  | fenceCreate (r : MbReq)
  | fenceFree (r : MbReq)
  | fenceSignal (r : MbReq)
  | fenceQuery (r : MbReq)
  | fenceWait (r : MbReq)
  | queueCreate (r : MbReq)
  | queueDestroy (r : MbReq)
  | queueResume (r : MbReq)
  | pilotStart (r : MbReq)
  | pilotStop (r : MbReq)
  | poolCreate (r : MbReq)
  | poolDestroy (r : MbReq)
  | sequenceCreate (r : MbReq)
  | sequenceDestroy (r : MbReq)
  | sequenceQuery (r : MbReq)
  | keyGenerate (r : MbReq)
  | keyImport (r : MbReq)
  | keyClear (r : MbReq)
  | keyGrant (r : MbReq)
  | keyUngrant (r : MbReq)
  | keySetRotationTarget (r : MbReq)
  | keyRotate (r : MbReq)
  | keyConfirm (r : MbReq)
  | reportGet (r : MbReq)
  | spdmMessage (r : MbReq)
  | domainPrepare (r : MbReq)
  | domainActivate (r : MbReq)
  | domainRetirePrevious (r : MbReq)
  | domainLeave (r : MbReq)
  | windowCreate (r : MbReq)
  | windowDestroy (r : MbReq)
  | regionOwnerSet (r : MbReq)
  | routeLoad (r : MbReq)
  | groupTableLoad (r : MbReq)
  | linkStatus (r : MbReq)
  | tableLoad (r : MbReq)
  | tableUnload (r : MbReq)
  | tableGrant (r : MbReq)
  | tableUngrant (r : MbReq)
  | rgroupCreate (r : MbReq)
  | rgroupDestroy (r : MbReq)
  | serverStart (r : MbReq)
  | serverStop (r : MbReq)
  | powerCapSet (r : MbReq)
  | powerCapGet (r : MbReq)
  | sensorRead (r : MbReq) (temps : List Int)
  | reservationQuery (r : MbReq)
  | faultRead (r : MbReq)
  | faultAck (r : MbReq)
  | faultSummary (r : MbReq)
  | inject (r : MbReq)
  | dumpRead (r : MbReq)
  | blockReset (r : MbReq)
  | traceConfigBuffer (r : MbReq)
  | traceConfigSources (r : MbReq)
  | traceConfigTrigger (r : MbReq)
  | traceConfigWatch (r : MbReq)
  | traceConfigFire (r : MbReq)
  | traceConfigStop (r : MbReq)
  | traceConfigRearm (r : MbReq)
  | traceConfigDisable (r : MbReq)
  | curfewSchedule (r : MbReq)
  | curfewCancel (r : MbReq)
  | dawn (r : MbReq)
  | lcTransition (r : MbReq)
  | debugUnlockChallenge (r : MbReq)
  | debugUnlockUnlock (r : MbReq)
  | fwStage (r : MbReq)
  | fwActivate (r : MbReq)
  | fwCommit (r : MbReq)
  | fwStatus (r : MbReq)
  | mgmtChallenge (r : MbReq)
  | mgmtAuth (r : MbReq)
  | mgmtEnd (r : MbReq)
  | ptMbRelease (a : RegAccess)
  | ptMbEventPtr (a : RegAccess)
  | lnTgenStart (a : RegAccess)
  | lnTgenStop (a : RegAccess)
  | registerWrite (a : RegAccess)
  | jtagInstruction (half : Nat) (ir : Byte)
  | debugAccess (half : Nat) (dr : BitVec 96)
  | channelTraining (u : MemUnit) (channel : Nat) (level : Bool)
  | flashExtNRise
  | i3cCcc (c : I3cCcc)
  | registerRead (a : RegAccess)
  deriving DecidableEq, Repr

end Sys2Proof
end

