-- ==== Sys2Proof/Decode.lean ====
section
/-! DEFINITION. The block's commands arrive on ports, pins and wires; the opcode table gives no row any bits, so no
word spells a command. -/
namespace Sys2Proof

/-- The command a table word spells: none, for no row of the table has bits. -/
def decodeTableWord (_nbits _w : Nat) : Option Instr := none

end Sys2Proof
end

