-- ==== Sys2Proof/Machine/Tab.lean ====
section
/-! DEFINITION. Sparse tables in one canonical form: keys strictly rising, no entry equal to the table's default. -/
namespace Sys2Proof.Machine

/-- The entry of key `k`, or the default `d`. -/
def tget {α : Type} (d : α) : Tab α → Nat → α
  | [], _ => d
  | (k', v) :: t, k => if k' = k then v else tget d t k

/-- The table without key `k`. -/
def terase {α : Type} (t : Tab α) (k : Nat) : Tab α := t.filter (fun p => p.1 ≠ k)

/-- The table with `v` at key `k`, in key order. -/
def tinsert {α : Type} : Tab α → Nat → α → Tab α
  | [], k, v => [(k, v)]
  | (k', v') :: t, k, v =>
    if k < k' then (k, v) :: (k', v') :: t
    else if k = k' then (k, v) :: t
    else (k', v') :: tinsert t k v

/-- The table with `v` at key `k`; writing the default removes the entry. -/
def tset {α : Type} [DecidableEq α] (d : α) (t : Tab α) (k : Nat) (v : α) : Tab α :=
  if v = d then terase t k else tinsert t k v

/-- The table with `f` applied at key `k`. -/
def tmod {α : Type} [DecidableEq α] (d : α) (t : Tab α) (k : Nat) (f : α → α) : Tab α :=
  tset d t k (f (tget d t k))

/-- The table with every key from `lo` up to and not including `hi` back at the default. -/
def tclear {α : Type} (t : Tab α) (lo hi : Nat) : Tab α := t.filter (fun p => p.1 < lo ∨ hi ≤ p.1)

/-- `f` at every entry; entries that become the default go. -/
def tmap {α : Type} [DecidableEq α] (d : α) (t : Tab α) (f : Nat → α → α) : Tab α :=
  (t.map (fun p => (p.1, f p.1 p.2))).filter (fun p => p.2 ≠ d)

/-- The canonical form. -/
abbrev TabWf {α : Type} [DecidableEq α] (d : α) (t : Tab α) : Prop :=
  (t.map Prod.fst).Pairwise (· < ·) ∧ ∀ p ∈ t, p.2 ≠ d

/-- The `n` entries from key `k` on. -/
def treads {α : Type} (d : α) (t : Tab α) (k n : Nat) : List α := (List.range n).map (fun i => tget d t (k + i))

/-- The table with a list stored from key `k` on. -/
def twrites {α : Type} [DecidableEq α] (d : α) (t : Tab α) (k : Nat) : List α → Tab α
  | [] => t
  | v :: vs => twrites d (tset d t k v) (k + 1) vs

/-- The least key from 0 up to and not including `n` that holds `p`. -/
def tfind {α : Type} (d : α) (t : Tab α) (n : Nat) (p : α → Bool) : Option Nat :=
  (List.range n).find? (fun k => p (tget d t k))

end Sys2Proof.Machine
end

