-- ==== Sys2Proof/Machine/Bytes.lean ====
section
/-! DEFINITION. Bytes and the fields in them: little-endian fields (R4), most significant byte first where the model
forms GCM inputs. -/
namespace Sys2Proof.Machine

/-- `n` bytes of `v`, least significant first (R4). -/
def le : Nat → Nat → Bytes
  | 0, _ => []
  | n + 1, v => BitVec.ofNat 8 v :: le n (v / 256)

/-- `n` bytes of `v`, most significant first (R4). -/
def be (n v : Nat) : Bytes := (le n v).reverse

/-- The number whose bytes stand least significant first. -/
def leNat : Bytes → Nat
  | [] => 0
  | b :: bs => b.toNat + 256 * leNat bs

/-- The number whose bytes stand most significant first. -/
def beNat (bs : Bytes) : Nat := leNat bs.reverse

/-- `n` zero bytes. -/
def zeros (n : Nat) : Bytes := List.replicate n 0

/-- `bs` cut or filled with zero bytes to `n` bytes. -/
def fit (n : Nat) (bs : Bytes) : Bytes := (bs ++ zeros n).take n

/-- `n` bytes from offset `off`; bytes past the end read as zero. -/
def sub (bs : Bytes) (off n : Nat) : Bytes := fit n (bs.drop off)

/-- A little-endian field of `n` bytes at offset `off` (R4). -/
def fld (bs : Bytes) (off n : Nat) : Nat := leNat (sub bs off n)

/-- `bs` with `new` stored from offset `off` on. -/
def put (bs : Bytes) (off : Nat) (new : Bytes) : Bytes :=
  fit off bs ++ new ++ bs.drop (off + new.length)

/-- Bits `hi` down to `lo` of a number. -/
def bits (v hi lo : Nat) : Nat := (v >>> lo) % 2 ^ (hi - lo + 1)

/-- Whether bit `i` of a number is set. -/
def bit (v i : Nat) : Bool := v.testBit i

/-- The number with bits `lo` on replaced by the `w` low bits of `x`. -/
def setBits (v lo w x : Nat) : Nat :=
  v - (bits v (lo + w - 1) lo) * 2 ^ lo + (x % 2 ^ w) * 2 ^ lo

/-- How many of the low 64 bits are set. -/
def popcount (v : Nat) : Nat := (List.range 64).countP (fun i => v.testBit i)

/-- The positions of the set bits below `n`, rising. -/
def bitList (n v : Nat) : List Nat := (List.range n).filter (fun i => v.testBit i)

/-- 1 for true, 0 for false. -/
def b2n (b : Bool) : Nat := if b then 1 else 0

/-- Bytewise exclusive or, as long as the shorter. -/
def xorBytes : Bytes → Bytes → Bytes
  | a :: as, b :: bs => (a ^^^ b) :: xorBytes as bs
  | _, _ => []

/-- Cut into pieces of `n` bytes, the last one possibly short; `fuel` bounds their number. -/
def chunksOf (n : Nat) : Nat → Bytes → List Bytes
  | 0, _ => []
  | _ + 1, [] => []
  | fuel + 1, bs => bs.take n :: chunksOf n fuel (bs.drop n)

/-- Cut into pieces of `n` bytes. -/
def chunks (n : Nat) (bs : Bytes) : List Bytes := chunksOf n bs.length bs

/-- The bytes of an ASCII string. -/
def ascii (x : String) : Bytes := x.toList.map (fun c => BitVec.ofNat 8 c.toNat)

/-- Round up to a multiple of `m`. -/
def alignUp (v m : Nat) : Nat := (v + m - 1) / m * m

/-- The exponent of the least power of two not below `v` (`v` below 2 ^ 64). -/
def ceilLog2 (v : Nat) : Nat := ((List.range 64).find? (fun k => v ≤ 2 ^ k)).getD 64

/-- Whether a list holds no element twice. -/
def noDup : List Nat → Bool
  | [] => true
  | x :: xs => !xs.contains x && noDup xs

/-- A number held at `2 ^ w - 1`. -/
def satTo (w v : Nat) : Nat := min v (2 ^ w - 1)

end Sys2Proof.Machine
end

