-- ==== Sys2Proof/Machine/Sha.lean ====
section
/-! DEFINITION. SHA-384 (FIPS 180-4), HMAC-SHA-384 and HKDF-SHA-384 (RFC 5869). -/
namespace Sys2Proof.Machine

/-- The 80 round constants, constant `i` in bits 64i+63 down to 64i. -/
def shaTable : Nat :=
  (0x6c44198c4a4758175fcb6fab3ad6faec597f299cfc657e2a4cc5d4becb3e42b6431d67c49c100d4c <<< 4800) |||
  (0x3c9ebe0a15c9bebc32caab7b40c7249328db77f523047d841b710b35131c471b113f9804bef90dae <<< 4480) |||
  (0x0a637dc5a2c898a606f067aa72176fbaf57d4f7fee6ed178eada7dd6cde0eb1ed186b8c721c0c207 <<< 4160) |||
  (0xca273eceea26619cc67178f2e372532bbef9a3f7b2c67915a4506cebde82bde990befffa23631e28 <<< 3840) |||
  (0x8cc702081a6439ec84c87814a1f0ab7278a5636f43172f60748f82ee5defb2fc682e6ff3d6b2b8a3 <<< 3520) |||
  (0x5b9cca4f7763e3734ed8aa4ae3418acb391c0cb3c5c95a6334b0bcb5e19b48a82748774cdf8eeb99 <<< 3200) |||
  (0x1e376c085141ab5319a4c116b8d2d0c8106aa07032bbd1b8f40e35855771202ad69906245565a910 <<< 2880) |||
  (0xd192e819d6ef5218c76c51a30654be30c24b8b70d0f89791a81a664bbc423001a2bfe8a14cf10364 <<< 2560) |||
  (0x92722c851482353b81c2c92e47edaee6766a0abb3c77b2a8650a73548baf63de53380d139d95b3df <<< 2240) |||
  (0x4d2c6dfc5ac42aed2e1b21385c26c92627b70a8546d22ffc142929670a0e6e7006ca6351e003826f <<< 1920) |||
  (0xd5a79147930aa725c6e00bf33da88fc2bf597fc7beef0ee4b00327c898fb213fa831c66d2db43210 <<< 1600) |||
  (0x983e5152ee66dfab76f988da831153b55cb0a9dcbd41fbd44a7484aa6ea6e4832de92c6f592b0275 <<< 1280) |||
  (0x240ca1cc77ac9c650fc19dc68b8cd5b5efbe4786384f25e3e49b69c19ef14ad2c19bf174cf692694 <<< 960) |||
  (0x9bdc06a725c7123580deb1fe3b1696b172be5d74f27b896f550c7dc3d5ffb4e2243185be4ee4b28c <<< 640) |||
  (0x12835b0145706fbed807aa98a3030242ab1c5ed5da6d8118923f82a4af194f9b59f111f1b605d019 <<< 320) |||
  (0x3956c25bf348b538e9b5dba58189dbbcb5c0fbcfec4d3b2f7137449123ef65cd428a2f98d728ae22 <<< 0)

/-- Round constant `i`. -/
def shaK (i : Nat) : Word64 := BitVec.ofNat 64 (shaTable >>> (64 * i))

/-- The eight working words. -/
structure Sha where
  a : Word64
  b : Word64
  c : Word64
  d : Word64
  e : Word64
  f : Word64
  g : Word64
  h : Word64
  deriving DecidableEq, Repr

/-- The initial value of SHA-384. -/
def shaInit : Sha :=
  ⟨0xcbbb9d5dc1059ed8#64, 0x629a292a367cd507#64, 0x9159015a3070dd17#64, 0x152fecd8f70e5939#64,
   0x67332667ffc00b31#64, 0x8eb44a8768581511#64, 0xdb0c2e0d64f98fa7#64, 0x47b5481dbefa4fa4#64⟩

/-- The message schedule: 16 words newest first on, `n` words still to come. -/
def shaSchedule : Nat → List Word64 → List Word64
  | 0, ws => ws
  | n + 1, ws =>
    let w2 := ws.getD 1 0
    let w15 := ws.getD 14 0
    let s0 := w15.rotateRight 1 ^^^ w15.rotateRight 8 ^^^ (w15 >>> 7)
    let s1 := w2.rotateRight 19 ^^^ w2.rotateRight 61 ^^^ (w2 >>> 6)
    shaSchedule n ((s1 + ws.getD 6 0 + s0 + ws.getD 15 0) :: ws)

/-- The rounds over the scheduled words, the round number beside them. -/
def shaRounds : List Word64 → Nat → Sha → Sha
  | [], _, s => s
  | w :: ws, i, s =>
    let s1 := s.e.rotateRight 14 ^^^ s.e.rotateRight 18 ^^^ s.e.rotateRight 41
    let ch := (s.e &&& s.f) ^^^ (~~~s.e &&& s.g)
    let t1 := s.h + s1 + ch + shaK i + w
    let s0 := s.a.rotateRight 28 ^^^ s.a.rotateRight 34 ^^^ s.a.rotateRight 39
    let mj := (s.a &&& s.b) ^^^ (s.a &&& s.c) ^^^ (s.b &&& s.c)
    shaRounds ws (i + 1) ⟨t1 + s0 + mj, s.a, s.b, s.c, s.d + t1, s.e, s.f, s.g⟩

/-- One 128 B block. -/
def shaBlock (s : Sha) (b : Bytes) : Sha :=
  let ws := ((chunks 8 b).map (fun x => BitVec.ofNat 64 (beNat x))).reverse
  let r := shaRounds (shaSchedule 64 ws).reverse 0 s
  ⟨s.a + r.a, s.b + r.b, s.c + r.c, s.d + r.d, s.e + r.e, s.f + r.f, s.g + r.g, s.h + r.h⟩

/-- The SHA-384 digest, 48 B. -/
def sha384 (m : Bytes) : Bytes :=
  let k := (128 - (m.length + 17) % 128) % 128
  let padded := m ++ [0x80#8] ++ zeros k ++ be 16 (8 * m.length)
  let s := (chunks 128 padded).foldl shaBlock shaInit
  [s.a, s.b, s.c, s.d, s.e, s.f].flatMap (fun w => be 8 w.toNat)

/-- HMAC-SHA-384. -/
def hmac (key m : Bytes) : Bytes :=
  let k := fit 128 (if key.length > 128 then sha384 key else key)
  sha384 (k.map (· ^^^ 0x5C#8) ++ sha384 (k.map (· ^^^ 0x36#8) ++ m))

/-- The blocks of HKDF-Expand: `n` still to come. -/
def hkdfBlocks (prk info : Bytes) : Nat → Nat → Bytes → Bytes
  | 0, _, _ => []
  | n + 1, i, prev =>
    let t := hmac prk (prev ++ info ++ [BitVec.ofNat 8 i])
    t ++ hkdfBlocks prk info n (i + 1) t

/-- HKDF-SHA-384 with salt, info and length. -/
def hkdf (salt ikm info : Bytes) (len : Nat) : Bytes :=
  let prk := hmac (if salt = [] then zeros 48 else salt) ikm
  (hkdfBlocks prk info ((len + 47) / 48) 1 []).take len

/-- HKDF-Expand alone. -/
def hkdfExpand (prk info : Bytes) (len : Nat) : Bytes :=
  (hkdfBlocks prk info ((len + 47) / 48) 1 []).take len

end Sys2Proof.Machine
end

