-- ==== Sys2Proof/Machine/P384.lean ====
section
/-! DEFINITION. The curve P-384 (FIPS 186-5): ECDH and ECDSA verification and signing. -/
namespace Sys2Proof.Machine

/-- The field prime. -/
def p384P : Nat := 0xfffffffffffffffffffffffffffffffffffffffffffffffffffffffffffffffeffffffff0000000000000000ffffffff

/-- The group order. -/
def p384N : Nat := 0xffffffffffffffffffffffffffffffffffffffffffffffffc7634d81f4372ddf581a0db248b0a77aecec196accc52973

/-- The curve's b. -/
def p384B : Nat := 0xb3312fa7e23ee7e4988e056be3f82d19181d9c6efe8141120314088f5013875ac656398d8a2ed19d2a85c8edd3ec2aef

/-- The generator. -/
def p384G : Nat × Nat :=
  (0xaa87ca22be8b05378eb1c71ef320ad746e1d3b628ba79b9859f741e082542a385502f25dbf55296c3a545e3872760ab7,
   0x3617de4a96262c6f5d9e98bf9292dc29f8f41dbd289a147ce9da3113b5f0b8c00a60b1ce1d7e819d7a431d7c90ea0e5f)

/-- `a ^ e` modulo `m`; `n` bits of `e` are still to come. -/
def powModLoop (a e m : Nat) : Nat → Nat → Nat
  | 0, r => r
  | n + 1, r =>
    let r2 := r * r % m
    powModLoop a e m n (if e.testBit n then r2 * a % m else r2)

/-- The inverse modulo an odd 384-bit prime. -/
def invMod (a m : Nat) : Nat := powModLoop (a % m) (m - 2) m 384 1

/-- A point in Jacobian coordinates; z 0 is the point at infinity. -/
structure JPoint where
  x : Nat
  y : Nat
  z : Nat
  deriving DecidableEq, Repr

/-- Twice a point. -/
def jDouble (p : JPoint) : JPoint :=
  let q := p384P
  let d := p.z * p.z % q
  let g := p.y * p.y % q
  let b := p.x * g % q
  let a := 3 * ((p.x + q - d) % q) * ((p.x + d) % q) % q
  let x := (a * a + 8 * (q - b)) % q
  let z := 2 * p.y * p.z % q
  let y := (a * ((4 * b + q - x) % q) + 8 * (q - g * g % q)) % q
  ⟨x, y, z⟩

/-- The sum of two points. -/
def jAdd (p r : JPoint) : JPoint :=
  let q := p384P
  if p.z = 0 then r else if r.z = 0 then p else
  let z1 := p.z * p.z % q
  let z2 := r.z * r.z % q
  let u1 := p.x * z2 % q
  let u2 := r.x * z1 % q
  let s1 := p.y * z2 * r.z % q
  let s2 := r.y * z1 * p.z % q
  if u1 = u2 then (if s1 = s2 then jDouble p else ⟨1, 1, 0⟩) else
  let h := (u2 + q - u1) % q
  let w := (s2 + q - s1) % q
  let h2 := h * h % q
  let h3 := h * h2 % q
  let v := u1 * h2 % q
  let x := (w * w + (q - h3) + 2 * (q - v)) % q
  let y := (w * ((v + q - x) % q) + (q - s1 * h3 % q)) % q
  ⟨x, y, h * p.z * r.z % q⟩

/-- `k` times a point; `n` bits of `k` are still to come. -/
def jMulLoop (k : Nat) (p : JPoint) : Nat → JPoint → JPoint
  | 0, r => r
  | n + 1, r =>
    let r2 := jDouble r
    jMulLoop k p n (if k.testBit n then jAdd r2 p else r2)

/-- `k` times an affine point, in Jacobian coordinates. -/
def jMul (k : Nat) (p : Nat × Nat) : JPoint := jMulLoop k ⟨p.1, p.2, 1⟩ 384 ⟨1, 1, 0⟩

/-- Affine coordinates; infinity gives (0, 0). -/
def toAffine (p : JPoint) : Nat × Nat :=
  let i := invMod p.z p384P
  let i2 := i * i % p384P
  (p.x * i2 % p384P, p.y * i2 * i % p384P)

/-- Whether a pair of coordinates is a point of the curve. -/
def onCurve (p : Nat × Nat) : Bool :=
  p.1 < p384P && p.2 < p384P &&
    p.2 * p.2 % p384P = (p.1 * p.1 * p.1 + (p384P - 3) * p.1 + p384B) % p384P

/-- A public key of 96 bytes, X then Y, most significant byte first. -/
def pointOf (bs : Bytes) : Nat × Nat := (beNat (sub bs 0 48), beNat (sub bs 48 48))

/-- The 96 bytes of a point. -/
def pointBytes (p : Nat × Nat) : Bytes := be 48 p.1 ++ be 48 p.2

/-- The public key of a private number. -/
def publicKey (d : Nat) : Bytes := pointBytes (toAffine (jMul d p384G))

/-- The ECDH shared secret: the X coordinate, 48 bytes; none for a public key off the curve. -/
def ecdh (d : Nat) (pub : Bytes) : Option Bytes :=
  let p := pointOf pub
  if onCurve p then some (be 48 (toAffine (jMul d p)).1) else none

/-- ECDSA verification of a SHA-384 digest with a 96 B public key and a 96 B signature r, s. -/
def ecdsaVerify (pub digest sig : Bytes) : Bool :=
  let r := beNat (sub sig 0 48)
  let s := beNat (sub sig 48 48)
  let q := pointOf pub
  if r = 0 ∨ s = 0 ∨ p384N ≤ r ∨ p384N ≤ s ∨ ¬ onCurve q then false else
  let w := invMod s p384N
  let pt := jAdd (jMul (beNat digest * w % p384N) p384G) (jMul (r * w % p384N) q)
  pt.z ≠ 0 && (toAffine pt).1 % p384N = r

/-- ECDSA signing of a SHA-384 digest with the private number `d` and the per-signature number `k`. -/
def ecdsaSign (d k : Nat) (digest : Bytes) : Bytes :=
  let r := (toAffine (jMul k p384G)).1 % p384N
  let s := invMod k p384N * (beNat digest + r * d) % p384N
  be 48 r ++ be 48 s

end Sys2Proof.Machine
end

