-- ==== Sys2Proof/Config.lean ====
section
/-! DEFINITION. What an implementation fixes and the spec leaves open: the free values, each a constant without a body. -/
namespace Sys2Proof.Config

/-- The n-th byte drawn from the entropy source or the DRBG (R17, R232): a free value. -/
opaque entropy : Nat → Byte

/-- The n-th byte whose value the spec leaves open (an event argument it does not lay out, contents it calls
unspecified): a free value. -/
opaque unstated : Nat → Byte

/-- The byte that stands in for every byte of a poisoned sector (R44 says that every byte is replaced and not with
what): a free value. -/
opaque poisonByte : Byte

/-- The BINARY32 pattern that the block's exponential of R160 gives for a BINARY32 pattern: R160 bounds its relative error
and fixes it at 0 and at −Inf, and gives no values; a free value within that bound. -/
opaque expBits : Nat → Nat

/-- The window of a node to which its origins send dispatch records, and the one to which servers send answers: R176 and
R181 send them there and say not how the window's number is known; free values. -/
opaque arrivalWindow : Nat → Nat
opaque combineWindow : Nat → Nat

/-- Whether a DEBUG_ACCESS address of the Lamplighter names key working memory or a key path (R315): the spec gives the Lamplighter no
memory map. -/
opaque keyMemory : Nat → Bool

/-- The place in a wick's scratchpads and sheets that bits [7:0] of a DEBUG_ACCESS address name (R514 does not say): 0 ACT, 1 ACC, 2 + n
sheet n, and a byte offset. -/
opaque debugPlace : Nat → Nat × Nat

/-- What is in the mask ROM and the fuses of a device (R229, R317, R444): bytes 0 to 47 the SHA-384 digest of the boot ROM, 48 +
48 * k onward the digest of firmware-signing key k, 240 to 255 the fused serial. -/
opaque romByte : Nat → Byte

/-- Whether an ML-DSA-65 signature of an image verifies under firmware-signing key `k` (R317, R318): the verification of FIPS 204
under keys that the spec does not give. -/
opaque mldsaOk : Nat → Bytes → Bytes → Bool

/-- The ML-DSA-65 signature of a message under the key pair of a seed (R242), by FIPS 204. -/
opaque mldsaSig : Bytes → Bytes → Nat → Byte

/-- The public key of the ML-DSA-65 key pair of a seed (R231), by FIPS 204: 1,952 bytes. -/
opaque mldsaPub : Bytes → Nat → Byte

/-- The part of an Alias certificate that is signed, and the whole certificate, in DER: the spec gives the certificate's contents (R229) and
not its names, serial number and dates. -/
opaque certTbs : Bytes → Bytes
opaque certDer : Bytes → Bytes → Bytes

/-- The nonce of the boot ROM's ECDSA signature over what it signs (R229), 56 B of random bits. -/
opaque certNonce : Bytes → Nat → Byte

/-- Whether the memory controller flags the n-th sector that a traffic generator reads as uncorrectable (R469, R488): no row carries that
flag. -/
opaque channelFlag : Nat → Bool

/-- Whether a unit of the block times out behind the bridge of the crash dump (R400): no row carries that. -/
opaque unitTimesOut : Nat → Bool

end Sys2Proof.Config
end

