-- ==== Sys2Proof/Machine/State.lean ====
section
/-! DEFINITION. The state of the block as plain data, part by part, with the chapter's rule that names each piece;
the closed types of faults and refusals; State.reset, the block before its first POWER_ON. -/
namespace Sys2Proof.Machine

/-! ## Build, trust island, fuses, flash -/

/-- Build parameters (R3, R524) and the tie-offs and fused values a delivered instance is fixed with (R242, R511,
R514). -/
structure Build where
  lanterns : Nat := 12
  wicks    : Nat := 192
  spares   : Nat := 8
  links    : Nat := 16
  caps     : Nat := 4
  parts    : Nat := 16
  mldsa    : Bool := false
  capMin   : Nat := 80000
  capMax   : Nat := 330000
  jtagMfg  : Nat := 0
  mgmtSa   : Nat := 0
  mgmtPid  : Nat := 0
  mgmtPen  : Word32 := 0
  deriving DecidableEq, Repr

/-- The trust island (R230, R247, R448, R490 to R499, R516) and its vigil watchdog (R322, R323). -/
structure Trust where
  pwrOk         : Bool := false
  isolated      : Bool := true
  rootSecret    : Bytes := []
  rootValid     : Bool := false
  rootFresh     : Bool := false
  tamperEn      : BitVec 16 := 0x3F00#16
  cause         : BitVec 16 := 0
  count         : Nat := 0
  tamperTime    : BitVec 48 := 0
  inputs        : Byte := 0
  rtc           : BitVec 48 := 0
  rtcPhase      : Nat := 0
  duskCount     : Nat := 0
  unsafeLast    : Bool := false
  safe          : Bool := false
  dawn          : Bool := false
  dusk          : Bool := false
  sealedGen     : Nat := 0
  pendingMask   : Byte := 0
  debugNow      : Byte := 0
  debugEver     : Byte := 0
  shadow        : List Nat := [0, 0, 0]
  domainId      : Bytes := []
  highestEpoch  : Nat := 0
  epochFloor    : Nat := 0
  vigilArmed    : Bool := false
  vigilValue    : Word32 := 0
  vigilLast     : Nat := 0
  vigilKicks    : Word32 := 0
  vigilMaxUs    : Nat := 0
  deriving DecidableEq, Repr

/-- One step of a transition or of FW_COMMIT's burns (R442, R449): a row burned with bits that it may lack, the wipe of
step 2, the erase of step 3, a UDS row drawn and burned, UDS_CHECK, a code row, the end. -/
inductive LcOp where
  | burn (row : Nat) (bits : Word32)
  | wipe
  | erase
  | udsRow (row : Nat)
  | udsCheck
  | done (transition : Bool)
  deriving DecidableEq, Repr

/-- The OTP rows (R435), the fuse controller and the life-cycle transition under way (R441 to R443, R449): the steps still to
take, whether the first has begun and when it ends, the mailbox request that waits for them, the DEBUG_AUTH accepted. -/
structure LifeCycle where
  otp          : Tab Word32 := []
  mismatch     : BitVec 3 := 0
  udsWithheld  : Bool := false
  intent       : Nat := 0
  ops          : List LcOp := []
  opOn         : Bool := false
  opEnd        : Nat := 0
  req          : Option (Nat × Nat) := none
  debugHash    : Bytes := []
  nonce        : Bytes := []
  nonceTime    : Nat := 0
  nonceLive    : Bool := false
  deriving DecidableEq, Repr

/-- The serial NOR flash (R505 to R510): its bytes (an unlisted byte reads 0xFF, erased), and whether the bus is given away. -/
structure Flash where
  bytes      : Tab Byte := []
  extAck     : Bool := false
  deriving DecidableEq, Repr

/-! ## Lamplighter and key store -/

/-- Progress of FW_STAGE (R348, R350). -/
structure FwStage where
  active  : Bool := false
  slot    : Nat := 0
  written : Nat := 0
  mailbox : Nat := 0
  deriving DecidableEq, Repr

/-- The X.509 Alias certificate that the boot ROM issues (R229): the Alias public key and what its TcbInfo extension holds, signed with the
DeviceID key. -/
structure AliasCert where
  pub    : Bytes
  digest : Bytes
  svn    : Nat
  lc     : Nat
  debug  : Byte
  sig    : Bytes
  deriving DecidableEq, Repr

/-- One remembered report digest (R242). -/
structure ReportDigest where
  digest : Bytes
  time   : Nat
  deriving DecidableEq, Repr

/-- The Lamplighter (R229, R232, R241, R257, R314 to R323) and what Stolaikor keeps for itself. `images` holds the copies of table
images it made under key ID 0x000 and that East has yet to fetch, by ticket, with their kind (R85, R21). -/
structure Lamplighter where
  stage        : Nat := 0
  reason       : Nat := 0
  code         : Nat := 0
  capRefused   : Byte := 0
  trial        : Bool := false
  fallback     : Bool := false
  image        : Nat := 0
  ready        : Bool := false
  halted       : Bool := false
  svn          : Nat := 0
  protoMax     : Nat := 0
  relMajor     : Nat := 0
  relMinor     : Nat := 0
  relPatch     : Nat := 0
  epoch        : BitVec 16 := 0
  paired       : Bool := false
  boot         : Option BootIn := none
  drbgRunning  : Bool := false
  drbgRequests : Nat := 0
  imageDigest  : Bytes := []
  cdi1         : Bytes := []
  deviceIdPub  : Bytes := []
  recordKey    : Bytes := []
  aliasPriv    : Nat := 0
  aliasPub     : Bytes := []
  aliasPqSeed  : Bytes := []
  aliasPqPub   : Bytes := []
  aliasCert    : Option AliasCert := none
  importPriv   : Nat := 0
  importPub    : Bytes := []
  reportSeq    : Nat := 0
  digests      : List ReportDigest := []
  heldReport   : Bytes := []
  heldNonce    : Bytes := []
  fwStage      : FwStage := {}
  mgmtNonce    : Bytes := []
  mgmtNonceAt  : Nat := 0
  mgmtNonceOn  : Bool := false
  mgmtActive   : Bool := false
  mgmtKey      : Bytes := []
  mgmtRx       : Nat := 0
  mgmtTx       : Nat := 0
  mgmtStart    : Nat := 0
  mgmtFails    : Nat := 0
  mgmtLockEnd  : Nat := 0
  mgmtDiscards : Nat := 0
  spdmBuffer   : Bytes := []
  spdmReply    : Bytes := []
  slotFailLog  : List Nat := []
  images       : Tab (Nat × Bytes) := []
  deriving DecidableEq, Repr

/-- Key classes of R233. -/
inductive KeyClass where
  | empty | firmware | memory | model | domain | internal | management | transfer | digest
  deriving DecidableEq, Repr

/-- Key-slot states of R233. -/
inductive KeyState where
  | empty | active | rotateFrom | rotateTo | aliased | retired | expired | exhausted | bad
  deriving DecidableEq, Repr

/-- A key slot (R233). `draining` is set while a KEY_CLEAR of the slot has not yet replied (R238). -/
structure KeySlot where
  key      : Bytes := []
  cls      : KeyClass := .empty
  state    : KeyState := .empty
  owner    : Nat := 0
  engines  : Byte := 0
  flags    : Byte := 0
  target   : Byte := 0
  uses     : Nat := 0
  tag      : Bytes := []
  draining : Bool := false
  deriving DecidableEq, Repr

/-- A slot of the East key mirror (R18 to R20): the key and attributes it stored, and the tag, keyed from the seam session key, that
protects the copy. -/
structure MirrorSlot where
  key   : Bytes := []
  attrs : Bytes := []
  held  : Bool := false
  tag   : Bytes := []
  deriving DecidableEq, Repr

/-- A KEY_GRANT (R238): the partition admitted to a manager-owned key ID, read-write or read-only. `closing` is set while its
withdrawal waits for requests accepted before. -/
structure KeyGrant where
  slot    : Nat
  part    : Nat
  write   : Bool
  closing : Bool := false
  deriving DecidableEq, Repr

/-- The key store, the mirror and the counters of sealed paths keyed from them (R10, R108, R193, R233 to R240). -/
structure Keys where
  slots      : Tab KeySlot := []
  mirror     : Tab MirrorSlot := []
  grants     : List KeyGrant := []
  targets    : Tab Nat := []
  dispatchTx : Nat := 0
  dispatchRx : Nat := 0
  reportTx   : Nat := 0
  reportRx   : Nat := 0
  transitW2E : Nat := 0
  transitE2W : Nat := 0
  transitRxE : Nat := 0
  transitRxW : Nat := 0
  captureKey : Bytes := []
  deriving DecidableEq, Repr

/-! ## Seam and time -/

/-- What a seam message carries: the CLASS_ARG and payload words where the spec lays them out, or the content of a
message whose payload it leaves without a layout. -/
inductive SeamBody where
  | words (arg : Nat) (payload : List Word64)
  | curfew (b : SeamCurfewBody)
  | sync (b : TimeSyncBody)
  | echo (value : Nat)
  | mailbox (b : SeamMailboxBody)
  | trace (b : SeamTraceBody)
  deriving DecidableEq, Repr

/-- A seam message of one class and direction (R12, R13). -/
structure SeamTx where
  toEast : Bool
  cls    : Nat
  body   : SeamBody
  deriving DecidableEq, Repr

/-- The wires of one direction (R482, R483): the levels of REQ and ACK, the words sent and the words taken since the last block reset, the
receive FIFO, which holds the words sent and not yet acknowledged, and the words of the message in progress that are still to be sent. -/
structure SeamWire where
  req   : Bool := false
  ack   : Bool := false
  sent  : Nat := 0
  taken : Nat := 0
  fifo  : List Word64 := []
  rest  : List Word64 := []
  deriving DecidableEq, Repr

/-- The seam (R11 to R20, R482, R483): pairing, session key (`eastKey` as East derived it), sequence numbers per class and direction (index
`2 * class + 1` for West to East), credits, KEY counters, messages that wait for a credit or
for pairing. -/
structure Seam where
  paired     : Bool := false
  sessionKey : Bytes := []
  eastKey    : Bytes := []
  westPriv   : Nat := 0
  westPub    : Bytes := []
  westNonce  : Bytes := []
  eastPriv   : Nat := 0
  eastPub    : Bytes := []
  eastNonce  : Bytes := []
  confWest   : Bool := false
  confEast   : Bool := false
  txSeq      : Tab (BitVec 16) := []
  rxSeq      : Tab (BitVec 16) := []
  spent      : Tab Nat := []
  keyTxW2E   : Nat := 1
  keyRxW2E   : Nat := 1
  keyTxE2W   : Nat := 1
  keyRxE2W   : Nat := 1
  corrected  : Nat := 0
  tickets    : Nat := 0
  waiting    : List SeamTx := []
  w2e        : SeamWire := {}
  e2w        : SeamWire := {}
  zero       : Bool := false
  deriving DecidableEq, Repr

/-- Domain time (R24 to R27, R406 to R409): the West counter, the East follower's lag and hold, steering. -/
structure Time where
  now        : Nat := 0
  east       : Nat := 0
  hold       : Nat := 0
  steer      : Int := 0
  steerPhase : Nat := 0
  correction : Int := 0
  lastSync   : Nat := 0
  lastProbe  : Nat := 0
  root       : Nat := 0xFFFF
  parent     : Nat := 0xFF
  bound      : Nat := 0
  state      : Nat := 0
  rootSet    : Bool := false
  deriving DecidableEq, Repr

/-! ## Memory path -/

/-- A request at a target side that has not yet had its response (R456 to R463): phase 0 waits for data or for a
held chunk or page, 1 for `left` tag verdicts, 2 for earlier responses of its ID. -/
structure PortWait where
  req     : PortReq
  write   : Bool
  phase   : Nat
  data    : Bytes
  poison  : List Bool
  status  : Nat
  left    : Nat := 0
  wdata   : Bytes := []
  wbe     : List Bool := []
  arrival : Nat := 0
  deriving DecidableEq, Repr

/-- A verification ticket (R57): its task, its source (0 to 7 a capacity port, 64 + p a link port), how many lines
or frames joined, how many verdicts are out, sealed, failed. -/
structure Ticket where
  task    : Nat
  source  : Nat
  joined  : Nat
  waiting : Nat
  sealed  : Bool
  deriving DecidableEq, Repr

/-- A held write (R61): its task, request address, bytes and mark. -/
structure HeldWrite where
  task : Nat
  part : Nat
  addr : Word64
  data : Bytes
  mark : List Nat
  arrival : Nat := 0
  deriving DecidableEq, Repr

/-- A load-counter addition that waits for its mark (R171). -/
structure HeldCount where
  task   : Nat
  rgroup : Nat
  index  : Nat
  mark   : List Nat
  deriving DecidableEq, Repr

/-- An entry of the page-remap table (R72, R73). -/
structure RemapEntry where
  valid : Bool := false
  spare : Nat := 0
  page  : Nat := 0
  deriving DecidableEq, Repr

/-- An entry of the poison table (R397). -/
structure PoisonEntry where
  page : Nat
  mask : BitVec 64
  deriving DecidableEq, Repr

/-- A quarantined page (R393, R394). -/
structure Quarantine where
  page   : Nat
  since  : Nat
  origin : Nat
  hit    : List Nat
  shared : Bool
  deriving DecidableEq, Repr

/-- A traffic generator (R485 to R488): its registers, the unit it stands at, the PRBS31 state at that unit's start, the share of channel
cycles it has gathered toward the unit (64 for one pass), whether it stops at the next unit boundary. -/
structure Tgen where
  ctrl    : Word64 := 0x00000000FFFF0000#64
  range   : Word64 := 0
  running : Bool := false
  done    : Bool := false
  unit    : Nat := 0
  errors  : Nat := 0
  ue      : Nat := 0
  prbs    : BitVec 31 := 0
  errValid : Bool := false
  errAddr : Nat := 0
  credit  : Nat := 0
  stopping : Bool := false
  deriving DecidableEq, Repr

/-- An entry of the lantern buffer (R45): a sector's plaintext, with the partition and the key ID that brought it in. -/
structure BufEntry where
  part : Nat
  key  : Nat
  addr : Nat
  data : Bytes
  deriving DecidableEq, Repr

/-- A lantern (R45, R57 to R64, R72, R73, R105, R108, R139, R140, R360, R393, R397, R485, R517). `wickOf` holds
for a failed wick the logical one it served and the spare in its place, one added to each (0 none). -/
structure Lantern where
  ready       : Bool := false
  trained     : List Nat := []
  sparesUsed  : Nat := 0
  bypassSeen  : Bool := false
  tickets     : Tab Ticket := []
  held        : List HeldWrite := []
  heldCounts  : List HeldCount := []
  remap       : Tab RemapEntry := []
  poison      : List PoisonEntry := []
  quarantine  : List Quarantine := []
  ueLog       : List (Nat × Nat) := []
  wickMap     : Tab Nat := []
  failed      : List Nat := []
  wickOf      : List (Nat × Nat × Nat) := []
  withdrawn   : List Nat := []
  scratchLog  : List (Nat × Nat) := []
  selfTests   : Tab Nat := []
  incarnation : Nat := 0
  tgens       : Tab Tgen := []
  window      : Nat := 8192
  qlevel      : Nat := 0
  buffer      : List BufEntry := []
  store       : Tab Bytes := []
  deriving DecidableEq, Repr

/-- A metadata entry: counter and 80-bit tag (R48). -/
structure MetaEntry where
  counter : Nat
  tag     : Bytes
  deriving DecidableEq, Repr

/-- A line of the metadata cache: 4 entries from data line `4 * group` on (R54, R55). -/
structure MetaLine where
  group   : Nat
  entries : List MetaEntry
  dirty   : Bool
  deriving DecidableEq, Repr

/-- What a verdict decides (R55, R57, R462). -/
inductive VerdictFor where
  | ticket (lantern ticket : Nat)
  | port (port id : Nat)
  deriving DecidableEq, Repr

/-- A tag verdict that has not yet been delivered. -/
structure Verdict where
  target : VerdictFor
  pass   : Bool
  addr   : Word64
  part   : Nat
  deriving DecidableEq, Repr

/-- A capacity engine and its port (R48 to R56, R360, R470). -/
structure Capacity where
  refused  : Bool := false
  trained  : Bool := false
  cache    : List MetaLine := []
  verdicts : List Verdict := []
  window   : Nat := 1024
  qlevel   : Nat := 0
  through  : Bool := false
  deriving DecidableEq, Repr

/-- One unit's share of a rotation (R66 to R69): the unit, the segments of its local addresses in the range (start,
end), its watermark, whether the chunk at the watermark is being swept, whether the share is swept. -/
structure SweepUnit where
  unit      : MemUnit
  segs      : List (Nat × Nat)
  watermark : Nat
  open_     : Bool
  done      : Bool
  deriving DecidableEq, Repr

/-- A rotation (R65, R239). -/
structure Rotation where
  active  : Bool := false
  a       : Nat := 0
  b       : Nat := 0
  base    : Nat := 0
  length  : Nat := 0
  share   : Nat := 2
  owner   : Nat := 0
  aliased : Bool := false
  units   : List SweepUnit := []
  deriving DecidableEq, Repr

/-- Why a key ID is due for rotation (R53): the owner, the cause, and when the event last went out. -/
structure RotationDue where
  on    : Bool := false
  owner : Nat := 0
  cause : Nat := 0
  last  : Nat := 0
  deriving DecidableEq, Repr

/-- Memory (R34, R38, R48, R72): the ciphertext in the stacks and in the LPDDR5X packages, by stack and port
address (Machine/Ops.lean computes both); an unlisted byte reads 0. -/
structure Memory where
  stacked  : Tab Byte := []
  capacity : Tab Byte := []
  deriving DecidableEq, Repr

/-- The memory path of both halves. `arrivals` numbers the requests that may have to wait, in the order they arrive (R67). -/
structure MemPath where
  lanterns  : Tab Lantern := []
  caps      : Tab Capacity := []
  ports     : Tab (List PortWait) := []
  rotations : Tab Rotation := []
  due       : Tab RotationDue := []
  arrivals  : Nat := 0
  deriving DecidableEq, Repr

/-! ## Tables -/

/-- A loaded table (R85 to R89, R173): owner (0 to 15, 16 the manager), the image's digest, Stolaikor's copy of the content (the copy in
its own memory, R85; each lantern's table store holds its own), who holds a grant. -/
structure Table where
  loaded : Bool := false
  owner  : Nat := 0
  digest : Bytes := []
  image  : Bytes := []
  grants : List Nat := []
  deriving DecidableEq, Repr

/-- The table store: format entries, codebooks, curve tables, placement tables. -/
structure Tables where
  formats    : Tab Table := []
  codebooks  : Tab Table := []
  curves     : Tab Table := []
  placements : Tab Table := []
  deriving DecidableEq, Repr

/-! ## Partitions and their objects -/

/-- TDI states of R253. -/
inductive TdiState where
  | configUnlocked | configLocked | run | error
  deriving DecidableEq, Repr

/-- Partition states of R264. -/
inductive PartState where
  | absent | active | halted | resetting | destroying
  deriving DecidableEq, Repr

/-- A partition's definition: the 240 B request of R260 as it was admitted. -/
structure Partition where
  state     : PartState := .absent
  definition : Bytes := []
  tdi       : TdiState := .configUnlocked
  nonce     : Bytes := []
  stream    : Option Nat := none
  wicksLost : Tab Nat := []
  deriving DecidableEq, Repr

/-- A PASID entry (R267). -/
structure PasidEntry where
  bound : Bool := false
  part  : Nat := 0
  pasid : Nat := 0
  mask  : BitVec 64 := 0
  deriving DecidableEq, Repr

/-- Context counters (R268). -/
structure Context where
  wickCycles    : Nat := 0
  stackedRead   : Nat := 0
  stackedWrite  : Nat := 0
  capacityRead  : Nat := 0
  capacityWrite : Nat := 0
  fabricOut     : Nat := 0
  fabricIn      : Nat := 0
  objectBytes   : Nat := 0
  objects       : Nat := 0
  commands      : Nat := 0
  nanToInt      : Nat := 0
  saturated     : Nat := 0
  deriving DecidableEq, Repr

/-- Memory-object slot states of R276. -/
inductive ObjState where
  | free | live | revoked
  deriving DecidableEq, Repr

/-- A memory-object slot (R270 to R276). `bindings` counts what rests on it (R273). -/
structure ObjSlot where
  state     : ObjState := .free
  gen       : Nat := 1
  owner     : Nat := 0
  placement : Nat := 0
  mask      : BitVec 16 := 0
  key       : Nat := 0
  ctx       : Nat := 0
  length    : Nat := 0
  base      : Nat := 0
  inflight  : Nat := 0
  bindings  : Nat := 0
  deriving DecidableEq, Repr

/-- Fence slot states of R281. -/
inductive FenceState where
  | free | active | revoked
  deriving DecidableEq, Repr

/-- A fence slot (R277 to R281): `host` with the slice's queue, or a word in device memory inside `obj`. -/
structure FenceSlot where
  state   : FenceState := .free
  gen     : Nat := 1
  owner   : Nat := 0
  value   : Word64 := 0
  low     : Nat := 0
  late    : Nat := 0
  host    : Bool := false
  word    : Nat := 0
  obj     : Nat := 0
  hostQ   : Nat := 0xFF
  ctx     : Nat := 0
  naming  : Nat := 0
  deriving DecidableEq, Repr

/-- The counters of a partition page (R420). -/
structure PartCounters where
  retired    : Nat := 0
  failed     : Nat := 0
  missed     : Nat := 0
  stale      : Nat := 0
  malformed  : Nat := 0
  expired    : Nat := 0
  degraded   : Nat := 0
  shortRoute : Nat := 0
  noRoute    : Nat := 0
  traceLost  : Nat := 0
  doorbell   : Tab Nat := []
  dropped    : Tab Nat := []
  deriving DecidableEq, Repr

/-- Byte totals of R421. -/
structure Totals where
  stacked     : Nat := 0
  capacity    : Nat := 0
  fabricOut   : Nat := 0
  fabricIn    : Nat := 0
  sweep       : Nat := 0
  observation : Nat := 0
  deriving DecidableEq, Repr

/-- Partitions and what they own (index 16 is the manager where a table is by owner). -/
structure Parts where
  parts    : Tab Partition := []
  pasids   : Tab PasidEntry := []
  contexts : Tab Context := []
  objects  : Tab ObjSlot := []
  fences   : Tab FenceSlot := []
  counters : Tab PartCounters := []
  totals   : Tab Totals := []
  repairBytes  : Nat := 0
  dumpBytes    : Nat := 0
  captureBytes : Nat := 0
  deriving DecidableEq, Repr

/-! ## Mailboxes -/

/-- Mailbox slot states of R325. -/
inductive SlotState where
  | free | pending | done
  deriving DecidableEq, Repr

/-- A request slot: its state, the request as submitted, whether Stolaikor has started it, its place in submission order; in the
management mailbox the MCTP tag and endpoint ID its response goes to (R513). -/
structure MbSlot where
  state   : SlotState := .free
  request : Bytes := []
  started : Bool := false
  order   : Nat := 0
  mctpTag : Nat := 0
  mctpEid : Nat := 0
  deriving DecidableEq, Repr

/-- A mailbox (R324 to R327). `reqBytes` and `rspBytes` are the 1 KiB request and response regions; `events` the
512 B event ring. -/
structure Mailbox where
  reqBytes : Tab Byte := []
  rspBytes : Tab Byte := []
  slots    : Tab MbSlot := []
  major    : Nat := 0
  minor    : Nat := 0
  rspIrq   : Bool := false
  evIrq    : Bool := false
  events   : Tab Byte := []
  read     : BitVec 16 := 0
  write    : BitVec 16 := 0
  lost     : Nat := 0
  evSeq    : Nat := 0
  order    : Nat := 0
  deriving DecidableEq, Repr

/-- What a started mailbox request still waits for (R19, R335). -/
inductive WaitCond where
  | fence (slot gen : Nat) (target : Word64) (deadline : Nat)
  | eastKeys (message : Nat)
  | eastFetch (ticket kind index count : Nat)
  | eastDrop (ticket kind index count : Nat)
  | queueQuiet (qi : Nat)
  | pilotQuiet (pilot : Nat)
  | poolQuiet (pool : Nat)
  | keyDrain (slot : Nat)
  | grantDrain (slot part : Nat)
  | retireDrain (rot : Nat)
  | serverQuiet (server : Nat)
  | sweepOpen (rot : Nat)
  | curfewArmed
  | partQuiet (part : Nat) (destroy : Bool)
  | partKeys (part : Nat) (destroy : Bool)
  | partGone (part : Nat) (destroy : Bool) (message : Nat)
  deriving DecidableEq, Repr

/-- A mailbox request that waits: its slot, what for, and the payload it will reply with. -/
structure Waiting where
  mb      : Nat
  slot    : Nat
  cond    : WaitCond
  payload : Bytes
  deriving DecidableEq, Repr

/-- The 18 mailboxes and the settings of R340. -/
structure Mailboxes where
  boxes         : Tab Mailbox := []
  waiting       : List Waiting := []
  homeGib       : Nat := 0
  fabricTimeout : Nat := 100
  destUnits     : Nat := 64
  lineCap       : Nat := 2048
  hotThresh     : Nat := 256
  portRole      : Tab Nat := []
  reportTtl     : Nat := 300
  mctpDrops     : Nat := 0
  eid           : Nat := 0
  i3cAddr       : Nat := 0
  ibiEnabled    : Bool := false
  mwl           : Nat := 69
  mrl           : Nat := 69
  deriving DecidableEq, Repr

/-! ## Queues, commands, tasks, pilots -/

/-- Queue states of R306. -/
inductive QueueState where
  | absent | active | stopped | destroying
  deriving DecidableEq, Repr

/-- Where a dispatched command stands. -/
inductive CmdPhase where
  | running
  | ended (status : Nat)
  deriving DecidableEq, Repr

/-- A command that has passed the checks of R300 (R294 to R302): the 64 B command, its number in the queue, its phase,
the objects and fences it names, whether its engine has taken it (else it is held at dispatch), the task that runs it, its
progress in chunks or operations, the status its East engine ended with (`result`, `doneEast`), and `killed`, the status with which an earlier failure, a halt or a reset ends it (0: it
runs on). -/
structure InFlight where
  cmd      : Bytes
  serial   : Nat
  phase    : CmdPhase := .running
  objs     : List Nat := []
  fences   : List Nat := []
  started  : Bool := false
  task     : Option Nat := none
  next     : Nat := 0
  flying   : Nat := 0
  since    : Nat := 0
  result   : Nat := 0
  doneEast : Bool := false
  killed   : Nat := 0
  exch     : List (Nat × Nat) := []
  storing  : Bool := false
  deadline : Nat := 0
  east     : Bool := false
  taken    : Bool := false
  deriving DecidableEq, Repr

/-- A command that has passed the checks of R300 up to those of its type: the object slots, fences and object handles it names. -/
structure AtDispatch where
  cmd     : Bytes
  objs    : List Nat
  fences  : List Nat
  handles : List Nat := []
  deriving DecidableEq, Repr

/-- A queue (R287 to R307), at its FE_QUEUE index (R527). `discarded` holds commands that were fetched and never
dispatched with the status their fences will take; `endStatus` is what a destruction in progress gives them;
`fetchError` a failed fetch's status the register will take. -/
structure Queue where
  state      : QueueState := .absent
  part       : Nat := 0xFF
  q          : Nat := 0
  realtime   : Bool := false
  log2       : Nat := 6
  device     : Bool := false
  ring       : Word64 := 0
  ringObj    : Nat := 0
  cmirror    : Word64 := 0
  head       : Word32 := 0
  tail       : Word32 := 0
  sampled    : Word32 := 0
  rung       : Bool := false
  idle       : Bool := false
  fetching   : Nat := 0
  fetched    : List Bytes := []
  atDispatch : Option AtDispatch := none
  inflight   : List InFlight := []
  serial     : Nat := 0
  discarded  : List (Nat × Bytes) := []
  endStatus  : Nat := 0
  drain      : Bool := false
  fetchError : Nat := 0
  deriving DecidableEq, Repr

/-- A loop of a wick (R121): body bounds, iterations left, index, the argument slots at loop entry. -/
structure LoopFrame where
  first : Nat
  last  : Nat
  left  : Nat
  index : Nat
  saved : List Word64
  deriving DecidableEq, Repr

/-- What a wick waits at (R123): an explicit barrier of a scope and ID, or the implicit barrier of a descriptor. -/
inductive WickWait where
  | none
  | explicit (set : Bool) (id : Nat)
  | implicit (desc : Nat)
  deriving DecidableEq, Repr

/-- A wick of a task (R104, R105, R115 to R123): its physical number (256 where there is no wick), position, masks M0 to M7, loops, argument
slots, ACT, ACC, what it waits at, how often it has ended each descriptor, the words of ACT and ACC that are poison (space, word). -/
structure Wick where
  phys    : Nat := 256
  pc      : Nat := 0
  masks   : List Byte := [0xFF, 0xFF, 0xFF, 0xFF, 0xFF, 0xFF, 0xFF, 0xFF]
  loops   : List LoopFrame := []
  args    : List Word64 := []
  act     : Tab Byte := []
  acc     : Tab Byte := []
  waiting : WickWait := .none
  ended   : Bool := false
  aborting : Bool := false
  started : Bool := false
  ends    : Tab Nat := []
  poison  : List (Nat × Nat) := []
  deriving DecidableEq, Repr

/-- What a task runs for (R295, R308). -/
inductive TaskFor where
  | command (qi serial : Nat)
  | pilot (pi : Nat)
  deriving DecidableEq, Repr

/-- A dispatched task (R111 to R119, R134, R149, R168, R174): program, arguments, wick set, sheets by
`8 * lantern + sheet`, wicks by `256 * lantern + rank`, dependency sets by lantern, counters, batches, exchange records
of sheet data that have left and not yet landed (`256 * destination + source`, counter), and by lantern the tickets a read of it
waits to inherit (R59). -/
structure Task where
  live       : Bool := false
  purpose    : TaskFor := .pilot 0
  part       : Nat := 0
  ctx        : Nat := 0
  realtime   : Bool := false
  deadline   : Nat := 0
  header     : Bytes := []
  program    : List Bytes := []
  args       : List Word64 := []
  lanterns   : List Nat := []
  w          : Nat := 0
  sheetUnits : List Nat := []
  sheets     : Tab (Tab Byte) := []
  wicks      : Tab Wick := []
  deps       : Tab (List Nat) := []
  open_      : Tab Nat := []
  tables     : List (Nat × Nat) := []
  biasPins   : List (Nat × Nat) := []
  seqHold    : List Nat := []
  seqShare   : List Nat := []
  nanToInt   : Nat := 0
  saturated  : Nat := 0
  nanEast    : Nat := 0
  satEast    : Nat := 0
  acc        : Context := {}
  shortRoute : Nat := 0
  noRoute    : Nat := 0
  batches    : Tab Nat := []
  cancelled  : List Nat := []
  status     : Nat := 0
  failed     : Bool := false
  aborting   : Bool := false
  abortSent  : Bool := false
  eastGo     : Bool := false
  eastDone   : Bool := false
  reported   : Bool := false
  start      : Nat := 0
  exch       : List (Nat × Nat) := []
  wanted     : Tab (List Nat) := []
  shared     : Nat := 0
  shares     : List (Nat × Bytes) := []
  deriving DecidableEq, Repr

/-- Pilot states of R313. -/
inductive PilotState where
  | absent | waiting | running | failed | stopping
  deriving DecidableEq, Repr

/-- A pilot (R308 to R313). `owed` is a status its fence has yet to take (0: none). -/
structure Pilot where
  state    : PilotState := .absent
  part     : Nat := 0
  n        : Nat := 0
  ctx      : Nat := 0
  fence    : Nat := 0
  v0       : Nat := 0
  ring     : Word64 := 0
  ringObj  : Nat := 0
  log2     : Nat := 4
  items    : List Bytes := []
  current  : Option Bytes := none
  retired  : Nat := 0
  task     : Nat := 0
  drain    : Bool := false
  closed   : Bool := false
  objs     : List Nat := []
  owed     : Nat := 0
  deriving DecidableEq, Repr

/-- A queue's wait of R282 (WAIT commands); mailbox waits stand in Mailboxes.waiting. -/
structure QueueWait where
  qi       : Nat
  serial   : Nat
  fence    : Nat
  gen      : Nat
  target   : Word64
  deadline : Nat
  deriving DecidableEq, Repr

/-- The front end (R287 to R313). `completions` holds the completion registers, queue q of owner p at 64 p + q. -/
structure FrontEnd where
  queues     : Tab Queue := []
  waits      : List QueueWait := []
  tasks      : Tab Task := []
  nextTask   : Nat := 1
  pilots     : Tab Pilot := []
  rrNormal   : Nat := 0
  rrReal     : Nat := 0
  completions : Tab Word64 := []
  deriving DecidableEq, Repr

/-! ## Key-value cache -/

/-- A KV pool (R142, R143). -/
structure Pool where
  live      : Bool := false
  part      : Nat := 0
  elemFmt   : Nat := 0
  layers    : Nat := 0
  heads     : Nat := 0
  mask      : BitVec 16 := 0
  maxTokens : Nat := 0
  seqSlots  : Nat := 0
  key       : Nat := 0
  frames    : Nat := 0
  obj       : Nat := 0
  base      : Nat := 0
  used      : Tab (List Nat) := []
  closing   : Bool := false
  deriving DecidableEq, Repr

/-- Sequence states of R146. -/
inductive SeqState where
  | active | revoked | lost
  deriving DecidableEq, Repr

/-- A sequence (R145 to R149). -/
structure Sequence where
  live   : Bool := false
  gen    : Nat := 1
  part   : Nat := 0
  pool   : Nat := 0
  slot   : Nat := 0
  start  : Nat := 0
  c      : Nat := 0
  e      : Nat := 1
  d      : Nat := 0
  pages  : Tab Nat := []
  state  : SeqState := .active
  naming : Nat := 0
  deriving DecidableEq, Repr

/-- Pools and sequences (R142 to R164). -/
structure KvCache where
  pools : Tab Pool := []
  seqs  : Tab Sequence := []
  deriving DecidableEq, Repr

/-! ## Experts -/

/-- A routing group (R165, R166, R186, R188) of this device. `counts` is the leader's count area, `reported` its report
count; the load counters themselves stand in REGION. -/
structure RGroup where
  live      : Bool := false
  owner     : Nat := 0
  experts   : Nat := 0
  layers    : Nat := 0
  k         : Nat := 0
  placement : Nat := 0
  obj       : Nat := 0
  key       : Nat := 0
  offset    : Nat := 0
  leader    : Nat := 0
  members   : List Nat := []
  periodUs  : Nat := 10000
  gain      : Word32 := 0
  clamp     : Word32 := 0
  decay     : Word32 := 0
  waitUs    : Nat := 1000
  active    : Nat := 0
  epoch     : Nat := 0
  waitBlock : Bytes := []
  assembling : Bytes := []
  fetching  : Nat := 0
  periodEnd : Nat := 0
  reports   : List Nat := []
  counts    : Tab Nat := []
  reported  : Nat := 0
  computeAt : Nat := 0
  pending   : Bool := false
  grants    : List Nat := []
  deriving DecidableEq, Repr

/-- A pair of a batch in one lantern (R176, R182): its number, weight, the row blocks it still expects, the status
it was marked failed with. -/
structure PairState where
  pair   : Nat
  weight : Word32
  rows   : List (Nat × Nat)
  failed : Nat
  deriving DecidableEq, Repr

/-- State of one lantern's part of a combine slot (R183). -/
inductive PartOf where
  | open_ | complete | expired
  deriving DecidableEq, Repr

/-- One lantern's part of a combine slot. -/
structure SlotPart where
  lantern : Nat
  state   : PartOf
  pairs   : List PairState
  deriving DecidableEq, Repr

/-- Combine-slot states of R185. -/
inductive CombineState where
  | free | open_ | complete | expired
  deriving DecidableEq, Repr

/-- A combine slot (R174 to R185). -/
structure CombineSlot where
  state    : CombineState := .free
  gen      : Nat := 0
  part     : Nat := 0
  task     : Nat := 0
  batch    : Nat := 0
  deadline : Nat := 0
  width    : Nat := 0
  crb      : Nat := 0
  c        : Word32 := 0
  degrade  : Bool := false
  parts    : List SlotPart := []
  deriving DecidableEq, Repr

/-- A lane of a gather batch (R179, R180): where its answers go; whether its record has been sent to the slice's lanterns, the exchange
records still under way there, and whether one of them failed (R108). -/
structure LaneInfo where
  lane     : Nat
  origin   : Nat
  tag      : Word32
  pair     : Nat
  crb      : Nat
  width    : Nat
  deadline : Nat
  values   : Bytes
  under    : List (Nat × Nat) := []
  sent     : Bool := false
  lost     : Bool := false
  deriving DecidableEq, Repr

/-- A slice of an expert server: its pilot, the instance bound, the lanes that joined, the window's end, whether its batch is closed and
whether its item has been posted (the lanes then stand until the item retires). -/
structure Slice where
  pilot    : Nat := 0
  bound    : Option Nat := none
  lanes    : List LaneInfo := []
  window   : Nat := 0
  closing  : Bool := false
  posted   : Bool := false
  deriving DecidableEq, Repr

/-- An expert server (R178 to R181). -/
structure Server where
  live      : Bool := false
  part      : Nat := 0
  slices    : List Slice := []
  inRef     : Word32 := 0
  cnt       : Nat := 0
  gatherNs  : Nat := 0
  instances : List Word64 := []
  drain     : Bool := false
  closing   : Bool := false
  dropped   : Nat := 0
  deriving DecidableEq, Repr

/-- A whole record that landed in an ARRIVAL or COMBINE window and waits for its unit (R179, R182, R197): an answer's exchange records to
its lantern that are still under way (R108), and when it landed. -/
structure RxRecord where
  port    : Nat
  src     : Nat
  arrival : Bool
  server  : Nat
  part    : Nat
  bytes   : Bytes
  frames  : List Nat
  under   : List (Nat × Nat) := []
  landed  : Nat := 0
  deriving DecidableEq, Repr

/-- Pieces of a record still arriving: source half, window, the offset of the next piece, bytes so far, frames whose verdict is out, and
whether it has outgrown 65,536 B (R197). -/
structure RxPartial where
  port   : Nat
  src    : Nat
  shalf  : Nat
  window : Nat
  next   : Nat
  bytes  : Bytes := []
  frames : List Nat := []
  spoilt : Bool := false
  deriving DecidableEq, Repr

/-- Expert routing on this device. -/
structure Experts where
  groups   : Tab RGroup := []
  slots    : Tab CombineSlot := []
  servers  : Tab Server := []
  records  : List RxRecord := []
  partials : List RxPartial := []
  exchRx   : Tab (Nat × Nat) := []
  exchTx   : Tab Nat := []
  exchPart : Tab Bytes := []
  deriving DecidableEq, Repr

/-! ## Fabric -/

/-- Link port states of LK_STATUS (R215). -/
inductive LinkState where
  | down | trained | handshake | up | failed
  deriving DecidableEq, Repr

/-- A link port (R191, R196, R209 to R216, R472). Keys: current and next of each direction, an absent one empty;
`session` and `rxSession` are the sessions whose keys each direction uses, `newSession` the newest established. -/
structure Link where
  state     : LinkState := .down
  trained   : Bool := false
  step      : Nat := 0
  peer      : Nat := 0xFFFF
  peerPort  : Nat := 0
  major     : Nat := 0
  minor     : Nat := 0
  requester : Bool := false
  session   : Word32 := 0
  rxSession : Word32 := 0
  newSession : Word32 := 0
  master    : Bytes := []
  rootOk    : Bool := false
  transcript : Bytes := []
  txKey     : Bytes := []
  txNext    : Bytes := []
  rxKey     : Bytes := []
  rxNext    : Bytes := []
  txGen     : Nat := 0
  rxGen     : Nat := 0
  txCtr     : Nat := 0
  rxCtr     : Nat := 0
  genStart  : Nat := 0
  rollDeferred : Bool := false
  tagFail   : Bool := false
  renewing  : Bool := false
  offset    : Int := 0
  bound     : Nat := 0
  probes    : Nat := 0
  samples   : List (Nat × Int) := []
  failStep  : Nat := 0
  failStatus : Nat := 0
  failedAt  : Nat := 0
  dropped   : Nat := 0
  resets    : Nat := 0
  loopback  : Bool := false
  deriving DecidableEq, Repr

/-- A routing-table entry as the raw 64-bit value (R190). -/
abbrev RouteEntry := Word64

/-- An exported window (R202), as its 32 B entry with its object. -/
structure Window where
  entry : Bytes := []
  obj   : Nat := 0
  deriving DecidableEq, Repr

/-- Who issued a fabric operation (R206, R298). -/
inductive Issuer where
  | command (qi serial : Nat)
  | dispatch (slot rank : Nat) (pairs : List Nat)
  | answer (pi : Nat)
  | trace (half : Nat)
  | stolaikor (g : Nat)
  | multicast (port node txn : Nat)
  deriving DecidableEq, Repr

/-- An outstanding operation (R218 to R222): the frame's operation and operands, so that it can be sent again. -/
structure OutOp where
  used    : Bool := false
  gen     : Nat := 0
  issuer  : Issuer := .stolaikor 0
  op      : Nat := 0
  sub     : Nat := 0
  flags   : Nat := 0
  dst     : Nat := 0
  offset  : Nat := 0
  len     : Nat := 0
  spart   : Nat := 0xFF
  data    : Bytes := []
  local_  : Nat := 0
  units   : Nat := 0
  sent    : Option Nat := none
  port    : Nat := 0xFF
  refused : Bool := false
  status  : Nat := 0
  order   : Nat := 0
  ver     : Nat := 0
  group   : Nat := 0
  deriving DecidableEq, Repr

/-- Credit of an operation that ended without its response: its entry and generation, its destination and units (R218, R219). -/
structure OwedCredit where
  entry : Nat
  gen   : Nat
  dst   : Nat
  units : Nat
  deriving DecidableEq, Repr

/-- An operation a target half has accepted and not yet applied (R220): the port it came by, its header and plaintext, the window it was
admitted by. -/
structure Inbound where
  port    : Nat
  header  : Bytes
  payload : Bytes
  win     : Window := {}
  arrival : Nat := 0
  deriving DecidableEq, Repr

/-- Backoff toward a destination (R221). -/
structure Backoff where
  active   : Bool := false
  value    : Nat := 1000
  until_   : Nat := 0
  deriving DecidableEq, Repr

/-- A line of the combining buffer (R224): plaintext, key ID and the time of its last operation. -/
structure CombLine where
  line  : Nat
  key   : Nat
  part  : Nat
  data  : Bytes
  last  : Nat
  dirty : Bool
  deriving DecidableEq, Repr

/-- TXNs waiting to be acknowledged together (R198). -/
structure AckWait where
  node  : Nat
  shalf : Nat
  txns  : List Nat
  since : Nat
  deriving DecidableEq, Repr

/-- A BULK container being filled (R226). -/
structure BulkWait where
  port    : Nat
  via     : Nat
  payload : Bytes
  since   : Nat
  deriving DecidableEq, Repr

/-- The hot-line latch of a half (R225): the register, operation times by line, last event by line. -/
structure HotLine where
  valid  : Bool := false
  count  : Nat := 0
  line   : Nat := 0
  ops    : List (Nat × Nat) := []
  events : Tab Nat := []
  deriving DecidableEq, Repr

/-- Replay entry (R213). -/
structure Replay where
  cur  : Nat := 0
  prev : Nat := 0
  deriving DecidableEq, Repr

/-- The link complex of one half. -/
structure LinkHalf where
  routes    : Tab RouteEntry := []
  groups    : Tab Bytes := []
  replay    : Tab Replay := []
  ops       : Tab OutOp := []
  owed      : List OwedCredit := []
  order     : Nat := 0
  stampTime : Nat := 0
  stampSeq  : Nat := 0
  inbound   : List Inbound := []
  refusing  : List Nat := []
  backoffs  : Tab Backoff := []
  comb      : List CombLine := []
  acks      : List AckWait := []
  bulks     : List BulkWait := []
  hot       : HotLine := {}
  late      : Nat := 0
  sealedFail : Nat := 0
  replayDrop : Nat := 0
  deriving DecidableEq, Repr

/-- A multicast this node replicates and has not yet acknowledged upstream (R201). -/
structure McastWait where
  node  : Nat
  shalf : Nat
  txn   : Nat
  left  : Nat
  deriving DecidableEq, Repr

/-- A frame verdict not yet delivered (R62, R205): the frame's header and the tickets its bytes joined. -/
structure FrameVerdict where
  id      : Nat
  port    : Nat
  pass    : Bool
  tickets : List (Nat × Nat)
  header  : Bytes
  deriving DecidableEq, Repr

/-- Domain membership and the fabric of the device (R189 to R227, R245 to R248). -/
structure Fabric where
  links     : Tab Link := []
  west      : LinkHalf := {}
  east      : LinkHalf := {}
  windows   : Tab Window := []
  owners    : Tab Nat := []
  mcasts    : List McastWait := []
  verdicts  : List FrameVerdict := []
  nextVerdict : Nat := 1
  domState  : Nat := 0
  domId     : Bytes := []
  node      : Nat := 0xFFFF
  trust     : List Bytes := []
  epoch     : Nat := 0
  sendEpoch : Nat := 0
  prevEpoch : Nat := 0
  havePrev  : Bool := false
  haveCur   : Bool := false
  linkKeys  : Tab Bytes := []
  deriving DecidableEq, Repr

/-! ## Regulation, faults, trace, curfew -/

/-- A regulated resource (R351 to R363, R370): F factors in 1/1024, availability in 0.1 %. -/
structure Resource where
  avail     : Nat := 0
  fNormal   : Nat := 0x400
  fRt       : Nat := 0x400
  derated   : Bool := false
  bgShed    : Bool := false
  inReset   : Bool := false
  since     : Option Nat := none
  lastEvent : Option Nat := none
  measured  : Nat := 0
  deriving DecidableEq, Repr

/-- The regulator (R351 to R370). `plan` and `ctrl` are RG_PLAN and RG_CTRL; power figures in mW. -/
structure Regulator where
  resources : Tab Resource := []
  plan      : Word64 := 0x000000003D4E1398#64
  ctrl      : Word64 := 0x00000000000007D0#64
  cap       : Nat := 0
  throttle  : Nat := 64
  estimates : List Nat := []
  pEst      : Nat := 0
  unmet     : Bool := false
  unmetNow  : Bool := false
  overSince : Option Nat := none
  missed    : Tab Nat := []
  urgent    : Tab Nat := []
  missedRes : Tab Nat := []
  lastEval  : Nat := 0
  lastPower : Nat := 0
  deriving DecidableEq, Repr

/-- A fault record (R373). `err` numbers the detected error it belongs to, so that the records of one error find
their common ORIGIN on arrival in the West store. -/
structure FaultRec where
  severity : Nat
  cls      : Nat
  flags    : Byte
  kind     : Nat
  inst     : Nat
  sub      : Nat
  status   : Nat
  part     : Nat
  master   : Nat
  access   : Nat
  time     : Nat
  addr     : Word64
  masterId : Nat
  count    : Nat
  seq      : Nat
  origin   : Nat
  err      : Nat
  detail   : Bytes
  deriving DecidableEq, Repr

/-- An armed injection (R381). -/
structure Injection where
  cls   : Nat
  kind  : Nat
  inst  : Nat
  mode  : Nat
  sub   : Nat
  count : Nat
  addr  : Word64
  deriving DecidableEq, Repr

/-- Where a snuff stands (R388, R389): due, fenced in each half, draining since, timed out, its domain cleared. -/
structure Snuff where
  due      : Bool := false
  fencedW  : Bool := false
  fencedE  : Bool := false
  draining : Bool := false
  since    : Nat := 0
  timedOut : Bool := false
  cleared  : Bool := false
  keyMessage : Nat := 0
  deriving DecidableEq, Repr

/-- The crash dump's state (R399 to R403). -/
structure Dump where
  state    : Nat := 0
  lantern  : Nat := 0
  cls      : Nat := 0
  seq      : Nat := 0
  time     : Nat := 0
  address  : Word64 := 0
  length   : Nat := 0
  deriving DecidableEq, Repr

/-- The fault hubs and recovery (R372 to R405). `since` counts the faults of a class at a source since its last
acknowledgement (key class * 65536 + kind * 256 + instance); `injected` lists the classes of injected check failures that have no
record yet; `blockDue` holds a due block reset: its FH_LAST_RESET
type. -/
structure Faults where
  records   : List FaultRec := []
  linkStore : List FaultRec := []
  seq       : Nat := 0
  lost      : Nat := 0
  since     : Tab Nat := []
  errs      : Nat := 0
  origins   : Tab Nat := []
  classCnt  : Tab Nat := []
  levelCnt  : Tab Nat := []
  levels    : Tab Nat := []
  eastBuf   : List FaultRec := []
  eastHold  : Tab FaultRec := []
  eastDrop  : List Nat := []
  inject    : List Injection := []
  injected  : List Nat := []
  dumpOnUnit : Bool := true
  injectEn  : Bool := false
  lastReset : Word64 := 0
  lastTime  : Nat := 0
  dumpReg   : Word64 := 0
  repairLo  : Tab Word64 := []
  repairHi  : Tab Word64 := []
  dump      : Dump := {}
  snuffs    : Tab Snuff := []
  blockDue  : Option Nat := none
  blockDump : Bool := false
  cause     : Option FaultRec := none
  terminalDue : Bool := false
  terminal  : Bool := false
  inBlockReset : Bool := false
  deriving DecidableEq, Repr

/-- A sub-buffer of a trace buffer (R414 to R418). `owed` holds the LOSS records it has yet to write: source, reason,
count, first time. -/
structure SubBuffer where
  state     : Nat := 0
  write     : Nat := 0
  trigTime  : Nat := 0
  trigWrite : Nat := 0
  stop      : Nat := 0
  loss      : Tab Nat := []
  sampled   : Nat := 0
  owed      : List (Nat × Nat × Nat × Nat) := []
  deriving DecidableEq, Repr

/-- A trace buffer's configuration (R425) and its two sub-buffers. -/
structure TraceBuf where
  owner    : Option Nat := none
  policy   : Nat := 0
  obj      : Nat := 0
  remote   : Bool := false
  offset   : Nat := 0
  length   : Nat := 0
  post     : Nat := 0
  types    : Nat := 0
  maskW    : Word64 := 0
  maskE    : Word64 := 0
  sample   : Nat := 1
  ctx      : Nat := 0xFFFF
  cond     : Nat := 0
  arg      : Nat := 0
  fired    : Bool := false
  west     : SubBuffer := {}
  east     : SubBuffer := {}
  deriving DecidableEq, Repr

/-- A tensor watch (R422). -/
structure Watch where
  on    : Bool := false
  owner : Nat := 0
  ctx   : Nat := 0
  desc  : Nat := 0
  every : Nat := 1
  buf   : Nat := 0
  count : Tab Nat := []
  deriving DecidableEq, Repr

/-- A trace record waiting in a staging FIFO (R412, R419): its bytes, source index, the tickets it waits for. -/
structure StagedRec where
  bytes  : Bytes
  source : Nat
  part   : Nat
  ctx    : Nat
  lantern : Nat
  mark   : List Nat
  deriving DecidableEq, Repr

/-- What a trace unit has been told of and not yet looked at: an event delivered to a mailbox, a fault record stored. -/
inductive Noticed where
  | event (mb code time : Nat)
  | fault (r : FaultRec)
  deriving DecidableEq, Repr

/-- The trace units (R410 to R425). `remote` holds bytes for remote buffers that wait for the link engines: buffer, half,
offset in the buffer, whether it is a header, the bytes. -/
structure Trace where
  bufs     : Tab TraceBuf := []
  watches  : Tab Watch := []
  fifoW    : List StagedRec := []
  fifoE    : List StagedRec := []
  lostW    : Nat := 0
  lostE    : Nat := 0
  spentW   : Tab Nat := []
  spentE   : Tab Nat := []
  spentPort : Tab Nat := []
  noticed  : List Noticed := []
  remote   : List (Nat × Nat × Nat × Bool × Bytes) := []
  deriving DecidableEq, Repr

/-- A frame captured during a curfew (R428, R429). -/
structure Captured where
  port  : Nat
  cls   : Nat
  frame : Frame
  plain : Bytes
  spill : Nat
  deriving DecidableEq, Repr

/-- A fence write the front end holds through a curfew (R427): its owner, whether the word is the host's, the slice's
queue, the address, the value. -/
structure FenceWrite where
  owner : Nat
  host  : Bool
  queue : Nat
  addr  : Nat
  value : Word64
  deriving DecidableEq, Repr

/-- Curfew (R426 to R432). -/
structure Curfew where
  state      : Nat := 0
  t          : Nat := 0
  dawn       : Nat := 0
  maxDawn    : Nat := 0
  area       : Nat := 0
  armedW     : Bool := false
  armedE     : Bool := false
  stopped    : List Island := []
  eastStop   : Bool := false
  inForce    : Bool := false
  captured   : List Captured := []
  spillAt    : Nat := 0
  inFlight   : Nat := 0
  outside    : Nat := 0
  postDawn   : Nat := 0
  incomplete : Bool := false
  blockedPorts : List Nat := []
  heldWrites : List FenceWrite := []
  deriving DecidableEq, Repr

/-! ## Ports and debug -/

/-- A key operation for the IDE key port (R480): PROG 0, GO 1, STOP 2, with the key and initial IV of a PROG; whether the
TSM asked for it and is answered. -/
structure IdeRequest where
  op    : Nat
  which : IdeOp
  tsm   : Bool
  key   : Bytes := []
  iv    : Bytes := []
  deriving DecidableEq, Repr

/-- The IDE key port (R254, R480, R481): the operation outstanding, since when, those that wait for it, the zeroise-all signal; and what
Stolaikor knows of the streams: the key sets the controller holds keys of, those that are started. -/
structure IdePort where
  current    : Option IdeRequest := none
  since      : Nat := 0
  waiting    : List IdeRequest := []
  zeroiseAll : Bool := true
  programmed : List IdeOp := []
  started    : List IdeOp := []
  deriving DecidableEq, Repr

/-- What the last DEBUG_ACCESS of a half left to be captured (R514). -/
structure DebugResult where
  done  : Bool := false
  error : Bool := false
  data  : Word64 := 0
  deriving DecidableEq, Repr

/-- A wick that a debugger holds (R514): its lantern and physical number and, for one step, how many descriptors it had ended. -/
structure HeldWick where
  l    : Nat
  phys : Nat
  step : Option Nat
  deriving DecidableEq, Repr

/-- The test access ports of the two halves (R514, R515): instruction registers, DENIED counts, results, whether the Lamplighter is
halted and what was written to its memory since, the wicks held, the categories East knows to be open. -/
structure DebugPorts where
  irW      : Byte := 0x01
  irE      : Byte := 0x01
  deniedW  : Nat := 0
  deniedE  : Nat := 0
  resultW  : DebugResult := {}
  resultE  : DebugResult := {}
  llHalted : Bool := false
  llMem    : List (Nat × Word64) := []
  wickHalt : List HeldWick := []
  eastNow  : Byte := 0
  deriving DecidableEq, Repr

/-- Everything that leaves the block or crosses inside it to another agent, oldest first: seam messages, sealed
records, port responses and requests, frames, interrupt pulses, replies. -/
inductive Out where
  | seam (header : Word64) (m : SeamTx)
  | dispatch (counter : Nat) (sealed tag : Bytes)
  | report (counter : Nat) (sealed tag : Bytes)
  | exchange (m : ExchangeMsg)
  | transit (toEast : Bool) (port counter : Nat) (sealed tag : Bytes)
  | readResponse (port id status : Nat) (data : Bytes) (poison : List Bool)
  | writeResponse (port id status : Nat)
  | hostWrite (part : Nat) (pasid : Option Nat) (addr : Word64) (data : Bytes)
  | hostRead (part : Nat) (pasid : Option Nat) (addr : Word64) (length : Nat)
  | frame (port : Nat) (f : Frame)
  | irq (bit : Nat)
  | regData (data : Word64)
  | ide (r : IdeRequest)
  | ideAnswer (ok : Bool)
  | tdispNonce (nonce : Bytes)
  | tdispAnswer (ok : Bool)
  | mctp (eid tag : Nat) (body : Bytes)
  | ibi
  | endpointId (ok : Bool) (eid : Nat)
  | i3c (value : Nat)
  | spdm (port : Nat) (step : Nat)
  | efpConfirm (port self peer version : Nat) (domain : Bytes) (epoch : Nat) (mac : Bytes)
  | portReset (port : Nat)
  | retrain (l : Nat)
  | jtag (half : Nat) (value : Nat)
  deriving DecidableEq, Repr

/-- A message waiting at an endpoint (R465). -/
structure EndpointMsg where
  dest     : Nat
  source   : Nat
  endpoint : Nat
  payload  : Bytes
  deriving DecidableEq, Repr

/-- The state of the block. `pending` is the queue of commands that wait, first in, first out. `free` counts the
free values drawn so far (the model's own field: Config applies its free values to it). -/
structure State where
  pending   : List Instr
  free      : Nat
  build     : Build
  trust     : Trust
  lc        : LifeCycle
  flash     : Flash
  ll        : Lamplighter
  keys      : Keys
  seam      : Seam
  time      : Time
  mem       : Memory
  path      : MemPath
  tables    : Tables
  parts     : Parts
  boxes     : Mailboxes
  fe        : FrontEnd
  kv        : KvCache
  experts   : Experts
  fabric    : Fabric
  reg       : Regulator
  faults    : Faults
  trace     : Trace
  curfew    : Curfew
  ide       : IdePort
  jtag      : DebugPorts
  inbox     : List EndpointMsg
  out       : List Out
  deriving DecidableEq, Repr

/-- No meaning of this model stops with a fault: the block reports its faults in its own fault store, and every
request it turns away is answered. `stuck` would stop a step that has no next state; nothing raises it, and it is safe. -/
inductive Fault where
  | stuck (what : String)
  deriving DecidableEq, Repr

/-- `notModelled` is raised by an arm of exec whose command has no meaning yet; safe, since the run stops. -/
inductive Refusal where
  | notModelled (mnemonic : String)
  deriving DecidableEq, Repr

/-- The block with VBAT applied for the first time and PWR_OK low: every field at the value the spec gives it for
reset, or the value its log entry names. -/
def State.reset : State where
  pending := []
  free := 0
  build := {}
  trust := {}
  lc := {}
  flash := {}
  ll := {}
  keys := {}
  seam := {}
  time := {}
  mem := {}
  path := {}
  tables := {}
  parts := {}
  boxes := {}
  fe := {}
  kv := {}
  experts := {}
  fabric := {}
  reg := {}
  faults := {}
  trace := {}
  curfew := {}
  ide := {}
  jtag := {}
  inbox := []
  out := []

end Sys2Proof.Machine
end

