-- ==== Sys2Proof/Machine/Access.lean ====
section
/-! DEFINITION. The readers and writers of every part of the state: one per component and one trio per table. -/
namespace Sys2Proof.Machine

/-- The state with `f` applied to its `keys`. -/
def onKeys (f : Keys → Keys) (s : State) : State := { s with keys := f s.keys }

/-- The state with `f` applied to its `trust`. -/
def onTrust (f : Trust → Trust) (s : State) : State := { s with trust := f s.trust }

/-- The state with `f` applied to its `lc`. -/
def onLc (f : LifeCycle → LifeCycle) (s : State) : State := { s with lc := f s.lc }

/-- The state with `f` applied to its `flash`. -/
def onFlash (f : Flash → Flash) (s : State) : State := { s with flash := f s.flash }

/-- The state with `f` applied to its `ll`. -/
def onLl (f : Lamplighter → Lamplighter) (s : State) : State := { s with ll := f s.ll }

/-- The state with `f` applied to its `seam`. -/
def onSeam (f : Seam → Seam) (s : State) : State := { s with seam := f s.seam }

/-- The state with `f` applied to its `time`. -/
def onTime (f : Time → Time) (s : State) : State := { s with time := f s.time }

/-- The state with `f` applied to its `mem`. -/
def onMem (f : Memory → Memory) (s : State) : State := { s with mem := f s.mem }

/-- The state with `f` applied to its `path`. -/
def onPath (f : MemPath → MemPath) (s : State) : State := { s with path := f s.path }

/-- The state with `f` applied to its `tables`. -/
def onTables (f : Tables → Tables) (s : State) : State := { s with tables := f s.tables }

/-- The state with `f` applied to its `parts`. -/
def onParts (f : Parts → Parts) (s : State) : State := { s with parts := f s.parts }

/-- The state with `f` applied to its `boxes`. -/
def onBoxes (f : Mailboxes → Mailboxes) (s : State) : State := { s with boxes := f s.boxes }

/-- The state with `f` applied to its `fe`. -/
def onFe (f : FrontEnd → FrontEnd) (s : State) : State := { s with fe := f s.fe }

/-- The state with `f` applied to its `kv`. -/
def onKv (f : KvCache → KvCache) (s : State) : State := { s with kv := f s.kv }

/-- The state with `f` applied to its `experts`. -/
def onExperts (f : Experts → Experts) (s : State) : State := { s with experts := f s.experts }

/-- The state with `f` applied to its `fabric`. -/
def onFabric (f : Fabric → Fabric) (s : State) : State := { s with fabric := f s.fabric }

/-- The state with `f` applied to its `reg`. -/
def onReg (f : Regulator → Regulator) (s : State) : State := { s with reg := f s.reg }

/-- The state with `f` applied to its `faults`. -/
def onFaults (f : Faults → Faults) (s : State) : State := { s with faults := f s.faults }

/-- The state with `f` applied to its `trace`. -/
def onTrace (f : Trace → Trace) (s : State) : State := { s with trace := f s.trace }

/-- The state with `f` applied to its `curfew`. -/
def onCurfew (f : Curfew → Curfew) (s : State) : State := { s with curfew := f s.curfew }

/-- The state with `f` applied to its `ide`. -/
def onIde (f : IdePort → IdePort) (s : State) : State := { s with ide := f s.ide }

/-- The state with `f` applied to its `jtag`. -/
def onJtag (f : DebugPorts → DebugPorts) (s : State) : State := { s with jtag := f s.jtag }

/-- Key slot `k`. -/
def slotAt (s : State) (k : Nat) : KeySlot := tget {} s.keys.slots k

/-- Key slot `k` set to `v`. -/
def setSlot (k : Nat) (v : KeySlot) (s : State) : State :=
  onKeys (fun x => { x with slots := tset {} x.slots k v }) s

/-- `f` applied to key slot `k`. -/
def modSlot (k : Nat) (f : KeySlot → KeySlot) (s : State) : State := setSlot k (f (slotAt s k)) s

/-- Slot of the East key mirror `k`. -/
def mirrorAt (s : State) (k : Nat) : MirrorSlot := tget {} s.keys.mirror k

/-- Slot of the East key mirror `k` set to `v`. -/
def setMirror (k : Nat) (v : MirrorSlot) (s : State) : State :=
  onKeys (fun x => { x with mirror := tset {} x.mirror k v }) s

/-- `f` applied to slot of the East key mirror `k`. -/
def modMirror (k : Nat) (f : MirrorSlot → MirrorSlot) (s : State) : State := setMirror k (f (mirrorAt s k)) s

/-- Lantern `k`. -/
def lanternAt (s : State) (k : Nat) : Lantern := tget {} s.path.lanterns k

/-- Lantern `k` set to `v`. -/
def setLantern (k : Nat) (v : Lantern) (s : State) : State :=
  onPath (fun x => { x with lanterns := tset {} x.lanterns k v }) s

/-- `f` applied to lantern `k`. -/
def modLantern (k : Nat) (f : Lantern → Lantern) (s : State) : State := setLantern k (f (lanternAt s k)) s

/-- Capacity engine `k`. -/
def capAt (s : State) (k : Nat) : Capacity := tget {} s.path.caps k

/-- Capacity engine `k` set to `v`. -/
def setCap (k : Nat) (v : Capacity) (s : State) : State :=
  onPath (fun x => { x with caps := tset {} x.caps k v }) s

/-- `f` applied to capacity engine `k`. -/
def modCap (k : Nat) (f : Capacity → Capacity) (s : State) : State := setCap k (f (capAt s k)) s

/-- Rotation `k`. -/
def rotationAt (s : State) (k : Nat) : Rotation := tget {} s.path.rotations k

/-- Rotation `k` set to `v`. -/
def setRotation (k : Nat) (v : Rotation) (s : State) : State :=
  onPath (fun x => { x with rotations := tset {} x.rotations k v }) s

/-- `f` applied to rotation `k`. -/
def modRotation (k : Nat) (f : Rotation → Rotation) (s : State) : State := setRotation k (f (rotationAt s k)) s

/-- Format entry `k`. -/
def formatAt (s : State) (k : Nat) : Table := tget {} s.tables.formats k

/-- Format entry `k` set to `v`. -/
def setFormat (k : Nat) (v : Table) (s : State) : State :=
  onTables (fun x => { x with formats := tset {} x.formats k v }) s

/-- `f` applied to format entry `k`. -/
def modFormat (k : Nat) (f : Table → Table) (s : State) : State := setFormat k (f (formatAt s k)) s

/-- Codebook `k`. -/
def codebookAt (s : State) (k : Nat) : Table := tget {} s.tables.codebooks k

/-- Codebook `k` set to `v`. -/
def setCodebook (k : Nat) (v : Table) (s : State) : State :=
  onTables (fun x => { x with codebooks := tset {} x.codebooks k v }) s

/-- `f` applied to codebook `k`. -/
def modCodebook (k : Nat) (f : Table → Table) (s : State) : State := setCodebook k (f (codebookAt s k)) s

/-- Curve table `k`. -/
def curveAt (s : State) (k : Nat) : Table := tget {} s.tables.curves k

/-- Curve table `k` set to `v`. -/
def setCurve (k : Nat) (v : Table) (s : State) : State :=
  onTables (fun x => { x with curves := tset {} x.curves k v }) s

/-- `f` applied to curve table `k`. -/
def modCurve (k : Nat) (f : Table → Table) (s : State) : State := setCurve k (f (curveAt s k)) s

/-- Placement table `k`. -/
def placementAt (s : State) (k : Nat) : Table := tget {} s.tables.placements k

/-- Placement table `k` set to `v`. -/
def setPlacement (k : Nat) (v : Table) (s : State) : State :=
  onTables (fun x => { x with placements := tset {} x.placements k v }) s

/-- `f` applied to placement table `k`. -/
def modPlacement (k : Nat) (f : Table → Table) (s : State) : State := setPlacement k (f (placementAt s k)) s

/-- Partition `k`. -/
def partAt (s : State) (k : Nat) : Partition := tget {} s.parts.parts k

/-- Partition `k` set to `v`. -/
def setPart (k : Nat) (v : Partition) (s : State) : State :=
  onParts (fun x => { x with parts := tset {} x.parts k v }) s

/-- `f` applied to partition `k`. -/
def modPart (k : Nat) (f : Partition → Partition) (s : State) : State := setPart k (f (partAt s k)) s

/-- PASID entry `k`. -/
def pasidAt (s : State) (k : Nat) : PasidEntry := tget {} s.parts.pasids k

/-- PASID entry `k` set to `v`. -/
def setPasid (k : Nat) (v : PasidEntry) (s : State) : State :=
  onParts (fun x => { x with pasids := tset {} x.pasids k v }) s

/-- `f` applied to PASID entry `k`. -/
def modPasid (k : Nat) (f : PasidEntry → PasidEntry) (s : State) : State := setPasid k (f (pasidAt s k)) s

/-- Context `k`. -/
def contextAt (s : State) (k : Nat) : Context := tget {} s.parts.contexts k

/-- Context `k` set to `v`. -/
def setContext (k : Nat) (v : Context) (s : State) : State :=
  onParts (fun x => { x with contexts := tset {} x.contexts k v }) s

/-- `f` applied to context `k`. -/
def modContext (k : Nat) (f : Context → Context) (s : State) : State := setContext k (f (contextAt s k)) s

/-- Memory-object slot `k`. -/
def objAt (s : State) (k : Nat) : ObjSlot := tget {} s.parts.objects k

/-- Memory-object slot `k` set to `v`. -/
def setObj (k : Nat) (v : ObjSlot) (s : State) : State :=
  onParts (fun x => { x with objects := tset {} x.objects k v }) s

/-- `f` applied to memory-object slot `k`. -/
def modObj (k : Nat) (f : ObjSlot → ObjSlot) (s : State) : State := setObj k (f (objAt s k)) s

/-- Fence slot `k`. -/
def fenceAt (s : State) (k : Nat) : FenceSlot := tget {} s.parts.fences k

/-- Fence slot `k` set to `v`. -/
def setFence (k : Nat) (v : FenceSlot) (s : State) : State :=
  onParts (fun x => { x with fences := tset {} x.fences k v }) s

/-- `f` applied to fence slot `k`. -/
def modFence (k : Nat) (f : FenceSlot → FenceSlot) (s : State) : State := setFence k (f (fenceAt s k)) s

/-- Counters of an owner `k`. -/
def countersAt (s : State) (k : Nat) : PartCounters := tget {} s.parts.counters k

/-- Counters of an owner `k` set to `v`. -/
def setCounters (k : Nat) (v : PartCounters) (s : State) : State :=
  onParts (fun x => { x with counters := tset {} x.counters k v }) s

/-- `f` applied to counters of an owner `k`. -/
def modCounters (k : Nat) (f : PartCounters → PartCounters) (s : State) : State := setCounters k (f (countersAt s k)) s

/-- Byte totals of an owner `k`. -/
def totalsAt (s : State) (k : Nat) : Totals := tget {} s.parts.totals k

/-- Byte totals of an owner `k` set to `v`. -/
def setTotals (k : Nat) (v : Totals) (s : State) : State :=
  onParts (fun x => { x with totals := tset {} x.totals k v }) s

/-- `f` applied to byte totals of an owner `k`. -/
def modTotals (k : Nat) (f : Totals → Totals) (s : State) : State := setTotals k (f (totalsAt s k)) s

/-- Mailbox `k`. -/
def boxAt (s : State) (k : Nat) : Mailbox := tget {} s.boxes.boxes k

/-- Mailbox `k` set to `v`. -/
def setBox (k : Nat) (v : Mailbox) (s : State) : State :=
  onBoxes (fun x => { x with boxes := tset {} x.boxes k v }) s

/-- `f` applied to mailbox `k`. -/
def modBox (k : Nat) (f : Mailbox → Mailbox) (s : State) : State := setBox k (f (boxAt s k)) s

/-- Queue at FE_QUEUE index `k`. -/
def queueAt (s : State) (k : Nat) : Queue := tget {} s.fe.queues k

/-- Queue at FE_QUEUE index `k` set to `v`. -/
def setQueue (k : Nat) (v : Queue) (s : State) : State :=
  onFe (fun x => { x with queues := tset {} x.queues k v }) s

/-- `f` applied to queue at FE_QUEUE index `k`. -/
def modQueue (k : Nat) (f : Queue → Queue) (s : State) : State := setQueue k (f (queueAt s k)) s

/-- Task `k`. -/
def taskAt (s : State) (k : Nat) : Task := tget {} s.fe.tasks k

/-- Task `k` set to `v`. -/
def setTask (k : Nat) (v : Task) (s : State) : State :=
  onFe (fun x => { x with tasks := tset {} x.tasks k v }) s

/-- `f` applied to task `k`. -/
def modTask (k : Nat) (f : Task → Task) (s : State) : State := setTask k (f (taskAt s k)) s

/-- Pilot `k`. -/
def pilotAt (s : State) (k : Nat) : Pilot := tget {} s.fe.pilots k

/-- Pilot `k` set to `v`. -/
def setPilot (k : Nat) (v : Pilot) (s : State) : State :=
  onFe (fun x => { x with pilots := tset {} x.pilots k v }) s

/-- `f` applied to pilot `k`. -/
def modPilot (k : Nat) (f : Pilot → Pilot) (s : State) : State := setPilot k (f (pilotAt s k)) s

/-- KV pool `k`. -/
def poolAt (s : State) (k : Nat) : Pool := tget {} s.kv.pools k

/-- KV pool `k` set to `v`. -/
def setPool (k : Nat) (v : Pool) (s : State) : State :=
  onKv (fun x => { x with pools := tset {} x.pools k v }) s

/-- `f` applied to KV pool `k`. -/
def modPool (k : Nat) (f : Pool → Pool) (s : State) : State := setPool k (f (poolAt s k)) s

/-- Sequence `k`. -/
def seqAt (s : State) (k : Nat) : Sequence := tget {} s.kv.seqs k

/-- Sequence `k` set to `v`. -/
def setSeq (k : Nat) (v : Sequence) (s : State) : State :=
  onKv (fun x => { x with seqs := tset {} x.seqs k v }) s

/-- `f` applied to sequence `k`. -/
def modSeq (k : Nat) (f : Sequence → Sequence) (s : State) : State := setSeq k (f (seqAt s k)) s

/-- Routing group `k`. -/
def groupAt (s : State) (k : Nat) : RGroup := tget {} s.experts.groups k

/-- Routing group `k` set to `v`. -/
def setGroup (k : Nat) (v : RGroup) (s : State) : State :=
  onExperts (fun x => { x with groups := tset {} x.groups k v }) s

/-- `f` applied to routing group `k`. -/
def modGroup (k : Nat) (f : RGroup → RGroup) (s : State) : State := setGroup k (f (groupAt s k)) s

/-- Combine slot `k`. -/
def combineAt (s : State) (k : Nat) : CombineSlot := tget {} s.experts.slots k

/-- Combine slot `k` set to `v`. -/
def setCombine (k : Nat) (v : CombineSlot) (s : State) : State :=
  onExperts (fun x => { x with slots := tset {} x.slots k v }) s

/-- `f` applied to combine slot `k`. -/
def modCombine (k : Nat) (f : CombineSlot → CombineSlot) (s : State) : State := setCombine k (f (combineAt s k)) s

/-- Expert server `k`. -/
def serverAt (s : State) (k : Nat) : Server := tget {} s.experts.servers k

/-- Expert server `k` set to `v`. -/
def setServer (k : Nat) (v : Server) (s : State) : State :=
  onExperts (fun x => { x with servers := tset {} x.servers k v }) s

/-- `f` applied to expert server `k`. -/
def modServer (k : Nat) (f : Server → Server) (s : State) : State := setServer k (f (serverAt s k)) s

/-- Link port `k`. -/
def linkAt (s : State) (k : Nat) : Link := tget {} s.fabric.links k

/-- Link port `k` set to `v`. -/
def setLink (k : Nat) (v : Link) (s : State) : State :=
  onFabric (fun x => { x with links := tset {} x.links k v }) s

/-- `f` applied to link port `k`. -/
def modLink (k : Nat) (f : Link → Link) (s : State) : State := setLink k (f (linkAt s k)) s

/-- Window `k`. -/
def windowAt (s : State) (k : Nat) : Window := tget {} s.fabric.windows k

/-- Window `k` set to `v`. -/
def setWindow (k : Nat) (v : Window) (s : State) : State :=
  onFabric (fun x => { x with windows := tset {} x.windows k v }) s

/-- `f` applied to window `k`. -/
def modWindow (k : Nat) (f : Window → Window) (s : State) : State := setWindow k (f (windowAt s k)) s

/-- Regulated resource `k`. -/
def resourceAt (s : State) (k : Nat) : Resource := tget {} s.reg.resources k

/-- Regulated resource `k` set to `v`. -/
def setResource (k : Nat) (v : Resource) (s : State) : State :=
  onReg (fun x => { x with resources := tset {} x.resources k v }) s

/-- `f` applied to regulated resource `k`. -/
def modResource (k : Nat) (f : Resource → Resource) (s : State) : State := setResource k (f (resourceAt s k)) s

/-- Trace buffer `k`. -/
def bufAt (s : State) (k : Nat) : TraceBuf := tget {} s.trace.bufs k

/-- Trace buffer `k` set to `v`. -/
def setBuf (k : Nat) (v : TraceBuf) (s : State) : State :=
  onTrace (fun x => { x with bufs := tset {} x.bufs k v }) s

/-- `f` applied to trace buffer `k`. -/
def modBuf (k : Nat) (f : TraceBuf → TraceBuf) (s : State) : State := setBuf k (f (bufAt s k)) s

/-- Tensor watch `k`. -/
def watchAt (s : State) (k : Nat) : Watch := tget {} s.trace.watches k

/-- Tensor watch `k` set to `v`. -/
def setWatch (k : Nat) (v : Watch) (s : State) : State :=
  onTrace (fun x => { x with watches := tset {} x.watches k v }) s

/-- `f` applied to tensor watch `k`. -/
def modWatch (k : Nat) (f : Watch → Watch) (s : State) : State := setWatch k (f (watchAt s k)) s

/-- Snuff of a domain (lantern l at l, link port p at 100 + p) `k`. -/
def snuffAt (s : State) (k : Nat) : Snuff := tget {} s.faults.snuffs k

/-- Snuff of a domain (lantern l at l, link port p at 100 + p) `k` set to `v`. -/
def setSnuff (k : Nat) (v : Snuff) (s : State) : State :=
  onFaults (fun x => { x with snuffs := tset {} x.snuffs k v }) s

/-- `f` applied to snuff of a domain (lantern l at l, link port p at 100 + p) `k`. -/
def modSnuff (k : Nat) (f : Snuff → Snuff) (s : State) : State := setSnuff k (f (snuffAt s k)) s

end Sys2Proof.Machine
end

