-- ==== Sys2Proof/Machine/Status.lean ====
section
/-! DEFINITION. Status codes (R371), event codes (R327), fault classes (R376) and source kinds (R373) by name. -/
namespace Sys2Proof.Machine

/-! ## Status codes (R371) -/
/-- OK: Success. -/
abbrev stOk : Nat := 0x0000
/-- BAD_ARG: A field, handle or combination is invalid. -/
abbrev stBadArg : Nat := 0x0001
/-- VERSION: A format or protocol version is not implemented, or not negotiated. -/
abbrev stVersion : Nat := 0x0002
/-- BUSY: A resource is in use or a limit is reached; a retry may succeed. -/
abbrev stBusy : Nat := 0x0003
/-- NOT_PERMITTED: The requester may not issue the operation in its present state. -/
abbrev stNotPermitted : Nat := 0x0004
/-- IMAGE_REJECTED: A staged firmware image failed R318. -/
abbrev stImageRejected : Nat := 0x0005
/-- OBJECT_REVOKED: A handle names an old generation. -/
abbrev stObjectRevoked : Nat := 0x0101
/-- QUEUE_DESTROYED: The queue or pilot was destroyed before the command retired. -/
abbrev stQueueDestroyed : Nat := 0x0102
/-- FENCE_RANGE: A fence value or target is at or above 2^63. -/
abbrev stFenceRange : Nat := 0x0103
/-- WAIT_TIMEOUT: A wait reached its deadline unsatisfied. -/
abbrev stWaitTimeout : Nat := 0x0104
/-- TABLE_DENIED: A named table is unloaded or not owned or granted. -/
abbrev stTableDenied : Nat := 0x0105
/-- PROGRAM_INVALID: A descriptor program failed its checks. -/
abbrev stProgramInvalid : Nat := 0x0106
/-- SEQUENCE_FULL: A KV position lies at or beyond MAX_TOKENS. -/
abbrev stSequenceFull : Nat := 0x0107
/-- CARVEOUT_DENIED: An address lies outside the partition's carve-out. -/
abbrev stCarveoutDenied : Nat := 0x0108
/-- QUEUE_STOPPED: An earlier command of the queue or pilot failed. -/
abbrev stQueueStopped : Nat := 0x0109
/-- DATA_POISON: Data read was poisoned. -/
abbrev stDataPoison : Nat := 0x0201
/-- INTEGRITY_FAIL: An authentication tag, digest or sealed record failed its check. -/
abbrev stIntegrityFail : Nat := 0x0202
/-- COUNTER_EXHAUSTED: A capacity line's write counter is at its maximum. -/
abbrev stCounterExhausted : Nat := 0x0203
/-- KEY_RETIRED: The key ID has been retired. -/
abbrev stKeyRetired : Nat := 0x0204
/-- ADDRESS_UNMAPPED: The address decodes to no memory the requester may reach. -/
abbrev stAddressUnmapped : Nat := 0x0205
/-- KEY_ID_DENIED: The key ID is reserved, empty or not granted. -/
abbrev stKeyIdDenied : Nat := 0x0206
/-- REMAP_EXHAUSTED: No page-remap entry is free. -/
abbrev stRemapExhausted : Nat := 0x0207
/-- INDEX_RANGE: A gather or scatter index is out of range. -/
abbrev stIndexRange : Nat := 0x0208
/-- KV_POOL_EMPTY: The KV pool has no free frame. -/
abbrev stKvPoolEmpty : Nat := 0x0209
/-- RESERVATION_DENIED: Admission of bandwidth shares failed. -/
abbrev stReservationDenied : Nat := 0x020A
/-- FABRIC_DENIED: A fabric operation was refused by its target, or the device left its domain. -/
abbrev stFabricDenied : Nat := 0x0301
/-- FABRIC_TIMEOUT: A fabric operation did not complete within FABRIC_TIMEOUT. -/
abbrev stFabricTimeout : Nat := 0x0302
/-- BATCH_CANCELLED: The expert batch was cancelled. -/
abbrev stBatchCancelled : Nat := 0x0303
/-- EXPERT_TIMEOUT: Expert answers were missing at the deadline. -/
abbrev stExpertTimeout : Nat := 0x0304
/-- ROUTE_DOWN: No route to the destination node. -/
abbrev stRouteDown : Nat := 0x0305
/-- KEY_SLOT_BAD: The key slot failed its integrity check. -/
abbrev stKeySlotBad : Nat := 0x0401
/-- KEY_EXPIRED: The key expired at a reset or exceeded its roll limit. -/
abbrev stKeyExpired : Nat := 0x0402
/-- KEY_USE_EXHAUSTED: The key slot has no uses left. -/
abbrev stKeyUseExhausted : Nat := 0x0403
/-- ATTEST_REQUIRED: No valid attestation covers the request. -/
abbrev stAttestRequired : Nat := 0x0404
/-- ENTROPY_FAIL: The random-number generator failed its health tests. -/
abbrev stEntropyFail : Nat := 0x0405
/-- INTERFACE_LOCKED: The partition's TDI is locked. -/
abbrev stInterfaceLocked : Nat := 0x0406
/-- AUTH_FAILED: Management authentication failed or is locked out. -/
abbrev stAuthFailed : Nat := 0x0407
/-- LC_DENIED: The life-cycle state forbids the operation. -/
abbrev stLcDenied : Nat := 0x0501
/-- LC_IN_PROGRESS: A life-cycle transition is under way. -/
abbrev stLcInProgress : Nat := 0x0502
/-- RESET_LOST: Work was lost to a reset. -/
abbrev stResetLost : Nat := 0x0601
/-- DOMAIN_SNUFFED: The target lies in a reset domain that is snuffed. -/
abbrev stDomainSnuffed : Nat := 0x0602

/-! ## Event codes (R327) -/
/-- Event ROTATION_DUE. -/
abbrev evRotationDue : Nat := 0x0001
/-- Event SWEEP_DONE. -/
abbrev evSweepDone : Nat := 0x0002
/-- Event WICK_WITHDRAWN. -/
abbrev evWickWithdrawn : Nat := 0x0003
/-- Event TRIM_SHORT. -/
abbrev evTrimShort : Nat := 0x0004
/-- Event HOT_LINE. -/
abbrev evHotLine : Nat := 0x0005
/-- Event PORT_FAILED. -/
abbrev evPortFailed : Nat := 0x0006
/-- Event PARTITION_HALTED. -/
abbrev evPartitionHalted : Nat := 0x0007
/-- Event FAULT_RECORDED. -/
abbrev evFaultRecorded : Nat := 0x0008
/-- Event DERATED. -/
abbrev evDerated : Nat := 0x0009
/-- Event RECORD_REJECTED. -/
abbrev evRecordRejected : Nat := 0x000A
/-- Event CURFEW. -/
abbrev evCurfew : Nat := 0x000B

/-! ## Fault classes (R376) -/
/-- Class STACKED_UE. -/
abbrev clsStackedUe : Nat := 0x01
/-- Class STACKED_UE_SHARED. -/
abbrev clsStackedUeShared : Nat := 0x02
/-- Class CAP_UE. -/
abbrev clsCapUe : Nat := 0x03
/-- Class CAP_TAG. -/
abbrev clsCapTag : Nat := 0x04
/-- Class COUNTER_END. -/
abbrev clsCounterEnd : Nat := 0x05
/-- Class ACCESS_DENIED. -/
abbrev clsAccessDenied : Nat := 0x06
/-- Class UNMAPPED. -/
abbrev clsUnmapped : Nat := 0x07
/-- Class REMAP_EXHAUSTED. -/
abbrev clsRemapExhausted : Nat := 0x08
/-- Class POISON_LOST. -/
abbrev clsPoisonLost : Nat := 0x09
/-- Class EXCHANGE_FAIL. -/
abbrev clsExchangeFail : Nat := 0x0A
/-- Class LINK_TICKET. -/
abbrev clsLinkTicket : Nat := 0x0B
/-- Class UNIT_HUNG. -/
abbrev clsUnitHung : Nat := 0x0C
/-- Class SCRATCH_CE. -/
abbrev clsScratchCe : Nat := 0x0D
/-- Class SCRATCH_UE. -/
abbrev clsScratchUe : Nat := 0x0E
/-- Class WICK_REMAPPED. -/
abbrev clsWickRemapped : Nat := 0x0F
/-- Class WICK_WITHDRAWN. -/
abbrev clsWickWithdrawn : Nat := 0x10
/-- Class MALFORMED_ANSWER. -/
abbrev clsMalformedAnswer : Nat := 0x11
/-- Class INSTANCE_RANGE. -/
abbrev clsInstanceRange : Nat := 0x12
/-- Class REPAIRED. -/
abbrev clsRepaired : Nat := 0x13
/-- Class LINK_TAG. -/
abbrev clsLinkTag : Nat := 0x18
/-- Class ROLL_OVERRUN. -/
abbrev clsRollOverrun : Nat := 0x19
/-- Class SEALED_DROP. -/
abbrev clsSealedDrop : Nat := 0x1A
/-- Class FABRIC_DENIED_IN. -/
abbrev clsFabricDeniedIn : Nat := 0x1B
/-- Class HOT_LINE. -/
abbrev clsHotLine : Nat := 0x1C
/-- Class PORT_FAILED. -/
abbrev clsPortFailed : Nat := 0x1D
/-- Class BAD_DOORBELL. -/
abbrev clsBadDoorbell : Nat := 0x20
/-- Class ENGINE_HUNG. -/
abbrev clsEngineHung : Nat := 0x21
/-- Class DISPATCH_PATH. -/
abbrev clsDispatchPath : Nat := 0x22
/-- Class SEAM_CE. -/
abbrev clsSeamCe : Nat := 0x23
/-- Class SEAM_UE. -/
abbrev clsSeamUe : Nat := 0x24
/-- Class LL_CE. -/
abbrev clsLlCe : Nat := 0x28
/-- Class LL_INTEGRITY. -/
abbrev clsLlIntegrity : Nat := 0x29
/-- Class VIGIL. -/
abbrev clsVigil : Nat := 0x2A
/-- Class ENTROPY. -/
abbrev clsEntropy : Nat := 0x2B
/-- Class SLOT_BAD. -/
abbrev clsSlotBad : Nat := 0x2C
/-- Class KEY_STORE_INTEGRITY. -/
abbrev clsKeyStoreIntegrity : Nat := 0x30
/-- Class TAMPER. -/
abbrev clsTamper : Nat := 0x31
/-- Class LC_CORRUPT. -/
abbrev clsLcCorrupt : Nat := 0x32
/-- Class VBAT_LOST. -/
abbrev clsVbatLost : Nat := 0x33
/-- Class DUMP. -/
abbrev clsDump : Nat := 0x38

/-! ## Source kinds (R373) -/
/-- Source kind LANTERN. -/
abbrev kindLantern : Nat := 0x01
/-- Source kind WICK. -/
abbrev kindWick : Nat := 0x02
/-- Source kind CAPACITY. -/
abbrev kindCapacity : Nat := 0x03
/-- Source kind LINK. -/
abbrev kindLink : Nat := 0x04
/-- Source kind SEAM. -/
abbrev kindSeam : Nat := 0x05
/-- Source kind FRONT_END. -/
abbrev kindFrontEnd : Nat := 0x06
/-- Source kind FE_AGENT. -/
abbrev kindFeAgent : Nat := 0x07
/-- Source kind COPY. -/
abbrev kindCopy : Nat := 0x08
/-- Source kind LAMPLIGHTER. -/
abbrev kindLamplighter : Nat := 0x09
/-- Source kind KEY_STORE. -/
abbrev kindKeyStore : Nat := 0x0A
/-- Source kind KEY_MIRROR. -/
abbrev kindKeyMirror : Nat := 0x0B
/-- Source kind TRUST. -/
abbrev kindTrust : Nat := 0x0C
/-- Source kind TRACE. -/
abbrev kindTrace : Nat := 0x0D
/-- Source kind REGULATOR. -/
abbrev kindRegulator : Nat := 0x0E

/-- The programmed level at reset of a class and whether it is locked (R376); SLOT_BAD as a partition's. -/
def classDefault (c : Nat) : Nat × Bool :=
  if c = clsStackedUe ∨ c = clsStackedUeShared ∨ c = clsCapUe ∨ c = clsCapTag ∨ c = clsCounterEnd ∨
      c = clsAccessDenied ∨ c = clsPoisonLost ∨ c = clsLinkTicket ∨ c = clsSlotBad then (2, false)
  else if c = clsRemapExhausted ∨ c = clsExchangeFail ∨ c = clsUnitHung ∨ c = clsLinkTag ∨ c = clsRollOverrun then
    (3, false)
  else if c = clsScratchCe ∨ c = clsWickRemapped ∨ c = clsRepaired ∨ c = clsSeamCe ∨ c = clsLlCe then (1, false)
  else if c = clsEngineHung then (4, false)
  else if c = clsDispatchPath ∨ c = clsSeamUe ∨ c = clsLlIntegrity ∨ c = clsVigil ∨ c = clsEntropy then (4, true)
  else if c = clsKeyStoreIntegrity ∨ c = clsTamper ∨ c = clsLcCorrupt then (5, true)
  else (0, false)

/-- The kinds that raise a class (R376). -/
def classKinds (c : Nat) : List Nat :=
  if c ≤ 0x02 ∨ c = 0x08 ∨ c = 0x09 ∨ c = 0x0A ∨ c = 0x0B ∨ c = 0x0C ∨ c = 0x11 ∨ c = 0x12 ∨ c = 0x13 then [kindLantern]
  else if c ≤ 0x05 then [kindCapacity]
  else if c = 0x06 then [kindLantern, kindCapacity, kindFrontEnd]
  else if c = 0x07 then [kindLantern, kindFrontEnd]
  else if c ≤ 0x10 then [kindWick]
  else if 0x18 ≤ c ∧ c ≤ 0x1D then [kindLink]
  else if c = 0x20 then [kindFrontEnd]
  else if c = 0x21 then [kindFrontEnd, kindFeAgent, kindCopy]
  else if c = 0x22 then [kindFrontEnd, kindFeAgent]
  else if c = 0x23 ∨ c = 0x24 then [kindSeam]
  else if c = 0x28 ∨ c = 0x29 ∨ c = 0x2B ∨ c = 0x38 then [kindLamplighter]
  else if c = 0x2A ∨ c = 0x31 ∨ c = 0x32 ∨ c = 0x33 then [kindTrust]
  else if c = 0x2C ∨ c = 0x30 then [kindKeyStore]
  else []

/-- The STATUS a class carries where the rule that raises it names no other (R376). -/
def classStatus (c : Nat) : Nat :=
  if c ≤ 0x03 ∨ c = 0x09 ∨ c = 0x0E ∨ c = 0x0F then stDataPoison
  else if c = 0x04 ∨ c = 0x0A ∨ c = 0x0B ∨ c = 0x18 ∨ c = 0x1A ∨ c = 0x22 ∨ c = 0x24 then stIntegrityFail
  else if c = 0x05 then stCounterExhausted
  else if c = 0x06 then stKeyIdDenied
  else if c = 0x07 then stAddressUnmapped
  else if c = 0x08 then stRemapExhausted
  else if c = 0x0C ∨ c = 0x21 then stResetLost
  else if c = 0x11 ∨ c = 0x12 ∨ c = 0x20 then stBadArg
  else if c = 0x19 then stKeyExpired
  else if c = 0x1B then stFabricDenied
  else if c = 0x2B then stEntropyFail
  else if c = 0x2C ∨ c = 0x30 then stKeySlotBad
  else if c = 0x32 then stLcDenied
  else stOk

end Sys2Proof.Machine
end

