-- ==== Sys2Proof/Machine/Ops.lean ====
section
/-! DEFINITION. The named operations every family shares: what leaves the block, free values, halves, partition
definitions, mailbox events and responses, and the guards on a powered, running block. -/
namespace Sys2Proof.Machine

/-! ## Output, time, free values -/

/-- `o` leaves the block or crosses to another agent. -/
def emit (o : Out) (s : State) : State := { s with out := s.out ++ [o] }

/-- The global time counter of West (R24), which the units of West and Stolaikor see. -/
def now (s : State) : Nat := s.time.now

/-- The counter of a half, which the units of that half see: West's, or East's follower of it (R24, R27). -/
def clock (s : State) (west : Bool) : Nat := if west then s.time.now else s.time.east

/-- `n` bytes of the entropy source or the DRBG (R17, R232): free values, counted in `free`. -/
def entropyBytes (n : Nat) (s : State) : Bytes := (List.range n).map (fun i => Sys2Proof.Config.entropy (s.free + i))

/-- The state after `n` bytes were drawn. -/
def drawn (n : Nat) (s : State) : State := { s with free := s.free + n }

/-- `n` bytes whose value the spec leaves open: free values, counted in `free`. -/
def unstatedBytes (n : Nat) (s : State) : Bytes := (List.range n).map (fun i => Sys2Proof.Config.unstated (s.free + i))

/-- `n` bytes of the Lamplighter's DRBG, which counts the request and is reseeded after every 65,536 of them (R232): its bytes are free
values before and after. -/
def drbg (n : Nat) (s : State) : Bytes × State :=
  (entropyBytes n s, onLl (fun l => { l with drbgRequests := (l.drbgRequests + 1) % 65536 }) (drawn n s))

/-- Whether the block is powered and has not met a Terminal fault (R380, R490). -/
def running (s : State) : Bool := s.trust.pwrOk && !s.faults.terminal

/-- An effect framed: the queue of waiting commands and the build parameters (R3) stand whatever a command does. -/
def framed (f : State → State) (s : State) : State := { f s with pending := s.pending, build := s.build }

/-- The outcome of a step whose effect is `f`. -/
def step1 (f : State → State) (s : State) : Host.Outcome State Fault Refusal := .next (framed f s)

/-- The outcome of a step whose effect `f` takes place only in a powered block without a Terminal fault. -/
def whenRunning (f : State → State) (s : State) : Host.Outcome State Fault Refusal :=
  .next (if running s then framed f s else s)

/-- An effect of a served command: what the host, the wicks and the links ask for writes neither the fuses' life cycle nor the flash,
the clocks, the IDE and debug ports or the MESSAGEs that wait. -/
def inCore (f : State → State) (s : State) : State :=
  { f s with lc := s.lc, flash := s.flash, time := s.time, ide := s.ide, jtag := s.jtag, inbox := s.inbox }

/-- The outcome of a served command. -/
def whenServing (f : State → State) (s : State) : Host.Outcome State Fault Refusal := whenRunning (inCore f) s

/-- An effect that writes nothing of the fuses and the life cycle. -/
def keepFuses (f : State → State) (s : State) : State := { f s with lc := s.lc }

/-- The outcome of a command that leaves the fuses and the life cycle alone, in a block that runs. -/
def whenFused (f : State → State) (s : State) : Host.Outcome State Fault Refusal := whenRunning (keepFuses f) s

/-! ## Halves (R8) -/

/-- How many of `n` units West holds. -/
def westOf (n : Nat) : Nat := (n + 1) / 2

/-- Whether lantern `l` is in West. -/
def lanternWest (s : State) (l : Nat) : Bool := l < westOf s.build.lanterns

/-- Whether capacity port `c` is in West. -/
def capWest (s : State) (c : Nat) : Bool := c < westOf s.build.caps

/-- Whether link port `p` is in West. -/
def linkWest (s : State) (p : Nat) : Bool := p < westOf s.build.links

/-- The lowest-numbered East lantern port (R466). -/
def firstEast (s : State) : Nat := westOf s.build.lanterns

/-- Whether a source of this kind and instance is in the East half (R8, R372). -/
def kindEast (s : State) (kind inst : Nat) : Bool :=
  if kind = kindLantern ∨ kind = kindWick then !lanternWest s inst
  else if kind = kindCapacity then !capWest s inst
  else if kind = kindLink then !linkWest s inst
  else if kind = kindSeam ∨ kind = kindTrace ∨ kind = kindRegulator then inst = 1
  else kind = kindFeAgent ∨ kind = kindCopy ∨ kind = kindKeyMirror

/-- The lanterns of a mask that the build has. -/
def maskLanterns (s : State) (m : Nat) : List Nat := bitList s.build.lanterns m

/-! ## The seam's sending side (R12 to R15) -/

/-- Index of a class and direction in the seam's counters. -/
def seamKey (toEast : Bool) (cls : Nat) : Nat := 2 * cls + b2n toEast

/-- Whether the seam carries the class now: unpaired it carries only SESSION, CREDIT, TIME and FAULT (R17). -/
def seamCarries (s : State) (cls : Nat) : Bool := s.seam.paired || cls == 1 || cls == 9 || cls == 5 || cls == 6

/-- The wires of a direction. -/
def wireOf (s : State) (toEast : Bool) : SeamWire := if toEast then s.seam.w2e else s.seam.e2w

/-- `f` applied to the wires of a direction. -/
def onWire (toEast : Bool) (f : SeamWire → SeamWire) (s : State) : State :=
  onSeam (fun x => if toEast then { x with w2e := f x.w2e } else { x with e2w := f x.e2w }) s

/-- The sender puts the words that wait onto the wires, REQ toggling with each, as long as fewer than 4 stand unacknowledged (R483); `n`
bounds them. -/
def putWords : Nat → SeamWire → SeamWire
  | 0, w => w
  | n + 1, w =>
    match w.rest with
    | [] => w
    | d :: rest => if w.fifo.length < 4 then putWords n { w with req := !w.req, sent := w.sent + 1, fifo := w.fifo ++ [d], rest := rest } else w

/-- The receiver takes up to `n` words out of its FIFO, ACK toggling with each, and the sender goes on (R483). -/
def takeWords : Nat → SeamWire → SeamWire
  | 0, w => w
  | n + 1, w =>
    match w.fifo with
    | [] => w
    | _ :: fifo => takeWords n (putWords 4 { w with ack := !w.ack, taken := w.taken + 1, fifo := fifo })

/-- Whether a message of the class may leave: the message before it in its direction has been sent whole (R12), and a credit of its class
is held (R15). CREDIT messages need no credit and use none: DESIGN CHOICE (notes/assumptions/78.md), R15 does not say. -/
def seamReady (s : State) (m : SeamTx) : Bool :=
  seamCarries s m.cls && (m.cls == 9 || tget 0 s.seam.spent (seamKey m.toEast m.cls) < 4) && (wireOf s m.toEast).rest.isEmpty

/-- The header word of R12. -/
def seamHeader (cls arg seq len : Nat) : Word64 :=
  BitVec.ofNat 64 (arg % 2 ^ 32 * 2 ^ 32 + seq % 2 ^ 16 * 2 ^ 16 + len % 16 * 2 ^ 12 + cls % 16 * 16 + 1)

/-- The words of a byte string, least significant byte first. -/
def wordsOf (bs : Bytes) : List Word64 := (chunks 8 bs).map (fun c => BitVec.ofNat 64 (leNat c))

/-- The payload words of a message (R12). The contents that R13 names and no rule lays out stand in a layout of the model's own, DESIGN
CHOICE (notes/assumptions/78.md): a word for each number, 6 for a digest. -/
def bodyWords : SeamBody → List Word64
  | .words _ p => p
  | .curfew (.arm t dawn) => [1, BitVec.ofNat 64 t, BitVec.ofNat 64 dawn]
  | .curfew .cancel => [2]
  | .curfew .stopped => [3]
  | .curfew (.dawn t) => [4, BitVec.ofNat 64 t]
  | .sync b => [BitVec.ofNat 64 b.counter, BitVec.ofInt 64 b.correction, BitVec.ofInt 64 b.steer]
  | .echo v => [BitVec.ofNat 64 v]
  | .mailbox (.fetch t k i a l d) => [1, BitVec.ofNat 64 t, BitVec.ofNat 64 (k + 2 ^ 8 * i), BitVec.ofNat 64 a, BitVec.ofNat 64 l] ++ wordsOf d
  | .mailbox (.reply t st) => [2, BitVec.ofNat 64 t, BitVec.ofNat 64 st]
  | .mailbox (.setting i v) => [3, BitVec.ofNat 64 i, BitVec.ofNat 64 v]
  | .mailbox (.drop t k i n) => [4, BitVec.ofNat 64 t, BitVec.ofNat 64 (k + 2 ^ 8 * i), BitVec.ofNat 64 n]
  | .trace (.control k op) => [1, BitVec.ofNat 64 k, BitVec.ofNat 64 op]
  | .trace (.trigger k t c a) => [2, BitVec.ofNat 64 k, BitVec.ofNat 64 t, BitVec.ofNat 64 c, BitVec.ofNat 64 a]
  | .trace (.status k st) => [3, BitVec.ofNat 64 k, BitVec.ofNat 64 st]

/-- CLASS_ARG of a message; 0 where the spec gives its class none. -/
def bodyArg : SeamBody → Nat
  | .words a _ => a
  | _ => 0

/-- The header a message takes when it leaves (R12). -/
def seamHeaderOf (s : State) (m : SeamTx) : Word64 :=
  seamHeader m.cls (bodyArg m.body) (tget 0 s.seam.txSeq (seamKey m.toEast m.cls)).toNat (bodyWords m.body).length

/-- A message leaves: it takes the next SEQ and a credit, and its words go onto the wires, header first. -/
def seamLaunch (m : SeamTx) (s : State) : State :=
  let k := seamKey m.toEast m.cls
  let h := seamHeaderOf s m
  let s := onSeam (fun x => { x with txSeq := tset 0 x.txSeq k (tget 0 x.txSeq k + 1)
                                     spent := if m.cls = 9 then x.spent else tset 0 x.spent k (tget 0 x.spent k + 1) }) s
  emit (.seam h m) (onWire m.toEast (fun w => putWords 4 { w with rest := h :: bodyWords m.body }) s)

/-- A message is sent, or waits behind earlier ones of its class, for a credit or for pairing. -/
def seamSend (toEast : Bool) (cls : Nat) (body : SeamBody) (s : State) : State :=
  let m : SeamTx := ⟨toEast, cls, body⟩
  if seamReady s m && !(s.seam.waiting.any (fun w => w.cls == cls && w.toEast == toEast)) then seamLaunch m s
  else onSeam (fun x => { x with waiting := x.waiting ++ [m] }) s

/-- The waiting messages of one class and direction leave as far as credits reach; `n` bounds them. -/
def seamFlushClass (toEast : Bool) (cls : Nat) : Nat → State → State
  | 0, s => s
  | n + 1, s =>
    match s.seam.waiting.find? (fun w => w.cls == cls && w.toEast == toEast) with
    | none => s
    | some m =>
      if seamReady s m then
        seamFlushClass toEast cls n (seamLaunch m (onSeam (fun x => { x with waiting := x.waiting.erase m }) s))
      else s

/-- The waiting messages leave in the order of R14. -/
def seamFlush (s : State) : State :=
  [9, 3, 4, 5, 1, 2, 6, 7, 8].foldl (fun s c =>
    seamFlushClass false c s.seam.waiting.length (seamFlushClass true c s.seam.waiting.length s)) s

/-! ## Owners and partition definitions (R260) -/

/-- The number a record shows for an owner: the manager's 16 stands as 0xFE. -/
def partCode (p : Nat) : Nat := if p = 16 then 0xFE else p

/-- The index of an owner number in a request: 0xFE is 16. -/
def ownerIndex (p : Nat) : Nat := if p = 0xFE then 16 else p

/-- A little-endian field of an owner's definition. -/
def pdef (s : State) (p off n : Nat) : Nat := fld (partAt s p).definition off n

/-- The TDI states as TDISP numbers them, in PT_SELF and the report (R242, R253). -/
def TdiState.code : TdiState → Nat
  | .configUnlocked => 0
  | .configLocked => 1
  | .run => 2
  | .error => 3

/-- Whether the owner exists: a partition that is not ABSENT, or the manager with its carve-out. -/
def partExists (s : State) (p : Nat) : Bool := (partAt s p).state ≠ .absent

/-- The owners that exist, the manager (16) last. -/
def owners (s : State) : List Nat := (List.range 17).filter (partExists s)

/-- HOME_GIB (R340). -/
def homeGib (s : State) : Nat := s.boxes.homeGib

/-- Where the interleaved window ends: W of R37. -/
def windowEnd (s : State) : Nat := s.build.lanterns * (48 - homeGib s) * 2 ^ 30

/-- Bytes in a unit of 2 MiB. -/
def mib2 : Nat := 2 ^ 21

/-- The host PASID of an owner's queue, if a slice holds it (R267). -/
def queuePasid (s : State) (p q : Nat) : Option Nat :=
  ((List.range 1024).find? (fun k =>
    let e := pasidAt s k
    e.bound && e.part == p && e.mask.toNat.testBit q)).map (fun k => (pasidAt s k).pasid)

/-! ## Mailboxes (R324 to R328) -/

/-- `f` applied to mailbox `mb`. -/
abbrev onBox (mb : Nat) (f : Mailbox → Mailbox) (s : State) : State := modBox mb f s

/-- An interrupt pulse of the host register port: bit 0 to 15 a partition, 16 the manager, 17 the fault hub. -/
def irq (n : Nat) (s : State) : State := emit (.irq n) s

/-- Unread entries of an event ring. -/
def unread (b : Mailbox) : Nat := (b.write - b.read).toNat

/-- An event enters a mailbox's ring, or is dropped and counted when 16 are unread (R327). -/
def postEvent (mb code : Nat) (arg : Bytes) (s : State) : State :=
  if mb < 16 ∧ ¬ partExists s mb then s else
  let b := boxAt s mb
  let b1 := { b with evSeq := (b.evSeq + 1) % 2 ^ 32 }
  if unread b ≥ 16 then setBox mb { b1 with lost := satTo 16 (b.lost + 1) } s else
  let e := [1#8, 0#8] ++ le 2 code ++ le 4 b.evSeq ++ le 8 (now s) ++ fit 16 arg
  let s := setBox mb { b1 with events := twrites 0 b.events (32 * (b.write.toNat % 16)) e, write := b.write + 1 } s
  let s := onTrace (fun x => { x with noticed := x.noticed ++ [.event mb code (now s)] }) s
  if b.evIrq then irq mb s else s

/-- An event whose ARG the spec leaves open: its bytes are free values. -/
def postOpenEvent (mb code : Nat) (s : State) : State :=
  let a := unstatedBytes 16 s
  postEvent mb code a (drawn 16 s)

/-- The 256 B request that stands in a mailbox slot since its submission. -/
def mbRequest (s : State) (mb slot : Nat) : Bytes := (tget {} (boxAt s mb).slots slot).request

/-- The request's opcode, TAG, LENGTH and a little-endian field of its payload (R328). -/
def reqOp (r : Bytes) : Nat := fld r 2 2
def reqTag (r : Bytes) : Nat := fld r 4 2
def reqLen (r : Bytes) : Nat := fld r 6 2
def arg (r : Bytes) (off n : Nat) : Nat := fld r (16 + off) n
def argBytes (r : Bytes) (off n : Nat) : Bytes := sub r (16 + off) n

/-- The mailbox's owner index: partitions 0 to 15, the manager 16; the management mailbox acts for no partition. -/
def mbOwner (mb : Nat) : Nat := mb

/-- The trailer of a management-session message (R257): counter and MAC. -/
def mgmtTrailer (key : Bytes) (counter : Nat) (msg : Bytes) : Bytes :=
  le 8 counter ++ (hmac key (le 8 counter ++ msg)).take 16

/-- Response message of a request (R328, R329): a failed response carries no payload. Before NEGOTIATE it carries 1.0, as the
requests do. -/
def responseOf (b : Mailbox) (req : Bytes) (status : Nat) (payload : Bytes) : Bytes :=
  let p := if status = stOk then payload else []
  [BitVec.ofNat 8 (if b.major = 0 then 1 else b.major), BitVec.ofNat 8 b.minor] ++ le 2 (reqOp req) ++ le 2 (reqTag req) ++ le 2 p.length ++
    le 2 status ++ zeros 6 ++ p

/-- A response leaves over MCTP with the request's tag, in a session with its trailer; where the controller has enabled it an in-band
interrupt announces it (R257, R512, R513). -/
def mctpSend (eid tag : Nat) (msg : Bytes) (s : State) : State :=
  let tr := if s.ll.mgmtActive then mgmtTrailer s.ll.mgmtKey (s.ll.mgmtTx + 1) msg else []
  let s := if s.ll.mgmtActive then onLl (fun l => { l with mgmtTx := l.mgmtTx + 1 }) s else s
  let s := emit (.mctp eid tag (be 4 s.build.mgmtPen.toNat ++ msg ++ tr)) s
  if s.boxes.ibiEnabled then emit .ibi s else s

/-- The response of slot `slot` is written and the slot becomes DONE (R326); the management mailbox sends it over
MCTP instead, with the session's trailer, and its slot is FREE again (R512, R513). -/
def respond (mb slot status : Nat) (payload : Bytes) (s : State) : State :=
  let b := boxAt s mb
  let sl := tget {} b.slots slot
  if sl.state ≠ .pending then s else
  let msg := responseOf b sl.request status payload
  if mb = 17 then
    mctpSend sl.mctpEid sl.mctpTag msg (setBox mb { b with slots := tset {} b.slots slot {} } s)
  else
    let s := setBox mb
      { b with slots := tset {} b.slots slot { sl with state := .done }
               rspBytes := twrites 0 b.rspBytes (256 * slot) (fit 256 msg) } s
    if b.rspIrq then irq mb s else s

/-- The creation payload of R339. -/
def created (handle base : Nat) : Bytes := le 4 handle ++ zeros 4 ++ le 8 base

/-- A started request waits (R335): its slot, its condition and the payload of its reply. -/
def holdRequest (mb slot : Nat) (c : WaitCond) (payload : Bytes) (s : State) : State :=
  onBoxes (fun b => { b with waiting := b.waiting ++ [⟨mb, slot, c, payload⟩] }) s

end Sys2Proof.Machine
end

