-- ==== Sys2Proof/Machine/Fault.lean ====
section
/-! DEFINITION. Recording a fault and taking its severity action (R372 to R379): the West store, the East hub's
buffers, escalation, the halt of a partition (R264), due unit and block resets. -/
namespace Sys2Proof.Machine

/-- What a detected fault says of itself; `part` is an owner index (16 the manager, 255 none); `err` names an earlier
record's error where this one is the same error; `level` stands in for the programmed level. -/
structure FaultArg where
  cls      : Nat
  kind     : Nat
  inst     : Nat
  sub      : Nat := 0
  status   : Nat := 0
  part     : Nat := 255
  master   : Nat := 0
  access   : Nat := 0
  addr     : Nat := 0
  masterId : Nat := 0
  detail   : Bytes := []
  injected : Bool := false
  err      : Option Nat := none
  level    : Option Nat := none
  deriving DecidableEq, Repr

/-- The level a class is programmed to (R377). -/
def programmedLevel (s : State) (c : Nat) : Nat :=
  let v := tget 0 s.faults.levels c
  if v = 0 ∨ (classDefault c).2 then (classDefault c).1 else v - 1

/-- The level before escalation: SLOT_BAD of a slot no partition owns is Block-fatal (R376, R377). -/
def baseLevel (s : State) (a : FaultArg) : Nat :=
  match a.level with
  | some l => l
  | none => if a.cls = clsSlotBad ∧ ¬ a.part < 16 then 4 else programmedLevel s a.cls

/-- The level raised where R378 gives it no object: Partition-fatal without a partition, Unit-degraded without a
lantern or link port. -/
def raisedLevel (kind part lvl : Nat) : Nat :=
  let l := if lvl = 2 ∧ part = 255 then 3 else lvl
  if l = 3 ∧ ¬ (kind = kindLantern ∨ kind = kindWick ∨ kind = kindLink) then 4 else l

/-- Whether a record is acknowledged: bit 3 of FLAGS. -/
def FaultRec.acked (r : FaultRec) : Bool := r.flags.toNat.testBit 3

/-- The records held in the store and, not yet there, in the East hub. -/
def heldRecords (s : State) : List FaultRec :=
  s.faults.records ++ s.faults.linkStore ++ s.faults.eastBuf ++ s.faults.eastHold.map Prod.snd

/-- The highest level of an unacknowledged record of level 2 or above of the same class and source and of another
error (R379); 0 for none. -/
def highestOpen (s : State) (a : FaultArg) : Nat :=
  ((heldRecords s).filter (fun r => r.cls == a.cls && r.kind == a.kind && r.inst == a.inst && r.severity ≥ 2 &&
    !r.acked && some r.err != a.err)).foldl (fun m r => max m r.severity) 0

/-- The level applied (R378, R379). -/
def appliedLevel (s : State) (a : FaultArg) : Nat :=
  let b := raisedLevel a.kind a.part (baseLevel s a)
  let h := highestOpen s a
  let e := if b ≥ 2 ∧ h > 0 then max b (min 5 (h + 1)) else b
  raisedLevel a.kind a.part e

/-- The key of a class at a source. -/
def sourceKey (cls kind inst : Nat) : Nat := cls * 65536 + kind * 256 + inst

/-- FH_SUMMARY.HIGHEST: the highest unacknowledged level. -/
def highestLevel (s : State) : Nat :=
  (s.faults.records ++ s.faults.linkStore).foldl (fun m r => if r.acked then m else max m r.severity) 0

/-- The number of the next detected error. -/
def newErr (s : State) : Nat × State := (s.faults.errs, onFaults (fun f => { f with errs := f.errs + 1 }) s)

/-- The record of a fault as its hub forms it: COUNT and FIRST from the faults since the last acknowledgement. -/
def formRecord (s : State) (a : FaultArg) (err lvl : Nat) : FaultRec :=
  let c := tget 0 s.faults.since (sourceKey a.cls a.kind a.inst)
  let escalated := lvl > raisedLevel a.kind a.part (baseLevel s a)
  { severity := lvl, cls := a.cls
    flags := BitVec.ofNat 8 (b2n (c = 0) + 2 * b2n escalated + 4 * b2n a.injected + 8 * b2n (lvl ≤ 1) +
      16 * b2n (s.faults.eastDrop.contains a.cls))
    kind := a.kind, inst := a.inst, sub := a.sub, status := a.status
    part := if a.part = 255 then 255 else partCode a.part
    master := a.master, access := a.access, time := clock s (!kindEast s a.kind a.inst), addr := BitVec.ofNat 64 a.addr
    masterId := a.masterId, count := satTo 32 (c + 1), seq := 0, origin := 0, err := err, detail := fit 16 a.detail }

/-- A record leaves the store to make room, or the new one is dropped (R374): the store without it, or none. -/
def makeRoom (records : List FaultRec) (lvl : Nat) : Option (List FaultRec) :=
  if records.length < 1024 then some records
  else if lvl ≤ 1 then
    (records.find? (fun r => r.severity ≤ 1)).map (fun r => records.erase r)
  else (records.find? (fun r => r.acked)).map (fun r => records.erase r)

/-- FAULT_RECORDED to the manager and to the partition named (R375). -/
def faultEvents (r : FaultRec) (s : State) : State :=
  if r.severity < 2 then s else
  let a := le 4 r.seq ++ le 1 r.cls ++ le 1 r.severity
  let s := postEvent 16 evFaultRecorded a s
  if r.part < 16 then postEvent r.part evFaultRecorded a s else s

/-- A record arrives in the West store: it takes its SEQ and ORIGIN, or is dropped and counted in LOST (R372, R374). -/
def storeRecord (r : FaultRec) (s : State) : State :=
  let f := s.faults
  match makeRoom f.records r.severity with
  | none => onFaults (fun f => { f with lost := satTo 8 (f.lost + 1) }) s
  | some rs =>
    let seq := f.seq
    let known := tget 0 f.origins r.err
    let r := { r with seq := seq, origin := if known = 0 then seq else known - 1 }
    let high := highestLevel s
    let s := onFaults (fun f =>
      { f with records := rs ++ [r], seq := (f.seq + 1) % 2 ^ 32
               origins := if known = 0 then tset 0 f.origins r.err (seq + 1) else f.origins
               classCnt := tset 0 f.classCnt r.cls (satTo 32 (tget 0 f.classCnt r.cls + 1))
               levelCnt := tset 0 f.levelCnt r.severity (satTo 32 (tget 0 f.levelCnt r.severity + 1)) }) s
    let s := if highestLevel s > high then irq 17 s else s
    let s := onTrace (fun x => { x with noticed := x.noticed ++ [.fault r] }) s
    faultEvents r s

/-- The 64 B of a record (R373). -/
def FaultRec.bytes (r : FaultRec) : Bytes :=
  le 1 1 ++ le 1 r.severity ++ le 1 r.cls ++ [r.flags] ++ le 1 r.kind ++ le 1 r.inst ++ le 2 r.sub ++ le 2 r.status ++
    le 1 r.part ++ le 1 r.master ++ le 1 r.access ++ zeros 3 ++ le 8 r.time ++ le 8 r.addr.toNat ++ le 4 r.masterId ++
    le 4 r.count ++ le 4 r.seq ++ le 4 r.origin ++ r.detail

/-- The bytes of words. -/
def bytesOf (ws : List Word64) : Bytes := ws.flatMap (fun w => le 8 w.toNat)

/-- A record as the East hub sends it: 8 payload words, the error's number standing in for ORIGIN until West assigns
the SEQ (R372). -/
def eastMessage (r : FaultRec) : SeamBody := .words 0 (wordsOf ({ r with origin := r.err }).bytes)

/-- The record a FAULT message carries. -/
def recordOf (b : Bytes) : FaultRec :=
  { severity := fld b 1 1, cls := fld b 2 1, flags := BitVec.ofNat 8 (fld b 3 1), kind := fld b 4 1, inst := fld b 5 1
    sub := fld b 6 2, status := fld b 8 2, part := fld b 10 1, master := fld b 11 1, access := fld b 12 1
    time := fld b 16 8, addr := BitVec.ofNat 64 (fld b 24 8), masterId := fld b 32 4, count := fld b 36 4, seq := 0
    origin := 0, err := fld b 44 4, detail := sub b 48 16 }

/-- A record enters the East hub (R372): 56 buffers for levels 0 and 1, 64 for level 2 and above, then the holding
register of its source, where further ones merge. -/
def eastRecord (r : FaultRec) (s : State) : State :=
  let f := s.faults
  let n := f.eastBuf.length
  if (r.severity ≤ 1 ∧ n < 56) ∨ (r.severity ≥ 2 ∧ n < 64) then
    let s := onFaults (fun f => { f with eastBuf := f.eastBuf ++ [r], eastDrop := f.eastDrop.filter (· ≠ r.cls) }) s
    seamSend false 6 (eastMessage r) s
  else if r.severity ≤ 1 then
    onFaults (fun f => { f with eastDrop := if f.eastDrop.contains r.cls then f.eastDrop else r.cls :: f.eastDrop
                                lost := satTo 8 (f.lost + 1) }) s
  else
    let k := r.kind * 256 + r.inst
    match f.eastHold.find? (fun e => e.1 == k) with
    | some (_, w) =>
      let merged := { w with severity := max w.severity r.severity, count := satTo 32 (w.count + 1) }
      onFaults (fun f => { f with eastHold := tinsert f.eastHold k merged }) s
    | none => onFaults (fun f => { f with eastHold := tinsert f.eastHold k r }) s

/-! ## Severity actions (R378) -/

/-- A dispatched command is ended with a status that an earlier failure, a halt, a destruction or a reset gives it; a
command that failed on its own keeps its status. -/
def InFlight.kill (st : Nat) (c : InFlight) : InFlight :=
  match c.phase with
  | .ended e => if e ≠ 0 ∨ c.killed ≠ 0 then c else { c with killed := st }
  | .running => if c.killed ≠ 0 then c else { c with killed := st }

/-- The commands of a queue that were fetched and not dispatched. -/
def Queue.undispatched (q : Queue) : List Bytes :=
  (match q.atDispatch with
   | some d => [d.cmd]
   | none => []) ++ q.fetched

/-- A queue stops: fetch stops, undispatched commands are discarded, dispatched ones from serial `from_` on end with
`st` (R302). -/
def Queue.stop (st from_ : Nat) (q : Queue) : Queue :=
  { q with state := if q.state = .active then .stopped else q.state
           discarded := q.discarded ++ q.undispatched.map (fun c => (st, c)), fetched := [], atDispatch := none
           inflight := q.inflight.map (fun c => if c.serial ≥ from_ then c.kill st else c) }

/-- The indices of an owner's queues. -/
def queuesOf (s : State) (p : Nat) : List Nat :=
  (s.fe.queues.filter (fun e => e.2.part == p && e.2.state != .absent)).map Prod.fst

/-- The numbers of an owner's pilots. -/
def pilotsOf (s : State) (p : Nat) : List Nat :=
  (s.fe.pilots.filter (fun e => e.2.part == p && e.2.state != .absent)).map Prod.fst

/-- A pilot fails with a status: its queued items are discarded and counted, its fence owes the error word (R311). -/
def failPilot (pi st : Nat) (s : State) : State :=
  let p := pilotAt s pi
  if p.state = .absent ∨ p.state = .failed then s else
  let s := modCounters p.part (fun c => { c with dropped := tset 0 c.dropped p.n (satTo 64 (tget 0 c.dropped p.n + p.items.length)) }) s
  let s := setPilot pi { p with state := if p.state = .stopping then .stopping else .failed
                                items := [], owed := if p.owed = 0 then st else p.owed } s
  if p.current.isSome ∧ p.task ≠ 0 then modTask p.task (fun t => { t with aborting := true }) s else s

/-- A partition's TDI enters ERROR from CONFIG_LOCKED and RUN (R253). -/
def tdiError (p : Nat) (s : State) : State :=
  modPart p (fun x => { x with tdi := if x.tdi = .configLocked ∨ x.tdi = .run then .error else x.tdi }) s

/-- An owner's queues stop and every unretired command ends with RESET_LOST (R264, R378). -/
def stopOwner (p : Nat) (s : State) : State :=
  let s := (queuesOf s p).foldl (fun s k =>
    modQueue k (fun q => if q.inflight = [] ∧ q.undispatched = [] then
      { q with state := if q.state = .active then .stopped else q.state } else q.stop stResetLost 0) s) s
  (pilotsOf s p).foldl (fun s k => failPilot k stResetLost s) s

/-- A partition halts (R264): only an ACTIVE one does. -/
def haltPartition (p : Nat) (s : State) : State :=
  let s := tdiError p s
  if (partAt s p).state ≠ .active then s else
  let s := stopOwner p (modPart p (fun x => { x with state := .halted }) s)
  let a := unstatedBytes 16 s
  let s := { s with free := s.free + 16 }
  postEvent 16 evPartitionHalted a (postEvent p evPartitionHalted a s)

/-- The manager's queues stop (R378, R302): nothing further is dispatched, dispatched commands run on. -/
def stopManager (s : State) : State :=
  (queuesOf s 16).foldl (fun s k => modQueue k (fun q => q.stop stQueueStopped q.serial) s) s

/-- The key of a snuffable domain: lantern l at l, link port p at 100 + p. -/
def snuffKey (kind inst : Nat) : Nat := if kind = kindLink then 100 + inst else inst

/-- A block reset falls due, with its FH_LAST_RESET type and cause; the first cause stands. -/
def dueBlockReset (type : Nat) (cause : Option FaultRec) (dump : Bool) (s : State) : State :=
  if s.faults.blockDue.isSome then s else
  onFaults (fun f => { f with blockDue := some type, cause := cause, blockDump := dump }) s

/-- The severity action of a record (R378). -/
def faultAction (r : FaultRec) (s : State) : State :=
  match r.severity with
  | 2 => if r.part < 16 then haltPartition r.part s else if r.part = 0xFE then stopManager s else s
  | 3 => modSnuff (snuffKey r.kind r.inst) (fun x => { x with due := true }) s
  | 4 => dueBlockReset (if r.cls = clsVigil then 3 else 1) (some r) true s
  | 5 => onFaults (fun f => { f with terminalDue := true }) s
  | _ => s

/-- A detected fault is recorded by the hub of its source and acted on (R372, R378). Levels 0 and 1 are acknowledged as
they are written (R379). -/
def recordFault (a : FaultArg) (s : State) : State :=
  let (e, s) := match a.err with
    | some e => (e, s)
    | none => newErr s
  let lvl := appliedLevel s a
  let inj := s.faults.injected.contains a.cls
  let r := formRecord s { a with err := some e, injected := a.injected || inj } e lvl
  let s := if inj then onFaults (fun f => { f with injected := f.injected.erase a.cls }) s else s
  let k := sourceKey a.cls a.kind a.inst
  let s := onFaults (fun f => { f with since := if lvl ≤ 1 then tset 0 f.since k 0 else tset 0 f.since k r.count }) s
  let s := if kindEast s a.kind a.inst then eastRecord r s else storeRecord r s
  faultAction r s

/-- The status and level a class takes by default, for a fault whose raising rule names only its class. -/
def simpleFault (cls kind inst : Nat) (s : State) : State :=
  recordFault { cls := cls, kind := kind, inst := inst, status := classStatus cls } s

end Sys2Proof.Machine
end

