-- ==== Sys2Proof/Machine/Address.lean ====
section
/-! DEFINITION. Address decode (R34, R37 to R39, R72), key IDs and slot states (R35, R36, R237, R70), carve-outs (R263)
and the order of the checks (R529). -/
namespace Sys2Proof.Machine

/-- Where a domain address lies: a lantern and its local address, or a capacity port and its port address. -/
inductive Place where
  | stacked (l la : Nat)
  | capacity (c pa : Nat)
  deriving DecidableEq, Repr

/-- The key ID of a request address: bits [59:48]. -/
def keyOf (addr : Nat) : Nat := bits addr 59 48

/-- The domain address: bits [47:0]. -/
def domainOf (addr : Nat) : Nat := addr % 2 ^ 48

/-- A request address of a key ID and a domain address. -/
def reqAddr (k a : Nat) : Nat := k * 2 ^ 48 + a

/-- The first capacity domain address (R34). -/
def capBase : Nat := 0x010000000000

/-- The lantern and lantern-local address of a stacked domain address (R37). -/
def placeStacked (s : State) (a : Nat) : Place :=
  let n := s.build.lanterns
  let w := windowEnd s
  let h := homeGib s * 2 ^ 30
  if a < w then .stacked ((a / 4096) % n) (a / 4096 / n * 4096 + a % 4096)
  else .stacked ((a - w) / h) ((48 - homeGib s) * 2 ^ 30 + (a - w) % h)

/-- The capacity port and port address of a capacity domain address (R39). -/
def placeCapacity (s : State) (a : Nat) : Place :=
  let ca := a - capBase
  let p := s.build.caps
  .capacity ((ca / 4096) % p) (ca / 4096 / p * 4096 + ca % 4096)

/-- The decode of R34; none where the address is unmapped. -/
def place (s : State) (a : Nat) : Option Place :=
  if a < 2 ^ 30 * (48 * s.build.lanterns) then some (placeStacked s a)
  else if capBase ≤ a ∧ a < capBase + 2 ^ 30 * (240 * s.build.caps) then some (placeCapacity s a)
  else none

/-- The domain address of a lantern-local address: the inverse of R37. -/
def domainOfLocal (s : State) (l la : Nat) : Nat :=
  let n := s.build.lanterns
  let il := (48 - homeGib s) * 2 ^ 30
  if la < il then (la / 4096 * n + l) * 4096 + la % 4096
  else windowEnd s + l * (homeGib s * 2 ^ 30) + (la - il)

/-- The domain address of a port address: the inverse of R39. -/
def domainOfPort (s : State) (c pa : Nat) : Nat :=
  capBase + (pa / 4096 * s.build.caps + c) * 4096 + pa % 4096

/-- The domain address at an offset of lantern `l`'s home window. -/
def homeAddr (s : State) (l off : Nat) : Nat := windowEnd s + l * (homeGib s * 2 ^ 30) + off

/-- The valid page-remap entry of a lantern-local page (R73). -/
def remapOf (s : State) (l page : Nat) : Option RemapEntry :=
  ((lanternAt s l).remap.find? (fun e => e.2.valid && e.2.page == page)).map Prod.snd

/-- The channel and channel-local address of a lantern-local address (R38), or of its spare page (R72). -/
def channelOf (s : State) (l la : Nat) : Nat × Nat :=
  match remapOf s l (la / 4096) with
  | some e => (16 * (e.spare % 4) + bits la 11 8, 0x30000000 + 256 * (e.spare / 4) + la % 256)
  | none => (bits la 13 8, la / 2 ^ 14 * 256 + la % 256)

/-- The place of a byte of lantern `l` in State.mem.stacked. -/
def stackKey (l ch local_ : Nat) : Nat := l * 2 ^ 36 + ch * 2 ^ 30 + local_

/-- The place of a lantern-local address in State.mem.stacked. -/
def stackAddr (s : State) (l la : Nat) : Nat :=
  let c := channelOf s l la
  stackKey l c.1 c.2

/-- The place of a port address in State.mem.capacity. -/
def capKey (c pa : Nat) : Nat := c * 2 ^ 38 + pa

/-! ## Requests -/

/-- Who asks: the partition (16 the manager) that a fault names, whether Eonal asks on its own account (exempt from
R36 and R263), the record's MASTER, ACCESS, MASTER_ID, KIND and INSTANCE, engine bits needed beside the tier's, whether it is a wick's read, which the lantern buffer may serve (R45). -/
structure Req where
  part     : Nat
  own      : Bool := false
  master   : Nat := 0
  access   : Nat := 0
  masterId : Nat := 0
  kind     : Nat := kindFrontEnd
  inst     : Nat := 0
  engines  : Nat := 0
  wick     : Bool := false
  deadline : Nat := 0
  deriving DecidableEq, Repr

/-- The life-cycle state that access decisions take from the shadow (R438). -/
def lcState (s : State) : Nat :=
  let st := s.trust.shadow.headD 0
  if s.lc.intent = 3 ∨ st = 0xFF then 3 else st

/-- Whether partition `p` holds a grant on a slot, for the access (R251). -/
def granted (s : State) (k p : Nat) (write : Bool) : Bool :=
  s.keys.grants.any (fun g => g.slot == k && g.part == p && !g.closing && (g.write || !write))

/-- Whether any partition holds a grant on a slot. -/
def isShared (s : State) (k : Nat) : Bool := (slotAt s k).owner == 16 && s.keys.grants.any (fun g => g.slot == k)

/-- The engine bits a place needs: STACKED 1, CAPACITY 2 (R36). -/
def Place.engine : Place → Nat
  | .stacked _ _ => 1
  | .capacity _ _ => 2

/-- The status a slot's state gives a request that names it (R237). -/
def slotStatus (k : KeySlot) : Nat :=
  match k.state with
  | .active | .rotateFrom | .rotateTo | .aliased => stOk
  | .retired => stKeyRetired
  | .expired => stKeyExpired
  | .exhausted => stKeyUseExhausted
  | .bad => stKeySlotBad
  | .empty => stKeyIdDenied

/-- Whether an East unit lacks a key: its mirror holds none of the slot, or not yet (R19). Key 0xFFF is no slot. -/
def eastLacks (s : State) (k : Nat) : Place → Bool
  | .stacked l _ => !lanternWest s l && k ≠ 0xFFF && !(mirrorAt s k).held
  | .capacity c _ => !capWest s c && k ≠ 0xFFF && !(mirrorAt s k).held

/-- The key-ID check of R35, R36, R251, then the state of the slot (R529 step 2). A key that has not reached East is no key there (R19);
its status is DESIGN CHOICE (notes/assumptions/78.md). -/
def keyStatus (s : State) (r : Req) (k : Nat) (write : Bool) (pl : Place) : Nat :=
  let sl := slotAt s k
  if k = 0 then (if r.own ∧ ¬ eastLacks s 0 pl then stOk else stKeyIdDenied)
  else if k = 0xFFF then
    (if lcState s = 1 ∧ pl.engine = 1 ∧ (r.part = 16 ∨ r.own) then stOk else stKeyIdDenied)
  else if 0x400 ≤ k then stKeyIdDenied
  else if sl.cls ≠ .memory ∨ sl.state = .empty ∨ sl.draining then stKeyIdDenied
  else if ¬ r.own ∧ sl.owner ≠ r.part ∧ ¬ granted s k r.part write then stKeyIdDenied
  else if ¬ ((if r.own then pl.engine else pl.engine ||| r.engines) &&& sl.engines.toNat =
      (if r.own then pl.engine else pl.engine ||| r.engines)) then stKeyIdDenied
  else if slotStatus sl = stOk ∧ eastLacks s k pl then stKeyIdDenied
  else slotStatus sl

/-- Whether a place lies in an owner's carve-outs (R263). -/
def inCarveout (s : State) (p a : Nat) (pl : Place) : Bool :=
  match pl with
  | .stacked _ la =>
    if a < windowEnd s then
      pdef s p 32 4 * mib2 ≤ a && a < (pdef s p 32 4 + pdef s p 36 4) * mib2
    else
      let h := la - (48 - homeGib s) * 2 ^ 30
      pdef s p 40 4 * mib2 ≤ h && h < (pdef s p 40 4 + pdef s p 44 4) * mib2
  | .capacity _ _ =>
    pdef s p 48 4 * mib2 ≤ a - capBase && a - capBase < (pdef s p 48 4 + pdef s p 52 4) * mib2

/-- The owner whose carve-out a request is checked against: the manager for a granted manager-owned key ID. -/
def carveOwner (s : State) (part k : Nat) : Nat :=
  if part < 16 ∧ (slotAt s k).owner = 16 ∧ 0 < k ∧ k < 0x400 then 16 else part

/-- The outcome of the checks of R529: the status, the class of the fault recorded with it (0 none), the place. -/
structure Checked where
  status : Nat
  cls    : Nat := 0
  pl     : Place := .stacked 0 0
  deriving DecidableEq, Repr

/-- Whether lantern `l` is fenced in both halves by a snuff (R388, R389). -/
def lanternSnuffed (s : State) (l : Nat) : Bool := (snuffAt s l).fencedW && (snuffAt s l).fencedE

/-- Whether a place lies in a snuffed domain. -/
def placeSnuffed (s : State) : Place → Bool
  | .stacked l _ => lanternSnuffed s l
  | .capacity _ _ => false

/-- Whether a place lies at a capacity port that was refused for its FORMAT (R49). -/
def placeRefused (s : State) : Place → Bool
  | .stacked _ _ => false
  | .capacity c _ => (capAt s c).refused

/-- The checks of R529, in order: address, key ID, carve-out; then the fence of a snuffed lantern (R388) and a port that was not
brought up (R49). DESIGN CHOICE (notes/assumptions/79.md): a request to such a port takes VERSION, the status the engine reports at boot;
R49 names none. -/
def checkReq (s : State) (r : Req) (addr : Nat) (write : Bool) : Checked :=
  let a := domainOf addr
  match (if addr / 2 ^ 60 ≠ 0 then none else place s a) with
  | none => { status := stAddressUnmapped, cls := clsUnmapped }
  | some pl =>
    let k := keyOf addr
    let ks := keyStatus s r k write pl
    if ks ≠ stOk then { status := ks, cls := if ks = stKeyIdDenied then clsAccessDenied else 0, pl := pl }
    else if ¬ r.own ∧ ¬ inCarveout s (carveOwner s r.part k) a pl then
      { status := stCarveoutDenied, cls := clsAccessDenied, pl := pl }
    else if placeSnuffed s pl then { status := stDomainSnuffed, pl := pl }
    else if placeRefused s pl then { status := stVersion, pl := pl }
    else { status := stOk, pl := pl }

/-- The fault of a refused request (R34, R36, R263): UNMAPPED and ACCESS_DENIED name the unit that received it. -/
def recordDenied (r : Req) (addr : Nat) (c : Checked) (s : State) : State :=
  if c.cls = 0 then s else
  recordFault { cls := c.cls, kind := r.kind, inst := r.inst, status := c.status, part := r.part, master := r.master
                access := r.access, addr := addr, masterId := r.masterId } s

/-! ## The key a request uses (R67, R69) -/

/-- The unit of a place and its local address. -/
def Place.unit : Place → MemUnit
  | .stacked l _ => .lantern l
  | .capacity c _ => .capacity c

def Place.local : Place → Nat
  | .stacked _ la => la
  | .capacity _ pa => pa

/-- Whether a local address lies in a sweep unit's segments. -/
def SweepUnit.covers (u : SweepUnit) (x : Nat) : Bool := u.segs.any (fun g => g.1 ≤ x && x < g.2)

/-- The rotation that key ID `k` takes part in, with the share of a place's unit, where the place is in its range. -/
def rotationOf (s : State) (k : Nat) (pl : Place) : Option (Rotation × SweepUnit) :=
  (s.path.rotations.find? (fun e => e.2.active && (e.2.a == k || e.2.b == k) &&
    e.2.units.any (fun u => u.unit == pl.unit && u.covers pl.local))).bind
    (fun e => (e.2.units.find? (fun u => u.unit == pl.unit)).map (fun u => (e.2, u)))

/-- The key ID whose key a request uses. -/
def effectiveKey (s : State) (k : Nat) (pl : Place) : Nat :=
  match rotationOf s k pl with
  | some (r, u) => if r.aliased ∨ u.done ∨ pl.local < u.watermark then r.b else r.a
  | none => k

/-- Whether the place lies in a chunk that is being swept under the key (R67). -/
def chunkOpen (s : State) (k : Nat) (pl : Place) : Bool :=
  match rotationOf s k pl with
  | some (_, u) => u.open_ && u.watermark ≤ pl.local && pl.local < u.watermark + 4096
  | none => false

/-! ## The lantern buffer (R45, R69) -/

/-- Whether a request naming key ID `k` matches an entry tagged `t`: the same ID, or both IDs of a rotation whose range holds the place,
during its sweep and its aliasing (R69). -/
def tagMatches (s : State) (t k : Nat) (pl : Place) : Bool :=
  t == k || (match rotationOf s k pl with
    | some (r, _) => t == r.a || t == r.b
    | none => false)

/-- The entry of lantern `l`'s buffer that a wick's read of a sector may see: filled by a task of its partition, under the key ID it names
or an alias of it (R45). -/
def bufferHit (s : State) (r : Req) (l la a k : Nat) : Option Bytes :=
  if ¬ r.wick then none else
  ((lanternAt s l).buffer.find? (fun e => e.addr == a && e.part == r.part && tagMatches s e.key k (.stacked l la))).map (fun e => e.data)

/-- Entries of a lantern's buffer that a test picks are invalid. -/
def dropEntries (l : Nat) (f : BufEntry → Bool) (s : State) : State :=
  if (lanternAt s l).buffer.any f then modLantern l (fun x => { x with buffer := x.buffer.filter (fun e => !f e) }) s else s

/-- Entries that a test picks are invalid in every lantern buffer. -/
def dropAllEntries (f : BufEntry → Bool) (s : State) : State :=
  onPath (fun p => { p with lanterns := p.lanterns.map (fun e => (e.1, { e.2 with buffer := e.2.buffer.filter (fun x => !f x) })) }) s

/-- Sectors the buffer holds beside the import area of 1 MiB (R250, R260). -/
def bufferSectors : Nat := 49152

/-- A sector that a wick read enters its lantern's buffer. DESIGN CHOICE (notes/assumptions/80.md): which reads bring an entry in (a wick's
read of a sound stacked sector, so that no entry bears a mark) and which entry gives way (the oldest); R45 states neither. -/
def fillBuffer (r : Req) (l a k : Nat) (d : Bytes) (s : State) : State :=
  if ¬ r.wick then s else
  modLantern l (fun x => { x with buffer := ⟨r.part, k, a, d⟩ :: (x.buffer.filter (fun e => !(e.addr == a && e.part == r.part && e.key == k))).take (bufferSectors - 1) }) s

/-- The slot key as the half of a unit holds it: the key store in West, the mirror in East (R18, R19). -/
def slotKey (s : State) (west : Bool) (k : Nat) : Bytes := if west then (slotAt s k).key else (mirrorAt s k).key

/-- The slots whose keys the link engines of East keep working copies of: the transit key and the sealed keys (R20, R193, R212). -/
def linkEngineSlots : List Nat := [1026, 1029, 1030]

/-- Such a key as the link engines of a half hold it: the key store's in West, the working copy in East, which belongs to the Link domain
and survives a block reset (R20). -/
def engineKey (s : State) (west : Bool) (k : Nat) : Bytes := if west then (slotAt s k).key else tget [] s.fabric.linkKeys k

/-- The East link engines' copy of a slot, where they keep one. -/
def setEngineKey (k : Nat) (b : Bytes) (s : State) : State :=
  if linkEngineSlots.contains k then onFabric (fun f => { f with linkKeys := tset [] f.linkKeys k b }) s else s

/-- Whether the half of a place is West. -/
def placeWest (s : State) : Place → Bool
  | .stacked l _ => lanternWest s l
  | .capacity c _ => capWest s c

/-- Whether a page is quarantined (R393). -/
def quarantined (s : State) (l page : Nat) : Bool := (lanternAt s l).quarantine.any (fun q => q.page == page)

/-- Whether a write to an address must wait: its chunk is being swept or its page is quarantined (R67, R393). -/
def writeWaits (s : State) (addr : Nat) : Bool :=
  match place s (domainOf addr) with
  | some pl => chunkOpen s (keyOf addr) pl || (match pl with
    | .stacked l la => quarantined s l (la / 4096)
    | .capacity _ _ => false)
  | none => false

/-- Whether a read of an address must wait: its chunk is being swept. -/
def readWaits (s : State) (addr : Nat) : Bool :=
  match place s (domainOf addr) with
  | some pl => chunkOpen s (keyOf addr) pl
  | none => false

end Sys2Proof.Machine
end

