-- ==== Sys2Proof/Machine/Aes.lean ====
section
/-! DEFINITION. AES-256 (FIPS 197), XTS-AES-256 over 64 B sectors and AES-256-GCM (SP 800-38D), as the cipher front,
the capacity engines, the seam, the records and the links use them. -/
namespace Sys2Proof.Machine

/-- The S-box of AES, entry `x` in bits 8x+7 down to 8x. -/
def sboxTable : Nat :=
  (0x16bb54b00f2d99416842e6bf0d89a18cdf2855cee9871e9b948ed9691198f8e1 <<< 1792) |||
  (0x9e1dc186b95735610ef6034866b53e708a8bbd4b1f74dde8c6b4a61c2e2578ba <<< 1536) |||
  (0x08ae7a65eaf4566ca94ed58d6d37c8e779e4959162acd3c25c2406490a3a32e0 <<< 1280) |||
  (0xdb0b5ede14b8ee4688902a22dc4f816073195d643d7ea7c41744975fec130ccd <<< 1024) |||
  (0xd2f3ff1021dab6bcf5389d928f40a351a89f3c507f02f94585334d43fbaaefd0 <<< 768) |||
  (0xcf584c4a39becb6a5bb1fc20ed00d153842fe329b3d63b52a05a6e1b1a2c8309 <<< 512) |||
  (0x75b227ebe28012079a059618c323c7041531d871f1e5a534ccf73f362693fdb7 <<< 256) |||
  (0xc072a49cafa2d4adf04759fa7dc982ca76abd7fe2b670130c56f6bf27b777c63 <<< 0)

/-- SubBytes of one byte. -/
def aesSub (x : Byte) : Byte := BitVec.ofNat 8 (sboxTable >>> (8 * x.toNat))

/-- Multiplication by x in GF(2^8). -/
def xtime (b : Byte) : Byte := if b.msb then (b <<< 1) ^^^ 0x1B#8 else b <<< 1

/-- One column through MixColumns. -/
def mixColumn (a b c d : Byte) : Bytes :=
  [xtime a ^^^ (xtime b ^^^ b) ^^^ c ^^^ d, a ^^^ xtime b ^^^ (xtime c ^^^ c) ^^^ d,
   a ^^^ b ^^^ xtime c ^^^ (xtime d ^^^ d), (xtime a ^^^ a) ^^^ b ^^^ c ^^^ xtime d]

/-- MixColumns over 16 bytes. -/
def mixColumns : Bytes → Bytes
  | a :: b :: c :: d :: rest => mixColumn a b c d ++ mixColumns rest
  | _ => []

/-- ShiftRows over 16 bytes in column order. -/
def shiftRows (b : Bytes) : Bytes :=
  [0, 5, 10, 15, 4, 9, 14, 3, 8, 13, 2, 7, 12, 1, 6, 11].map (fun i => b.getD i 0)

/-- The inverse of ShiftRows. -/
def invShiftRows (b : Bytes) : Bytes :=
  [0, 13, 10, 7, 4, 1, 14, 11, 8, 5, 2, 15, 12, 9, 6, 3].map (fun i => b.getD i 0)

/-- The inverse of SubBytes: entry `x` of the inverse table. -/
def invSboxTable : Nat :=
  (0x7d0c2155631469e126d677ba7e042b17619953833cbbebc8b0f52aae4d3be0a0 <<< 1792) |||
  (0xef9cc9939f7ae52d0d4ab519a97f51605fec8027591012b131c7078833a8dd1f <<< 1536) |||
  (0xf45acd78fec0db9a2079d2c64b3e56fc1bbe18aa0e62b76f89c5291d711af147 <<< 1280) |||
  (0x6edf751ce837f9e28535ade72274ac9673e6b4f0cecff297eadc674f4111913a <<< 1024) |||
  (0x6b8a130103bdafc1020f3fca8f1e2cd00645b3b80558e4f70ad3bc8c00abd890 <<< 768) |||
  (0x849d8da75746155edab9edfd5048706c92b6655dcc5ca4d41698688664f6f872 <<< 512) |||
  (0x25d18b6d49a25b76b224d92866a12e084ec3fa420b954cee3d23c2a632947b54 <<< 256) |||
  (0xcbe9dec444438e3487ff2f9b8239e37cfbd7f3819ea340bf38a53630d56a0952 <<< 0)

/-- InvSubBytes of one byte. -/
def aesInvSub (x : Byte) : Byte := BitVec.ofNat 8 (invSboxTable >>> (8 * x.toNat))

/-- The key schedule of AES-256: words of 4 bytes, newest first. `n` words are still to come, `i` is the index of the
next one. -/
def expandKey : Nat → Nat → Byte → List Bytes → List Bytes
  | 0, _, _, ws => ws
  | n + 1, i, rcon, ws =>
    let prev := ws.headD []
    let old := ws.getD 7 []
    if i % 8 = 0 then
      let r := xorBytes ((prev.drop 1 ++ prev.take 1).map aesSub) [rcon, 0, 0, 0]
      expandKey n (i + 1) (xtime rcon) (xorBytes old r :: ws)
    else if i % 8 = 4 then expandKey n (i + 1) rcon (xorBytes old (prev.map aesSub) :: ws)
    else expandKey n (i + 1) rcon (xorBytes old prev :: ws)

/-- The 15 round keys of a 32 B key. -/
def roundKeys (key : Bytes) : List Bytes :=
  let ws := (expandKey 52 8 0x01#8 ((chunks 4 (fit 32 key)).reverse)).reverse
  (List.range 15).map (fun r => (List.range 4).flatMap (fun j => ws.getD (4 * r + j) []))

/-- The rounds after the first key addition; the last has no MixColumns. -/
def aesRounds : List Bytes → Bytes → Bytes
  | [], b => b
  | [k], b => xorBytes (shiftRows (b.map aesSub)) k
  | k :: ks, b => aesRounds ks (xorBytes (mixColumns (shiftRows (b.map aesSub))) k)

/-- One block under expanded keys. -/
def aesWith (ks : List Bytes) (b : Bytes) : Bytes := aesRounds (ks.drop 1) (xorBytes (fit 16 b) (ks.headD []))

/-- Encryption of one 16 B block under a 32 B key. -/
def aesEncrypt (key b : Bytes) : Bytes := aesWith (roundKeys key) b

/-- InvMixColumns: MixColumns three times. -/
def invMixColumns (b : Bytes) : Bytes := mixColumns (mixColumns (mixColumns b))

/-- The decryption rounds, with the round keys last first. -/
def aesInvRounds : List Bytes → Bytes → Bytes
  | [], b => b
  | [k], b => xorBytes ((invShiftRows b).map aesInvSub) k
  | k :: ks, b => aesInvRounds ks (invMixColumns (xorBytes ((invShiftRows b).map aesInvSub) k))

/-- Decryption of one 16 B block under a 32 B key. -/
def aesDecrypt (key b : Bytes) : Bytes :=
  let ks := (roundKeys key).reverse
  aesInvRounds (ks.drop 1) (xorBytes (fit 16 b) (ks.headD []))

/-! ## XTS over a 64 B sector (R41) -/

/-- Multiplication of an XTS tweak by alpha (bytes least significant first). -/
def xtsDouble (t : Bytes) : Bytes :=
  let v := leNat t
  le 16 (if v.testBit 127 then ((2 * v) % 2 ^ 128) ^^^ 0x87 else 2 * v)

/-- The blocks of a data unit under `f`, each with its tweak. -/
def xtsBlocks (f : Bytes → Bytes) : Bytes → List Bytes → Bytes
  | _, [] => []
  | t, b :: bs => xorBytes (f (xorBytes b t)) t ++ xtsBlocks f (xtsDouble t) bs

/-- XTS-AES-256 encryption of whole blocks: key pair (data key, tweak key), tweak number. -/
def xtsEncrypt (k1 k2 : Bytes) (tweak : Nat) (p : Bytes) : Bytes :=
  xtsBlocks (aesEncrypt k1) (aesEncrypt k2 (le 16 tweak)) (chunks 16 p)

/-- XTS-AES-256 decryption of whole blocks. -/
def xtsDecrypt (k1 k2 : Bytes) (tweak : Nat) (c : Bytes) : Bytes :=
  xtsBlocks (aesDecrypt k1) (aesEncrypt k2 (le 16 tweak)) (chunks 16 c)

/-! ## GCM -/

/-- Product in GF(2^128) as GCM numbers it (bit 127 of a number is the coefficient of 1): `n` bits of `x` are left. -/
def gfMulLoop : Nat → Nat → Nat → Nat → Nat
  | 0, _, _, z => z
  | n + 1, x, v, z =>
    let z' := if x.testBit n then z ^^^ v else z
    let v' := if v.testBit 0 then (v >>> 1) ^^^ (0xE1 <<< 120) else v >>> 1
    gfMulLoop n x v' z'

/-- GHASH over whole blocks. -/
def ghash (h : Nat) (bs : Bytes) : Nat :=
  (chunks 16 bs).foldl (fun y b => gfMulLoop 128 (y ^^^ beNat (fit 16 b)) h 0) 0

/-- Fill with zero bytes to a multiple of 16. -/
def pad16 (bs : Bytes) : Bytes := bs ++ zeros ((16 - bs.length % 16) % 16)

/-- The key stream from a counter block on. -/
def ctrStream (ks : List Bytes) (iv : Bytes) : Nat → Nat → Bytes
  | 0, _ => []
  | n + 1, c => aesWith ks (iv ++ be 4 c) ++ ctrStream ks iv n (c + 1)

/-- CTR mode of GCM: the payload starts at counter 2. -/
def gcmCtr (ks : List Bytes) (iv p : Bytes) : Bytes :=
  xorBytes p (ctrStream ks iv ((p.length + 15) / 16) 2)

/-- The 16 B tag over AAD and ciphertext. -/
def gcmTagOf (ks : List Bytes) (iv aad c : Bytes) : Bytes :=
  let h := beNat (aesWith ks (zeros 16))
  let g := ghash h (pad16 aad ++ pad16 c ++ be 8 (8 * aad.length) ++ be 8 (8 * c.length))
  xorBytes (be 16 g) (aesWith ks (iv ++ be 4 1))

/-- AES-256-GCM encryption with a 12 B IV: ciphertext and 16 B tag. -/
def gcmSeal (key iv aad p : Bytes) : Bytes × Bytes :=
  let ks := roundKeys key
  let c := gcmCtr ks iv p
  (c, gcmTagOf ks iv aad c)

/-- AES-256-GCM decryption: the plaintext, if the first `tag.length` bytes of the tag match. -/
def gcmOpen (key iv aad c tag : Bytes) : Option Bytes :=
  let ks := roundKeys key
  if (gcmTagOf ks iv aad c).take tag.length = tag then some (gcmCtr ks iv c) else none

end Sys2Proof.Machine
end

