-- ==== Sys2Proof/Machine/Mem.lean ====
section
/-! DEFINITION. Reads and writes of both memory tiers as the cipher fronts and capacity engines make them: XTS sectors
(R40 to R44), poison and quarantine (R393, R394, R397), authenticated lines with their counters and metadata cache
(R46 to R56). -/
namespace Sys2Proof.Machine

/-! ## Codes and tags (R233, R235) -/

/-- CLASS code (R233). -/
def KeyClass.code : KeyClass → Nat
  | .empty => 0 | .firmware => 1 | .memory => 2 | .model => 3 | .domain => 4 | .internal => 5 | .management => 6
  | .transfer => 7 | .digest => 8

/-- STATE code (R233). -/
def KeyState.code : KeyState → Nat
  | .empty => 0 | .active => 1 | .rotateFrom => 2 | .rotateTo => 3 | .aliased => 4 | .retired => 5 | .expired => 6
  | .exhausted => 7 | .bad => 8

/-- OWNER byte: a partition, 0xFE the manager (owner index 16), 0xFF Stolaikor (17). -/
def ownerByte (o : Nat) : Nat := if o = 16 then 0xFE else if o = 17 then 0xFF else o

/-- Uses that are not counted. -/
def uncounted : Nat := 0xFFFFFFFFFFFF

/-- Bytes 32 to 47 of a slot (R233). -/
def KeySlot.attrs (k : KeySlot) : Bytes :=
  le 1 (if k.cls = .empty then 0 else 1) ++ le 1 k.cls.code ++ le 1 k.state.code ++ le 1 (ownerByte k.owner) ++ [k.engines, k.flags, k.target] ++
    zeros 1 ++ le 6 k.uses ++ zeros 2

/-- The slot-integrity key (R231). -/
def slotIntegrityKey (s : State) : Bytes := hkdf [] s.trust.rootSecret (ascii "EONAL-SLOT-1") 32

/-- The storage key (R231). -/
def storageKey (s : State) : Bytes := hkdf (sha384 s.ll.deviceIdPub) s.trust.rootSecret (ascii "EONAL-STORE-1") 32

/-- The tag of a slot (R235): over its number, its 32 B of key, zero once zeroised, and bytes 32 to 47. -/
def slotTag (s : State) (k : Nat) (v : KeySlot) : Bytes := (hmac (slotIntegrityKey s) (le 2 k ++ fit 32 v.key ++ v.attrs)).take 16

/-- Whether a slot's tag checks; a slot at its empty value has none. -/
def slotSound (s : State) (k : Nat) : Bool :=
  let v := slotAt s k
  v == {} || v.tag == slotTag s k v

/-- A slot changed, its tag recomputed (R235). -/
def putSlot (k : Nat) (v : KeySlot) (s : State) : State := setSlot k { v with tag := slotTag s k v } s

/-- A slot changed by a function, its tag recomputed. -/
def changeSlot (k : Nat) (f : KeySlot → KeySlot) (s : State) : State := putSlot k (f (slotAt s k)) s

/-! ## Stacked sectors -/

/-- The XTS key pair of a key ID (R40). -/
def xtsKeys (k : Nat) (key : Bytes) : Bytes × Bytes :=
  let d := hkdf [] key (ascii "EONAL-XTS-1" ++ le 2 k) 64
  (d.take 32, d.drop 32)

/-- One sector's ciphertext as it stands in the stack. -/
def rawSector (s : State) (l la : Nat) : Bytes := treads 0 s.mem.stacked (stackAddr s l la) 64

/-- The plaintext of a sector under key ID `k` (R41); the bypass key ID passes it unchanged (R35). -/
def openSector (s : State) (l la a k : Nat) : Bytes :=
  if k = 0xFFF then rawSector s l la
  else
    let p := xtsKeys k (slotKey s (lanternWest s l) k)
    xtsDecrypt p.1 p.2 (a / 64) (rawSector s l la)

/-- The ciphertext of a sector under key ID `k` (R41). -/
def sealSector (s : State) (l a k : Nat) (d : Bytes) : Bytes :=
  if k = 0xFFF then d
  else
    let p := xtsKeys k (slotKey s (lanternWest s l) k)
    xtsEncrypt p.1 p.2 (a / 64) d

/-- A poisoned run of bytes (R44). -/
def poisonBytes (n : Nat) : Bytes := List.replicate n Sys2Proof.Config.poisonByte

/-- Whether the poison table marks the sector (R397). -/
def poisonMarked (s : State) (l la : Nat) : Bool :=
  (lanternAt s l).poison.any (fun e => e.page == la / 4096 && e.mask.toNat.testBit (bits la 11 6))

/-- The sector's mark taken away; an entry whose mask is zero is freed (R397). -/
def clearPoison (l la : Nat) (s : State) : State :=
  if ¬ poisonMarked s l la then s else
  let keep : BitVec 64 := ~~~(1#64 <<< bits la 11 6)
  modLantern l (fun x => { x with poison := (x.poison.map (fun e =>
    if e.page = la / 4096 then { e with mask := e.mask &&& keep } else e)).filter (fun e => e.mask ≠ 0) }) s

/-- The fault of a stacked error (R373, R394): its class by whether the key ID is shared, its DETAIL the local and the
channel address. -/
def stackedFault (r : Req) (l la addr : Nat) (err : Option Nat) (injected : Bool) (s : State) : State :=
  let c := channelOf s l la
  recordFault { cls := if isShared s (keyOf addr) then clsStackedUeShared else clsStackedUe
                kind := kindLantern, inst := l, sub := c.1, status := stDataPoison, part := r.part, master := r.master
                access := r.access, addr := addr, masterId := r.masterId, detail := le 8 la ++ le 8 c.2
                injected := injected, err := err } s

/-- A sector came back with its uncorrectable-error flag: its page is quarantined (R393), the history of errors grows,
and the fault is recorded. -/
def newQuarantine (r : Req) (l la addr : Nat) (injected : Bool) (s : State) : State :=
  let (e, s) := newErr s
  let q : Quarantine := ⟨la / 4096, clock s (lanternWest s l), e, [r.part], isShared s (keyOf addr)⟩
  let s := modLantern l (fun x => { x with quarantine := x.quarantine ++ [q]
                                           ueLog := x.ueLog ++ [(la / 4096, clock s (lanternWest s l))] }) s
  stackedFault r l la addr (some e) injected s

/-- A partition consumes poison from a quarantined page: one record for each partition (R394). -/
def hitQuarantine (r : Req) (l la addr : Nat) (s : State) : State :=
  match (lanternAt s l).quarantine.find? (fun q => q.page == la / 4096) with
  | none => s
  | some q =>
    if q.hit.contains r.part then s else
    let s := modLantern l (fun x => { x with quarantine := x.quarantine.map (fun e =>
      if e.page = q.page then { e with hit := e.hit ++ [r.part] } else e) }) s
    stackedFault r l la addr (some q.origin) false s

/-- Whether an armed CHECK_BITS injection matches an access (R381). -/
def Injection.matches (i : Injection) (cls kind inst sub addr : Nat) : Bool :=
  i.mode == 0 && i.cls == cls && i.kind == kind && i.inst == inst && (i.sub == 0xFFFF || i.sub == sub) &&
    (i.addr == 0 || i.addr.toNat == addr)

/-- The first armed injection that matches, with the state after it counted the access. -/
def takeInjection (cls kind inst sub addr : Nat) (s : State) : Bool × State :=
  match s.faults.inject.find? (fun i => i.matches cls kind inst sub addr) with
  | none => (false, s)
  | some i =>
    let rest := s.faults.inject.erase i
    (true, onFaults (fun f => { f with inject := if i.count ≤ 1 then rest else { i with count := i.count - 1 } :: rest }) s)

/-- A check made on an access, with an injected failure noted for its record (R381). -/
def injectCheck (cls kind inst sub addr : Nat) (s : State) : Bool × State :=
  let (inj, s) := takeInjection cls kind inst sub addr s
  (inj, if inj then onFaults (fun f => { f with injected := f.injected ++ [cls] }) s else s)

/-- A sector as it is read: its bytes, whether it is poison, and the state after (R42, R44, R393, R397). `s0` is the state the
request met: a quarantine its own sectors began does not poison its others. -/
def readSector (r : Req) (ue : Ue) (s0 : State) (l la a addr : Nat) (s : State) : Bytes × Bool × State :=
  let k := effectiveKey s (keyOf addr) (.stacked l la)
  if quarantined s0 l (la / 4096) then (poisonBytes 64, true, hitQuarantine r l la addr s)
  else match bufferHit s r l la a (keyOf addr) with
  | some d => (d, false, s)
  | none =>
    let (inj, s) := takeInjection clsStackedUe kindLantern l (channelOf s l la).1 addr s
    let (shared, s) := if inj then (false, s) else takeInjection clsStackedUeShared kindLantern l (channelOf s l la).1 addr s
    let inj := inj || shared
    if inj ∨ ue.stacked.contains (stackAddr s l la) then
      (poisonBytes 64, true, if quarantined s l (la / 4096) then hitQuarantine r l la addr s else newQuarantine r l la addr inj s)
    else if poisonMarked s l la then (poisonBytes 64, true, s)
    else
      let d := openSector s l la a k
      (d, false, fillBuffer r l a (keyOf addr) d s)

/-- A sector's ciphertext under a key ID takes its place in the stack; its poison mark and what the lantern buffer holds of it go. -/
def storeSector (l la a k : Nat) (d : Bytes) (s : State) : State :=
  let c := sealSector s l a k d
  let s := { s with mem := { s.mem with stacked := twrites 0 s.mem.stacked (stackAddr s l la) c } }
  clearPoison l la (dropEntries l (fun e => e.addr == a) s)

/-- A whole sector is written (R43) under the key its key ID stands for (R67). -/
def writeSector (l la a k : Nat) (d : Bytes) (s : State) : State :=
  let s := if k = 0xFFF then modLantern l (fun x => { x with bypassSeen := true }) s else s
  storeSector l la a (effectiveKey s k (.stacked l la)) d s

/-! ## Capacity lines -/

/-- The GCM key of a key ID at a capacity engine (R46). -/
def capGcmKey (k : Nat) (key : Bytes) : Bytes := hkdf [] key (ascii "EONAL-CAP-1" ++ le 2 k) 32

/-- The IV of a line (R47): the block number of its first sector, then its counter, most significant byte first. -/
def capIv (a counter : Nat) : Bytes := be 12 (a / 256 * 4 * 2 ^ 48 + counter)

/-- The additional authenticated data of a line (R47). -/
def capAad (k c : Nat) : Bytes := be 2 k ++ be 1 c

/-- The greatest counter (R54). -/
def maxCounter : Nat := 2 ^ 48 - 1

/-- The mark of a LOST line (R55). -/
def lostEntry : MetaEntry := ⟨maxCounter, List.replicate 10 0xFF#8⟩

/-- The port address of the metadata part of a group of four lines (R48). -/
def metaAddr (group : Nat) : Nat := 0x003C00000000 + 64 * group

/-- The entries in 64 metadata bytes. -/
def metaOf (b : Bytes) : List MetaEntry :=
  (List.range 4).map (fun i => ⟨fld b (16 * i) 6, sub b (16 * i + 6) 10⟩)

/-- The 64 bytes of four entries. -/
def metaBytes (es : List MetaEntry) : Bytes := es.flatMap (fun e => le 6 e.counter ++ fit 10 e.tag)

/-- A dirty metadata line goes to memory. -/
def writeMeta (c : Nat) (m : MetaLine) (s : State) : State :=
  if ¬ m.dirty then s else
  { s with mem := { s.mem with capacity := twrites 0 s.mem.capacity (capKey c (metaAddr m.group)) (metaBytes m.entries) } }

/-- Lines a metadata cache holds: 2 MiB of 64 B. -/
def cacheLines : Nat := 32768

/-- A line enters the cache as the most recent; the oldest goes when the cache is full. During a power event a changed line is
written through (R498). -/
def cacheLine (c : Nat) (m : MetaLine) (s : State) : State :=
  let s := if (capAt s c).through then writeMeta c m s else s
  let m := { m with dirty := m.dirty && !(capAt s c).through }
  let rest := (capAt s c).cache.filter (fun x => x.group ≠ m.group)
  let out := rest.drop (cacheLines - 1)
  let s := out.foldl (fun s x => writeMeta c x s) s
  modCap c (fun x => { x with cache := m :: rest.take (cacheLines - 1) }) s

/-- Every dirty metadata line is written back (R56). -/
def flushMeta (c : Nat) (s : State) : State :=
  let s := (capAt s c).cache.foldl (fun s m => writeMeta c m s) s
  modCap c (fun x => { x with cache := x.cache.map (fun m => { m with dirty := false }) }) s

/-- ROTATION_DUE for a key ID (R53): the key is marked due and the event goes to the owner and the manager. -/
def dueTarget (s : State) (owner : Nat) : Nat :=
  let t := tget 0xFFFF s.keys.targets owner
  if t = 0xFFFF ∨ (slotAt s t).flags.toNat.testBit 1 then 0xFFFF else t

/-- The rotation-due event (R53). -/
def rotationDueEvent (k cause : Nat) (s : State) : State :=
  let o := (slotAt s k).owner
  let a := le 2 k ++ le 2 (dueTarget s o) ++ le 1 cause
  let s := if o < 16 then postEvent o evRotationDue a s else s
  postEvent 16 evRotationDue a s

/-- Mark a key ID rotation-due and raise the event. Starting the rotation is Stolaikor's step (Machine/Rotation.lean). -/
def markDue (k cause : Nat) (s : State) : State :=
  let s := onPath (fun p => { p with due := tset {} p.due k ⟨true, (slotAt s k).owner, cause, now s⟩ }) s
  rotationDueEvent k cause s

/-- The CAP_UE fault: DETAIL names the data line and the flagged part (R373). -/
def capUeFault (r : Req) (c line part addr : Nat) (s : State) : State :=
  recordFault { cls := clsCapUe, kind := kindCapacity, inst := c, status := stDataPoison, part := r.part
                master := r.master, access := r.access, addr := addr, masterId := r.masterId
                detail := le 8 line ++ le 8 part } s

/-- The metadata group of a line at port address `pa`, read through the cache. A metadata part with its flag set leaves
the four lines LOST, raises the rotation-due event with cause 1 and records CAP_UE (R55). The flag answers whether that
happened. -/
def loadMeta (r : Req) (ue : Ue) (c pa addr : Nat) (s : State) : MetaLine × Bool × State :=
  let g := pa / 1024
  match (capAt s c).cache.find? (fun m => m.group == g) with
  | some m => (m, false, cacheLine c m s)
  | none =>
    if ue.capacity.contains (capKey c (metaAddr g)) then
      let m : MetaLine := ⟨g, List.replicate 4 lostEntry, true⟩
      let s := markDue (keyOf addr) 1 (cacheLine c m s)
      (m, true, capUeFault r c (g * 1024) (metaAddr g) addr s)
    else
      let m : MetaLine := ⟨g, metaOf (treads 0 s.mem.capacity (capKey c (metaAddr g)) 64), false⟩
      (m, false, cacheLine c m s)

/-- The entry of a line within its group. -/
def MetaLine.at (m : MetaLine) (pa : Nat) : MetaEntry := m.entries.getD (pa / 256 % 4) ⟨0, zeros 10⟩

/-- A line's ciphertext at the port. -/
def rawLine (s : State) (c pa : Nat) : Bytes := treads 0 s.mem.capacity (capKey c (pa / 256 * 256)) 256

/-- The plaintext of a line and whether its tag checks under key ID `k` (R47); counter 0 fails (R51). -/
def openLine (s : State) (c pa a k : Nat) (e : MetaEntry) : Bytes × Bool :=
  let key := capGcmKey k (slotKey s (capWest s c) k)
  let ks := roundKeys key
  let iv := capIv a e.counter
  let ct := rawLine s c pa
  (gcmCtr ks iv ct, e.counter ≠ 0 && (gcmTagOf ks iv (capAad k c) ct).take 10 = e.tag)

/-- A line is written under key ID `k` with a counter (R51, R52), and its metadata entry with it; the slot of the key has CAP_USED (R233),
and its tag with it (R235). -/
def sealLine (c pa a k counter : Nat) (d : Bytes) (s : State) : State :=
  let key := capGcmKey k (slotKey s (capWest s c) k)
  let ks := roundKeys key
  let iv := capIv a counter
  let ct := gcmCtr ks iv d
  let e : MetaEntry := ⟨counter, (gcmTagOf ks iv (capAad k c) ct).take 10⟩
  let g := pa / 1024
  let m := ((capAt s c).cache.find? (fun m => m.group == g)).getD ⟨g, metaOf (treads 0 s.mem.capacity (capKey c (metaAddr g)) 64), false⟩
  let s := { s with mem := { s.mem with capacity := twrites 0 s.mem.capacity (capKey c (pa / 256 * 256)) ct } }
  let s := cacheLine c { m with entries := m.entries.set (pa / 256 % 4) e, dirty := true } s
  if (slotAt s k).flags.toNat.testBit 1 then s else changeSlot k (fun x => { x with flags := x.flags ||| 2#8 }) s

/-- The parts of a line (0 to 3) that came back with their flag set. -/
def lineUe (ue : Ue) (c pa : Nat) : Option Nat :=
  ((List.range 4).map (fun i => pa / 256 * 256 + 64 * i)).find? (fun p => ue.capacity.contains (capKey c p))

/-- The part of a line that is taken as flagged on this read, an injected one included. -/
def flaggedPart (ue : Ue) (c pa addr : Nat) (s : State) : Option Nat × State :=
  let (inj, s) := injectCheck clsCapUe kindCapacity c 0 addr s
  (if inj then some (pa / 256 * 256) else lineUe ue c pa, s)

/-- A line as it is read: plaintext, status of the data (OK, or DATA_POISON for a flagged or LOST line), whether the tag
checks, and the state after. -/
structure LineRead where
  data   : Bytes
  status : Nat
  pass   : Bool
  deriving DecidableEq, Repr

/-- One line read (R55). -/
def readLine (r : Req) (ue : Ue) (c pa addr : Nat) (s : State) : LineRead × State :=
  let a := domainOf addr
  let k := effectiveKey s (keyOf addr) (.capacity c pa)
  let (m, _, s) := loadMeta r ue c pa addr s
  let e := m.at pa
  if e = lostEntry then (⟨poisonBytes 256, stDataPoison, true⟩, s)
  else
    let (flagged, s) := flaggedPart ue c pa addr s
    match flagged with
    | some p => (⟨poisonBytes 256, stDataPoison, true⟩, capUeFault r c (pa / 256 * 256) p addr s)
    | none =>
      let (inj, s) := injectCheck clsCapTag kindCapacity c 0 addr s
      let (d, ok) := openLine s c pa a k e
      (⟨d, stOk, ok && !inj⟩, s)

/-- The CAP_TAG fault of a failed tag (R52, R63). -/
def capTagFault (r : Req) (c addr : Nat) (s : State) : State :=
  recordFault { cls := clsCapTag, kind := kindCapacity, inst := c, status := stIntegrityFail, part := r.part
                master := r.master, access := r.access, addr := addr, masterId := r.masterId } s

/-- A write refused because the line's counter is at its maximum (R54). -/
def counterEndFault (r : Req) (c addr : Nat) (s : State) : State :=
  recordFault { cls := clsCounterEnd, kind := kindCapacity, inst := c, status := stCounterExhausted, part := r.part
                master := r.master, access := r.access, addr := addr, masterId := r.masterId } s

/-- One line written, whole or in part (R52 to R54): its status and the state after. `be` gives the enabled bytes. -/
def writeLine (r : Req) (ue : Ue) (c pa addr : Nat) (d : Bytes) (be : List Bool) (s : State) : Nat × State :=
  let a := domainOf addr
  let k := effectiveKey s (keyOf addr) (.capacity c pa)
  let (m, _, s) := loadMeta r ue c pa addr s
  let e := m.at pa
  if e.counter = maxCounter then (stCounterExhausted, counterEndFault r c addr s)
  else
    let finish (plain : Bytes) (s : State) : Nat × State :=
      let s := sealLine c pa a k (e.counter + 1) plain s
      (stOk, if e.counter + 1 = 2 ^ 47 then markDue k 0 s else s)
    if be.all (fun b => b) then finish d s
    else
      let (flagged, s) := flaggedPart ue c pa addr s
      match flagged with
      | some p => (stDataPoison, capUeFault r c (pa / 256 * 256) p addr s)
      | none =>
        let (inj, s) := injectCheck clsCapTag kindCapacity c 0 addr s
        let (old, ok) := openLine s c pa a k e
        if ¬ ok ∨ inj then (stIntegrityFail, capTagFault r c addr s)
        else finish ((old.zip (d.zip be)).map (fun x => if x.2.2 then x.2.1 else x.1)) s

/-! ## Requests of any length -/

/-- The count of bytes under an owner's key IDs (R421). -/
def countBytes (k : Nat) (pl : Place) (n : Nat) (s : State) : State :=
  if k = 0 ∨ k = 0xFFF then s else
  modTotals (slotAt s k).owner (fun t => match pl with
    | .stacked _ _ => { t with stacked := satTo 64 (t.stacked + n) }
    | .capacity _ _ => { t with capacity := satTo 64 (t.capacity + n) }) s

/-- The resource a place's bandwidth is of, as R370 numbers it. -/
def Place.resource : Place → Nat
  | .stacked l _ => l
  | .capacity c _ => 40 + c

/-- A request with a deadline is issued (R357, R359): one whose deadline has passed counts as a miss of its partition and its resource, one
whose deadline lies less than URGENT_NS ahead or has passed as URGENT. -/
def countDeadline (r : Req) (pl : Place) (s : State) : State :=
  if r.deadline = 0 then s else
  let t := clock s (match pl with
    | .stacked l _ => lanternWest s l
    | .capacity c _ => capWest s c)
  let s := if t > r.deadline then modCounters r.part (fun c => { c with missed := satTo 64 (c.missed + 1) }) s else s
  onReg (fun x => { x with
    urgent := if r.deadline < t + (x.ctrl % 65536).toNat then tset 0 x.urgent r.part (satTo 32 (tget 0 x.urgent r.part + 1)) else x.urgent
    missed := if t > r.deadline then tset 0 x.missed r.part (satTo 32 (tget 0 x.missed r.part + 1)) else x.missed
    missedRes := if t > r.deadline then tset 0 x.missedRes pl.resource (satTo 32 (tget 0 x.missedRes pl.resource + 1)) else x.missedRes }) s

/-- What is counted of a request's unit as it is served: its bytes, its deadline. -/
def countUnit (r : Req) (addr : Nat) (pl : Place) (n : Nat) (s : State) : State := countDeadline r pl (countBytes (keyOf addr) pl n s)

/-- A tag verdict still to come: the port, its outcome, the address. -/
structure Pending where
  port : Nat
  pass : Bool
  addr : Nat
  deriving DecidableEq, Repr

/-- What a read gives: the first failing status, the bytes, each byte's poison, the verdicts of capacity lines. -/
structure MemRead where
  status : Nat := 0
  data   : Bytes := []
  poison : Bool := false
  sects  : List Bool := []
  tags   : List Pending := []
  deriving DecidableEq, Repr

/-- The first failing status of two. -/
def firstStatus (a b : Nat) : Nat := if a = stOk then b else a

/-- Bytes at a request address with the lines that the combining buffers hold under its key laid over them: what an acknowledged operation
did is visible to every later access (R207, R224). -/
def seenBytes (s : State) (addr : Nat) (d : Bytes) : Bytes :=
  (s.fabric.west.comb ++ s.fabric.east.comb).foldl (fun d c =>
    if c.key ≠ keyOf addr then d else
    (d.zip (List.range d.length)).map (fun x =>
      if c.line * 64 ≤ domainOf addr + x.2 ∧ domainOf addr + x.2 < c.line * 64 + 64 then c.data.getD (domainOf addr + x.2 - c.line * 64) 0 else x.1)) d

/-- One aligned unit of a read: a stacked sector of 64 B, or a capacity line of 256 B, from which `n` bytes at offset
`off` are taken. With `prov` a line's plaintext is given before its verdict; without it a failing tag gives poison and
INTEGRITY_FAIL. -/
def readUnit (r : Req) (prov : Bool) (ue : Ue) (s0 : State) (addr n : Nat) (s : State) : MemRead × State :=
  let c := checkReq s r addr false
  if c.status ≠ stOk then
    ({ status := c.status, data := poisonBytes n, poison := true, sects := [true] }, recordDenied r addr c s)
  else
    let s := countUnit r addr c.pl n s
    match c.pl with
    | .stacked l la =>
      let base := addr / 64 * 64
      let (d, p, s) := readSector r ue s0 l (la / 64 * 64) (domainOf base) base s
      ({ status := if p then stDataPoison else stOk, data := if p then sub d (addr % 64) n else seenBytes s addr (sub d (addr % 64) n), poison := p, sects := [p] }, s)
    | .capacity k pa =>
      let base := addr / 256 * 256
      let (lr, s) := readLine r ue k (pa / 256 * 256) base s
      if lr.status ≠ stOk then
        ({ status := lr.status, data := poisonBytes n, poison := true, sects := [true] }, s)
      else if prov then
        ({ data := seenBytes s addr (sub lr.data (addr % 256) n), sects := [false], tags := [⟨k, lr.pass, base⟩] }, s)
      else if lr.pass then ({ data := seenBytes s addr (sub lr.data (addr % 256) n), sects := [false] }, s)
      else ({ status := stIntegrityFail, data := poisonBytes n, poison := true, sects := [true] }, capTagFault r k base s)

/-- How many bytes of a request from `addr` on fall in its first unit: 64 B stacked, 256 B capacity. -/
def unitBytes (s : State) (addr len : Nat) : Nat :=
  let u := match place s (domainOf addr) with
    | some (.capacity _ _) => 256
    | _ => 64
  min len (u - addr % u)

/-- A read of `len` bytes, unit by unit; `fuel` bounds the units. After a refused unit the rest is poison. -/
def readLoop (r : Req) (prov : Bool) (ue : Ue) (s0 : State) : Nat → Nat → Nat → State → MemRead × State
  | 0, _, _, s => ({}, s)
  | fuel + 1, addr, len, s =>
    if len = 0 then ({}, s) else
    let n := unitBytes s addr len
    let (x, s) := readUnit r prov ue s0 addr n s
    let (y, s) := readLoop r prov ue s0 fuel (addr + n) (len - n) s
    ({ status := firstStatus x.status y.status, data := x.data ++ y.data, poison := x.poison || y.poison
       sects := x.sects ++ y.sects, tags := x.tags ++ y.tags }, s)

/-- A read at a request address that is released after its verdicts (R56's request ports, the copy engine, the front
end, Stolaikor). -/
def memRead (r : Req) (ue : Ue) (addr len : Nat) (s : State) : MemRead × State :=
  readLoop r false ue s (len / 64 + 2) addr len s

/-- A wick's read: capacity plaintext is released before its verdict (R57). -/
def memReadProv (r : Req) (ue : Ue) (addr len : Nat) (s : State) : MemRead × State :=
  readLoop r true ue s (len / 64 + 2) addr len s

/-- One aligned unit of a write: a stacked sector is merged by its requester where it is written in part (R43); a line
takes its byte enables (R52). -/
def writeUnit (r : Req) (ue : Ue) (addr : Nat) (d : Bytes) (be : List Bool) (s : State) : Nat × State :=
  let c := checkReq s r addr true
  if c.status ≠ stOk then (c.status, recordDenied r addr c s)
  else
    match c.pl with
    | .stacked l la =>
      let s := countUnit r addr c.pl d.length s
      let base := addr / 64 * 64
      let off := addr % 64
      if be.all (fun b => !b) then (stOk, s)
      else if d.length = 64 ∧ be.all (fun b => b) then (stOk, writeSector l (la / 64 * 64) (domainOf base) (keyOf addr) d s)
      else
        let (old, p, s) := readSector r ue s l (la / 64 * 64) (domainOf base) base s
        if p then (stDataPoison, s)
        else
          let new := (List.range 64).map (fun i =>
            if off ≤ i ∧ i < off + d.length ∧ be.getD (i - off) false then d.getD (i - off) 0 else old.getD i 0)
          (stOk, writeSector l (la / 64 * 64) (domainOf base) (keyOf addr) new s)
    | .capacity k pa =>
      let s := countUnit r addr c.pl d.length s
      let off := addr % 256
      let full := zeros off ++ d ++ zeros (256 - off - d.length)
      let bes := List.replicate off false ++ be ++ List.replicate (256 - off - d.length) false
      if be.all (fun b => !b) then (stOk, s)
      else writeLine r ue k (pa / 256 * 256) (addr / 256 * 256) full bes s

/-- A write of bytes with enables, unit by unit: the first failing status. -/
def writeLoop (r : Req) (ue : Ue) : Nat → Nat → Bytes → List Bool → State → Nat × State
  | 0, _, _, _, s => (stOk, s)
  | fuel + 1, addr, d, be, s =>
    if d = [] then (stOk, s) else
    let n := unitBytes s addr d.length
    let (x, s) := writeUnit r ue addr (d.take n) (be.take n) s
    let (y, s) := writeLoop r ue fuel (addr + n) (d.drop n) (be.drop n) s
    (firstStatus x y, s)

/-- A write at a request address, every byte enabled. -/
def memWrite (r : Req) (ue : Ue) (addr : Nat) (d : Bytes) (s : State) : Nat × State :=
  writeLoop r ue (d.length / 64 + 2) addr d (List.replicate d.length true) s

/-- A write with byte enables. -/
def memWriteBe (r : Req) (ue : Ue) (addr : Nat) (d : Bytes) (be : List Bool) (s : State) : Nat × State :=
  writeLoop r ue (d.length / 64 + 2) addr d be s

/-- Whether any unit of a run of bytes must wait for a sweep or a quarantine. -/
def rangeWaits (s : State) (write : Bool) (addr len : Nat) : Bool :=
  (List.range (len / 64 + 2)).any (fun i =>
    let a := addr / 64 * 64 + 64 * i
    a < addr + len && (if write then writeWaits s a else readWaits s a))

/-- Memory is canonical (both tables). -/
abbrev Memory.wf (m : Memory) : Prop := TabWf 0 m.stacked ∧ TabWf 0 m.capacity

end Sys2Proof.Machine
end

