-- ==== Sys2Proof/Machine/Fence.lean ====
section
/-! DEFINITION. Memory-object slots (R270 to R276), fence slots, their events and their words (R277 to R281), context
counters (R268). -/
namespace Sys2Proof.Machine

/-! ## Handles -/

/-- The slot of an object handle, or the status it fails with (R274), its reserved bits [15:12] ignored (R5): a stale generation is OBJECT_REVOKED even when the
slot is FREE again, as the example of R276 shows. -/
def objHandle (s : State) (p h : Nat) : Except Nat Nat :=
  let k := h % 4096
  let o := objAt s k
  if h / 65536 = 0 then .error stBadArg
  else if o.owner ≠ p ∧ o.state ≠ .free then .error stBadArg
  else if o.gen ≠ h / 65536 then .error stObjectRevoked
  else if o.state ≠ .live then .error stBadArg
  else .ok k

/-- The slot of a fence handle, or the status it fails with (R279, R281); its reserved bits [15:11] are ignored (R5). -/
def fenceHandle (s : State) (p h : Nat) : Except Nat Nat :=
  let k := h % 2048
  let f := fenceAt s k
  if h / 65536 = 0 then .error stBadArg
  else if f.owner ≠ p ∧ f.state ≠ .free then .error stBadArg
  else if f.gen ≠ h / 65536 then .error stObjectRevoked
  else if f.state ≠ .active then .error stBadArg
  else .ok k

/-- The next generation: from 0xFFFF to 0x0001 (R270). -/
def nextGen (g : Nat) : Nat := if g = 0xFFFF then 1 else g + 1

/-- The handle of an object slot. -/
def objHandleOf (s : State) (k : Nat) : Nat := (objAt s k).gen * 65536 + k

/-- The handle of a fence slot. -/
def fenceHandleOf (s : State) (k : Nat) : Nat := (fenceAt s k).gen * 65536 + k

/-! ## Objects -/

/-- The storage of an object that covers one tag less: its bytes leave the context's counters (R268). -/
def uncount (o : ObjSlot) (s : State) : State :=
  modContext o.ctx (fun c => { c with objectBytes := c.objectBytes - o.length * (if o.placement = 1 then popcount o.mask.toNat else 1)
                                      objects := c.objects - 1 }) s

/-- A REVOKED slot without commands in flight becomes FREE and its storage returns (R275). -/
def settleObj (k : Nat) (s : State) : State :=
  let o := objAt s k
  if o.state = .revoked ∧ o.inflight = 0 then
    uncount o (setObj k { gen := o.gen } s)
  else s

/-- The in-flight counts of the named objects fall (R274, R301). -/
def dropObjs (ks : List Nat) (s : State) : State :=
  ks.foldl (fun s k => settleObj k (modObj k (fun o => { o with inflight := o.inflight - 1 }) s)) s

/-- The in-flight counts of the named objects rise (R274). -/
def holdObjs (ks : List Nat) (s : State) : State :=
  ks.foldl (fun s k => modObj k (fun o => { o with inflight := o.inflight + 1 }) s) s

/-- A binding of an object begins or ends (R273). -/
def bindObj (k : Nat) (s : State) : State := modObj k (fun o => { o with bindings := o.bindings + 1 }) s
def unbindObj (k : Nat) (s : State) : State := modObj k (fun o => { o with bindings := o.bindings - 1 }) s

/-- A free (R275): the slot is REVOKED, its generation advances; with nothing in flight it is FREE at once. -/
def freeObj (k : Nat) (s : State) : State :=
  settleObj k (modObj k (fun o => { o with state := .revoked, gen := nextGen o.gen }) s)

/-- Whether a range of `len` bytes at a request address lies wholly in a LIVE object of the address's key ID. -/
def insideObj (s : State) (k addr len : Nat) : Bool :=
  let o := objAt s k
  let a := domainOf addr
  o.state == .live && o.key == keyOf addr &&
    (if o.placement = 1 then
      (bitList 16 o.mask.toNat).any (fun l => homeAddr s l o.base ≤ a && a + len ≤ homeAddr s l o.base + o.length)
     else o.base ≤ a && a + len ≤ o.base + o.length)

/-! ## Fence values (R278) -/

/-- What happens to a fence. -/
inductive FenceEvent where
  | signal (v : Nat)
  | error (st : Nat)
  deriving DecidableEq, Repr

/-- The error word with a status over the last normal value. -/
def errorWord (st : Nat) (c : Word64) : Word64 := BitVec.ofNat 64 (2 ^ 63 + st % 65536 * 2 ^ 32 + c.toNat % 2 ^ 32)

/-- The slot after an event, by the table of R278. -/
def fenceNext (f : FenceSlot) : FenceEvent → FenceSlot
  | .signal v =>
    if 2 ^ 63 ≤ v then f
    else if f.value.msb then { f with late := satTo 32 (f.late + 1) }
    else if f.value.toNat < v then { f with value := BitVec.ofNat 64 v }
    else if v < f.value.toNat then { f with low := satTo 32 (f.low + 1) }
    else f
  | .error st =>
    if f.value.msb then { f with late := satTo 32 (f.late + 1) }
    else { f with value := errorWord st f.value }

/-- The request address of a device word, under its object's current KEY_ID (R277). -/
def fenceWordAddr (s : State) (f : FenceSlot) : Nat := reqAddr (objAt s f.obj).key f.word

/-- A fence write is issued (R280): a host word as one beat, a device word merged into its sector or line. A refused write
is skipped. -/
def issueFenceWrite (ue : Ue) (w : FenceWrite) (s : State) : State :=
  if w.host then emit (.hostWrite w.owner (queuePasid s w.owner w.queue) (BitVec.ofNat 64 w.addr) (le 8 w.value.toNat)) s
  else (memWrite { part := w.owner, master := 6, access := 3 } ue w.addr (le 8 w.value.toNat) s).2

/-- The front end writes a fence's word (R280), or holds the write while a curfew has stopped it (R427). -/
def writeFenceWord (ue : Ue) (k : Nat) (s : State) : State :=
  let f := fenceAt s k
  let w : FenceWrite := { owner := f.owner, host := f.host, queue := f.hostQ, addr := if f.host then f.word else fenceWordAddr s f, value := f.value }
  if s.curfew.stopped.contains .frontEnd then onCurfew (fun c => { c with heldWrites := c.heldWrites ++ [w] }) s
  else issueFenceWrite ue w s

/-- An event on an ACTIVE fence: the slot by R278, the word where the value changed. -/
def fenceEvent (ue : Ue) (k : Nat) (e : FenceEvent) (s : State) : State :=
  let f := fenceAt s k
  let g := fenceNext f e
  let s := setFence k g s
  if g.value ≠ f.value then writeFenceWord ue k s else s

/-- An event on the fence a handle names: an ACTIVE slot of that generation takes it; a freed one counts it in LATE
(R281). -/
def fenceByHandle (ue : Ue) (p h : Nat) (e : FenceEvent) (s : State) : State :=
  if h = 0 then s else
  match fenceHandle s p h with
  | .ok k => fenceEvent ue k e s
  | .error _ =>
    let k := h % 2048
    if (fenceAt s k).state = .revoked ∧ (fenceAt s k).owner = p then
      modFence k (fun f => { f with late := satTo 32 (f.late + 1) }) s
    else s

/-- A fence that no dispatched command names any more becomes FREE when REVOKED (R281). -/
def settleFence (k : Nat) (s : State) : State :=
  let f := fenceAt s k
  if f.state = .revoked ∧ f.naming = 0 then setFence k { gen := f.gen } s else s

/-- Dispatched commands that name the fences begin and end. -/
def nameFences (ks : List Nat) (s : State) : State :=
  ks.foldl (fun s k => modFence k (fun f => { f with naming := f.naming + 1 }) s) s
def unnameFences (ks : List Nat) (s : State) : State :=
  ks.foldl (fun s k => settleFence k (modFence k (fun f => { f with naming := f.naming - 1 }) s)) s

/-- A fence is freed (R281): its word takes its last value, its object's binding ends, the generation advances. -/
def freeFence (ue : Ue) (k : Nat) (s : State) : State :=
  let s := writeFenceWord ue k s
  let f := fenceAt s k
  let s := if f.host then s else unbindObj f.obj s
  settleFence k (modFence k (fun f => { f with state := .revoked, gen := nextGen f.gen }) s)

/-! ## Contexts (R268) -/

/-- An addition to a context's counters. -/
def charge (ctx : Nat) (f : Context → Context) (s : State) : State := modContext ctx f s

/-- The 240 B context record (R268). -/
def contextRecord (s : State) (ctx : Nat) : Bytes :=
  let c := contextAt s ctx
  fit 240 (le 1 1 ++ zeros 1 ++ le 2 ctx ++ zeros 4 ++ le 8 c.wickCycles ++ le 8 c.stackedRead ++ le 8 c.stackedWrite ++
    le 8 c.capacityRead ++ le 8 c.capacityWrite ++ le 8 c.fabricOut ++ le 8 c.fabricIn ++ le 8 c.objectBytes ++
    le 4 c.objects ++ zeros 4 ++ le 8 c.commands ++ le 4 c.nanToInt ++ le 4 c.saturated ++ le 8 (now s))

end Sys2Proof.Machine
end

