-- ==== Sys2Proof/Machine/Float.lean ====
section
/-! DEFINITION. Exact binary values and the roundings of R93 to R96: BINARY32 operations, narrow encodings (R75) both
ways. -/
namespace Sys2Proof.Machine

/-- A value: NaN, an infinity, or (-1)^neg times m times 2^e; zero is m = 0 with its sign. -/
inductive FVal where
  | nan
  | inf (neg : Bool)
  | fin (neg : Bool) (m : Nat) (e : Int)
  deriving DecidableEq, Repr

/-- A BINARY32 or BF16 pattern as a number. -/
abbrev F32 := Nat

/-- Bits in a number: 0 for 0. -/
def bitLen (m : Nat) : Nat := if m = 0 then 0 else Nat.log2 m + 1

/-- A magnitude rounded to `p` bits, to nearest with ties to even, or toward zero (R93, R95). -/
def roundMag (p : Nat) (rtz : Bool) (m : Nat) (e : Int) : Nat × Int :=
  let l := bitLen m
  if l ≤ p then (m, e) else
  let k := l - p
  let q := m >>> k
  let r := m % 2 ^ k
  let up := !rtz && (2 ^ (k - 1) < r || (r == 2 ^ (k - 1) && q % 2 == 1))
  (if up then q + 1 else q, e + k)

/-- floor(log2) of a nonzero magnitude. -/
def magLog2 (m : Nat) (e : Int) : Int := (Nat.log2 m : Int) + e

/-- The canonical NaN (R94). -/
def nan32 : F32 := 0x7FC00000

/-- A value as BINARY32: a 24-bit significand rounded to nearest, below 2^-126 a zero, overflow an infinity (R93). -/
def enc32 : FVal → F32
  | .nan => nan32
  | .inf n => (if n then 0xFF800000 else 0x7F800000)
  | .fin n m e =>
    let sgn := if n then 0x80000000 else 0
    if m = 0 then sgn else
    let (q, f) := roundMag 24 false m e
    let x := magLog2 q f
    if x < -126 then sgn
    else if x > 127 then sgn + 0x7F800000
    else
      let frac := if bitLen q ≤ 24 then q <<< (24 - bitLen q) else q >>> (bitLen q - 24)
      sgn + (x + 127).toNat * 2 ^ 23 + frac % 2 ^ 23

/-- The value of a pattern with `eb` exponent bits, `fb` fraction bits and a bias, subnormals kept, all exponents
finite. -/
def decSmall (eb fb bias : Nat) (x : Nat) : FVal :=
  let n := x.testBit (eb + fb)
  let ex := bits x (eb + fb - 1) fb
  let f := x % 2 ^ fb
  if ex = 0 then .fin n f (1 - (bias : Int) - fb) else .fin n (2 ^ fb + f) ((ex : Int) - bias - fb)

/-- The value of a BINARY32 pattern; a subnormal is a zero of its sign. -/
def dec32 (x : F32) : FVal :=
  let n := x.testBit 31
  let ex := bits x 30 23
  let f := x % 2 ^ 23
  if ex = 255 then (if f = 0 then .inf n else .nan)
  else if ex = 0 then .fin n 0 0
  else .fin n (2 ^ 23 + f) ((ex : Int) - 150)

/-- The value of a BF16 pattern; a subnormal is a zero of its sign. -/
def decBf16 (x : Nat) : FVal := dec32 (x % 65536 * 65536)

/-- The E8M0 scale: 0xFF is NaN. -/
def decE8m0 (x : Nat) : FVal := if x = 255 then .nan else .fin false 1 ((x : Int) - 127)

/-- A two's complement integer of `w` bits. -/
def decInt (w x : Nat) : FVal :=
  if x.testBit (w - 1) then .fin true (2 ^ w - x % 2 ^ w) 0 else .fin false (x % 2 ^ w) 0

/-- The value of an element by its encoding number (R75, R81). -/
def decElem (enc x : Nat) : FVal :=
  match enc with
  | 1 => decBf16 x
  | 2 => dec32 x
  | 3 => if x % 128 = 127 then .nan else decSmall 4 3 7 x
  | 4 => if bits x 6 2 = 31 then (if x % 4 = 0 then .inf (x.testBit 7) else .nan) else decSmall 5 2 15 x
  | 5 => decSmall 3 2 3 x
  | 6 => decSmall 2 3 1 x
  | 7 => decSmall 2 1 1 x
  | 8 => decInt 8 x
  | 9 => decInt 4 x
  | _ => .fin false x 0

/-! ## Exact arithmetic (R94) -/

/-- A signed magnitude as an integer at exponent `e`, for `e` at most the value's own. -/
def scaled (neg : Bool) (m : Nat) (e0 e : Int) : Int :=
  let v : Int := (m <<< (e0 - e).toNat : Nat)
  if neg then -v else v

/-- The exact sum. -/
def fAdd : FVal → FVal → FVal
  | .nan, _ => .nan
  | _, .nan => .nan
  | .inf a, .inf b => if a = b then .inf a else .nan
  | .inf a, _ => .inf a
  | _, .inf b => .inf b
  | .fin a m e, .fin b n f =>
    if m = 0 ∧ n = 0 then .fin (a && b) 0 0
    else if m = 0 then .fin b n f
    else if n = 0 then .fin a m e
    else
      let g := min e f
      let s := scaled a m e g + scaled b n f g
      if s < 0 then .fin true s.natAbs g else if s = 0 then .fin false 0 0 else .fin false s.natAbs g

/-- The exact product. -/
def fMul : FVal → FVal → FVal
  | .nan, _ => .nan
  | _, .nan => .nan
  | .inf a, .inf b => .inf (a != b)
  | .inf a, .fin b n _ => if n = 0 then .nan else .inf (a != b)
  | .fin a m _, .inf b => if m = 0 then .nan else .inf (a != b)
  | .fin a m e, .fin b n f => .fin (a != b) (m * n) (if m * n = 0 then 0 else e + f)

/-- The negated value. -/
def fNeg : FVal → FVal
  | .nan => .nan
  | .inf a => .inf (!a)
  | .fin a m e => .fin (!a) m e

/-- A quotient with enough bits, and a sticky bit, to round to 24 bits exactly as the true quotient does. -/
def fDiv : FVal → FVal → FVal
  | .nan, _ => .nan
  | _, .nan => .nan
  | .inf _, .inf _ => .nan
  | .inf a, .fin b _ _ => .inf (a != b)
  | .fin a _ _, .inf b => .fin (a != b) 0 0
  | .fin a m e, .fin b n f =>
    if n = 0 then (if m = 0 then .nan else .inf (a != b))
    else if m = 0 then .fin (a != b) 0 0
    else
      let k := 64 + bitLen n
      let q := (m <<< k) / n
      let st := if (m <<< k) % n = 0 then 0 else 1
      .fin (a != b) (2 * q + st) (e - f - k - 1)

/-- The integer square root, bit by bit from bit `n - 1` down. -/
def isqrtLoop (x : Nat) : Nat → Nat → Nat
  | 0, r => r
  | n + 1, r => isqrtLoop x n (if (r + 2 ^ n) * (r + 2 ^ n) ≤ x then r + 2 ^ n else r)

/-- A square root with enough bits, and a sticky bit, to round to 24 bits exactly. -/
def fSqrt : FVal → FVal
  | .nan => .nan
  | .inf a => if a then .nan else .inf false
  | .fin a m e =>
    if m = 0 then .fin a 0 0
    else if a then .nan
    else
      let k := if (e % 2 = 0) then 64 else 65
      let x := m <<< k
      let r := isqrtLoop x (bitLen x / 2 + 1) 0
      .fin false (2 * r + (if r * r = x then 0 else 1)) ((e - k) / 2 - 1)

/-! ## BINARY32 operations (R93, R94) -/

def f32Add (a b : F32) : F32 := enc32 (fAdd (dec32 a) (dec32 b))
def f32Sub (a b : F32) : F32 := enc32 (fAdd (dec32 a) (fNeg (dec32 b)))
def f32Mul (a b : F32) : F32 := enc32 (fMul (dec32 a) (dec32 b))
def f32Div (a b : F32) : F32 := enc32 (fDiv (dec32 a) (dec32 b))
def f32Sqrt (a : F32) : F32 := enc32 (fSqrt (dec32 a))

/-- Whether a pattern is NaN. -/
def f32IsNan (a : F32) : Bool := dec32 a == .nan

/-- The order of values, -0 below +0; NaN is below nothing. -/
def fLt : FVal → FVal → Bool
  | .nan, _ => false
  | _, .nan => false
  | .inf a, .inf b => a && !b
  | .inf a, _ => a
  | _, .inf b => !b
  | .fin a m e, .fin b n f =>
    if m = 0 ∧ n = 0 then a && !b
    else
      let g := min e f
      scaled a m e g < scaled b n f g

/-- The arithmetic order, in which the zeros are equal. -/
def fLess (a b : FVal) : Bool :=
  match a, b with
  | .fin _ 0 _, .fin _ 0 _ => false
  | _, _ => fLt a b

/-- Maximum and minimum (R94): NaN if either operand is NaN. -/
def f32Max (a b : F32) : F32 :=
  if f32IsNan a || f32IsNan b then nan32 else if fLt (dec32 a) (dec32 b) then enc32 (dec32 b) else enc32 (dec32 a)
def f32Min (a b : F32) : F32 :=
  if f32IsNan a || f32IsNan b then nan32 else if fLt (dec32 b) (dec32 a) then enc32 (dec32 b) else enc32 (dec32 a)

/-- A nonnegative integer as BINARY32. -/
def f32OfNat (n : Nat) : F32 := enc32 (.fin false n 0)

/-- +1 as BINARY32. -/
def f32One : F32 := 0x3F800000

/-! ## Conversion to narrow encodings (R95, R96) -/

/-- What a conversion gives: the pattern, whether it counted as NaN to an integer, whether it saturated. -/
structure Conv where
  val : Nat
  nanToInt : Bool := false
  sat : Bool := false
  deriving DecidableEq, Repr

/-- BF16 from a value: 8-bit significand, unbounded below, then flushed (R95). -/
def toBf16 (sat rtz : Bool) (v : FVal) : Conv :=
  match v with
  | .nan => ⟨0x7FC0, false, false⟩
  | .inf n => if sat then ⟨b2n n * 0x8000 + 0x7F7F, false, true⟩ else ⟨b2n n * 0x8000 + 0x7F80, false, false⟩
  | .fin n m e =>
    if m = 0 then ⟨b2n n * 0x8000, false, false⟩ else
    let (q, f) := roundMag 8 rtz m e
    let x := magLog2 q f
    if x < -126 then ⟨b2n n * 0x8000, false, false⟩
    else if x > 127 then (if sat then ⟨b2n n * 0x8000 + 0x7F7F, false, true⟩ else ⟨b2n n * 0x8000 + 0x7F80, false, false⟩)
    else
      let frac := if bitLen q ≤ 8 then q <<< (8 - bitLen q) else q >>> (bitLen q - 8)
      ⟨b2n n * 0x8000 + (x + 127).toNat * 128 + frac % 128, false, false⟩

/-- BF16 to nearest, without SAT (R92's rounding of BINARY32 activations, R199). -/
def bf16Of (v : FVal) : Nat := (toBf16 false false v).val

/-- A magnitude rounded to the grid of a small float: exponent and fraction bits, bias; the pattern without sign, which
may pass the largest pattern. -/
def toSmallMag (eb fb bias : Nat) (rtz : Bool) (m : Nat) (e : Int) : Nat :=
  if m = 0 then 0 else
  let x := magLog2 m e
  let lo : Int := 1 - (bias : Int)
  let ulp := (if x < lo then lo else x) - fb
  let q := if e ≥ ulp then (m <<< (e - ulp).toNat) else
    let k := (ulp - e).toNat
    let q := m >>> k
    let r := m % 2 ^ k
    if !rtz && (2 ^ (k - 1) < r || (r == 2 ^ (k - 1) && q % 2 == 1)) then q + 1 else q
  let (q, x) := if q ≥ 2 ^ (fb + 1) then (q / 2, (if x < lo then lo else x) + 1) else (q, if x < lo then lo else x)
  if q < 2 ^ fb then q
  else if eb = 0 then q
  else (x + bias).toNat * 2 ^ fb + (q - 2 ^ fb)

/-- A small float of the given fields: `big` the largest finite pattern, `big1` the pattern of an overflow or infinity
without SAT, `nanv` that of NaN. Whether a value lies beyond the largest finite value is judged after rounding (DESIGN CHOICE,
notes/assumptions/83.md: R96 does not say before or after). -/
def toSmall (eb fb bias big big1 nanv : Nat) (signedOver : Bool) (sat rtz : Bool) (v : FVal) : Conv :=
  let sgn (n : Bool) := b2n n * 2 ^ (eb + fb)
  let past (n : Bool) : Conv := if sat then ⟨sgn n + big, false, true⟩ else
    ⟨if signedOver then sgn n + big1 else big1, false, false⟩
  match v with
  | .nan => ⟨nanv, false, false⟩
  | .inf n => past n
  | .fin n m e =>
    let x := toSmallMag eb fb bias rtz m e
    if x > big then past n else ⟨sgn n + x, false, false⟩

/-- An integer of `w` bits from a value (R95, R96). -/
def toInt (w : Nat) (rtz : Bool) (v : FVal) : Conv :=
  match v with
  | .nan => ⟨0, true, false⟩
  | .inf n => ⟨if n then 2 ^ (w - 1) else 2 ^ (w - 1) - 1, false, true⟩
  | .fin n m e =>
    let q := if e ≥ 0 then m <<< e.toNat else
      let k := (-e).toNat
      let q := m >>> k
      let r := m % 2 ^ k
      if !rtz && (2 ^ (k - 1) < r || (r == 2 ^ (k - 1) && q % 2 == 1)) then q + 1 else q
    if n then (if q > 2 ^ (w - 1) then ⟨2 ^ (w - 1), false, true⟩ else ⟨(2 ^ w - q) % 2 ^ w, false, false⟩)
    else (if q ≥ 2 ^ (w - 1) then ⟨2 ^ (w - 1) - 1, false, true⟩ else ⟨q, false, false⟩)

/-- Conversion to an element encoding by number (R81, R95, R96). An MX element saturates on overflow. -/
def toElem (enc : Nat) (sat rtz : Bool) (v : FVal) : Conv :=
  match enc with
  | 1 => toBf16 sat rtz v
  | 2 => ⟨enc32 v, false, false⟩
  | 3 => toSmall 4 3 7 0x7E 0x7F 0x7F false sat rtz v
  | 4 => toSmall 5 2 15 0x7B 0x7C 0x7E true sat rtz v
  | 5 => toSmall 3 2 3 0x1F 0x1F 0 true true rtz v
  | 6 => toSmall 2 3 1 0x1F 0x1F 0 true true rtz v
  | 7 => toSmall 2 1 1 0x7 0x7 0 true true rtz v
  | 8 => toInt 8 rtz v
  | _ => toInt 4 rtz v

end Sys2Proof.Machine
end

