-- ==== Sys2Proof/Machine/Formats.lean ====
section
/-! DEFINITION. Format entries, codebooks and curve tables (R75 to R102): their checks, the expansion of a weight,
conversion to blocks, the curve unit; pins, grants and unloading of tables (R86 to R88). -/
namespace Sys2Proof.Machine

/-- A format entry's fields (R81). -/
structure Fmt where
  ver        : Nat
  kind       : Nat
  elem       : Nat
  bits       : Nat
  group      : Nat
  scale      : Nat
  sel        : Nat
  tileGroups : Nat
  cbBase     : Nat
  cbCount    : Nat
  flags      : Nat
  deriving DecidableEq, Repr

/-- The fields in a 32 B entry. -/
def fmtOf (b : Bytes) : Fmt :=
  ⟨fld b 0 1, fld b 1 1, fld b 2 1, fld b 3 1, fld b 4 2, fld b 6 1, fld b 7 1, fld b 8 2, fld b 10 2, fld b 12 2, fld b 14 1⟩

/-- SAT and RTZ of an entry. -/
def Fmt.sat (f : Fmt) : Bool := f.flags.testBit 0
def Fmt.rtz (f : Fmt) : Bool := f.flags.testBit 1

/-- The 32 B of an entry. -/
def fmtBytes (f : Fmt) : Bytes :=
  le 1 f.ver ++ le 1 f.kind ++ le 1 f.elem ++ le 1 f.bits ++ le 2 f.group ++ le 1 f.scale ++ le 1 f.sel ++
    le 2 f.tileGroups ++ le 2 f.cbBase ++ le 2 f.cbCount ++ le 1 f.flags ++ zeros 17

/-- The width of an element encoding, 0 for UINDEX (R81). -/
def elemWidth (e : Nat) : Nat := [0, 16, 32, 8, 8, 6, 6, 4, 8, 4, 0].getD e 0

/-- The built-in entries 0 to 11 (R83). -/
def builtinFmt (k : Nat) : Fmt :=
  let plain (e : Nat) : Fmt := ⟨1, 1, e, elemWidth e, 0, 0, 0, 0, 0, 0, 0⟩
  let mx (e : Nat) : Fmt := ⟨1, 2, e, elemWidth e, 32, 1, 0, 64, 0, 0, 0⟩
  [plain 1, plain 2, plain 3, plain 4, mx 7, mx 6, mx 5, mx 3, mx 4, mx 8,
   ⟨1, 3, 9, 4, 64, 2, 0, 32, 0, 0, 0⟩, ⟨1, 3, 8, 8, 128, 2, 0, 32, 0, 0, 0⟩].getD k (plain 1)

/-- Bytes of a group's scale (R77). -/
def scaleBytes (s : Nat) : Nat := [0, 1, 2, 1].getD s 0

/-- The three regions of a tile, in bytes (R77); a PLAIN tile is 64 B of elements. -/
def Fmt.elemRegion (f : Fmt) : Nat := if f.kind = 1 then 64 else f.tileGroups * f.group * f.bits / 8
def Fmt.selRegion (f : Fmt) : Nat := f.tileGroups * (f.sel / 8)
def Fmt.tileBytes (f : Fmt) : Nat :=
  if f.kind = 1 then 64 else f.elemRegion + f.selRegion + f.tileGroups * scaleBytes f.scale

/-- Weights in a tile. -/
def Fmt.tileWeights (f : Fmt) : Nat := if f.kind = 1 then 512 / f.bits else f.tileGroups * f.group

/-- Whether Eonal accepts a format entry (R82). An entry of a kind other than PLAIN whose TILE_GROUPS is 0 has a tile of 0 B: the rules do not
say whether that is a tile, and the model refuses it (DESIGN CHOICE, notes/assumptions/83.md). -/
def fmtValid (b : Bytes) : Bool :=
  let f := fmtOf b
  let t := f.tileBytes
  let groupOk := f.group == 32 || f.group == 64 || f.group == 128 || f.group == 256
  (sub b 15 17).all (· == 0) && f.flags < 4 &&
  (match f.kind with
   | 1 => f.elem ≥ 1 && f.elem ≤ 4 && f.group == 0 && f.scale == 0 && f.sel == 0 && f.cbCount == 0 &&
       f.tileGroups == 0 && f.bits == elemWidth f.elem
   | 2 => f.elem ≥ 3 && f.elem ≤ 8 && f.group == 32 && f.scale == 1 && f.sel == 0 && f.cbCount == 0 &&
       f.bits == elemWidth f.elem
   | 3 => (f.elem == 8 || f.elem == 9) && groupOk && (f.scale == 2 || f.scale == 3) && f.sel == 0 && f.cbCount == 0 &&
       f.bits == elemWidth f.elem
   | 4 => f.elem == 10 && 1 ≤ f.bits && f.bits ≤ 8 && groupOk && f.scale ≤ 3 && (f.sel == 0 || f.sel == 8 || f.sel == 16) &&
       f.cbCount ≥ 1 && f.cbBase + f.cbCount ≤ 256 && 2 ^ f.sel * 2 ^ f.bits ≤ f.cbCount * 256
   | _ => false) &&
  0 < t && t % 64 == 0 && t ≤ 8192

/-- The entry in force at an index: a built-in one or a loaded one. -/
def fmtAt (s : State) (k : Nat) : Fmt := if k < 12 then builtinFmt k else fmtOf (formatAt s k).image

/-! ## The table store of a lantern (R85, R88) -/

/-- Key of a table in a lantern's store: its kind and index. -/
def storeKey (kind i : Nat) : Nat := kind * 1024 + i

/-- What a lantern's table store holds for an index; empty where nothing is loaded. -/
def storeImage (s : State) (l kind i : Nat) : Bytes := tget [] (lanternAt s l).store (storeKey kind i)

/-- The format entry a wick of lantern `l` expands with: a built-in one, or the one in its lantern's store. -/
def fmtIn (s : State) (l k : Nat) : Fmt := if k < 12 then builtinFmt k else fmtOf (storeImage s l 0 k)

/-! ## Expansion (R78 to R80, R91) -/

/-- Bits `w` wide at stream position `w * i` of a byte string (R76). -/
def streamElem (b : Bytes) (w i : Nat) : Nat :=
  let p := w * i
  (fld b (p / 8) ((p % 8 + w + 7) / 8) >>> (p % 8)) % 2 ^ w

/-- A group's scale by its encoding: a subnormal BF16 scale is a zero of its sign, NaN and infinities are NaN
(R79, R80). -/
def scaleVal (enc x : Nat) : FVal :=
  match enc with
  | 1 => decE8m0 x
  | 2 => (match decBf16 x with
    | .inf _ => .nan
    | v => v)
  | 3 => decElem 3 x
  | _ => .fin false 1 0

/-- The flat codebook entry `p` of a format's span (R80), in lantern `l`. -/
def codebookEntry (s : State) (l : Nat) (f : Fmt) (p : Nat) : Nat := fld (storeImage s l 1 (f.cbBase + p / 256)) (2 * (p % 256)) 2

/-- The lane value of weight `i` of a tile in lantern `l` (R91): exact, but for BINARY32 weights, which round to 16 bits. -/
def weightAt (s : State) (l : Nat) (f : Fmt) (tile : Bytes) (i : Nat) : FVal :=
  let x := streamElem tile f.bits i
  let g := i / f.group
  let sc := scaleVal f.scale (fld tile (f.elemRegion + f.selRegion + g * scaleBytes f.scale) (scaleBytes f.scale))
  match f.kind with
  | 1 => (match decElem f.elem x with
    | .fin n m e => if f.elem = 2 then (let r := roundMag 16 false m e; .fin n r.1 r.2) else .fin n m e
    | v => v)
  | 2 =>
    let v := decElem f.elem x
    let v := if f.elem = 8 then fMul v (.fin false 1 (-6)) else v
    fMul sc v
  | 3 => fMul sc (decElem f.elem x)
  | _ =>
    let r := fld tile (f.elemRegion + g * (f.sel / 8)) (f.sel / 8)
    let v := decBf16 (codebookEntry s l f (r * 2 ^ f.bits + x))
    if f.scale = 0 then v else fMul sc v

/-! ## Conversion of 32 values to a Microscaling block (R97) -/

/-- emax of an element encoding. -/
def mxEmax (e : Nat) : Int := ([0, 0, 0, 8, 15, 4, 2, 2, 0].getD e 0 : Nat)

/-- A block: the scale byte, the element patterns, the counts of NaN-to-integer and saturated conversions. -/
structure MxBlock where
  scale : Nat
  elems : List Nat
  sat   : Nat
  deriving DecidableEq, Repr

/-- Whether a value is finite. -/
def FVal.isFin : FVal → Bool
  | .fin _ _ _ => true
  | _ => false

/-- Whether a value is a zero. -/
def FVal.isZero : FVal → Bool
  | .fin _ m _ => m == 0
  | _ => false

/-- floor(log2) of a finite nonzero value. -/
def FVal.log2 : FVal → Int
  | .fin _ m e => magLog2 m e
  | _ => 0

/-- A value times a power of two. -/
def FVal.shift (v : FVal) (k : Int) : FVal :=
  match v with
  | .fin n m e => .fin n m (e + k)
  | v => v

/-- The sign of a value. -/
def FVal.neg : FVal → Bool
  | .nan => false
  | .inf n => n
  | .fin n _ _ => n

/-- Conversion of a block (R97): MXINT8 elements stand for value × 2^-6. A block that holds NaN has no element conversions, so an MXINT8
block counts none in NAN_TO_INT (DESIGN CHOICE, notes/assumptions/83.md: R96 and R97 together do not say). -/
def toMx (elem : Nat) (rtz : Bool) (vs : List FVal) : MxBlock :=
  if vs.any (fun v => !v.isFin) then ⟨255, vs.map (fun _ => 0), 0⟩
  else if vs.all FVal.isZero then
    ⟨0, vs.map (fun v => if elem = 8 then 0 else b2n v.neg * 2 ^ (elemWidth elem - 1)), 0⟩
  else
    let top := (vs.filter (fun v => !v.isZero)).foldl (fun (m : Int) v => max m v.log2) (-100000)
    let e := max (-127) (min 127 (top - mxEmax elem))
    let cs := vs.map (fun v => toElem elem true rtz (v.shift (if elem = 8 then 6 - e else -e)))
    ⟨(e + 127).toNat, cs.map Conv.val, cs.countP Conv.sat⟩

/-! ## Curve tables (R98 to R102) -/

/-- Whether Eonal accepts a codebook image for an index (R84). -/
def codebookValid (img : Bytes) (index : Nat) : Bool :=
  let n := fld img 4 2
  fld img 1 1 == 1 && fld img 2 1 == index && fld img 3 1 == 0 && 1 ≤ n && n ≤ 256 && index + n ≤ 256 &&
    (sub img 6 10).all (· == 0) && img.length == 16 + 512 * n &&
    (List.range (256 * n)).all (fun i =>
      let x := fld img (16 + 2 * i) 2
      bits x 14 7 ≠ 255 && !(bits x 14 7 == 0 && x % 128 ≠ 0))

/-- Whether a BINARY32 pattern is finite. -/
def f32Finite (x : F32) : Bool := bits x 30 23 ≠ 255

/-- EMIN as a signed number. -/
def curveEmin (t : Bytes) : Int := let x := fld t 12 1; if x ≥ 128 then (x : Int) - 256 else x

/-- Whether Eonal accepts a curve table (R102). -/
def curveValid (t : Bytes) : Bool :=
  t.length == 3104 && fld t 1 1 ≤ 1 && fld t 2 1 ≤ 3 && fld t 3 1 ≤ 3 && (sub t 13 3).all (· == 0) &&
    (sub t 24 8).all (· == 0) && f32Finite (fld t 4 4) && f32Finite (fld t 8 4) && f32Finite (fld t 16 4) &&
    f32Finite (fld t 20 4) && (List.range 768).all (fun i => f32Finite (fld t (32 + 4 * i) 4)) &&
    (if fld t 1 1 = 0 then fLess (dec32 (fld t 4 4)) (dec32 (fld t 8 4))
     else decide (-126 ≤ curveEmin t) && decide (curveEmin t ≤ 111))

/-- Coefficient `j` of segment `i`. -/
def coef (t : Bytes) (i j : Nat) : F32 := fld t (32 + 12 * i + 4 * j) 4

/-- Segment `i` at position `x` (R99). -/
def segment (t : Bytes) (i : Nat) (x : F32) : F32 :=
  f32Add (coef t i 0) (f32Mul x (f32Add (coef t i 1) (f32Mul x (coef t i 2))))

/-- C0 + C1 + C2 of a segment, computed at load. The rule does not say which sum is rounded first: the model adds from left to right
(DESIGN CHOICE, notes/assumptions/83.md). -/
def segmentEnd (t : Bytes) (i : Nat) : F32 := f32Add (f32Add (coef t i 0) (coef t i 1)) (coef t i 2)

/-- The end mode at a domain end with value `v` (R98, R101): as every result a value below 2^-126 is a zero of its sign (R93, R99). -/
def endMode (mode : Nat) (x end_ v slope : F32) : F32 :=
  match mode with
  | 0 => enc32 (dec32 v)
  | 1 => 0
  | 2 => enc32 (dec32 x)
  | _ =>
    match dec32 x with
    | .inf n => if (dec32 slope).isZero then enc32 (dec32 v) else enc32 (.inf (n != (dec32 slope).neg))
    | _ => f32Add v (f32Mul slope (f32Sub x end_))

/-- floor of a nonnegative value. -/
def floorNat : FVal → Nat
  | .fin _ m e => if e ≥ 0 then m <<< e.toNat else m >>> (-e).toNat
  | _ => 0

/-- The segment at position u of a uniform table: min(floor(u), 255), which is 255 for +Inf (R99). -/
def segmentAt : FVal → Nat
  | .inf _ => 255
  | v => min (floorNat v) 255

/-- The curve of a table at `x` (R99 to R101). -/
def curveEval (t : Bytes) (x : F32) : F32 :=
  if f32IsNan x then nan32 else
  let v := dec32 x
  if fld t 1 1 = 0 then
    let lo := fld t 4 4
    let hi := fld t 8 4
    if fLess v (dec32 lo) then endMode (fld t 2 1) x lo (coef t 0 0) (fld t 16 4)
    else if ¬ fLess v (dec32 hi) then endMode (fld t 3 1) x hi (segmentEnd t 255) (fld t 20 4)
    else
      let q := f32Div 0x43800000 (f32Sub hi lo)
      let u := f32Mul (f32Sub x lo) q
      let i := segmentAt (dec32 u)
      segment t i (f32Sub u (f32OfNat i))
  else
    let em := curveEmin t
    let n := x.testBit 31
    let base := if n then 128 else 0
    let sgn := b2n n * 2 ^ 31
    let pow (k : Int) : F32 := sgn + (k + 127).toNat * 2 ^ 23
    if v.isZero ∨ (v.isFin ∧ v.log2 < em) then
      endMode (fld t 2 1) x (pow em) (coef t base 0) (fld t 16 4)
    else if ¬ v.isFin ∨ v.log2 ≥ em + 16 then
      endMode (fld t 3 1) x (pow (em + 16)) (segmentEnd t (base + 127)) (fld t 20 4)
    else
      let e := (v.log2 - em).toNat
      let m := bits x 22 20
      segment t (base + 8 * e + m) (enc32 (.fin false (x % 2 ^ 20) (-20)))

/-! ## Pins, grants, unloading (R86 to R88) -/

/-- The key of a table in a task's pins: its kind (0 FORMAT, 1 CODEBOOK, 2 CURVE, 3 PLACEMENT) and index. -/
def tableAt (s : State) (kind i : Nat) : Table :=
  match kind with
  | 0 => formatAt s i
  | 1 => codebookAt s i
  | 2 => curveAt s i
  | _ => placementAt s i

/-- A table replaced. -/
def setTable (kind i : Nat) (t : Table) (s : State) : State :=
  match kind with
  | 0 => setFormat i t s
  | 1 => setCodebook i t s
  | 2 => setCurve i t s
  | _ => setPlacement i t s

/-- How many indices a table kind has. -/
def tableCount (kind : Nat) : Nat := [64, 256, 32, 8].getD kind 0

/-- Whether a dispatched task pins a table (R87). -/
def pinned (s : State) (kind i : Nat) : Bool := s.fe.tasks.any (fun t => t.2.live && t.2.tables.contains (kind, i))

/-- Whether a party may use a table: built in, its own, or granted (R86). -/
def tableUsable (s : State) (p kind i : Nat) : Bool :=
  (kind == 0 && i < 12) || ((tableAt s kind i).loaded &&
    ((tableAt s kind i).owner == p || (tableAt s kind i).grants.contains p))

/-- Whether a load or an unload of an index is under way: East has not yet replied. The arbiter of R87 holds the next one, and tasks that
name the index, until then. -/
def tableLoading (s : State) (kind i : Nat) : Bool :=
  s.boxes.waiting.any (fun w => match w.cond with
    | .eastFetch _ k j n => k == kind && decide (j ≤ i ∧ i < j + n)
    | .eastDrop _ k j n => k == kind && decide (j ≤ i ∧ i < j + n)
    | _ => false)

/-- The lanterns of a half. -/
def lanternsOf (s : State) (west : Bool) : List Nat := (List.range s.build.lanterns).filter (fun l => lanternWest s l == west)

/-- Every lantern of a half takes new content for an index into its table store, or zeroises it where there is none. -/
def storeIn (west : Bool) (kind i : Nat) (img : Bytes) (s : State) : State :=
  (lanternsOf s west).foldl (fun s l => modLantern l (fun x => { x with store := tset [] x.store (storeKey kind i) img }) s) s

/-- East is told to zeroise the entries of a range of indices (R21, R88): the ticket of the message, and the state after. -/
def dropEast (kind i n : Nat) (s : State) : Nat × State :=
  let t := s.seam.tickets + 1
  (t, seamSend true 7 (.mailbox (.drop t kind i n)) (onSeam (fun x => { x with tickets := t }) s))

/-- A table unloaded in West's lanterns and in Stolaikor's copies (R88). -/
def unloadWest (kind i : Nat) (s : State) : State := storeIn true kind i [] (setTable kind i {} s)

/-- A table unloaded (R88): East zeroises its entries as it takes the message. -/
def unloadTable (kind i : Nat) (s : State) : State := (dropEast kind i 1 (unloadWest kind i s)).2

/-- A lantern's table store is put back from Stolaikor's copies (R88). -/
def restoreStore (l : Nat) (s : State) : State :=
  let all := (List.range 4).flatMap (fun kind => (List.range (tableCount kind)).filterMap (fun i =>
    if (tableAt s kind i).loaded then some (storeKey kind i, (tableAt s kind i).image) else none))
  modLantern l (fun x => { x with store := all.foldl (fun st e => tset [] st e.1 e.2) [] }) s

/-- Every table of an owner unloaded (R88). -/
def unloadOwned (p : Nat) (s : State) : State :=
  (List.range 4).foldl (fun s kind => (List.range (tableCount kind)).foldl (fun s i =>
    if (tableAt s kind i).loaded && (tableAt s kind i).owner == p then unloadTable kind i s else s) s) s

/-- Grants of tables to a partition end when it is destroyed (R86). -/
def dropGrants (p : Nat) (s : State) : State :=
  (List.range 4).foldl (fun s kind => (List.range (tableCount kind)).foldl (fun s i =>
    let t := tableAt s kind i
    if t.grants.contains p then setTable kind i { t with grants := t.grants.filter (· ≠ p) } s else s) s) s

end Sys2Proof.Machine
end

