-- ==== Sys2Proof/Machine/Keys.lean ====
section
/-! DEFINITION. The key store and its East copy: integrity tags, uses, states (R233 to R238), KEY messages over the seam
(R18 to R20), clearing, expiry, and key rotation (R53, R65 to R71, R239). -/
namespace Sys2Proof.Machine

/-! ## KEY messages (R18, R19) -/

/-- The IV of the next KEY message of a direction (R18). -/
def keyIv (toEast : Bool) (counter : Nat) : Bytes := be 4 (if toEast then 1 else 2) ++ be 8 counter

/-- The SEQ the next message of a class will carry. -/
def nextSeq (s : State) (toEast : Bool) (cls : Nat) : Nat :=
  (tget 0 s.seam.txSeq (seamKey toEast cls)).toNat + (s.seam.waiting.filter (fun w => w.cls == cls && w.toEast == toEast)).length

/-- A KEY message: its header is the additional data, its payload the sealed bytes and the tag. Before pairing there is no
session key; what such a message would tell reaches East by the reload of R20. -/
def sendKey (toEast : Bool) (argv : Nat) (plain : Bytes) (s : State) : State :=
  if ¬ s.seam.paired then s else
  let c := if toEast then s.seam.keyTxW2E else s.seam.keyTxE2W
  let h := seamHeader 2 argv (nextSeq s toEast 2) ((plain.length + 16) / 8)
  let (ct, tag) := gcmSeal s.seam.sessionKey (keyIv toEast c) (le 8 h.toNat) plain
  let s := onSeam (fun x => if toEast then { x with keyTxW2E := x.keyTxW2E + 1 } else { x with keyTxE2W := x.keyTxE2W + 1 }) s
  seamSend toEast 2 (.words argv (wordsOf (ct ++ tag))) s

/-- The number of the last KEY message West has sent, and whether East has acknowledged it and every one before it (R16, R19). -/
def lastKeyMessage (s : State) : Nat := s.seam.keyTxW2E - 1
def eastHeard (s : State) (n : Nat) : Bool := decide (n < s.seam.keyRxE2W)

/-- CLASS_ARG of a KEY message: slot and subtype (R18). -/
def keyArg (slot subtype : Nat) : Nat := subtype * 2 ^ 24 + slot

/-- A slot's key goes to the East mirror. -/
def loadEast (k : Nat) (s : State) : State := sendKey true (keyArg k 1) (fit 32 (slotAt s k).key ++ (slotAt s k).attrs) s

/-- East drops a slot. -/
def clearEast (k : Nat) (s : State) : State := sendKey true (keyArg k 2) [] s

/-- East drops every slot. -/
def clearAllEast (s : State) : State := sendKey true (keyArg 0 3) [] s

/-- A slot zeroised in every consumer and set EMPTY. -/
def wipeSlot (k : Nat) (s : State) : State := clearEast k (dropAllEntries (fun e => e.key == k) (setSlot k {} s))

/-- A slot whose key is gone with a state that says why (R237): EXPIRED, RETIRED, EXHAUSTED or BAD. -/
def endSlot (k : Nat) (st : KeyState) (s : State) : State :=
  let s := if st = .exhausted then s else clearEast k (dropAllEntries (fun e => e.key == k) s)
  changeSlot k (fun v => { v with key := if st = .exhausted then v.key else [], state := st }) s

/-- A slot failed its tag check (R235): BAD, zeroised everywhere, its fault recorded; four within 1 s are a key-store
integrity fault. -/
def slotFails (k : Nat) (injected : Bool) (s : State) : State :=
  let v := slotAt s k
  let s := endSlot k .bad s
  let s := recordFault { cls := clsSlotBad, kind := kindKeyStore, inst := 0, sub := k, status := stKeySlotBad
                         part := if v.owner < 16 then v.owner else if v.owner = 16 then 16 else 255
                         injected := injected } s
  let recent := (s.ll.slotFailLog.filter (fun t => now s < t + 1000000000)) ++ [now s]
  let s := onLl (fun l => { l with slotFailLog := recent }) s
  if recent.length ≥ 4 then
    recordFault { cls := clsKeyStoreIntegrity, kind := kindKeyStore, inst := 0, sub := k, status := stKeySlotBad } s
  else s

/-- A check of a slot before its key is used (R235). -/
def checkSlot (k : Nat) (s : State) : State :=
  if (slotAt s k).state = .bad then s else
  let (inj, s) := injectCheck clsSlotBad kindKeyStore 0 k 0 s
  if inj ∨ ¬ slotSound s k then slotFails k inj s else s

/-- A slot's key goes to East once its tag has been checked (R235); a slot that is BAD sends none. -/
def loadChecked (k : Nat) (s : State) : State :=
  let s := checkSlot k s
  if (slotAt s k).state = .bad then s else loadEast k s

/-- One use of a slot (R236): the status, and the state after. -/
def useSlot (k : Nat) (s : State) : Nat × State :=
  let s := checkSlot k s
  let v := slotAt s k
  if slotStatus v ≠ stOk then (slotStatus v, s)
  else if v.uses = uncounted then (stOk, s)
  else if v.uses = 0 then (stKeyUseExhausted, endSlot k .exhausted s)
  else (stOk, changeSlot k (fun v => { v with uses := v.uses - 1 }) s)

/-- Whether a party may name a slot as its own: a key ID of its pool (R234, R260). -/
def inPool (s : State) (p k : Nat) : Bool :=
  0 < k && k < 0x400 && pdef s p 8 2 ≤ k && k < pdef s p 8 2 + pdef s p 10 2

/-- The slots of an owner's pool. -/
def poolSlots (s : State) (p : Nat) : List Nat := (List.range (pdef s p 10 2)).map (fun i => pdef s p 8 2 + i)

/-- The slots whose EXPIRE_AT_RESET expires them (R237): in any state but EMPTY, and BAD, whose FLAGS are not sound (DESIGN CHOICE,
notes/assumptions/86.md). -/
def expireSlot (k : Nat) (s : State) : State :=
  let v := slotAt s k
  if v.flags.toNat.testBit 0 && v.state ≠ .empty && v.state ≠ .bad && v.state ≠ .expired then endSlot k .expired s else s

/-- A fresh digest seed of partition `p` (R237, R238). -/
def drawSeed (p : Nat) (flags : Byte) (s : State) : State :=
  let (b, s) := drbg 32 s
  let k := 1032 + p
  loadEast k (putSlot k { key := b, cls := .digest, state := .active, owner := p, engines := 0#8, flags := flags, uses := uncounted } s)

/-- An internal slot drawn afresh. -/
def drawInternal (k : Nat) (s : State) : State :=
  let (b, s) := drbg 32 s
  loadEast k (putSlot k { key := b, cls := .internal, state := .active, owner := 17, uses := uncounted } s)

/-! ## Rotation (R65 to R71, R239) -/

/-- The segment of lantern `l`'s local addresses in a range of stacked domain addresses (interleaved part). -/
def interSeg (s : State) (l lo hi : Nat) : List (Nat × Nat) :=
  let n := s.build.lanterns
  let hi := min hi (windowEnd s)
  let f (x : Nat) : Nat := (x / 4096 + n - 1 - l) / n * 4096
  if lo < hi ∧ f lo < f (hi + 4095) then [(f lo, f (hi + 4095))] else []

/-- The segment of lantern `l`'s home window in a range of stacked domain addresses. -/
def homeSeg (s : State) (l lo hi : Nat) : List (Nat × Nat) :=
  let b := homeAddr s l 0
  let h := homeGib s * 2 ^ 30
  let il := (48 - homeGib s) * 2 ^ 30
  let a := max lo b
  let z := min hi (b + h)
  if a < z then [(il + (a - b) / 4096 * 4096, il + (z - b + 4095) / 4096 * 4096)] else []

/-- The segment of port `c`'s addresses in a range of capacity domain addresses. -/
def capSeg (s : State) (c lo hi : Nat) : List (Nat × Nat) :=
  let n := s.build.caps
  let lo := max lo capBase - capBase
  let hi := min hi (capBase + 2 ^ 30 * (240 * n)) - capBase
  let f (x : Nat) : Nat := (x / 4096 + n - 1 - c) / n * 4096
  if lo < hi ∧ f lo < f (hi + 4095) then [(f lo, f (hi + 4095))] else []

/-- The segments of a unit in a domain range. -/
def unitSegs (s : State) (u : MemUnit) (lo hi : Nat) : List (Nat × Nat) :=
  match u with
  | .lantern l => interSeg s l lo hi ++ homeSeg s l lo hi
  | .capacity c => capSeg s c lo hi

/-- Every unit that holds memory. -/
def memUnits (s : State) : List MemUnit :=
  (List.range s.build.lanterns).map .lantern ++ (List.range s.build.caps).map .capacity

/-- The domain ranges of an object's storage. -/
def objRanges (s : State) (o : ObjSlot) : List (Nat × Nat) :=
  if o.placement = 1 then (bitList 16 o.mask.toNat).map (fun l => (homeAddr s l o.base, homeAddr s l o.base + o.length))
  else [(o.base, o.base + o.length)]

/-- The domain ranges of an owner that lie under key ID A: the storage of its objects with that key ID (R239). -/
def keyRanges (s : State) (a : Nat) : List (Nat × Nat) :=
  (s.parts.objects.filter (fun e => e.2.state != .free && e.2.key == a)).flatMap (fun e => objRanges s e.2)

/-- Segments in ascending order. -/
def insertSeg (g : Nat × Nat) : List (Nat × Nat) → List (Nat × Nat)
  | [] => [g]
  | h :: t => if g.1 ≤ h.1 then g :: h :: t else h :: insertSeg g t

def sortSegs (gs : List (Nat × Nat)) : List (Nat × Nat) := gs.foldr insertSeg []

/-- The shares of every unit that holds part of the ranges. -/
def sweepUnits (s : State) (ranges : List (Nat × Nat)) : List SweepUnit :=
  (memUnits s).filterMap (fun u =>
    let gs := sortSegs (ranges.flatMap (fun r => unitSegs s u r.1 r.2))
    match gs with
    | [] => none
    | g :: _ => some ⟨u, gs, g.1, false, false⟩)

/-- The next chunk of a unit at or after a local address. -/
def SweepUnit.nextFrom (u : SweepUnit) (x : Nat) : Option Nat :=
  if u.covers x then some x else (u.segs.find? (fun g => x ≤ g.1)).map Prod.fst

/-- A free rotation number. -/
def freeRotation (s : State) : Option Nat := tfind {} s.path.rotations 8 (fun r => !r.active)

/-- Whether a key ID takes part in a rotation. -/
def rotating (s : State) (k : Nat) : Bool := s.path.rotations.any (fun e => e.2.active && (e.2.a == k || e.2.b == k))

/-- Every unit has swept its share: A and B alias to B, and SWEEP_DONE goes out (R69, R327). -/
def finishSweep (n : Nat) (s : State) : State :=
  let r := rotationAt s n
  if ¬ r.active ∨ r.aliased ∨ r.units.any (fun u => !u.done) then s else
  let s := setRotation n { r with aliased := true } s
  let s := changeSlot r.a (fun v => { v with state := .aliased }) s
  let e := unstatedBytes 16 s
  let s := drawn 16 s
  let s := if r.owner < 16 then postEvent r.owner evSweepDone e s else s
  postEvent 16 evSweepDone e s

/-- A rotation of A to B begins (R65, R66, R239). -/
def startRotation (n a b base length share : Nat) (s : State) : State :=
  let ranges := if length = 0 then keyRanges s a else [(base, base + length)]
  let r : Rotation := { active := true, a := a, b := b, base := base, length := length, share := share
                        owner := (slotAt s a).owner, units := sweepUnits s ranges }
  let s := setRotation n r s
  let s := changeSlot a (fun v => { v with state := .rotateFrom }) s
  let s := changeSlot b (fun v => { v with state := .rotateTo }) s
  let s := onPath (fun p => { p with due := tset {} p.due a {} }) s
  finishSweep n s

/-- Stolaikor starts the rotation of a key ID that is due, where a usable target is designated (R53); the target's
designation ends with the rotation (R239). -/
def startDue (k : Nat) (s : State) : State :=
  let d := tget {} s.path.due k
  if ¬ d.on then s else
  let t := dueTarget s d.owner
  if t = 0xFFFF ∨ (slotAt s k).state ≠ .active ∨ (slotAt s t).state ≠ .active ∨ t = k ∨ rotating s k ∨ rotating s t then s
  else match freeRotation s with
    | none => s
    | some n =>
      onKeys (fun x => { x with targets := terase x.targets d.owner }) (startRotation n k t 0 0 2 s)

/-- Every key ID that is due starts its rotation where it can. -/
def startDues (s : State) : State := s.path.due.foldl (fun s e => startDue e.1 s) s

/-- Retirement of A completes (R70, R239, R276): lantern-buffer entries tagged A are invalid, A RETIRED, B ACTIVE, objects of A take
B. -/
def retireKey (n : Nat) (s : State) : State :=
  let r := rotationAt s n
  let s := endSlot r.a .retired (dropAllEntries (fun e => e.key == r.a) s)
  let s := changeSlot r.b (fun v => { v with state := .active }) s
  let s := onParts (fun p => { p with objects := tmap {} p.objects (fun _ o => if o.key = r.a then { o with key := r.b } else o) }) s
  let s := onKv (fun v => { v with pools := tmap {} v.pools (fun _ p => if p.key = r.a then { p with key := r.b } else p) }) s
  let s := onExperts (fun e => { e with groups := tmap {} e.groups (fun _ g => if g.key = r.a then { g with key := r.b } else g) }) s
  setRotation n {} s

/-- Whether accepted requests that have not completed name a slot, from the partitions a test picks (R70, R238): at the ports, held
in the lanterns, in the combining buffers. -/
def slotNamed (s : State) (k : Nat) (f : Nat → Bool) : Bool :=
  s.path.ports.any (fun e => e.2.any (fun w => w.phase ≠ 2 && keyOf w.req.addr.toNat == k && f w.req.part)) ||
    s.path.lanterns.any (fun e => e.2.held.any (fun h => keyOf h.addr.toNat == k && f h.part)) ||
    (s.fabric.west.comb ++ s.fabric.east.comb).any (fun c => c.key == k && f c.part)

/-- Grants of a slot that a test picks are gone. -/
def endGrants (k : Nat) (f : KeyGrant → Bool) (s : State) : State :=
  onKeys (fun x => { x with grants := x.grants.filter (fun g => !(g.slot == k && f g)) }) s

/-- Grants of a slot that a test picks allow nothing more. -/
def closeGrants (k : Nat) (f : KeyGrant → Bool) (s : State) : State :=
  onKeys (fun x => { x with grants := x.grants.map (fun g => if g.slot = k ∧ f g then { g with closing := true } else g) }) s

/-- A request accepted before a KEY_CLEAR of its slot or a KEY_UNGRANT began completes under the old key (R238). -/
def underOldKey {α : Type} (k : Nat) (f : State → α × State) (s : State) : α × State :=
  let v := slotAt s k
  let closed := s.keys.grants.filter (fun g => g.slot == k && g.closing)
  if ¬ v.draining ∧ closed = [] then f s else
  let (x, t) := f (onKeys (fun y => { y with grants := y.grants.map (fun g => if g.slot = k then { g with closing := false } else g) })
    (modSlot k (fun v => { v with draining := false }) s))
  (x, onKeys (fun y => { y with grants := y.grants.map (fun g => if closed.any (fun c => c.part == g.part) ∧ g.slot = k then { g with closing := true } else g) })
    (if v.draining then modSlot k (fun v => { v with draining := true }) t else t))

end Sys2Proof.Machine
end

