-- ==== Sys2Proof/Machine/Trace.lean ====
section
/-! DEFINITION. The trace units as every unit uses them: records (R410 to R413), sub-buffers and their policies (R414,
R415), triggers (R416), losses (R417), the observation cap (R419), and the digest of R135. -/
namespace Sys2Proof.Machine

/-- A trace record before it has its bytes: TYPE, KIND, INSTANCE, PART, SUB, argument, context (0xFFFF none), the
lantern and tickets its event rests on. -/
structure TraceRec where
  type    : Nat
  kind    : Nat
  inst    : Nat := 0
  part    : Nat := 0xFF
  sub     : Nat := 0
  arg     : Bytes := []
  ctx     : Nat := 0xFFFF
  lantern : Nat := 0
  mark    : List Nat := []
  deriving DecidableEq, Repr

/-- The source index of a kind and instance within its half (R410). -/
def sourceIndex (s : State) (kind inst : Nat) : Nat :=
  if kind = kindLantern ∨ kind = kindWick then 8 + (if lanternWest s inst then inst else inst - firstEast s)
  else if kind = kindCapacity then 16 + (if capWest s inst then inst else inst - westOf s.build.caps)
  else if kind = kindLink then 24 + (if linkWest s inst then inst else inst - westOf s.build.links)
  else if kind = kindLamplighter then 1
  else if kind = kindRegulator then 3
  else if kind = kindTrace then 4
  else if kind = kindFrontEnd ∨ kind = kindFeAgent then 0
  else 2

/-- The bytes of a record (R410), SAMPLED and PRE_TRIGGER not yet set. -/
def traceBytes (r : TraceRec) (time : Nat) : Bytes :=
  let long := r.arg.length > 16
  le 1 1 ++ le 1 r.type ++ le 1 r.kind ++ le 1 r.inst ++ le 1 (if r.part = 16 then 0xFE else r.part) ++
    le 1 (if long then 0x40 else 0) ++ le 2 r.sub ++ le 8 time ++ fit (if long then 48 else 16) r.arg

/-- Fields of a record's bytes. -/
def recType (b : Bytes) : Nat := fld b 1 1
def recPart (b : Bytes) : Nat := fld b 4 1
def recTime (b : Bytes) : Nat := fld b 8 8

/-- A sub-buffer: half 0 West, 1 East. -/
def TraceBuf.half (b : TraceBuf) (h : Nat) : SubBuffer := if h = 0 then b.west else b.east
def modSub (k h : Nat) (f : SubBuffer → SubBuffer) (s : State) : State :=
  modBuf k (fun b => if h = 0 then { b with west := f b.west } else { b with east := f b.east }) s

/-- Bytes of a sub-buffer, of its record region R, of its post-trigger region (R414). -/
def TraceBuf.subLen (b : TraceBuf) : Nat := b.length / 2
def TraceBuf.region (b : TraceBuf) : Nat := b.subLen - 256 - (if b.policy = 2 then b.post else 0)

/-- The request address of a byte of a local sub-buffer; a home-placed object serves from its lowest lantern. -/
def subAddr (s : State) (b : TraceBuf) (h off : Nat) : Nat :=
  let o := objAt s b.obj
  let x := b.offset + h * b.subLen + off
  if o.placement = 1 then reqAddr o.key (homeAddr s ((bitList 16 o.mask.toNat).headD 0) (o.base + x))
  else reqAddr o.key (o.base + x)

/-- The record types a partition's buffer may receive (R413). -/
def partTypes : List Nat := [1, 2, 3, 4, 5, 7, 9, 12, 13, 14]

/-- Whether a buffer takes a record of a source (R413, R425). -/
def wants (b : TraceBuf) (h : Nat) (bytes : Bytes) (src ctx : Nat) : Bool :=
  let t := recType bytes
  let m := if h = 0 then b.maskW else b.maskE
  match b.owner with
  | none => false
  | some o =>
    (b.half h).state ≠ 0 && b.types.testBit t && m.toNat.testBit src && (b.ctx == 0xFFFF || b.ctx == ctx) &&
      (o == 16 || (partTypes.contains t && recPart bytes == o))

/-- Observation bytes of an owner (R421). -/
def observe (o n : Nat) (s : State) : State := modTotals o (fun t => { t with observation := satTo 64 (t.observation + n) }) s

/-- The lantern that a byte of a local sub-buffer lies in (R419). -/
def obsLantern (s : State) (k h off : Nat) : Option Nat :=
  let b := bufAt s k
  if b.remote then none else
  match place s (domainOf (subAddr s b h off)) with
  | some (.stacked l _) => some l
  | _ => none

/-- Bytes that a lantern takes, and that a link port sends to remote buffers, for one half in 10 µs (R419). -/
def obsCap : Nat := 1228800
def obsPortCap : Nat := 25600

/-- Bytes of a half that wait for the link engines. -/
def remoteBytes (s : State) (h : Nat) : Nat := ((s.trace.remote.filter (fun r => r.2.1 == h)).map (fun r => r.2.2.2.2.length)).sum

/-- Whether the cap holds `n` bytes at an offset of a sub-buffer back now: the lantern's share is spent, or as much as a port takes
waits for the link engines. -/
def capBlocks (s : State) (k h off n : Nat) : Bool :=
  if (bufAt s k).remote then decide (remoteBytes s h + n > obsPortCap)
  else match obsLantern s k h off with
  | none => false
  | some l => tget 0 (if h = 0 then s.trace.spentW else s.trace.spentE) l + n > obsCap

/-- Where the next record of a sub-buffer goes. -/
def nextRecord (s : State) (k h : Nat) : Nat :=
  let b := bufAt s k
  let x := b.half h
  if b.policy = 2 ∧ x.state = 2 then 256 + b.region + (x.write - x.trigWrite) else 256 + x.write % max 1 b.region

/-- Whether the cap holds a record of `n` bytes back from a sub-buffer. -/
def recordBlocked (s : State) (k h n : Nat) : Bool := capBlocks s k h (nextRecord s k h) n

/-- The cap's account of a local write: record, header or LOSS record. -/
def spendObs (k h off n : Nat) (s : State) : State :=
  match obsLantern s k h off with
  | none => s
  | some l => onTrace (fun t => if h = 0 then { t with spentW := tmod 0 t.spentW l (· + n) } else { t with spentE := tmod 0 t.spentE l (· + n) }) s

/-- Bytes of a buffer's storage are written: locally through the memory path, or set aside for the link engines. -/
def bufWrite (k h off : Nat) (hdr : Bool) (bs : Bytes) (s : State) : State :=
  let b := bufAt s k
  let o := b.owner.getD 16
  let s := observe o bs.length s
  if b.remote then onTrace (fun t => { t with remote := t.remote ++ [(k, h, off, hdr, bs)] }) s
  else (memWrite { part := o, master := 0, kind := kindTrace, inst := h, own := true } {} (subAddr s b h off) bs (spendObs k h off bs.length s)).2

/-- Bytes in the record region from a position on, wrapping at R. -/
def ringWrite (k h pos : Nat) (bs : Bytes) (s : State) : State :=
  let r := (bufAt s k).region
  if r = 0 then s else
  let p := pos % r
  let n := min bs.length (r - p)
  let s := bufWrite k h (256 + p) false (bs.take n) s
  if n < bs.length then bufWrite k h 256 false (bs.drop n) s else s

/-- The 256 B header (R414). -/
def subHeader (s : State) (k h : Nat) : Bytes :=
  let b := bufAt s k
  let x := b.half h
  le 1 1 ++ le 1 b.policy ++ le 1 x.state ++ le 1 h ++ le 2 s.fabric.node ++ le 1 s.time.state ++ le 1 x.stop ++
    le 8 x.write ++ le 8 x.trigTime ++ le 8 x.trigWrite ++ le 4 b.post ++ zeros 28 ++
    (List.range 48).flatMap (fun i => le 4 (tget 0 x.loss i))

/-- A header is rewritten (R414). -/
def writeHeader (k h : Nat) (s : State) : State := bufWrite k h 0 true (subHeader s k h) s

/-- A sub-buffer stops (R414, R415). -/
def stopSub (k h reason : Nat) (s : State) : State :=
  if (bufAt s k).half h |>.state |> (fun x => x = 0 ∨ x = 3) then s else
  writeHeader k h (modSub k h (fun x => { x with state := 3, stop := reason }) s)

/-- A record is lost from a sub-buffer (R417). -/
def loseRecord (k h src reason time : Nat) (s : State) : State :=
  let s := modSub k h (fun x =>
    let owed := if x.owed.any (fun e => e.1 == src && e.2.1 == reason)
      then x.owed.map (fun e => if e.1 == src && e.2.1 == reason then (e.1, e.2.1, e.2.2.1 + 1, e.2.2.2) else e)
      else x.owed ++ [(src, reason, 1, time)]
    { x with loss := tset 0 x.loss src (satTo 32 (tget 0 x.loss src + 1)), owed := owed }) s
  let s := onTrace (fun t => if h = 0 then { t with lostW := satTo 32 (t.lostW + 1) } else { t with lostE := satTo 32 (t.lostE + 1) }) s
  match (bufAt s k).owner with
  | some o => modCounters o (fun c => { c with traceLost := satTo 64 (c.traceLost + 1) }) s
  | none => s

/-- A record's bytes go into a sub-buffer that is RUNNING or TRIGGERED, by its policy (R415). -/
def placeRecord (k h : Nat) (bs : Bytes) (src : Nat) (s : State) : State :=
  let b := bufAt s k
  let x := b.half h
  let n := bs.length
  if x.state = 3 then loseRecord k h src 2 (recTime bs) s
  else if b.policy = 2 ∧ x.state = 2 then
    let off := x.write - x.trigWrite
    if off + n > b.post then loseRecord k h src 2 (recTime bs) (stopSub k h 2 s)
    else
      let bs := if recTime bs < x.trigTime then bs.set 5 ((bs.getD 5 0) ||| 1#8) else bs
      modSub k h (fun x => { x with write := x.write + n }) (bufWrite k h (256 + b.region + off) false bs s)
  else if b.policy = 1 ∧ x.write + n > b.region then loseRecord k h src 2 (recTime bs) (stopSub k h 1 s)
  else modSub k h (fun x => { x with write := x.write + n }) (ringWrite k h x.write bs s)

/-- A LOSS record's bytes (R410, R417). -/
def lossBytes (s : State) (k h src reason count first : Nat) : Bytes :=
  traceBytes { type := 13, kind := kindTrace, inst := h, part := (bufAt s k).owner.getD 16
               arg := le 1 src ++ le 1 reason ++ zeros 2 ++ le 4 count ++ le 8 first } (clock s (h == 0))

/-- The LOSS records owed by a sub-buffer that has room are written (R417). -/
def payLosses (k h : Nat) (s : State) : State :=
  let x := (bufAt s k).half h
  if x.state = 3 then s else
  let s := modSub k h (fun x => { x with owed := [] }) s
  x.owed.foldl (fun s e => placeRecord k h (lossBytes s k h e.1 e.2.1 e.2.2.1 e.2.2.2) 4 s) s

/-- A record for one buffer, sampled where its type is (R411). -/
def giveRecord (k h : Nat) (bs : Bytes) (src : Nat) (s : State) : State :=
  let b := bufAt s k
  if recType bs = 5 ∨ recType bs = 7 then
    let c := (b.half h).sampled + 1
    if c < b.sample then modSub k h (fun x => { x with sampled := c }) s
    else placeRecord k h (bs.set 5 ((bs.getD 5 0) ||| 2#8)) src (payLosses k h (modSub k h (fun x => { x with sampled := 0 }) s))
  else placeRecord k h bs src (payLosses k h s)

/-- The buffers that take a record: a WATCH record only the buffer its watch names (R422). -/
def takers (s : State) (h : Nat) (r : StagedRec) : List Nat :=
  (List.range 32).filter (fun k => wants (bufAt s k) h r.bytes r.source r.ctx &&
    (recType r.bytes ≠ 12 || (watchAt s (fld r.bytes 6 2)).buf == k))

/-- Whether a curfew is in force, so that no record of an event at or after T is written (R430). -/
def traceCurfew (s : State) (time : Nat) : Bool := s.curfew.inForce && s.curfew.t ≤ time

/-- A staged record leaves for its buffers. -/
def deliverRecord (h : Nat) (r : StagedRec) (s : State) : State :=
  (takers s h r).foldl (fun s k =>
    if traceCurfew s (recTime r.bytes) ∧ recType r.bytes ≠ 15 then loseRecord k h r.source 4 (recTime r.bytes) s
    else giveRecord k h r.bytes r.source s) s

/-- The staging FIFO of a half drains (R412, R419): a record behind a waiting one of its source waits. Answers what stays. -/
def drainFifo (h : Nat) : List StagedRec → List Nat → State → List StagedRec × State
  | [], _, s => ([], s)
  | r :: rs, waiting, s =>
    if r.mark ≠ [] ∨ waiting.contains r.source ∨ (takers s h r).any (fun k => recordBlocked s k h r.bytes.length) then
      let (ks, s) := drainFifo h rs (r.source :: waiting) s
      (r :: ks, s)
    else drainFifo h rs waiting (deliverRecord h r s)

/-- Both FIFOs drain. -/
def flushTrace (s : State) : State :=
  let (w, s) := drainFifo 0 s.trace.fifoW [] s
  let s := onTrace (fun t => { t with fifoW := w }) s
  let (e, s) := drainFifo 1 s.trace.fifoE [] s
  onTrace (fun t => { t with fifoE := e }) s

/-- Bytes in a FIFO. -/
def fifoBytes (f : List StagedRec) : Nat := (f.map (fun r => r.bytes.length)).sum

/-! ## Triggers (R416) -/

/-- A trigger in one half: RUNNING sub-buffers freeze with the time of the detection. -/
def freezeSub (k h time : Nat) (s : State) : State :=
  if ((bufAt s k).half h).state ≠ 1 then s
  else modSub k h (fun x => { x with state := 2, trigTime := time, trigWrite := x.write }) s

/-- A trigger fires where it is detected: that half freezes, a TRACE message tells the other, a TRIGGER record is
written. -/
def fireTrigger (k h cond argv time : Nat) (s : State) : State :=
  let b := bufAt s k
  if b.owner = none ∨ b.fired then s else
  let s := modBuf k (fun b => { b with fired := true }) s
  let s := freezeSub k h time s
  let s := seamSend (h = 0) 8 (.trace (.trigger k time cond argv)) s
  let r := traceBytes { type := 14, kind := kindTrace, inst := h, part := b.owner.getD 16
                        arg := le 1 cond ++ zeros 3 ++ le 4 argv } time
  if wants (bufAt s k) h r 4 0xFFFF then giveRecord k h r 4 s else s

/-- Buffers whose condition a record meets (R416). -/
def recordTriggers (h src : Nat) (bs : Bytes) (s : State) : State :=
  (List.range 32).foldl (fun s k =>
    let b := bufAt s k
    let t := recType bs
    let mine := b.owner = some 16 ∨ b.owner = some (recPart bs)
    if b.cond = 3 ∧ mine ∧ b.arg % 256 = t ∧ (bits b.arg 15 8 = 0xFF ∨ bits b.arg 15 8 = src) then
      fireTrigger k h 3 b.arg (recTime bs) s
    else if b.cond = 4 ∧ mine ∧ t = 12 ∧ fld bs 6 2 = b.arg ∧ (fld bs 28 4 ≠ 0 ∨ fld bs 32 4 ≠ 0) then
      fireTrigger k h 4 b.arg (recTime bs) s
    else s) s

/-- A unit emits a record (R410 to R412). A marked record meets no condition until its mark is empty (R60). -/
def traceEmit (r : TraceRec) (s : State) : State :=
  if s.trace.bufs = [] then s else
  let h := b2n (kindEast s r.kind r.inst)
  let src := sourceIndex s r.kind r.inst
  let bs := traceBytes r (clock s (h == 0))
  let st : StagedRec := ⟨bs, src, r.part, r.ctx, r.lantern, r.mark⟩
  let f := if h = 0 then s.trace.fifoW else s.trace.fifoE
  let s :=
    if fifoBytes f + bs.length > 65536 then
      (takers s h st).foldl (fun s k => loseRecord k h src (if recordBlocked s k h bs.length then 0 else 1) (clock s (h == 0)) s) s
    else onTrace (fun t => if h = 0 then { t with fifoW := t.fifoW ++ [st] } else { t with fifoE := t.fifoE ++ [st] }) s
  keepFuses (fun s => if r.mark = [] then recordTriggers h src bs (flushTrace s) else flushTrace s) s

/-- What the trace units were told of is looked at: FAULT records (R410) and the FAULT and EVENT conditions (R416). -/
def lookAtNoticed (s : State) : State :=
  let n := s.trace.noticed
  let s := onTrace (fun t => { t with noticed := [] }) s
  n.foldl (fun s x => match x with
    | .event mb code time => (List.range 32).foldl (fun s k =>
        let b := bufAt s k
        if b.cond = 2 ∧ b.arg = code ∧ b.owner = some mb then fireTrigger k 0 2 code time s else s) s
    | .fault r =>
      let s := traceEmit { type := 10, kind := r.kind, inst := r.inst, part := r.part
                           arg := le 4 r.seq ++ le 1 r.cls ++ le 1 r.severity ++ le 2 r.status ++ le 8 r.addr.toNat } s
      (List.range 32).foldl (fun s k =>
        let b := bufAt s k
        if b.cond = 1 ∧ b.arg % 256 = r.cls ∧ bits b.arg 15 8 ≤ r.severity ∧
            (b.owner = some 16 ∨ b.owner = some r.part) then
          fireTrigger k (b2n (kindEast s r.kind r.inst)) 1 b.arg (clock s (!kindEast s r.kind r.inst)) s else s) s) s

/-- The triggers of records whose mark has become empty (R60, R416), both halves. -/
def markTriggers (h : Nat) (rs : List StagedRec) (s : State) : State := rs.foldl (fun s r => recordTriggers h r.source r.bytes s) s

/-- A confirmed ticket leaves the marks of staged records; a failed one discards them (R412). -/
def traceTicket (l tid : Nat) (pass : Bool) (s : State) : State :=
  let hit (r : StagedRec) : Bool := r.lantern == l && r.mark.contains tid
  let lose (h : Nat) (s : State) (f : List StagedRec) : State :=
    (f.filter hit).foldl (fun s r => (takers s h r).foldl (fun s k => loseRecord k h r.source 3 (recTime r.bytes) s) s) s
  let keep (f : List StagedRec) : List StagedRec :=
    if pass then f.map (fun r => if hit r then { r with mark := r.mark.filter (· ≠ tid) } else r) else f.filter (fun r => !hit r)
  if s.trace.fifoW = [] ∧ s.trace.fifoE = [] then s else
  let s := if pass then s else lose 1 (lose 0 s s.trace.fifoW) s.trace.fifoE
  let free (f : List StagedRec) : List StagedRec := if pass then f.filter (fun r => hit r && r.mark.all (· == tid)) else []
  let w := free s.trace.fifoW
  let e := free s.trace.fifoE
  markTriggers 1 e (markTriggers 0 w (flushTrace (onTrace (fun t => { t with fifoW := keep t.fifoW, fifoE := keep t.fifoE }) s)))

/-! ## Digests (R135) -/

/-- The digest key of a partition (R231), from the store in West or the mirror in East. The manager has no seed and the
spec names no other key: a free value. -/
def digestKey (s : State) (p : Nat) (west : Bool) : Bytes :=
  if p = 16 then (List.range 32).map Sys2Proof.Config.unstated else hkdf [] (slotKey s west (1032 + p)) (ascii "EONAL-DIGEST-1") 32

/-- F of R135: the low 64 bits of one block. -/
def digestTerm (ks : List Bytes) (i v : Nat) : Nat := leNat ((aesWith ks (le 8 i ++ le 4 v ++ zeros 4)).take 8)

/-- The digest of positions and values. -/
def digestOf (key : Bytes) (xs : List (Nat × Nat)) : Nat :=
  let ks := roundKeys key
  (xs.map (fun x => digestTerm ks x.1 x.2)).sum % 2 ^ 64

end Sys2Proof.Machine
end

