-- ==== Sys2Proof/Machine/Tickets.lean ====
section
/-! DEFINITION. Verification tickets, provisional marks, held writes (R57 to R64): what a wick's read of unconfirmed data
joins, what a confirmed or failed ticket does. -/
namespace Sys2Proof.Machine

/-- A task fails with a status; the first status stands, and a task told to abort fails with nothing of its own. -/
def failTask (t st : Nat) (s : State) : State :=
  modTask t (fun x => if x.live && !x.failed && !x.aborting then { x with failed := true, status := st, aborting := true } else x) s

/-- The empty ticket. -/
def noTicket : Ticket := ⟨0, 0, 0, 0, false⟩

/-- A ticket of a lantern. -/
def ticketAt (s : State) (l k : Nat) : Ticket := tget noTicket (lanternAt s l).tickets k
def setTicket (l k : Nat) (t : Ticket) (s : State) : State :=
  modLantern l (fun x => { x with tickets := tset noTicket x.tickets k t }) s

/-- A task's dependency set in a lantern (R58). -/
def depsOf (s : State) (t l : Nat) : List Nat := tget [] (taskAt s t).deps l
def addDeps (t l : Nat) (ks : List Nat) (s : State) : State :=
  modTask t (fun x => { x with deps := tmod [] x.deps l (fun d => d ++ ks.filter (fun k => !d.contains k)) }) s

/-- The tickets in two sets together. -/
def union (a b : List Nat) : List Nat := a ++ b.filter (fun k => !a.contains k)

/-- The key of a task's open ticket for a source in a lantern. -/
def openKey (l source : Nat) : Nat := l * 256 + source

/-- The ticket that one more line or frame of a source joins (R57, R59): the open one, a new one, or none. -/
def joinTicket (t l source : Nat) (s : State) : Option Nat × State :=
  let o := tget 0 (taskAt s t).open_ (openKey l source)
  if o ≠ 0 then
    let k := o - 1
    let x := ticketAt s l k
    let x := { x with joined := x.joined + 1, waiting := x.waiting + 1 }
    let s := setTicket l k { x with sealed := x.joined ≥ 64 } s
    let s := if x.joined ≥ 64 then modTask t (fun y => { y with open_ := tset 0 y.open_ (openKey l source) 0 }) s else s
    (some k, s)
  else if (depsOf s t l).length ≥ 16 then (none, s)
  else match tfind noTicket (lanternAt s l).tickets 256 (fun x => x.task == 0) with
    | none => (none, s)
    | some k =>
      let s := setTicket l k ⟨t, source, 1, 1, false⟩ s
      let s := modTask t (fun y => { y with open_ := tset 0 y.open_ (openKey l source) (k + 1) }) s
      (some k, addDeps t l [k] s)

/-! ## Held writes (R61) -/

/-- The bytes a lantern's write-hold buffer holds. -/
def heldBytes (s : State) (l : Nat) : Nat := ((lanternAt s l).held.map (fun h => h.data.length)).sum

/-- MASTER and MASTER_ID of a task's requests (R373): a wick task by its queue, a pilot by its number. -/
def taskMaster (s : State) (t : Nat) : Nat × Nat :=
  match (taskAt s t).purpose with
  | .command qi _ => (1, (queueAt s qi).q)
  | .pilot pi => (2, (pilotAt s pi).n)

/-- The request of a task's wick in lantern `l` for an address, at the unit that receives it. -/
def wickReq (s : State) (t p l addr access : Nat) : Req :=
  let m := taskMaster s t
  let dl := (taskAt s t).deadline
  match place s (domainOf addr) with
  | some (.capacity c _) => { part := p, kind := kindCapacity, inst := c, master := m.1, access := access, masterId := m.2, deadline := dl }
  | _ => { part := p, kind := kindLantern, inst := l, master := m.1, access := access, masterId := m.2, wick := true, deadline := dl }

/-- ACCESS codes of a read and a write (R373). -/
def accRead : Nat := 1
def accWrite : Nat := 2

/-- Bytes written and read at an address, counted (R268). -/
def Context.wrote (s0 : State) (addr n : Nat) (c : Context) : Context :=
  match place s0 (domainOf addr) with
  | some (.capacity _ _) => { c with capacityWrite := satTo 64 (c.capacityWrite + n) }
  | _ => { c with stackedWrite := satTo 64 (c.stackedWrite + n) }
def Context.hasRead (s0 : State) (addr n : Nat) (c : Context) : Context :=
  match place s0 (domainOf addr) with
  | some (.capacity _ _) => { c with capacityRead := satTo 64 (c.capacityRead + n) }
  | _ => { c with stackedRead := satTo 64 (c.stackedRead + n) }

/-- A task's own counts, which go to its context every 100 µs and at its end (R269). -/
def chargeTask (t : Nat) (f : Context → Context) (s : State) : State := modTask t (fun x => { x with acc := f x.acc }) s
def chargeWrite (t : Nat) (s0 : State) (addr n : Nat) (s : State) : State := chargeTask t (Context.wrote s0 addr n) s
def chargeRead (t : Nat) (s0 : State) (addr n : Nat) (s : State) : State := chargeTask t (Context.hasRead s0 addr n) s

/-- The held writes of a lantern leave in each task's order, each as soon as its mark is empty and its chunk or page is
free (R61, R67, R393); those that arrived after number `n` stay. Answers what stays. -/
def leaveHeld (ue : Ue) (l n : Nat) : List HeldWrite → List Nat → State → List HeldWrite × State
  | [], _, s => ([], s)
  | h :: hs, blocked, s =>
    if h.mark ≠ [] ∨ n < h.arrival ∨ blocked.contains h.task ∨ rangeWaits s true h.addr.toNat h.data.length then
      let (r, s) := leaveHeld ue l n hs (h.task :: blocked) s
      (h :: r, s)
    else
      let a := h.addr.toNat
      let (st, s) := underOldKey (keyOf a) (memWrite (wickReq s h.task h.part l a accWrite) ue a h.data) s
      let s := chargeWrite h.task s a h.data.length s
      leaveHeld ue l n hs blocked (if st = stOk then s else failTask h.task st s)

/-- What may leave of what had arrived by number `n` leaves. -/
def releaseHeldTo (ue : Ue) (l n : Nat) (s : State) : State :=
  if (lanternAt s l).held = [] then s else
  let (r, s) := leaveHeld ue l n (lanternAt s l).held [] s
  modLantern l (fun x => { x with held := r }) s

/-- What may leave leaves. -/
def releaseHeld (ue : Ue) (l : Nat) (s : State) : State := releaseHeldTo ue l s.path.arrivals s

/-- One more request has arrived. -/
def arrived (s : State) : State := onPath (fun p => { p with arrivals := p.arrivals + 1 }) s

/-! ## A routing group's REGION (R166) -/

/-- Bytes of a bias copy. -/
def RGroup.biasBytes (g : RGroup) : Nat := alignUp (64 + g.layers * g.experts * 4) 4096

/-- The request address of a byte of lantern `l`'s share of REGION. -/
def regionAddr (s : State) (g : RGroup) (l off : Nat) : Nat :=
  reqAddr g.key (homeAddr s l ((objAt s g.obj).base + g.offset + off))

/-- Where bias copy `c` and load counter `i` stand in a share. -/
def RGroup.biasOff (g : RGroup) (c : Nat) : Nat := 4096 + c * g.biasBytes
def RGroup.loadOff (g : RGroup) (i : Nat) : Nat := 4096 + 2 * g.biasBytes + 4 * i

/-- Eonal's own request for a group's REGION. -/
def regionReq (g : RGroup) (l : Nat) : Req := { part := g.owner, own := true, kind := kindLantern, inst := l }

/-- A load counter of lantern `l` rises by one, saturating (R166, R171). -/
def addLoad (ue : Ue) (l k i : Nat) (s : State) : State :=
  let g := groupAt s k
  if ¬ g.live then s else
  let a := regionAddr s g l (g.loadOff i)
  let (r, s) := memRead (regionReq g l) ue a 4 s
  if r.status ≠ stOk then s else (memWrite (regionReq g l) ue a (le 4 (satTo 32 (leNat r.data + 1))) s).2

/-- Load-counter additions whose mark is empty happen (R171). -/
def releaseCounts (ue : Ue) (l : Nat) (s : State) : State :=
  let hs := (lanternAt s l).heldCounts
  let s := (hs.filter (fun h => h.mark = [])).foldl (fun s h => addLoad ue l h.rgroup h.index s) s
  if hs = [] then s else modLantern l (fun x => { x with heldCounts := hs.filter (fun h => h.mark ≠ []) }) s

/-! ## Verdicts -/

/-- A ticket leaves every dependency set and mark of its lantern. -/
def dropMark (l k : Nat) (s : State) : State :=
  let n := s.path.arrivals
  let s := modLantern l (fun x => { x with
    held := x.held.map (fun h => { h with mark := h.mark.filter (· ≠ k), arrival := if h.mark = [] then h.arrival else n })
    heldCounts := x.heldCounts.map (fun h => { h with mark := h.mark.filter (· ≠ k) }) }) s
  arrived <| onFe (fun f => { f with tasks := f.tasks.map (fun e =>
    (e.1, { e.2 with deps := tmod [] e.2.deps l (fun d => d.filter (· ≠ k))
                     open_ := e.2.open_.filter (fun o => !(o.1 / 256 == l && o.2 == k + 1)) })) }) s

/-- A sealed ticket whose verdicts have all passed is confirmed (R57). -/
def settleTicket (ue : Ue) (l k : Nat) (s : State) : State :=
  let x := ticketAt s l k
  if x.task ≠ 0 ∧ x.sealed ∧ x.waiting = 0 then
    let s := setTicket l k noTicket s
    releaseCounts ue l (releaseHeld ue l (traceTicket l k true (dropMark l k s)))
  else s

/-- The open tickets of a task in a lantern are sealed at the end of a descriptor (R57). -/
def sealTickets (ue : Ue) (t l : Nat) (s : State) : State :=
  let os := (taskAt s t).open_.filter (fun e => e.1 / 256 == l)
  let s := modTask t (fun y => { y with open_ := y.open_.filter (fun e => e.1 / 256 ≠ l) }) s
  os.foldl (fun s e => settleTicket ue l (e.2 - 1) (setTicket l (e.2 - 1) { ticketAt s l (e.2 - 1) with sealed := true } s)) s

/-- The fault of a failed source for one partition hit (R63): CAP_TAG of a capacity port, LINK_TICKET of a link port. `m` is
the kind and number of the queue or pilot whose task was hit (R373). -/
def sourceFault (l source addr part : Nat) (m : Nat × Nat) (err : Nat) (s : State) : State :=
  if source < 64 then
    recordFault { cls := clsCapTag, kind := kindCapacity, inst := source, status := stIntegrityFail, part := part
                  master := m.1, access := accRead, addr := addr, masterId := m.2, err := some err } s
  else
    recordFault { cls := clsLinkTicket, kind := kindLantern, inst := l, sub := source - 64, status := stIntegrityFail
                  part := part, master := m.1, addr := addr, masterId := m.2, err := some err } s

/-- No ticket of a lantern: verdicts of a ticket that has ended name it. -/
def goneTicket : Nat := 256

/-- No task: the opener of a ticket whose task has ended, which stands until its verdicts are in (R57, R63). -/
def goneTask : Nat := 2 ^ 32

/-- A ticket fails (R63): held writes and additions that rest on it go, the tasks that depend on it, and those whose read waits to inherit
it (R59), fail, one fault is recorded for each partition hit. -/
def failTicket (ue : Ue) (l k addr : Nat) (s : State) : State :=
  let x := ticketAt s l k
  if x.task = 0 then s else
  let la := lanternAt s l
  let deps := (s.fe.tasks.filter (fun e => e.2.live && ((tget [] e.2.deps l).contains k || (tget [] e.2.wanted l).contains k))).map Prod.fst
  let tasks := union deps ((la.held.filter (fun h => h.mark.contains k)).map (fun h => h.task))
  let parts := tasks.foldl (fun ps t => union ps [(taskAt s t).part]) []
  let first := if (taskAt s x.task).live then x.task :: tasks else tasks
  let hit := parts.map (fun p => (p, ((first.find? (fun t => (taskAt s t).part == p)).map (taskMaster s)).getD (0, 0)))
  let (e, s) := newErr s
  let s := modLantern l (fun y => { y with
    held := y.held.filter (fun h => !h.mark.contains k), heldCounts := y.heldCounts.filter (fun h => !h.mark.contains k) }) s
  let s := onPath (fun p => { p with caps := p.caps.map (fun c => (c.1, { c.2 with verdicts := c.2.verdicts.map (fun v =>
    if v.target = .ticket l k then { v with target := .ticket l goneTicket } else v) })) }) s
  let s := onFabric (fun f => { f with verdicts := f.verdicts.map (fun v =>
    { v with tickets := v.tickets.map (fun t => if t = (l, k) then (l, goneTicket) else t) }) }) s
  let s := tasks.foldl (fun s t => failTask t stIntegrityFail s) s
  let s := setTicket l k noTicket s
  let s := dropMark l k (traceTicket l k false s)
  let s := (if hit = [] then [(255, 0, 0)] else hit).foldl (fun s p => sourceFault l x.source addr p.1 p.2 e s) s
  releaseCounts ue l (releaseHeld ue l s)

/-- A verdict arrives for a ticket (R57, R63). -/
def ticketVerdict (ue : Ue) (l k addr : Nat) (pass : Bool) (s : State) : State :=
  if k ≥ goneTicket then s else
  if ¬ pass then failTicket ue l k addr s
  else
    let x := ticketAt s l k
    if x.task = 0 then s else settleTicket ue l k (setTicket l k { x with waiting := x.waiting - 1 } s)

/-! ## A wick's reads and writes -/

/-- What a step of a wick comes to: a value, a failure of its task, a wait that leaves the descriptor and all else as it was, with the
tickets a waiting read is to inherit (R59), or a wait for what has been sent. -/
inductive WOut (α : Type) where
  | done (a : α) (s : State)
  | fails (st : Nat) (s : State)
  | waits (wanted : List Nat)
  | stays (s : State)

/-- One step after another. -/
def WOut.andThen {α β : Type} (x : WOut α) (f : α → State → WOut β) : WOut β :=
  match x with
  | .done a s => f a s
  | .fails st s => .fails st s
  | .waits ks => .waits ks
  | .stays s => .stays s

/-- A list of steps. -/
def WOut.each {α β : Type} (f : α → State → WOut β) : List α → State → WOut (List β)
  | [], s => .done [] s
  | a :: as, s => (f a s).andThen fun b s => (WOut.each f as s).andThen fun bs s => .done (b :: bs) s

/-- Whether a wick of lantern `l` may reach an address: its own stacked memory, or the capacity tier (R117). -/
def wickReach (s : State) (l addr len : Nat) : Bool :=
  addr / 2 ^ 60 == 0 && (List.range (len / 4096 + 2)).all (fun i =>
    let a := min (domainOf addr + 4096 * i) (domainOf addr + (len - 1))
    match place s a with
    | some (.stacked k _) => k == l
    | some (.capacity _ _) => true
    | none => false)

/-- Whether a read naming `addr` of a partition meets a held write: the same partition, the same key ID or an alias of it (R58, R69). -/
def heldMeets (s : State) (h : HeldWrite) (part addr : Nat) : Bool :=
  h.part == part && (keyOf h.addr.toNat == keyOf addr || (match place s (domainOf h.addr.toNat) with
    | some pl => tagMatches s (keyOf h.addr.toNat) (keyOf addr) pl
    | none => false))

/-- Bytes with lantern `l`'s held writes over them: the held bytes that the read meets and that cover the range (R58). -/
def overlay (s : State) (l part addr : Nat) (d : Bytes) : Bytes × List Nat :=
  (lanternAt s l).held.foldl (fun (acc : Bytes × List Nat) h =>
    let a := domainOf h.addr.toNat
    let b := domainOf addr
    if heldMeets s h part addr ∧ a < b + d.length ∧ b < a + h.data.length then
      ((acc.1.zip (List.range d.length)).map (fun x =>
        if a ≤ b + x.2 ∧ b + x.2 < a + h.data.length then h.data.getD (b + x.2 - a) 0 else x.1),
       union acc.2 h.mark)
    else acc) (d, [])

/-- The verdicts of a provisional read join tickets (R57); where no ticket is to be had the wick waits for the verdict,
which then comes at once (R59). -/
def joinTags (ue : Ue) (t l part : Nat) : List Pending → State → WOut Unit
  | [], s => .done () s
  | g :: gs, s =>
    match joinTicket t l g.port s with
    | (some k, s) =>
      joinTags ue t l part gs (modCap g.port (fun c => { c with verdicts := c.verdicts ++ [⟨.ticket l k, g.pass, BitVec.ofNat 64 g.addr, part⟩] }) s)
    | (none, s) =>
      if g.pass then joinTags ue t l part gs s
      else .fails stIntegrityFail (capTagFault (wickReq s t part l g.addr accRead) g.port g.addr s)

/-- The fault of a wick of task `t` in lantern `l` that names an address it does not reach: UNMAPPED at its lantern (R34, R117). -/
def wickUnmapped (t l addr access : Nat) (s : State) : State :=
  let m := taskMaster s t
  recordDenied { part := (taskAt s t).part, kind := kindLantern, inst := l, master := m.1, access := access, masterId := m.2 } addr
    { status := stAddressUnmapped, cls := clsUnmapped } s

/-- A wick of task `t` in lantern `l` reads memory. -/
def wickRead (ue : Ue) (t l addr len : Nat) (s : State) : WOut Bytes :=
  if len = 0 then .done [] s else
  let x := taskAt s t
  if ¬ wickReach s l addr len then .fails stAddressUnmapped (wickUnmapped t l addr accRead s)
  else if rangeWaits s false addr len then .waits []
  else
    let (_, marks) := overlay s l x.part addr (zeros len)
    if (union (depsOf s t l) marks).length > 16 then .waits marks
    else
      let (r, s') := memReadProv (wickReq s t x.part l addr accRead) ue addr len s
      let s' := chargeRead t s addr len s'
      if r.status ≠ stOk then .fails r.status s'
      else
        let (d, ms) := overlay s' l x.part addr r.data
        (joinTags ue t l x.part r.tags (addDeps t l ms s')).andThen fun _ s => .done d s

/-- The verdicts due to tickets of a lantern come in at a capacity port; `n` bounds them. -/
def verdictsIn (ue : Ue) (l c : Nat) : Nat → State → State
  | 0, s => s
  | n + 1, s =>
    match (capAt s c).verdicts.find? (fun v => match v.target with
      | .ticket k _ => k == l
      | .port _ _ => false) with
    | none => s
    | some v =>
      let s := modCap c (fun x => { x with verdicts := x.verdicts.erase v }) s
      verdictsIn ue l c n (match v.target with
        | .ticket _ k => ticketVerdict ue l k v.addr.toNat v.pass s
        | .port _ _ => s)

/-- A wick stalls for room in the write-hold buffer (R62): its task's open tickets are sealed, and the verdicts of the capacity ports, which
come in whatever the wick does, free the buffer. DESIGN CHOICE (notes/assumptions/81.md): the stall seals the open tickets, for a marked
write of the stalled descriptor itself would otherwise wait for the descriptor's end; and the model lets those verdicts come within the
stalled step. -/
def stallForRoom (ue : Ue) (t l : Nat) (s : State) : State :=
  let s := sealTickets ue t l s
  (List.range s.build.caps).foldl (fun s c => verdictsIn ue l c (capAt s c).verdicts.length s) s

/-- A wick writes memory: at once where its task depends on nothing, else into the write-hold buffer (R60 to R62). -/
def wickWrite (ue : Ue) (t l addr : Nat) (d : Bytes) (s : State) : WOut Unit :=
  if d = [] then .done () s else
  let x := taskAt s t
  if ¬ wickReach s l addr d.length then .fails stAddressUnmapped (wickUnmapped t l addr accWrite s)
  else
    let m := depsOf s t l
    if m = [] ∧ ¬ (lanternAt s l).held.any (fun h => h.task == t) then
      if rangeWaits s true addr d.length then .waits []
      else
        let (st, s') := memWrite (wickReq s t x.part l addr accWrite) ue addr d s
        let s' := chargeWrite t s addr d.length s'
        if st = stOk then .done () s' else .fails st s'
    else
      let s := if heldBytes s l + d.length > 262144 then stallForRoom ue t l s else s
      if (taskAt s t).failed then .fails stIntegrityFail s
      else if heldBytes s l + d.length > 262144 then .waits []
      else .done () (arrived (modLantern l (fun y => { y with held := y.held ++ [⟨t, x.part, BitVec.ofNat 64 addr, d, depsOf s t l, s.path.arrivals⟩] }) s))

end Sys2Proof.Machine
end

