-- ==== Sys2Proof/Machine/Operands.lean ====
section
/-! DEFINITION. Operand references of descriptors (R116, R117), a wick's reads and writes of every space, elements of 8
token lanes (R104, R107, R132), predication (R115), what a descriptor's end does to the wick (R121). -/
namespace Sys2Proof.Machine

/-- An operand reference (R116). -/
structure Opnd where
  arg   : Nat
  space : Nat
  off   : Nat
  deriving DecidableEq, Repr

/-- The reference in 4 bytes. -/
def opndOf (v : Nat) : Opnd := ⟨bits v 31 27, bits v 26 24, v % 2 ^ 24⟩
def opndAt (d : Bytes) (o : Nat) : Opnd := opndOf (fld d o 4)

/-- SPACE codes. -/
def spNone : Nat := 0
def spMem : Nat := 1
def spSliced : Nat := 2
def spSheet : Nat := 3
def spAct : Nat := 4
def spAcc : Nat := 5

/-- Whether an operand lies in memory. -/
def Opnd.isMem (o : Opnd) : Bool := o.space == spMem || o.space == spSliced

/-- A wick of a task with the step's error flags. -/
structure Wk where
  t  : Nat
  l  : Nat
  r  : Nat
  ue : Ue
  deriving DecidableEq, Repr

/-- The wick a command names. -/
def wkOf (w : WickRef) (ue : Ue) : Wk := ⟨w.task, w.lantern, w.rank, ue⟩

/-- The key of a wick in its task. -/
def wickKey (l r : Nat) : Nat := 256 * l + r
def wickOf (s : State) (w : Wk) : Wick := tget {} (taskAt s w.t).wicks (wickKey w.l w.r)
def modWickAt (t l r : Nat) (f : Wick → Wick) (s : State) : State :=
  modTask t (fun x => { x with wicks := tmod {} x.wicks (wickKey l r) f }) s
def modWick (w : Wk) (f : Wick → Wick) (s : State) : State := modWickAt w.t w.l w.r f s

/-- The rank of a lantern in a task's set (R112). -/
def rankOf (x : Task) (l : Nat) : Nat := x.lanterns.findIdx (· == l)

/-- The request address byte `off` of an operand in memory stands at (R116). -/
def opndAddr (s : State) (w : Wk) (o : Opnd) (off : Nat) : Nat :=
  let a := ((wickOf s w).args.getD o.arg 0).toNat
  if o.space = spMem then a + o.off + off else reqAddr (keyOf a) (homeAddr s w.l (domainOf a + o.off + off))

/-- A byte address in memory of an operand (R116); none past the end of the home window (R117). -/
def memAddr (s : State) (w : Wk) (o : Opnd) (off n : Nat) : Option Nat :=
  if o.space ≠ spMem ∧ domainOf ((wickOf s w).args.getD o.arg 0).toNat + o.off + off + n > homeGib s * 2 ^ 30 then none
  else some (opndAddr s w o off)

/-- The end of a wick's access past the home window. -/
def pastHome {α : Type} (w : Wk) (o : Opnd) (off access : Nat) (s : State) : WOut α :=
  .fails stAddressUnmapped (wickUnmapped w.t w.l (opndAddr s w o off) access s)

/-- The key of a sheet in its task. -/
def sheetKey (l n : Nat) : Nat := 8 * l + n
def sheetOf (s : State) (t l n : Nat) : Tab Byte := tget [] (taskAt s t).sheets (sheetKey l n)
def modSheet (t l n : Nat) (f : Tab Byte → Tab Byte) (s : State) : State :=
  modTask t (fun x => { x with sheets := tmod [] x.sheets (sheetKey l n) f }) s

/-- Bytes of an operand in a sheet or a scratchpad. -/
def getLocal (s : State) (w : Wk) (o : Opnd) (off n : Nat) : Bytes :=
  if o.space = spSheet then treads 0 (sheetOf s w.t w.l o.arg) (o.off + off) n
  else if o.space = spAct then treads 0 (wickOf s w).act (o.off + off) n
  else treads 0 (wickOf s w).acc (o.off + off) n

/-- Whether a scratchpad word of a wick that is poison overlaps bytes of an operand (R105). -/
def poisoned (s : State) (w : Wk) (o : Opnd) (off n : Nat) : Bool :=
  (wickOf s w).poison.any (fun p => p.1 == o.space && decide (o.off + off < 8 * p.2 + 8) && decide (8 * p.2 < o.off + off + n))

/-- Words that are written whole are poison no longer. -/
def mendWords (space lo n : Nat) (k : Wick) : Wick :=
  { k with poison := k.poison.filter (fun p => !(p.1 == space && decide (lo ≤ 8 * p.2) && decide (8 * p.2 + 8 ≤ lo + n))) }

/-- Bytes stored into an operand in a sheet or a scratchpad, whatever poison its words hold. -/
def putBytes (w : Wk) (o : Opnd) (off : Nat) (d : Bytes) (s : State) : State :=
  if o.space = spSheet then modSheet w.t w.l o.arg (fun x => twrites 0 x (o.off + off) d) s
  else if o.space = spAct then modWick w (fun x => { x with act := twrites 0 x.act (o.off + off) d }) s
  else modWick w (fun x => { x with acc := twrites 0 x.acc (o.off + off) d }) s

/-- Bytes stored into an operand in a sheet or a scratchpad. -/
def putLocal (w : Wk) (o : Opnd) (off : Nat) (d : Bytes) (s : State) : State :=
  if (wickOf s w).poison = [] then putBytes w o off d s
  else modWick w (mendWords o.space (o.off + off) d.length) (putBytes w o off d s)

/-- `n` bytes of an operand from byte `off` of it on. -/
def readOp (w : Wk) (o : Opnd) (off n : Nat) (s : State) : WOut Bytes :=
  if n = 0 then .done [] s
  else if o.isMem then
    match memAddr s w o off n with
    | some a => wickRead w.ue w.t w.l a n s
    | none => pastHome w o off accRead s
  else if poisoned s w o off n then .fails stDataPoison s
  else .done (getLocal s w o off n) s

/-- The same bytes once nothing about them is unconfirmed: indices, and data that leaves the lantern (R60, R110). -/
def readSure (w : Wk) (o : Opnd) (off n : Nat) (s : State) : WOut Bytes :=
  if depsOf s w.t w.l ≠ [] then .waits []
  else if n = 0 then .done [] s
  else if o.isMem then
    match memAddr s w o off n with
    | none => pastHome w o off accRead s
    | some a =>
      let x := taskAt s w.t
      if ¬ wickReach s w.l a n then .fails stAddressUnmapped (wickUnmapped w.t w.l a accRead s)
      else if rangeWaits s false a n ∨ (overlay s w.l x.part a (zeros n)).2 ≠ [] then .waits []
      else
        let (r, s') := memRead (wickReq s w.t x.part w.l a accRead) w.ue a n s
        let s' := chargeRead w.t s a n s'
        if r.status ≠ stOk then .fails r.status s'
        else .done (overlay s' w.l x.part a r.data).1 s'
  else if poisoned s w o off n then .fails stDataPoison s
  else .done (getLocal s w o off n) s

/-- Bytes stored into an operand from byte `off` of it on. -/
def writeOp (w : Wk) (o : Opnd) (off : Nat) (d : Bytes) (s : State) : WOut Unit :=
  if d = [] then .done () s
  else if o.isMem then
    match memAddr s w o off d.length with
    | some a => wickWrite w.ue w.t w.l a d s
    | none => pastHome w o off accWrite s
  else .done () (putLocal w o off d s)

/-- Bytes stored into a sheet of a lantern. -/
def writeSheet (t l n off : Nat) (d : Bytes) (s : State) : State := modSheet t l n (fun x => twrites 0 x off d) s
def readSheet (s : State) (t l n off k : Nat) : Bytes := treads 0 (sheetOf s t l n) off k

/-- A BINARY32 addition into 4 B of a sheet (R107). -/
def addSheet (t l n off : Nat) (v : F32) (s : State) : State :=
  modSheet t l n (fun x => twrites 0 x off (le 4 (f32Add (leNat (treads 0 x off 4)) v))) s

/-! ## Predication (R115) -/

/-- The token lanes a descriptor works on, as 8 bits. -/
def laneMask (k : Wick) (d : Bytes) : Nat :=
  if fld d 3 1 / 64 = 1 then (k.masks.getD (fld d 3 1 % 8) 0).toNat else 0xFF

/-- Whether a lane is active. -/
def laneOn (m t : Nat) : Bool := m.testBit t

/-- Whether predication skips the descriptor. -/
def skipped (k : Wick) (d : Bytes) : Bool :=
  let m := k.masks.getD (fld d 3 1 % 8) 0
  (fld d 3 1 / 64 == 2 && m == 0) || (fld d 3 1 / 64 == 3 && m != 0)

/-! ## Elements of 8 token lanes (R104, R132) -/

/-- Bytes of one element row: 0 BINARY32, 1 BF16. -/
def rowBytes (ty : Nat) : Nat := if ty = 0 then 32 else 16

/-- The 8 values of an element row, widened to BINARY32. -/
def decRow (ty : Nat) (b : Bytes) : List F32 :=
  (List.range 8).map (fun t => if ty = 0 then fld b (4 * t) 4 else enc32 (decBf16 (fld b (2 * t) 2)))

/-- The rows in a region. -/
def rowsOf (ty : Nat) (b : Bytes) : List (List F32) := (chunks (rowBytes ty) b).map (decRow ty)

/-- One value's bytes in a row type; BF16 by R95 and R96 with SAT 0. -/
def encVal (ty : Nat) (v : F32) : Bytes := if ty = 0 then le 4 v else le 2 (bf16Of (dec32 v))

/-- The bytes of a row: active lanes take their value, the others keep `old`. -/
def encRow (ty m : Nat) (old : Bytes) (vs : List F32) : Bytes :=
  (List.range 8).flatMap (fun t =>
    let n := rowBytes ty / 8
    if laneOn m t then encVal ty (vs.getD t 0) else sub old (n * t) n)

/-- The bytes of a region of rows. -/
def encRows (ty m : Nat) (old : Bytes) (rows : List (List F32)) : Bytes :=
  (rows.zip (chunks (rowBytes ty) (fit (rows.length * rowBytes ty) old))).flatMap (fun x => encRow ty m x.2 x.1)

/-- Element rows `e0` to `e1 - 1` of an operand in a sheet or a scratchpad. -/
def getRows (s : State) (w : Wk) (o : Opnd) (ty e0 e1 : Nat) : List (List F32) :=
  rowsOf ty (getLocal s w o (e0 * rowBytes ty) ((e1 - e0) * rowBytes ty))

/-- Element rows stored from `e0` on, masked lanes kept. -/
def putRows (w : Wk) (o : Opnd) (ty m e0 : Nat) (rows : List (List F32)) (s : State) : State :=
  (if m = 0xFF then putLocal else putBytes) w o (e0 * rowBytes ty)
    (encRows ty m (getLocal s w o (e0 * rowBytes ty) (rows.length * rowBytes ty)) rows) s

/-- Wick `j`'s share of `n` things among `k` wicks (R126, R132). -/
def shareOf (n j k : Nat) : Nat × Nat := (j * n / k, (j + 1) * n / k)

/-! ## The end of a descriptor -/

/-- The stride of a loop update, in bytes, as 64 bits (R121). -/
def updStride (u : Nat) : Word64 := ((BitVec.ofNat 26 u).signExtend 64) <<< 6

/-- The enabled updates of a LOOP descriptor applied to the argument slots. -/
def applyUpds (d : Bytes) (args : List Word64) : List Word64 :=
  [12, 16, 20].foldl (fun as o =>
    let u := fld d o 4
    if u.testBit 26 then as.set (bits u 31 27) (as.getD (bits u 31 27) 0 + updStride u) else as) args

/-- The position after a descriptor: loops whose body has ended go round or end (R121). `fuel` bounds the loops that end
together. -/
def closeLoops (prog : List Bytes) : Nat → Wick → Wick
  | 0, k => k
  | fuel + 1, k =>
    match k.loops with
    | [] => k
    | f :: fs =>
      if k.pc ≠ f.last + 1 then k
      else if f.left > 1 then
        { k with pc := f.first, loops := { f with left := f.left - 1, index := f.index + 1 } :: fs
                 args := applyUpds (prog.getD (f.first - 1) []) k.args }
      else closeLoops prog fuel { k with pc := f.last + 1, loops := fs, args := f.saved }

/-- The wick goes on to the next descriptor. -/
def Wick.next (prog : List Bytes) (k : Wick) : Wick := closeLoops prog 5 { k with pc := k.pc + 1, waiting := .none }

/-- Bytes a task's wicks have read so far under its context, for the DESC record (R410). -/
def ctxBytes (s : State) (t : Nat) : Nat :=
  let c := contextAt s (taskAt s t).ctx
  c.stackedRead + c.capacityRead

end Sys2Proof.Machine
end

