-- ==== Sys2Proof/Machine/Watch.lean ====
section
/-! DEFINITION. The end of a descriptor in a wick, and the tensor watch that looks at its destination (R422 to R424). -/
namespace Sys2Proof.Machine

/-! ## The destination of a watched descriptor (R422, R423) -/

/-- The rows of the result that a lantern's share of a product covers (R125). -/
def productRows (x : Task) (l rows rb split : Nat) : Nat × Nat :=
  let b := (rows + rb - 1) / rb
  let c := (b + x.lanterns.length - 1) / x.lanterns.length
  if split = 0 then (min rows (rankOf x l * c * rb), min rows ((rankOf x l + 1) * c * rb)) else (0, rows)

/-- The token lanes 0 to 7 of elements `e0` to `e1 - 1`; element `e` is stored as row `e - first`. As element, row, lane. -/
def cellRange (first e0 e1 : Nat) : List (Nat × Nat × Nat) :=
  (List.range (e1 - e0)).flatMap (fun i => (List.range 8).map (fun t => (e0 + i, e0 + i - first, t)))

/-- What a descriptor defines in a lantern: the operand, whether it is BF16, and the elements with row and lane. Only the eight
operations of R422 are watched. -/
def watchOut (s : State) (t l : Nat) (d : Bytes) : Option (Opnd × Nat × List (Nat × Nat × Nat)) :=
  let x := taskAt s t
  let vec (n : Nat) : Option (Opnd × Nat × List (Nat × Nat × Nat)) := some (opndAt d 4, bits (fld d 20 1) 7 6, cellRange 0 0 n)
  let product (rows rb split : Nat) : Option (Opnd × Nat × List (Nat × Nat × Nat)) :=
    let (r0, r1) := productRows x l rows rb split
    some (opndAt d 12, 0, cellRange (if fld d 2 1 = 1 then r0 else 0) r0 r1)
  match fld d 1 1 with
  | 0x10 => product (fld d 20 4) (fld d 26 2) (fld d 17 1)
  | 0x11 => product (fld d 24 4) (fld d 30 2) (fld d 21 1)
  | 0x18 | 0x19 | 0x1A => vec (fld d 16 4)
  | 0x1C => vec (if fld d 23 1 = 1 then fld d 16 4 else 1)
  | 0x21 =>
    let n := max 1 x.lanterns.length
    some (opndAt d 8, 1, (cellRange 0 0 (fld d 12 1 * fld d 13 1 * 128)).filter (fun c =>
      fld d 2 1 == 1 || (c.1 / 128 * 8 + c.2.2) % n == rankOf x l))
  | 0x2A =>
    let c := combineAt s (tget 0 x.batches (fld d 4 1) - 1)
    let r0 := rankOf x l * c.crb
    some (opndOf c.c.toNat, 0, cellRange r0 r0 (min c.width (r0 + c.crb)))
  | _ => none

/-! ## The record (R424) -/

/-- One value of a row type as a BINARY32 pattern. -/
def watchVal (ty v : Nat) : F32 := if ty = 0 then v else enc32 (decBf16 v)

/-- Bytes 16 to 63 of a WATCH record over positions and bit patterns. -/
def watchArg (key : Bytes) (ctx desc ty l : Nat) (vs : List (Nat × Nat)) : Bytes :=
  let fs := vs.map (fun v => watchVal ty v.2)
  let fin := fs.filter (fun v => (dec32 v).isFin)
  le 2 ctx ++ le 2 desc ++ le 1 ty ++ le 1 l ++ zeros 2 ++ le 4 vs.length ++
    le 4 (fs.countP (fun v => decide (dec32 v = .nan))) ++
    le 4 (fs.countP (fun v => decide (dec32 v = .inf true ∨ dec32 v = .inf false))) ++
    le 4 (fs.countP (fun v => (dec32 v).isZero)) ++
    le 4 (fin.foldl f32Min 0x7F800000) ++ le 4 (fin.foldl f32Max 0xFF800000) ++ le 8 (digestOf key vs) ++
    le 4 (fin.foldl f32Add 0) ++ le 4 (fin.foldl (fun a v => f32Add a (f32Mul v v)) 0)

/-- A lantern's watch unit reads the elements of a completed descriptor on the lanes that are not masked, and its record goes out
for watch `k`, under the lantern's unconfirmed tickets (R412). -/
def watchEmit (k : Nat) (w : Wk) (d : Bytes) (s0 s : State) : State :=
  match watchOut s0 w.t w.l d with
  | none => s
  | some (o, ty, cells) =>
    if o.space ≠ spSheet then s else
    let x := taskAt s w.t
    let y := watchAt s k
    let m := laneMask (wickOf s0 w) d
    let vs := (cells.filter (fun c => laneOn m c.2.2)).map (fun c =>
      (8 * c.1 + c.2.2, leNat (readSheet s w.t w.l o.arg (o.off + rowBytes ty * c.2.1 + rowBytes ty / 8 * c.2.2) (rowBytes ty / 8))))
    traceEmit { type := 12, kind := kindLantern, inst := w.l, part := x.part, sub := k, ctx := x.ctx, lantern := w.l
                mark := depsOf s w.t w.l
                arg := watchArg (digestKey s x.part (lanternWest s w.l)) y.ctx y.desc ty w.l vs } s

/-- A lantern has completed a descriptor: every wick of the task in it has ended it as often as this one. -/
def lanternCompletes (s : State) (w : Wk) (pc : Nat) : Bool :=
  let n := tget 0 (wickOf s w).ends pc
  (List.range (taskAt s w.t).w).all (fun r =>
    let k := wickOf s { w with r := r }
    k.ended || n ≤ tget 0 k.ends pc)

/-- The watches of a completion: every S-th one in a lantern gives a record (R422). -/
def watchDesc (w : Wk) (pc : Nat) (d : Bytes) (s0 s : State) : State :=
  let x := taskAt s w.t
  (s.trace.watches.filter (fun e => e.2.on && e.2.owner == x.part && e.2.ctx == x.ctx && e.2.desc == pc)).foldl (fun s e =>
    let n := tget 0 (watchAt s e.1).count w.l + 1
    let s := modWatch e.1 (fun y => { y with count := tset 0 y.count w.l (n % y.every) }) s
    if n % e.2.every = 0 then watchEmit e.1 w d s0 s else s) s

/-! ## The end of a descriptor -/

/-- A descriptor ends in a wick: its open tickets are sealed, a DESC record is emitted, the wick goes on as `g` says; where it ran
and the lantern has now completed it, the watches see it. -/
def endDescBy (g : Wick → Wick) (w : Wk) (s0 s : State) : State :=
  let x := taskAt s w.t
  let k := wickOf s w
  let d := x.program.getD k.pc []
  let s := modWick w (fun k0 => let k1 := g k0; { k1 with ends := tset 0 k1.ends k.pc (tget 0 k1.ends k.pc + 1) })
    (sealTickets w.ue w.t w.l s)
  let s := traceEmit { type := 5, kind := kindLantern, inst := w.l, part := x.part, ctx := x.ctx, lantern := w.l
                       arg := le 2 k.pc ++ le 1 (fld d 1 1) ++ zeros 1 ++ le 2 x.ctx ++ zeros 2 ++ le 8 (ctxBytes s w.t - ctxBytes s0 w.t) } s
  if skipped (wickOf s0 w) d ∨ ¬ lanternCompletes s w k.pc then s else watchDesc w k.pc d s0 s

/-- A descriptor ends and the next one follows. -/
def endDesc (w : Wk) (s0 s : State) : State := endDescBy (Wick.next (taskAt s w.t).program) w s0 s

end Sys2Proof.Machine
end

