-- ==== Sys2Proof/Machine/Program.lean ====
section
/-! DEFINITION. Descriptor programs: the header (R114), the checks of the whole program at dispatch (R117, R118) with each
operation's own limits (R121 to R137, R151, R157, R163, R167, R175, R184), the tables it names (R86). -/
namespace Sys2Proof.Machine

/-- A program as it is checked: its header's fields, its descriptors, the set it runs on, its arguments. -/
structure Prog where
  argc   : Nat
  sheets : List Nat
  descs  : List Bytes
  n      : Nat
  w      : Nat
  args   : List Word64
  deriving DecidableEq, Repr

/-- Header fields (R114). -/
def descCount (h : Bytes) : Nat := fld h 2 2
def argCount (h : Bytes) : Nat := fld h 4 1
def sheetUnits (h : Bytes) : List Nat := (List.range 8).map (fun i => fld h (8 + 2 * i) 2)

/-- Whether bytes `a` up to `b` of a block are zero. -/
def zeroIn (d : Bytes) (a b : Nat) : Bool := (sub d a (b - a)).all (· == 0)

/-- The header's own checks (R114, R118). -/
def headerOk (h : Bytes) : Bool :=
  fld h 0 1 == 1 && fld h 1 1 == 0 && 1 ≤ descCount h && descCount h ≤ 1024 && argCount h ≤ 32 && zeroIn h 5 8 &&
    (sheetUnits h).sum ≤ 4096 && zeroIn h 24 64

/-- What spaces an operand may lie in: memory, a sheet, a scratchpad, NONE. -/
structure Spaces where
  mem   : Bool := false
  sheet : Bool := true
  act   : Bool := true
  acc   : Bool := true
  deriving DecidableEq, Repr

/-- SHEET, ACT or ACC. -/
def local3 : Spaces := {}
def anySpace : Spaces := { mem := true }
def sheetOnly : Spaces := { act := false, acc := false }
def memOnly : Spaces := { mem := true, sheet := false, act := false, acc := false }

/-- Whether an operand lies in an allowed space, its argument or sheet exists, and `n` bytes of it fit (R116, R118). -/
def refOk (p : Prog) (o : Opnd) (sp : Spaces) (n : Nat) : Bool :=
  match o.space with
  | 1 | 2 => sp.mem && o.arg < p.argc
  | 3 => sp.sheet && o.arg < 8 && p.sheets.getD o.arg 0 ≠ 0 && o.off + n ≤ 256 * p.sheets.getD o.arg 0
  | 4 => sp.act && o.arg == 0 && o.off + n ≤ 16384
  | 5 => sp.acc && o.arg == 0 && o.off + n ≤ 16384
  | _ => false

/-- Whether an operand reference is NONE, all 32 bits zero. -/
def isNone (d : Bytes) (o : Nat) : Bool := fld d o 4 == 0

/-- Whether a memory operand is aligned to 64 B (R117). -/
def aligned (p : Prog) (o : Opnd) : Bool := !o.isMem || (o.off + (p.args.getD o.arg 0).toNat) % 64 == 0

/-- An argument's index of a sequence descriptor. -/
def argOk (p : Prog) (i : Nat) : Bool := i < p.argc

/-- Common bytes (R115): VER, PRED's reserved bits, PRED's N, which MODE 0 gives no meaning (R118), FLAGS within `fl`. -/
def commonOk (d : Bytes) (fl : Nat) : Bool :=
  fld d 0 1 == 1 && bits (fld d 3 1) 5 3 == 0 && (bits (fld d 3 1) 7 6 ≠ 0 || fld d 3 1 == 0) && (fld d 2 1 &&& (255 - fl)) == 0

/-- The loops that enclose a descriptor, innermost first: last body index and COUNT; none if they do not nest. -/
def loopNest (descs : List Bytes) : Nat → List (Nat × Nat) → Nat → Option (List (List (Nat × Nat)))
  | 0, _, _ => some []
  | fuel + 1, stack, i =>
    match descs[i]? with
    | none => some []
    | some d =>
      let st := stack.dropWhile (fun f => f.1 < i)
      if fld d 1 1 = 2 then
        let last := i + fld d 4 1
        if decide (last ≥ descs.length) || (st.head?.map (fun f => decide (last > f.1))).getD false || decide (st.length ≥ 4) then none
        else (loopNest descs fuel ((last, fld d 6 2) :: st) (i + 1)).map (fun r => st :: r)
      else (loopNest descs fuel st (i + 1)).map (fun r => st :: r)

/-- LOOP (R121). An update that is not enabled names nothing. -/
def loopOk (p : Prog) (d : Bytes) : Bool :=
  1 ≤ fld d 4 1 && fld d 5 1 == 0 && 1 ≤ fld d 6 2 && zeroIn d 24 32 &&
    (isNone d 8 || refOk p (opndAt d 8) local3 4) &&
    [12, 16, 20].all (fun o => let u := fld d o 4; !u.testBit 26 || decide (bits u 31 27 < p.argc))

/-- PRED (R122); `depth` is how many loops enclose it. -/
def predOk (p : Prog) (d : Bytes) (depth : Nat) : Bool :=
  let m := fld d 5 1
  let src := opndAt d 8
  let imm := fld d 12 4
  fld d 4 1 ≤ 7 && m ≤ 5 && zeroIn d 16 32 &&
    (if m = 1 then refOk p src local3 4 else if m = 2 then refOk p src local3 32 else isNone d 8) &&
    (if m = 2 ∨ m = 3 then fld d 6 1 ≤ 5 else fld d 6 1 == 0) &&
    (if m = 3 then fld d 7 1 < depth else fld d 7 1 == 0) &&
    (if m = 0 then imm < 256 else if m = 1 then imm == 0 else if m ≥ 4 then imm < 8 else true)

/-- BARRIER (R123). -/
def barrierOk (d : Bytes) : Bool := fld d 3 1 == 0 && fld d 4 1 ≤ 1 && zeroIn d 6 32

/-- Rows of a lantern's share under SPLIT SET (R125), or all. -/
def gemvRows (rows rb n : Nat) (split : Nat) : Nat :=
  let b := (rows + rb - 1) / rb
  if split = 0 then min rows ((b + n - 1) / n * rb) else rows

/-- The group a K must be a multiple of (R124). -/
def groupOf (f : Fmt) : Nat := if f.kind = 1 then 512 / f.bits else f.group

/-- GEMV's limits where W, X and Y stand (R124, R125, R117). -/
def gemvDims (p : Prog) (d : Bytes) (rows k rb split : Nat) : Bool :=
  let x := opndAt d 8
  1 ≤ rows && rows ≤ 16777215 && 32 ≤ k && k ≤ 65535 && 1 ≤ rb && split ≤ 1 &&
    refOk p (opndAt d 4) memOnly 0 && aligned p (opndAt d 4) &&
    refOk p x { mem := false, acc := false } (16 * k) && (x.space ≠ spAct || k ≤ 1024) &&
    refOk p (opndAt d 12) sheetOnly (32 * (if fld d 2 1 = 1 then gemvRows rows rb p.n split else rows))

/-- GEMV (R125), its format entry's part apart. -/
def gemvOk (p : Prog) (d : Bytes) : Bool :=
  gemvDims p d (fld d 20 4) (fld d 24 2) (fld d 26 2) (fld d 17 1) && fld d 16 1 < 64 && zeroIn d 18 20 && zeroIn d 28 32

/-- GEMV_SPARSE (R129, R130). -/
def sparseOk (p : Prog) (d : Bytes) : Bool :=
  gemvDims p d (fld d 24 4) (fld d 28 2) (fld d 30 2) (fld d 21 1) && fld d 20 1 < 64 && 1 ≤ fld d 22 1 && fld d 22 1 ≤ 4 &&
    fld d 23 1 == 0 && refOk p (opndAt d 16) memOnly 0 && aligned p (opndAt d 16)

/-- TYPES of a vector descriptor: D, A, B. -/
def typeD (d : Bytes) : Nat := bits (fld d 20 1) 7 6
def typeA (d : Bytes) : Nat := bits (fld d 20 1) 5 4
def typeB (d : Bytes) : Nat := bits (fld d 20 1) 3 2

/-- Whether an ELEMWISE subop reads B. -/
def elemB (sub : Nat) : Bool := sub ≤ 4 || sub == 7

/-- The vector layout (R132, R133), apart from tables: which fields have a meaning in the operation and subop. -/
def vectorOk (p : Prog) (d : Bytes) : Bool :=
  let op := fld d 1 1
  let sub := fld d 21 1
  let n := fld d 16 4
  let aux := fld d 28 4
  let dd := opndAt d 4
  let a := opndAt d 8
  let b := opndAt d 12
  let ra := n * rowBytes (typeA d)
  let rb := n * rowBytes (typeB d)
  let rd := n * rowBytes (typeD d)
  let noB := isNone d 12 && typeB d == 0
  let noImm := fld d 24 4 == 0
  let noAux := aux == 0
  let noTable := fld d 22 1 == 0
  1 ≤ n && n ≤ 16777215 && typeD d ≤ 1 && typeA d ≤ 1 && typeB d ≤ 1 && fld d 20 1 % 4 == 0 &&
    (if op = 0x1A ∨ op = 0x1C then fld d 23 1 ≤ 1 else fld d 23 1 == 0) &&
  (match op with
   | 0x08 =>
     let all := fld d 2 1 == 1
     noB && noImm && noTable && fld d 20 1 == 0 && sub == 0 && n % 4 == 0 && (all || noAux) && refOk p a anySpace n &&
       (if all then refOk p dd sheetOnly ((p.n - 1) * aux + n) else refOk p dd anySpace n) &&
       (!dd.isMem || (n % 64 == 0 && aligned p dd))
   | 0x09 =>
     noTable && fld d 20 1 == 0 && sub == 0 && aux % 4 == 0 && aux ≤ 16384 && refOk p b anySpace (4 * n) &&
       refOk p a anySpace (fld d 24 4 * aux) && refOk p dd anySpace (n * aux) &&
       (!dd.isMem || (aux % 64 == 0 && aligned p dd))
   | 0x0A =>
     noTable && fld d 20 1 == 0 && sub ≤ 1 && aux % 4 == 0 && aux ≤ 16384 && refOk p b anySpace (4 * n) &&
       refOk p a anySpace (n * aux) && refOk p dd (if sub = 1 then sheetOnly else anySpace) (fld d 24 4 * aux) &&
       (!dd.isMem || (aux % 64 == 0 && aligned p dd))
   | 0x18 =>
     sub ≤ 7 && noAux && (sub == 5 || noImm) && (sub == 7 || noTable) && fld d 22 1 < 32 && refOk p dd local3 rd &&
       refOk p a local3 ra && (if elemB sub then refOk p b local3 rb else noB)
   | 0x19 => sub == 0 && noAux && noImm && noB && fld d 22 1 < 32 && refOk p dd local3 rd && refOk p a local3 ra
   | 0x1A => sub ≤ 1 && noAux && noTable && refOk p dd local3 rd && refOk p a local3 ra && refOk p b local3 rb
   | 0x1B =>
     sub ≤ 1 && noB && noImm && fld d 22 1 < 64 && (if sub = 0 then typeD d == 0 else noTable && noAux) && refOk p a local3 ra &&
       refOk p dd anySpace (if sub = 1 then 16 * n else 0) && aligned p dd
   | 0x1C =>
     sub ≤ 3 && noB && noImm && noTable && noAux && refOk p a local3 ra &&
       refOk p dd local3 (if fld d 23 1 = 1 then rd else rowBytes (typeD d))
   | 0x1D => sub == 0 && noB && noImm && noTable && noAux && typeD d == 0 && refOk p a local3 ra && refOk p dd local3 8
   | _ => false)

/-- ATTEND (R157, R159). -/
def attendOk (p : Prog) (d : Bytes) : Bool :=
  let g := fld d 5 1
  argOk p (fld d 4 1) && 1 ≤ g && g ≤ 4 && refOk p (opndAt d 8) sheetOnly 0 && refOk p (opndAt d 12) sheetOnly 0 &&
    fld d 20 1 ≤ 1 && fld d 21 1 ≤ 63 && zeroIn d 22 24 && (fld d 20 1 == 1 || zeroIn d 24 32)

/-- ATTN_MERGE (R163). -/
def mergeOk (p : Prog) (d : Bytes) : Bool :=
  let h := fld d 12 1
  let g := fld d 13 1
  1 ≤ h && h ≤ 16 && 1 ≤ g && g ≤ 4 && h * g ≤ 32 && zeroIn d 14 32 && refOk p (opndAt d 4) sheetOnly (h * g * 8 * 264) &&
    refOk p (opndAt d 8) sheetOnly (h * g * 128 * 16)

/-- Whether numbers rise strictly. -/
def rising : List Nat → Bool
  | a :: b :: r => a < b && rising (b :: r)
  | _ => true

/-- KV_APPEND (R151). -/
def kvAppendOk (p : Prog) (d : Bytes) : Bool :=
  let acc := fld d 14 1
  argOk p (fld d 4 1) && fld d 5 1 ≤ 2 && fld d 15 1 == 0 &&
  (match fld d 5 1 with
   | 0 => refOk p (opndAt d 8) sheetOnly 0 && fld d 12 1 ≤ 63 && 1 ≤ fld d 13 1 && fld d 13 1 ≤ 8 &&
       fld d 12 1 + fld d 13 1 ≤ 64 && zeroIn d 14 32
   | 1 => fld d 6 2 == 0 && isNone d 8 && zeroIn d 12 14 && acc ≤ 16 && zeroIn d (16 + acc) 32 &&
       ((sub d 16 acc).all (fun b => b.toNat ≤ 63)) && rising ((sub d 16 acc).map BitVec.toNat)
   | _ => zeroIn d 6 32)

/-- TOPK_ROUTE (R167); the group is checked with the tables. -/
def topkOk (p : Prog) (d : Bytes) : Bool :=
  refOk p (opndAt d 4) sheetOnly 0 && refOk p (opndAt d 8) sheetOnly 512 && fld d 14 1 < 16 && fld d 15 1 ≤ 2 &&
    fld d 18 1 ≤ 1 && fld d 19 1 == 0 && zeroIn d 24 32 &&
    (if fld d 18 1 = 1 then 1 ≤ fld d 16 2 && fld d 16 2 ≤ 8192 else fld d 16 2 == 0 && p.n == 1)

/-- EXPERT_SEND (R175). -/
def sendOk (p : Prog) (d : Bytes) : Bool :=
  let width := fld d 22 2
  let crb := fld d 24 2
  match fld d 16 1 with
  | 0 =>
    fld d 17 1 ≤ 3 && fld d 18 1 < 16 && fld d 19 1 ≤ 1 && fld d 20 1 ≤ 1 && fld d 21 1 == 0 && 64 ≤ width &&
      width ≤ 16384 && width % 64 == 0 && 1 ≤ crb && (width + crb - 1) / crb ≤ p.n && 1 ≤ fld d 28 4 && fld d 28 4 ≤ 1000000 &&
      refOk p (opndAt d 4) sheetOnly 512 && refOk p (opndAt d 8) sheetOnly (16 * width) && refOk p (opndAt d 12) sheetOnly (32 * crb)
  | 1 =>
    zeroIn d 17 32 && fld d 10 2 == 0 && zeroIn d 12 16 && refOk p (opndAt d 4) sheetOnly (32 * fld d 8 2)
  | 2 => zeroIn d 4 16 && fld d 17 1 ≤ 3 && zeroIn d 18 32
  | _ => false

/-- EXPERT_COMBINE (R184). -/
def combineOk (d : Bytes) : Bool := fld d 4 1 ≤ 3 && zeroIn d 5 32

/-- One descriptor's own checks (R118). -/
def descOk (p : Prog) (d : Bytes) (depth : Nat) : Bool :=
  match fld d 1 1 with
  | 0x01 => commonOk d 0 && zeroIn d 4 32
  | 0x02 => commonOk d 0 && loopOk p d
  | 0x03 => commonOk d 0 && predOk p d depth
  | 0x04 => commonOk d 0 && barrierOk d
  | 0x08 => commonOk d 1 && vectorOk p d
  | 0x09 | 0x0A | 0x18 | 0x19 | 0x1A | 0x1B | 0x1C | 0x1D => commonOk d 0 && vectorOk p d
  | 0x10 => commonOk d 1 && gemvOk p d
  | 0x11 => commonOk d 1 && sparseOk p d
  | 0x20 => commonOk d 0 && attendOk p d
  | 0x21 => commonOk d 1 && mergeOk p d
  | 0x22 => commonOk d 0 && kvAppendOk p d
  | 0x28 => commonOk d 0 && topkOk p d
  | 0x29 => commonOk d 0 && sendOk p d
  | 0x2A => commonOk d 0 && combineOk d
  | _ => false

/-- The whole program's checks that need no table (R118). -/
def progOk (p : Prog) : Bool :=
  match loopNest p.descs p.descs.length [] 0 with
  | none => false
  | some nests =>
    (p.descs.zip nests).all (fun x => descOk p x.1 x.2.length) &&
      (nests.map (fun st => st.foldl (fun a f => a * f.2) 1)).sum ≤ 2 ^ 24

/-! ## Limits that rest on tables, groups and sequences -/

/-- The format entry of a descriptor, where it names one. -/
def descFmt (d : Bytes) : Option Nat :=
  match fld d 1 1 with
  | 0x10 => some (fld d 16 1)
  | 0x11 => some (fld d 20 1)
  | 0x1B => if fld d 21 1 = 0 then some (fld d 22 1) else none
  | _ => none

/-- The curve table of a descriptor, where it names one. -/
def descCurve (d : Bytes) : Option Nat :=
  if fld d 1 1 = 0x19 ∨ (fld d 1 1 = 0x18 ∧ fld d 21 1 = 7) then some (fld d 22 1) else none

/-- Bytes of one lane's QUANTISE SEQ output (R133). -/
def seqBytes (f : Fmt) (n : Nat) : Nat := (n + f.tileWeights - 1) / f.tileWeights * f.tileBytes

/-- A descriptor's limits that rest on its format entry (R124, R130, R133, R117). -/
def fmtLimits (p : Prog) (f : Fmt) (d : Bytes) : Bool :=
  match fld d 1 1 with
  | 0x10 => fld d 24 2 % groupOf f == 0
  | 0x11 => fld d 28 2 % groupOf f == 0 &&
      (fld d 22 1 ≠ 2 || 128 % groupOf f == 0) && (fld d 22 1 ≠ 3 || 32 % groupOf f == 0)
  | 0x1B =>
    let lane := seqBytes f (fld d 16 4)
    (f.kind ≠ 2 || fld d 16 4 % 32 == 0) &&
      (!(opndAt d 4).isMem || (fld d 28 4 % 64 == 0 && lane ≤ fld d 28 4)) && refOk p (opndAt d 4) anySpace (7 * fld d 28 4 + lane)
  | _ => true

/-- Whether a party owns a routing group or holds a grant for it (R165). -/
def groupUsable (s : State) (part g : Nat) : Bool :=
  (groupAt s g).live && ((groupAt s g).owner == part || (groupAt s g).grants.contains part)

/-- TOPK_ROUTE's limits that rest on its group (R167). -/
def topkLimits (s : State) (part : Nat) (p : Prog) (d : Bytes) : Bool :=
  let g := groupAt s (fld d 14 1)
  groupUsable s part (fld d 14 1) && fld d 12 2 < g.layers &&
    (if fld d 18 1 = 1 then p.n * fld d 16 2 ≥ g.experts && refOk p (opndAt d 4) sheetOnly (32 * fld d 16 2)
     else refOk p (opndAt d 4) sheetOnly (32 * g.experts))

/-- The sequence handle of a descriptor's argument slot. -/
def seqHandleOf (p : Prog) (d : Bytes) : Nat := (p.args.getD (fld d 4 1) 0).toNat % 2 ^ 32

/-- The status of a sequence handle at dispatch (R149, R164); `mask` is the set's lantern mask. The handle's reserved bits
[15:12] are ignored (R5). -/
def seqStatus (s : State) (part mask h : Nat) : Nat :=
  let q := seqAt s (h % 4096)
  if ¬ q.live ∧ h / 65536 ≠ 0 ∧ q.gen ≠ h / 65536 then stObjectRevoked
  else if ¬ q.live ∨ q.part ≠ part then stBadArg
  else if q.gen ≠ h / 65536 ∨ q.state = .revoked then stObjectRevoked
  else if q.state = .lost then stResetLost
  else if (poolAt s q.pool).mask.toNat ≠ mask then stProgramInvalid
  else stOk

/-- ATTEND's and KV_APPEND's limits that rest on the pool (R151, R157, R159). They are judged against the pool of a sequence
whose handle passes R149; one that does not has that rule's status. `mask` is none for a pilot's start, whose sequences are
checked with its items. -/
def poolLimits (s : State) (part : Nat) (mask : Option Nat) (p : Prog) (d : Bytes) : Bool :=
  let q := seqAt s (seqHandleOf p d % 4096)
  let pool := poolAt s q.pool
  if ¬ (mask.map (fun m => seqStatus s part m (seqHandleOf p d))) = some stOk then true else
  match fld d 1 1 with
  | 0x20 =>
    let g := fld d 5 1
    let hg := pool.heads * g
    fld d 6 2 < pool.layers && hg ≤ 32 && p.w % (max 1 pool.heads) == 0 && refOk p (opndAt d 8) sheetOnly (hg * 128 * 16) &&
      refOk p (opndAt d 12) sheetOnly (hg * 8 * 264)
  | 0x22 => fld d 5 1 ≠ 0 || (fld d 6 2 < pool.layers && refOk p (opndAt d 8) sheetOnly (pool.heads * 256 * 16))
  | _ => true

/-- The tables a program names (R86): kind and index, every codebook of a format's span included. -/
def progTables (s : State) (p : Prog) : List (Nat × Nat) :=
  p.descs.flatMap (fun d =>
    (match descFmt d with
     | some k => (0, k) :: (if (fmtAt s k).kind = 4 then (List.range (fmtAt s k).cbCount).map (fun i => (1, (fmtAt s k).cbBase + i)) else [])
     | none => []) ++
    (match descCurve d with
     | some k => [(2, k)]
     | none => []))

/-- The routing groups a program's EXPERT_SEND and TOPK_ROUTE name. -/
def progGroups (p : Prog) : List Nat :=
  p.descs.filterMap (fun d => if fld d 1 1 = 0x28 then some (fld d 14 1)
    else if fld d 1 1 = 0x29 ∧ fld d 16 1 = 0 then some (fld d 18 1) else none)

/-- The placement tables behind the groups that a program's EXPERT_SEND names, where loaded: a dispatched task pins them too (R87, R173). -/
def progPlacements (s : State) (p : Prog) : List (Nat × Nat) :=
  (p.descs.filterMap (fun d => if fld d 1 1 = 0x29 ∧ fld d 16 1 = 0 then some (3, (groupAt s (fld d 18 1)).placement) else none)).filter
    (fun k => (placementAt s k.2).loaded)

/-- Every table a task of a program pins (R87). -/
def progPins (s : State) (p : Prog) : List (Nat × Nat) := progTables s p ++ progPlacements s p

/-- Whether every format entry that is loaded meets the limits of the descriptors that name it. -/
def tableLimits (s : State) (part : Nat) (mask : Option Nat) (p : Prog) : Bool :=
  p.descs.all (fun d =>
    (match descFmt d with
     | some k => if k < 12 ∨ (formatAt s k).loaded then fmtLimits p (fmtAt s k) d else true
     | none => true) &&
    (fld d 1 1 ≠ 0x28 || topkLimits s part p d) &&
    (fld d 1 1 ≠ 0x29 || fld d 16 1 ≠ 0 || groupUsable s part (fld d 18 1)) && poolLimits s part mask p d)

/-- The sequence handles a program names: the handle, and whether exclusively (R149). -/
def progSeqs (p : Prog) : List (Nat × Bool) :=
  p.descs.filterMap (fun d => if fld d 1 1 = 0x20 then some (seqHandleOf p d, false)
    else if fld d 1 1 = 0x22 then some (seqHandleOf p d, true) else none)

end Sys2Proof.Machine
end

