-- ==== Sys2Proof/Machine/Tasks.lean ====
section
/-! DEFINITION. Tasks: wick sets and sheets (R106, R111, R141), dispatch of a task and of its East part (R10, R118, R149),
its end (R61, R119, R134), sealed records between the halves (R10, R23). -/
namespace Sys2Proof.Machine

/-! ## Sealed records (R10) -/

/-- Work named in a dispatch record (R10): a task's East part, its abort, a queue's copies, its FABRIC commands for East link ports. -/
inductive DispatchBody where
  | startTask (task : Nat)
  | abortTask (task : Nat)
  | copyChunk (queue : Nat)
  | fabric (queue : Nat)
  deriving DecidableEq, Repr

/-- A completion report (R10, R23): of a task's East part with its counters of R134, of a queue's copy or FABRIC command. -/
inductive ReportBody where
  | taskDone (task nanToInt saturated : Nat)
  | copyDone (queue : Nat)
  | fabricDone (queue : Nat)
  deriving DecidableEq, Repr

/-- The plaintext of a record: its kind and its numbers. The spec gives it no layout, so the model fixes one (DESIGN CHOICE,
notes/assumptions/43.md). -/
def recordPlain (kind a b c : Nat) : Bytes := le 4 kind ++ le 4 a ++ le 4 b ++ le 4 c
def DispatchBody.bytes : DispatchBody → Bytes
  | .startTask t => recordPlain 1 t 0 0
  | .abortTask t => recordPlain 2 t 0 0
  | .copyChunk q => recordPlain 3 q 0 0
  | .fabric q => recordPlain 4 q 0 0
def ReportBody.bytes : ReportBody → Bytes
  | .taskDone t n m => recordPlain 1 t n m
  | .copyDone q => recordPlain 3 q 0 0
  | .fabricDone q => recordPlain 4 q 0 0

/-- What a record's plaintext says; none of another kind. -/
def dispatchBodyOf (b : Bytes) : Option DispatchBody :=
  match fld b 0 4 with
  | 1 => some (.startTask (fld b 4 4))
  | 2 => some (.abortTask (fld b 4 4))
  | 3 => some (.copyChunk (fld b 4 4))
  | 4 => some (.fabric (fld b 4 4))
  | _ => none
def reportBodyOf (b : Bytes) : Option ReportBody :=
  match fld b 0 4 with
  | 1 => some (.taskDone (fld b 4 4) (fld b 8 4) (fld b 12 4))
  | 3 => some (.copyDone (fld b 4 4))
  | 4 => some (.fabricDone (fld b 4 4))
  | _ => none

/-- The IV of a record: R10 gives no direction constant, so the model takes those of R18 (DESIGN CHOICE, notes/assumptions/43.md). -/
def recordIv (toEast : Bool) (counter : Nat) : Bytes := be 4 (if toEast then 1 else 2) ++ be 8 counter

/-- A record sealed by the half that sends it, under its copy of the internal dispatch key, slot 1,024; and one opened by the other. -/
def sealRecord (s : State) (toEast : Bool) (c : Nat) (b : Bytes) : Bytes × Bytes := gcmSeal (slotKey s toEast 1024) (recordIv toEast c) [] b
def openRecord (s : State) (toEast : Bool) (r : SealedRecord) : Option Bytes := gcmOpen (slotKey s (!toEast) 1024) (recordIv toEast r.counter) [] r.sealed r.tag

/-- A dispatch record goes to the front-end agent. -/
def sendDispatch (b : DispatchBody) (s : State) : State :=
  let c := s.keys.dispatchTx + 1
  let x := sealRecord s true c b.bytes
  emit (.dispatch c x.1 x.2) (onKeys (fun k => { k with dispatchTx := c }) s)

/-- A completion report goes to the command front end. -/
def sendReport (b : ReportBody) (s : State) : State :=
  let c := s.keys.reportTx + 1
  let x := sealRecord s false c b.bytes
  emit (.report c x.1 x.2) (onKeys (fun k => { k with reportTx := c }) s)

/-! ## Wick sets (R111 to R113, R140, R141) -/

/-- The carve-out of partition `p` in lantern `l`, and the part of it kept for real-time queues (R260). -/
def wicksGranted (s : State) (p l : Nat) : Nat := pdef s p (64 + l) 1 - tget 0 (partAt s p).wicksLost l
def wicksReserved (s : State) (p l : Nat) : Nat := pdef s p (80 + l) 1

/-- The live tasks of a partition in a lantern. -/
def tasksIn (s : State) (p l : Nat) : List Task :=
  (s.fe.tasks.filter (fun e => e.2.live && e.2.part == p && e.2.lanterns.contains l)).map Prod.snd

/-- The wicks of a partition that a task of a class may take in a lantern now (R141). -/
def wicksFree (s : State) (p l : Nat) (rt : Bool) : Nat :=
  let ts := tasksIn s p l
  let usedRt := ((ts.filter (fun t => t.realtime)).map (fun t => t.w)).sum
  let usedN := ((ts.filter (fun t => !t.realtime)).map (fun t => t.w)).sum
  let g := wicksGranted s p l
  let r := wicksReserved s p l
  if rt then g - usedN - usedRt else (g - r) - usedN - (usedRt - r)

/-- The physical wick of a logical one: the remap table, or the same number (R139). -/
def wickPhys (s : State) (l logical : Nat) : Nat :=
  let v := tget 0 (lanternAt s l).wickMap logical
  if v = 0 then logical else v - 1

/-- The physical wicks that tasks hold in a lantern. -/
def physUsed (s : State) (l : Nat) : List Nat :=
  s.fe.tasks.flatMap (fun e => (e.2.wicks.filter (fun k => k.1 / 256 == l)).map (fun k => k.2.phys))

/-- The physical wicks a new set may take in a lantern, in ascending logical order (R112). -/
def physFree (s : State) (l : Nat) : List Nat :=
  let used := physUsed s l
  ((List.range s.build.wicks).filter (fun k => !(lanternAt s l).withdrawn.contains k)).map (wickPhys s l) |>.filter
    (fun p => !used.contains p && !(lanternAt s l).failed.contains p)

/-- The wick-set check of R111 and R140. -/
def setOk (s : State) (p mask w : Nat) : Bool :=
  mask ≠ 0 && mask < 2 ^ s.build.lanterns && 1 ≤ w && w ≤ 192 && (maskLanterns s mask).all (fun l => w ≤ wicksGranted s p l)

/-- The bytes of sheets that a partition's tasks hold in a lantern (R106). -/
def sheetsHeld (s : State) (p l : Nat) : Nat := ((tasksIn s p l).map (fun t => 256 * t.sheetUnits.sum)).sum

/-! ## A task as it is asked for -/

/-- What a TASK command or a pilot start names (R296, R308). -/
structure TaskAsk where
  part     : Nat
  ctx      : Nat
  realtime : Bool
  deadline : Nat
  prog     : Nat
  argsAddr : Nat
  mask     : Nat
  w        : Nat
  xobj     : Nat
  purpose  : TaskFor
  pilot    : Bool
  deriving DecidableEq, Repr

/-- The front end's request for a program or an argument block. -/
def feReq (p : Nat) (master id : Nat) : Req := { part := p, kind := kindFrontEnd, master := master, access := 5, masterId := id }

/-- A program and its argument block as the front end reads them: a status, the header, descriptors, arguments and
handles. -/
structure Fetched where
  status : Nat := 0
  header : Bytes := []
  descs  : List Bytes := []
  args   : List Word64 := []
  objs   : List Nat := []
  deriving DecidableEq, Repr

/-- The queue or pilot number a fault of the front end's reads names. -/
def askId (s : State) (a : TaskAsk) : Nat :=
  match a.purpose with
  | .command qi _ => (queueAt s qi).q
  | .pilot pi => (pilotAt s pi).n

/-- The front end reads a program and its block (R296). -/
def fetchProgram (ue : Ue) (a : TaskAsk) (s : State) : Fetched × State :=
  let (h, s) := memRead (feReq a.part 6 (askId s a)) ue a.prog 64 s
  if h.status ≠ stOk then ({ status := h.status }, s) else
  let n := min (descCount h.data) 1024
  let (d, s) := memRead (feReq a.part 6 (askId s a)) ue (a.prog + 64) (32 * n) s
  if d.status ≠ stOk then ({ status := d.status, header := h.data }, s) else
  let c := min (argCount h.data) 32
  let len := 8 * c + 4 * a.xobj
  if len = 0 then ({ header := h.data, descs := chunks 32 d.data }, s) else
  let (b, s) := memRead (feReq a.part 6 (askId s a)) ue a.argsAddr len s
  if b.status ≠ stOk then ({ status := b.status, header := h.data }, s) else
  ({ header := h.data, descs := chunks 32 d.data, args := (chunks 8 (b.data.take (8 * c))).map (fun x => BitVec.ofNat 64 (leNat x))
     objs := (chunks 4 (b.data.drop (8 * c))).map leNat }, s)

/-- The program as R118 checks it. -/
def progOf (a : TaskAsk) (f : Fetched) (n : Nat) : Prog :=
  { argc := argCount f.header, sheets := sheetUnits f.header, descs := f.descs, n := n, w := a.w
    args := if a.pilot then List.replicate 8 0 ++ f.args.drop 8 else f.args }

/-- The status of the dispatch checks of a TASK, in the order of R118. A pilot's sequences are checked with its items. -/
def taskStatus (s : State) (a : TaskAsk) (f : Fetched) : Nat :=
  let p := progOf a f (maskLanterns s a.mask).length
  if f.status ≠ stOk then f.status
  else if ¬ headerOk f.header ∨ (a.pilot ∧ p.argc < 8) ∨ ¬ progOk p ∨ ¬ tableLimits s a.part (if a.pilot then none else some a.mask) p then stProgramInvalid
  else if ¬ (progTables s p).all (fun k => tableUsable s a.part k.1 k.2) then stTableDenied
  else if a.pilot then stOk
  else ((progSeqs p).map (fun q => seqStatus s a.part a.mask q.1)).foldl firstStatus stOk

/-! ## Sequence holds (R149) -/

/-- Whether the sequences a task names are free for its kind of hold, other tasks than `t` considered. -/
def seqsFree (s : State) (t : Nat) (qs : List (Nat × Bool)) : Bool :=
  qs.all (fun q =>
    let k := q.1 % 4096
    s.fe.tasks.all (fun e => e.1 == t || !e.2.live || (!e.2.seqHold.contains k && !(q.2 && e.2.seqShare.contains k))))

/-- The sequences of a list once each. -/
def seqSet (qs : List (Nat × Bool)) : List Nat := qs.foldl (fun a q => if a.contains (q.1 % 4096) then a else a ++ [q.1 % 4096]) []
def seqHolds (qs : List (Nat × Bool)) : List Nat := seqSet (qs.filter (fun q => q.2))

/-- The frames of a sequence that is REVOKED and named by no task return to its pool (R148). -/
def settleSeq (k : Nat) (s : State) : State :=
  let q := seqAt s k
  if ¬ q.live ∨ q.state ≠ .revoked ∨ q.naming ≠ 0 then s else
  let pool := poolAt s q.pool
  let ls := maskLanterns s pool.mask.toNat
  let n := max 1 ls.length
  let used := q.pages.foldl (fun u e =>
    tmod [] u (ls.getD ((e.1 + q.start) % n) 0) (fun fs => fs.erase (e.2 - 1))) pool.used
  setSeq k { gen := q.gen } (setPool q.pool { pool with used := used } s)

/-- Tasks begin and end to name sequences. -/
def nameSeqs (ks : List Nat) (s : State) : State := ks.foldl (fun s k => modSeq k (fun q => { q with naming := q.naming + 1 }) s) s
def unnameSeqs (ks : List Nat) (s : State) : State :=
  ks.foldl (fun s k => settleSeq k (modSeq k (fun q => { q with naming := q.naming - 1 }) s)) s

/-! ## Start -/

/-- Whether wicks, sheets and sequences are there for a set now (R106, R111, R149), and no lantern of it is snuffed (R388) or still
trains (R517). -/
def resourcesFree (s : State) (a : TaskAsk) (units : Nat) (qs : List (Nat × Bool)) : Bool :=
  (maskLanterns s a.mask).all (fun l =>
    (lanternAt s l).ready && !(snuffAt s l).due && !(snuffAt s l).fencedW &&
    a.w ≤ wicksFree s a.part l a.realtime && a.w ≤ (physFree s l).length &&
      sheetsHeld s a.part l + 256 * units ≤ 1024 * pdef s a.part 56 2) && seqsFree s 0 qs

/-- The value a trace record of a task shows: its queue or pilot number, and its command's VALUE. -/
def taskTag (s : State) (x : Task) : Nat × Nat :=
  match x.purpose with
  | .command qi n => ((queueAt s qi).q, (((queueAt s qi).inflight.find? (fun c => c.serial == n)).map (fun c => fld c.cmd 16 8)).getD 0)
  | .pilot pi => ((pilotAt s pi).n, 0)

/-- TASK_START or TASK_END records of a task's lanterns (R410). -/
def traceTask (start : Bool) (t : Nat) (ls : List Nat) (s : State) : State :=
  let x := taskAt s t
  let v := taskTag s x
  ls.foldl (fun s l => traceEmit { type := if start then 3 else 4, kind := kindLantern, inst := l, part := x.part, ctx := x.ctx
                                   lantern := l, mark := if start then [] else tget [] x.deps l
                                   arg := le 1 v.1 ++ le 1 x.w ++ le 2 x.ctx ++ le 2 (if start then x.program.length else x.status) ++
                                     zeros 2 ++ le 8 v.2 } s) s

/-- The lanterns of a task in one half. -/
def westPart (s : State) (x : Task) : List Nat := x.lanterns.filter (lanternWest s)
def eastPart (s : State) (x : Task) : List Nat := x.lanterns.filter (fun l => !lanternWest s l)

/-- The wicks of a task in some lanterns start afresh with given arguments (R105). -/
def startWicks (t : Nat) (ls : List Nat) (args : List Word64) (s : State) : State :=
  let s := modTask t (fun x => { x with wicks := tmap {} x.wicks (fun k v =>
    if ls.contains (k / 256) then { phys := v.phys, args := args, started := true } else v) }) s
  traceTask true t ls s

/-- The wicks of a set, each with its physical number. -/
def allotWicks (s : State) (ls : List Nat) (w : Nat) : Tab Wick :=
  ls.foldl (fun ws l => ((physFree s l).take w).zipIdx.foldl (fun ws e => tset {} ws (wickKey l e.2) { phys := e.1 }) ws) []

/-- A task whose program has been read and that waits for its wicks. -/
def prepareTask (a : TaskAsk) (f : Fetched) (s : State) : Nat × State :=
  let t := s.fe.nextTask
  let ls := maskLanterns s a.mask
  let p := progOf a f ls.length
  let x : Task := { purpose := a.purpose, part := a.part, ctx := a.ctx, realtime := a.realtime, deadline := a.deadline, header := f.header
                    program := f.descs, args := p.args, lanterns := ls, w := a.w, sheetUnits := p.sheets }
  (t, onFe (fun e => { e with nextTask := t + 1 }) (setTask t x s))

/-- What a prepared task's program was read as. -/
def fetchedOf (x : Task) : Fetched := { header := x.header, descs := x.program, args := x.args }

/-- A prepared task takes its wicks, sheets, sequences, tables and bias copies (R86, R106, R111, R149, R188); it does not yet
run. -/
def allotTask (a : TaskAsk) (t : Nat) (s : State) : State :=
  let x := taskAt s t
  let p := progOf a (fetchedOf x) x.lanterns.length
  let qs := if a.pilot then [] else progSeqs p
  nameSeqs (seqSet qs) (setTask t { x with
    live := true, wicks := allotWicks s x.lanterns x.w, tables := progPins s p
    biasPins := (progGroups p).map (fun g => (g, (groupAt s g).active)), seqHold := seqHolds qs, seqShare := seqSet qs, start := now s } s)

/-- A task's run begins: West at once, East by a dispatch record (R10). -/
def runTask (t : Nat) (args : List Word64) (s : State) : State :=
  let x := taskAt s t
  let s := modTask t (fun x => { x with args := args, eastGo := false, eastDone := false, reported := false }) s
  let s := startWicks t (westPart s x) args s
  if eastPart s x = [] then s else sendDispatch (.startTask t) s

/-! ## Combine slots at the end of a task (R185) -/

/-- A combine slot is freed; its generation advances when it leaves OPEN (R174). -/
def freeSlot (k : Nat) (s : State) : State :=
  let c := combineAt s k
  if c.state = .free then s else setCombine k { gen := if c.state = .open_ then (c.gen + 1) % 4096 else c.gen } s

/-- Every batch of a task is freed. -/
def freeBatches (t : Nat) (s : State) : State :=
  let x := taskAt s t
  let s := x.batches.foldl (fun s e => if (combineAt s (e.2 - 1)).task = t then freeSlot (e.2 - 1) s else s) s
  modTask t (fun x => { x with batches := [], cancelled := [] }) s

/-! ## End -/

/-- A task is told to abort (R119). -/
def abortTask (t : Nat) (s : State) : State :=
  let s := modTask t (fun x => if x.live then { x with aborting := true } else x) s
  freeBatches t s

/-- Whether one half's part of a task has ended and every held write has left, or gone with an abort (R61). -/
def partEnded (s : State) (t : Nat) (ls : List Nat) : Bool :=
  let x := taskAt s t
  (x.wicks.filter (fun e => ls.contains (e.1 / 256))).all (fun e => e.2.ended) &&
    (x.aborting || ls.all (fun l => (tget [] x.deps l).isEmpty && !(lanternAt s l).held.any (fun h => h.task == t)))

/-- Whether a task's completion report may issue: both parts, East by its report (R23, R61). -/
def taskEnded (s : State) (t : Nat) : Bool :=
  let x := taskAt s t
  x.live && partEnded s t (westPart s x) && ((eastPart s x).isEmpty || x.eastDone)

/-- The tickets of a lantern that a task opened are nobody's and sealed; each stands until its verdicts are in, for other tasks and
held writes may rest on it (R57, R63). -/
def leaveTickets (t l : Nat) (s : State) : State :=
  let ks := ((lanternAt s l).tickets.filter (fun k => k.2.task == t)).map Prod.fst
  ks.foldl (fun s k => settleTicket {} l k (setTicket l k { ticketAt s l k with task := goneTask, sealed := true } s)) s

/-- What an aborted task still holds in the lanterns goes: held writes, additions, dependency sets (R119). -/
def dropHeld (t : Nat) (s : State) : State :=
  (taskAt s t).lanterns.foldl (fun s l => leaveTickets t l (modLantern l (fun x => { x with
    held := x.held.filter (fun h => h.task ≠ t), heldCounts := x.heldCounts.filter (fun h => h.task ≠ t) }) s)) s

/-- A task's counts added to its context's (R268): bytes, conversions, wick cycles held in `ns` nanoseconds. -/
def Context.plus (c : Context) (x : Task) (ns : Nat) : Context :=
  { c with wickCycles := satTo 64 (c.wickCycles + x.w * x.lanterns.length * ns)
           stackedRead := satTo 64 (c.stackedRead + x.acc.stackedRead), stackedWrite := satTo 64 (c.stackedWrite + x.acc.stackedWrite)
           capacityRead := satTo 64 (c.capacityRead + x.acc.capacityRead), capacityWrite := satTo 64 (c.capacityWrite + x.acc.capacityWrite)
           fabricOut := satTo 64 (c.fabricOut + x.acc.fabricOut), fabricIn := satTo 64 (c.fabricIn + x.acc.fabricIn)
           nanToInt := satTo 32 (c.nanToInt + x.nanToInt + x.nanEast), saturated := satTo 32 (c.saturated + x.saturated + x.satEast) }

/-- What a task has counted since the last addition goes to its context (R134, R269), its wick cycles from allocation on, and its routes to
its partition's counters (R168). -/
def chargeRun (t : Nat) (s : State) : State :=
  let x := taskAt s t
  let s := charge x.ctx (fun c => c.plus x (now s - x.start)) s
  let s := modCounters x.part (fun c => { c with shortRoute := satTo 64 (c.shortRoute + x.shortRoute), noRoute := satTo 64 (c.noRoute + x.noRoute) }) s
  modTask t (fun x => { x with acc := {}, nanToInt := 0, saturated := 0, nanEast := 0, satEast := 0, shortRoute := 0, noRoute := 0, start := now s }) s

/-- Every 100 µs a running task's counts go to its context (R269). -/
def chargeRuns (s : State) : State :=
  s.fe.tasks.foldl (fun s e => if (taskAt s e.1).live ∧ now s ≥ (taskAt s e.1).start + 100000 then chargeRun e.1 s else s) s

/-- A run ends: its batches, holds and counts; the task keeps its wicks and sheets. -/
def endRun (t : Nat) (s : State) : State :=
  let x := taskAt s t
  let s := traceTask false t x.lanterns s
  let s := if x.aborting then dropHeld t s else s
  let s := chargeRun t (freeBatches t s)
  let s := unnameSeqs x.seqShare s
  modTask t (fun x => { x with seqHold := [], seqShare := [], deps := [], open_ := [], wanted := [], failed := false, aborting := false, abortSent := false, status := 0
                               eastGo := false, eastDone := false, reported := false, exch := [], shared := 0, shares := []
                               wicks := tmap {} x.wicks (fun _ v => { phys := v.phys, ended := true }) }) s

/-- A task's wicks, sheets and pins are freed. -/
def freeTask (t : Nat) (s : State) : State := setTask t {} s

end Sys2Proof.Machine
end

