-- ==== Sys2Proof/Machine/Teardown.lean ====
section
/-! DEFINITION. What destroying an owner's things does: sequences and pools (R148, R164, R344), routing groups (R188), windows
(R202), expert servers (R344), trace buffers (R418), queues (R307) and pilots (R312), and the steps of a partition reset (R265). -/
namespace Sys2Proof.Machine

/-! ## Sequences, pools, groups, windows, servers -/

/-- A sequence is revoked (R148). -/
def revokeSeq (k : Nat) (s : State) : State :=
  let q := seqAt s k
  if ¬ q.live ∨ q.state = .revoked then s
  else settleSeq k (setSeq k { q with state := .revoked, gen := nextGen q.gen } s)

/-- The numbers of a pool's sequences. -/
def seqsOf (s : State) (pool : Nat) : List Nat :=
  (s.kv.seqs.filter (fun e => e.2.live && e.2.pool == pool)).map Prod.fst

/-- A pool is told to go: every sequence of it is revoked (R344). -/
def closePool (k : Nat) (s : State) : State :=
  (seqsOf s k).foldl (fun s q => revokeSeq q s) (modPool k (fun p => { p with closing := true }) s)

/-- A pool without sequences goes; its object's binding ends. -/
def dropPool (k : Nat) (s : State) : State :=
  let p := poolAt s k
  if ¬ p.live then s else unbindObj p.obj (setPool k {} s)

/-- A routing group goes (R188). -/
def dropGroup (k : Nat) (s : State) : State :=
  let g := groupAt s k
  if ¬ g.live then s else unbindObj g.obj (setGroup k {} s)

/-- KIND and fields of a window entry (R202). -/
def Window.kind (w : Window) : Nat := fld w.entry 1 1
def Window.perm (w : Window) : Nat := fld w.entry 2 1
def Window.part (w : Window) : Nat := if fld w.entry 3 1 = 0xFF then 16 else fld w.entry 3 1
def Window.peer (w : Window) : Nat := fld w.entry 4 1
def Window.key (w : Window) : Nat := fld w.entry 6 2
def Window.base (w : Window) : Nat := fld w.entry 8 8
def Window.length (w : Window) : Nat := fld w.entry 16 8
def Window.ownBase (w : Window) : Nat := fld w.entry 24 4

/-- A window goes; a MEMORY window's object is unbound. -/
def dropWindow (k : Nat) (s : State) : State :=
  let w := windowAt s k
  let s' := setWindow k {} s
  if w.kind = 1 then unbindObj w.obj s' else s'

/-- The windows of an owner. -/
def windowsOf (s : State) (p : Nat) : List Nat :=
  (s.fabric.windows.filter (fun e => e.2.kind ≠ 0 && e.2.part == p)).map Prod.fst

/-- A trace buffer is switched OFF: its object's reference ends, records held for it are lost uncounted (R418). -/
def dropBuffer (k : Nat) (s : State) : State :=
  let b := bufAt s k
  if b.owner = none then s else
  let s := onTrace (fun t => { t with remote := t.remote.filter (fun r => r.1 ≠ k) }) (setBuf k {} s)
  if b.remote then s else dropObjs [b.obj] s

/-! ## Queues and pilots -/

/-- Whether a command of TYPE `t` ends at once when its queue is destroyed (R307 step 1). -/
def endsAtOnce (cmd : Bytes) : Bool := let t := fld cmd 1 1; t == 5 || t == 6 || t == 7

/-- A destruction begins (R307): fetch stops, commands that are not finished end with the status, but with `drain` tasks
run on. -/
def Queue.destroy (st : Nat) (drain : Bool) (q : Queue) : Queue :=
  { q with state := .destroying, endStatus := st, drain := drain, fetching := 0
           discarded := q.discarded ++ q.undispatched.map (fun c => (st, c)), fetched := [], atDispatch := none
           inflight := q.inflight.map (fun c =>
             match c.phase with
             | .ended _ => c
             | .running => if c.killed ≠ 0 ∨ (drain ∧ fld c.cmd 1 1 = 1) then c else { c with killed := st }) }

/-- The destruction of a queue begins. -/
def destroyQueue (qi st : Nat) (drain : Bool) (s : State) : State :=
  if (queueAt s qi).state = .absent ∨ (queueAt s qi).state = .destroying then s
  else modQueue qi (Queue.destroy st drain) s

/-- A pilot's stop begins (R312); a FAILED pilot owes nothing more than it already took. -/
def stopPilot (pi st : Nat) (drain : Bool) (s : State) : State :=
  let p := pilotAt s pi
  if p.state = .absent ∨ p.state = .stopping then s
  else if drain ∧ p.state ≠ .failed then setPilot pi { p with state := .stopping, drain := true, closed := true } s
  else
    let owe := p.state ≠ .failed ∧ (p.current.isSome ∨ p.items ≠ [] ∨ st = stResetLost)
    let s := setPilot pi { p with state := .stopping, drain := false, closed := true, items := []
                                  owed := if owe ∧ p.owed = 0 then st else p.owed } s
    if p.current.isSome then abortTask p.task s else s

/-- Whether no work of an owner is left on queues, pilots and servers. -/
def ownerQuiet (s : State) (p : Nat) : Bool :=
  (queuesOf s p).isEmpty && (pilotsOf s p).isEmpty && s.fe.tasks.all (fun t => !(t.2.live && t.2.part == p))

/-- The expert servers of an owner. -/
def serversOf (s : State) (p : Nat) : List Nat := (s.experts.servers.filter (fun e => e.2.live && e.2.part == p)).map Prod.fst

/-- Step 1 of R265 begins: every queue and pilot of the owner ends with RESET_LOST. -/
def beginReset (p : Nat) (s : State) : State :=
  let s := (serversOf s p).foldl (fun s k => modServer k (fun x => { x with closing := true, slices := x.slices.map (fun c => { c with lanes := [], bound := none, posted := false }) }) s) s
  let s := (queuesOf s p).foldl (fun s k => destroyQueue k stResetLost false s) s
  (pilotsOf s p).foldl (fun s k => stopPilot k stResetLost false s) s

/-- An owner's fences take a status where they still await a signal: "every unsignalled fence" of step 1 is a fence an
ended command names, which the queues' and pilots' endings have already given RESET_LOST. Step 2 frees the slots. -/
def freeFences (ue : Ue) (p : Nat) (s : State) : State :=
  ((s.parts.fences.filter (fun e => e.2.owner == p && e.2.state == .active)).map Prod.fst).foldl (fun s k => freeFence ue k s) s

/-- An owner's objects are freed (R265 step 3): all FREE, those that were LIVE one generation on. -/
def freeObjs (p : Nat) (s : State) : State :=
  ((s.parts.objects.filter (fun e => e.2.owner == p && e.2.state ≠ .free)).map Prod.fst).foldl (fun s k =>
    let o := objAt s k
    uncount o (setObj k { gen := if o.state = .live then nextGen o.gen else o.gen } s)) s

/-- A partition's context tags are zeroed (R265 step 5). -/
def zeroContexts (p : Nat) (s : State) : State :=
  let b := pdef s p 12 2
  onParts (fun x => { x with contexts := tclear x.contexts b (b + pdef s p 14 2) }) s

/-- An owner's sequences, pools, groups, windows, servers, combine slots, tables and trace buffers go (R265 step 4, R185,
R418). -/
def dropOwned (p : Nat) (s : State) : State :=
  let s := ((s.kv.seqs.filter (fun e => e.2.live && e.2.part == p)).map Prod.fst).foldl (fun s k =>
    setSeq k { gen := if (seqAt s k).state = .revoked then (seqAt s k).gen else nextGen (seqAt s k).gen } s) s
  let s := ((s.kv.pools.filter (fun e => e.2.live && e.2.part == p)).map Prod.fst).foldl (fun s k => dropPool k s) s
  let s := ((s.experts.groups.filter (fun e => e.2.live && e.2.owner == p)).map Prod.fst).foldl (fun s k => dropGroup k s) s
  let s := (windowsOf s p).foldl (fun s k => dropWindow k s) s
  let s := (serversOf s p).foldl (fun s k => setServer k {} s) s
  let s := ((s.experts.slots.filter (fun e => e.2.part == p)).map Prod.fst).foldl (fun s k => freeSlot k s) s
  let s := unloadOwned p s
  let s := ((s.trace.bufs.filter (fun e => e.2.owner == some p)).map Prod.fst).foldl (fun s k => dropBuffer k s) s
  onTrace (fun t => { t with watches := t.watches.filter (fun w => w.2.owner ≠ p) }) s

/-- A partition's reset acknowledges the level-2 records that name it (R379). -/
def ackLevel2 (p : Nat) (s : State) : State :=
  let f (r : FaultRec) : FaultRec := if r.severity = 2 ∧ r.part = partCode p ∧ ¬ r.acked then { r with flags := r.flags ||| 8#8 } else r
  let keys := ((s.faults.records.filter (fun r => r.severity = 2 ∧ r.part = partCode p ∧ ¬ r.acked)).map (fun r => sourceKey r.cls r.kind r.inst))
  onFaults (fun x => { x with records := x.records.map f, linkStore := x.linkStore.map f
                              since := keys.foldl (fun t k => tset 0 t k 0) x.since }) s

/-- Steps 2 to 5 of R265, once step 1 has ended every command. -/
def finishReset (ue : Ue) (p : Nat) (s : State) : State :=
  let s := freeFences ue p s
  let s := dropOwned p s
  let s := freeObjs p s
  let s := onParts (fun x => { x with fences := tmap {} x.fences (fun _ f => if f.owner = p then { gen := f.gen } else f) }) s
  let s := (poolSlots s p).foldl (fun s k => expireSlot k s) (dropAllEntries (fun e => e.part == p) s)
  let s := zeroContexts p s
  let s := ackLevel2 p s
  let s := setCounters p {} s
  let s := setTotals p {} s
  onReg (fun r => { r with missed := terase r.missed p, urgent := terase r.urgent p }) s

/-- The slots that a partition owns and that hold something: those of its pool, and its digest seed's. -/
def ownedSlots (s : State) (p : Nat) : List Nat :=
  (poolSlots s p ++ (if p < 16 then [1032 + p] else [])).filter (fun k => (slotAt s k).state ≠ .empty)

/-- The slots of a partition take no further request while what was accepted before completes under them (R238). -/
def drainOwned (p : Nat) (s : State) : State := (ownedSlots s p).foldl (fun s k => modSlot k (fun v => { v with draining := true }) s) s

/-- Every slot of a partition is zeroised in every consumer and EMPTY (R238). -/
def wipeOwned (p : Nat) (s : State) : State := (ownedSlots s p).foldl (fun s k => wipeSlot k s) s

/-- A destruction's end: the partition's grants, PASID entries and definition are gone; carve-outs and slots return to the manager (R264). -/
def removePart (p : Nat) (s : State) : State :=
  let s := onKeys (fun k => { k with grants := k.grants.filter (fun g => g.part ≠ p), targets := terase k.targets p }) s
  let s := dropGrants p s
  let s := onExperts (fun e => { e with groups := tmap {} e.groups (fun _ g => { g with grants := g.grants.filter (· ≠ p) }) }) s
  let s := onParts (fun x => { x with pasids := tmap {} x.pasids (fun _ e => if e.bound ∧ e.part = p then {} else e) }) s
  let s := setPart p {} s
  setBox p { evSeq := (boxAt s p).evSeq } s

/-- A destruction that a block reset completes (R264, R336): every key slot of the partition cleared, then its end. -/
def finishDestroy (p : Nat) (s : State) : State := removePart p (wipeOwned p s)

end Sys2Proof.Machine
end

