-- ==== Sys2Proof/Machine/MailRules.lean ====
section
/-! DEFINITION. The rules of the mailboxes: the opcodes (R338), the checks of R329 that come before an operation's own, the order in
which one mailbox's requests start (R334). -/
namespace Sys2Proof.Machine

/-! ## The opcodes (R338) -/

/-- Opcodes of R338 by family, each with its mailboxes (1 P, 2 M, 4 N) and the minor version that defines it. -/
def opcodes : List (Nat × Nat × Nat) :=
  [(0x0001, 7, 0), (0x0002, 7, 0), (0x0010, 2, 0), (0x0011, 2, 0), (0x0100, 2, 0), (0x0101, 2, 0), (0x0102, 3, 0), (0x0103, 2, 0), (0x0104, 2, 0), (0x0105, 3, 0)] ++
  [(0x0110, 3, 0), (0x0111, 3, 0), (0x0118, 3, 0), (0x0119, 3, 0), (0x011A, 3, 0), (0x011B, 3, 0), (0x011C, 3, 0), (0x0120, 3, 0), (0x0121, 3, 0), (0x0122, 3, 0)] ++
  [(0x0128, 3, 1), (0x0129, 3, 1), (0x0130, 3, 1), (0x0131, 3, 1), (0x0132, 3, 1), (0x0133, 3, 1), (0x0134, 3, 1)] ++
  [(0x0200, 3, 0), (0x0201, 7, 0), (0x0202, 3, 0), (0x0203, 2, 0), (0x0204, 2, 0), (0x0205, 3, 3), (0x0206, 3, 0), (0x0207, 3, 0), (0x0208, 7, 0), (0x0209, 2, 3)] ++
  [(0x0300, 2, 0), (0x0301, 2, 3), (0x0302, 2, 3), (0x0303, 2, 0), (0x0310, 3, 0), (0x0311, 3, 0), (0x0312, 3, 0), (0x0318, 2, 0), (0x0319, 2, 0), (0x031A, 6, 0)] ++
  [(0x0400, 3, 0), (0x0401, 3, 0), (0x0402, 2, 0), (0x0403, 2, 0), (0x0410, 3, 2), (0x0411, 3, 2), (0x0418, 3, 2), (0x0419, 3, 2)] ++
  [(0x0500, 4, 0), (0x0501, 6, 0), (0x0502, 6, 0), (0x0503, 3, 0), (0x0508, 3, 0), (0x0509, 3, 0), (0x050A, 6, 0), (0x050B, 2, 0), (0x0510, 2, 0), (0x0511, 6, 0)] ++
  [(0x0518, 3, 0), (0x0519, 2, 0), (0x051A, 2, 0), (0x0520, 2, 0), (0x0521, 2, 0), (0x0600, 6, 0), (0x0601, 2, 0), (0x0602, 2, 0), (0x0603, 6, 0), (0x0700, 4, 0),
   (0x0701, 4, 0), (0x0702, 4, 0)]

/-- Mailboxes and first minor version of an opcode; none where it is reserved. -/
def opInfo (op : Nat) : Option (Nat × Nat) := (opcodes.find? (fun e => e.1 == op)).map Prod.snd

/-- Which operation of an opcode a request asks for: the subop of TRACE_CONFIG (R425), CANCEL of CURFEW_SCHEDULE (R426), the action of
DEBUG_UNLOCK (R446). -/
def subOf (r : Bytes) : Nat :=
  if reqOp r = 0x0518 ∨ reqOp r = 0x0521 then arg r 0 1 else if reqOp r = 0x0519 then arg r 0 1 % 2 else 0

/-- How many operations an opcode has, by `subOf`. -/
def subsOf (op : Nat) : Nat := if op = 0x0518 then 8 else if op = 0x0519 ∨ op = 0x0521 then 2 else 1

/-- Whether an opcode and operation are defined. -/
def opDefined (r : Bytes) : Bool := (opInfo (reqOp r)).isSome && decide (subOf r < subsOf (reqOp r))

/-- Whether LENGTH is the opcode's request length (R329 step 6, R338 to R350). -/
def lengthOk (mb : Nat) (r : Bytes) : Bool :=
  let op := reqOp r
  let n := reqLen r
  if op = 0x0002 ∨ op = 0x0010 ∨ op = 0x0101 ∨ op = 0x0102 ∨ op = 0x0104 ∨ op = 0x0105 ∨ op = 0x0111 ∨ op = 0x0119 ∨ op = 0x011B ∨ op = 0x0121 ∨ op = 0x0122 ∨
      op = 0x0129 ∨ op = 0x0131 ∨ op = 0x0132 then n = 8
  else if op = 0x0202 ∨ op = 0x0203 ∨ op = 0x0204 ∨ op = 0x0205 ∨ op = 0x0207 ∨ op = 0x0301 ∨ op = 0x0311 ∨ op = 0x031A ∨ op = 0x0401 ∨ op = 0x0402 ∨ op = 0x0403 ∨
      op = 0x0411 ∨ op = 0x0419 ∨ op = 0x0500 ∨ op = 0x0503 ∨ op = 0x0508 ∨ op = 0x0509 ∨ op = 0x0511 then n = 8
  else if op = 0x0011 ∨ op = 0x0103 ∨ op = 0x011A ∨ op = 0x0200 ∨ op = 0x0312 ∨ op = 0x050B ∨ op = 0x051A then n = 16
  else if op = 0x011C ∨ op = 0x0206 ∨ op = 0x0519 then n = 24
  else if op = 0x0110 ∨ op = 0x0118 ∨ op = 0x0518 then n = 32
  else if op = 0x0120 ∨ op = 0x0128 ∨ op = 0x0130 ∨ op = 0x0318 ∨ op = 0x0319 ∨ op = 0x0400 then n = 64
  else if op = 0x0300 ∨ op = 0x0418 then n = 96
  else if op = 0x0100 then n = 240
  else if op = 0x0133 ∨ op = 0x0134 then n = 4
  else if op = 0x0201 then n = 232
  else if op = 0x0208 then (if mb = 17 then n = 40 else n = 48)
  else if op = 0x0209 then 8 ≤ n
  else if op = 0x0310 then n = 48
  else if op = 0x0410 then n = 112
  else if op = 0x0520 then n = 216
  else if op = 0x0521 then n = 168 ∨ (subOf r = 0 ∧ n = 8)
  else if op = 0x0600 then (if mb = 17 then 9 ≤ n ∧ n ≤ 200 else n = 64)
  else if op = 0x0602 then n = 1 ∨ n = 8
  else if op = 0x0701 then n = 80
  else n = 0

/-! ## The checks of R329 -/

/-- Whether the Lamplighter stands HALTED in stage 0xFF with its mailbox served (R320, R321). -/
def haltedServing (s : State) : Bool := s.ll.stage == 0xFF && s.ll.reason ≠ 1 && s.ll.reason ≠ 2

/-- Whether a mailbox is served now: not while the Lamplighter boots, has stopped, or a block reset is due. -/
def boxServed (s : State) (mb : Nat) : Bool :=
  !s.faults.inBlockReset && s.faults.blockDue.isNone && !s.jtag.llHalted && (s.ll.ready || (mb == 16 && haltedServing s))

/-- What the management mailbox may issue (R256, R259): outside a session, and MGMT_AUTH once a secret is there; inside one. -/
def mgmtMay (s : State) (op : Nat) : Bool :=
  op == 0x0001 || op == 0x0002 || op == 0x0208 || op == 0x0201 || op == 0x0700 ||
    (op == 0x0701 && (slotAt s 1031).state ≠ .empty) ||
    (s.ll.mgmtActive && (op == 0x0500 || op == 0x0501 || op == 0x0502 || op == 0x050A || op == 0x031A || op == 0x0600 || op == 0x0603 || op == 0x0511 || op == 0x0702))

/-- Step 4: whether the mailbox may issue the opcode in its present state. -/
def mayIssue (s : State) (mb : Nat) (bits op : Nat) : Nat :=
  let tdi := (partAt s mb).tdi
  let st := (partAt s mb).state
  let basic : Bool := decide (op = 0x0001 ∨ op = 0x0002)
  if ¬ bit bits (if mb < 16 then 0 else if mb = 16 then 1 else 2) then stNotPermitted
  else if haltedServing s ∧ ¬ (basic ∨ op = 0x0603 ∨ op = 0x0600 ∨ op = 0x0601 ∨ op = 0x0511) then stNotPermitted
  else if mb < 16 ∧ st = .absent then stNotPermitted
  else if mb < 16 ∧ (st = .resetting ∨ st = .destroying) then stResetLost
  else if mb = 17 ∧ ¬ mgmtMay s op then stNotPermitted
  else if mb < 16 ∧ tdi = .error ∧ ¬ basic then stAttestRequired
  else if mb < 16 ∧ (tdi = .configLocked ∨ tdi = .run) ∧
      (op = 0x0120 ∨ op = 0x0121 ∨ op = 0x0130 ∨ op = 0x0131 ∨ op = 0x0128 ∨ op = 0x0129) then stInterfaceLocked
  else if s.lc.intent ≠ 0 ∧ ¬ (basic ∨ op = 0x0603 ∨ op = 0x0520) then stLcInProgress
  else stOk

/-- The slots of a mailbox with PENDING requests. -/
def pendingSlots (s : State) (mb : Nat) : List (Nat × MbSlot) := (boxAt s mb).slots.filter (fun e => e.2.state == .pending)

/-- Steps 1 to 6 of R329, in order. -/
def prologue (s : State) (mb slot : Nat) : Nat :=
  let b := boxAt s mb
  let me := tget {} b.slots slot
  let r := me.request
  let op := reqOp r
  let basic : Bool := decide (op = 0x0001 ∨ op = 0x0002)
  if basic ∧ ¬ (fld r 0 1 = 1 ∧ fld r 1 1 = 0) then stVersion
  else if ¬ basic ∧ (b.major = 0 ∨ fld r 0 1 ≠ b.major ∨ fld r 1 1 ≠ b.minor) then stVersion
  else if reqLen r > 240 ∨ fld r 8 8 ≠ 0 then stBadArg
  else match opInfo op with
    | none => stBadArg
    | some (bits, since) =>
      if ¬ basic ∧ b.minor < since then stVersion
      else if mayIssue s mb bits op ≠ stOk then mayIssue s mb bits op
      else if (pendingSlots s mb).any (fun e => e.2.order < me.order && reqTag e.2.request == reqTag r) then stBadArg
      else if ¬ lengthOk mb r then stBadArg
      else if ¬ opDefined r then stBadArg
      else stOk

/-! ## Order (R334) -/

/-- The things a request names that hold back a later request of the same mailbox until it completes, as kind and number. -/
def namesOf (mb : Nat) (r : Bytes) : List (Nat × Nat) :=
  let op := reqOp r
  if op = 0x0101 ∨ op = 0x0102 then [(9, if arg r 0 1 = 0xFF then mb else arg r 0 1)]
  else if op = 0x0100 then [(9, arg r 1 1)]
  else if op = 0x0120 ∨ op = 0x0121 ∨ op = 0x0122 then [(3, arg r (if op = 0x0120 then 1 else 0) 1)]
  else if op = 0x0128 ∨ op = 0x0129 then [(4, arg r 0 1)]
  else if op = 0x0131 ∨ op = 0x0132 then [(5, arg r 0 1)]
  else if op = 0x0200 then [(6, if arg r 2 1 = 8 then 1032 + mb else arg r 0 2)]
  else if op = 0x0201 then [(6, if arg r 9 1 = 2 then arg r 0 2 else 1027 + arg r 9 1)]
  else if op = 0x0202 ∨ op = 0x0203 ∨ op = 0x0204 ∨ op = 0x0205 ∨ op = 0x0207 then [(6, arg r 0 2)]
  else if op = 0x0206 then [(6, arg r 0 2), (6, arg r 2 2)]
  else if 0x0400 ≤ op ∧ op ≤ 0x0403 then [(7, arg r 0 1 * 256 + (if arg r 0 1 = 1 then 0 else arg r 1 1))]
  else if op = 0x0418 ∨ op = 0x0419 then [(8, arg r 0 1)]
  else if 0x0300 ≤ op ∧ op ≤ 0x0303 then [(10, 0)]
  else if op = 0x0318 ∨ op = 0x0319 then [(11, op)]
  else if op = 0x0519 ∨ op = 0x051A then [(12, 0)]
  else []

/-- Whether an earlier request of the mailbox that names the same thing still waits. A second KEY_CLEAR of a slot is answered at once
(R238). -/
def heldBack (s : State) (mb : Nat) (r : Bytes) : Bool :=
  s.boxes.waiting.any (fun w =>
    let q := mbRequest s w.mb w.slot
    w.mb == mb && !(reqOp r == 0x0202 && reqOp q == 0x0202) && (namesOf mb q).any (fun n => (namesOf mb r).contains n))

/-- Whether a slot holds the oldest request of its mailbox that has not been started. -/
def isNext (s : State) (mb slot : Nat) : Bool :=
  let me := tget {} (boxAt s mb).slots slot
  me.state == .pending && !me.started && (pendingSlots s mb).all (fun e => e.2.started || me.order ≤ e.2.order)

end Sys2Proof.Machine
end

