-- ==== Sys2Proof/Machine/Settle.lean ====
section
/-! DEFINITION. What follows at once from any change: commands retire in order or take their error words (R301, R302, R307),
waits end (R282 to R285), pilots that were stopped go (R312), waiting mailbox requests are answered (R335, R336), trace
units look at what they were told (R416). -/
namespace Sys2Proof.Machine

/-! ## Replies -/

/-- A mailbox reply with its MAILBOX trace record (R326, R410). -/
def reply (mb slot st : Nat) (payload : Bytes) (s : State) : State :=
  let r := mbRequest s mb slot
  let s := respond mb slot st payload s
  traceEmit { type := 9, kind := kindLamplighter, part := if mb < 16 then mb else if mb = 16 then 16 else 0xFF
              arg := le 1 mb ++ le 1 1 ++ le 2 (reqOp r) ++ le 2 (reqTag r) ++ le 2 st } s

/-- A request is started; its MAILBOX record goes out. -/
def markStarted (mb slot : Nat) (s : State) : State :=
  let r := mbRequest s mb slot
  let s := modBox mb (fun b => { b with slots := tmod {} b.slots slot (fun x => { x with started := true }) }) s
  traceEmit { type := 9, kind := kindLamplighter, part := if mb < 16 then mb else if mb = 16 then 16 else 0xFF
              arg := le 1 mb ++ le 1 0 ++ le 2 (reqOp r) ++ le 2 (reqTag r) ++ le 2 0 } s

/-- A served mailbox's requests of no defined operation are answered with the first check of R329 that fails. -/
def answerReserved (mb : Nat) (s : State) : State :=
  if ¬ boxServed s mb then s else
  ((pendingSlots s mb).filter (fun e => !e.2.started && !opDefined e.2.request)).foldl (fun s e =>
    let st := prologue s mb e.1
    reply mb e.1 st [] (markStarted mb e.1 s)) s

/-- A mailbox is un-negotiated again (R332). -/
def unnegotiate (mb : Nat) (s : State) : State := modBox mb (fun b => { b with major := 0, minor := 0 }) s

/-- The payload of a fence reply (R343): VALUE, IGNORED_LOW, LATE. -/
def fencePayload (s : State) (k : Nat) : Bytes :=
  let f := fenceAt s k
  zeros 8 ++ le 8 f.value.toNat ++ le 4 f.low ++ le 4 f.late

/-! ## The end of a command -/

/-- A command's engine has ended with a status (0: complete); a failure stops the queue (R302). In a queue being destroyed
a command that completes after all is complete (R307 step 5). -/
def endCommand (qi serial st : Nat) (s : State) : State :=
  modQueue qi (fun q =>
    match q.inflight.find? (fun c => c.serial == serial) with
    | none => q
    | some c =>
      if c.phase ≠ .running then q else
      let f (c : InFlight) : InFlight :=
        if c.serial ≠ serial then c
        else { c with phase := .ended st, killed := if st ≠ 0 ∨ q.state = .destroying then 0 else c.killed }
      let q' := { q with inflight := q.inflight.map f }
      if st = 0 then q' else q'.stop stQueueStopped (serial + 1)) s

/-- A change of one dispatched command. -/
def modInFlight (qi serial : Nat) (f : InFlight → InFlight) (s : State) : State :=
  modQueue qi (fun q => { q with inflight := q.inflight.map (fun c => if c.serial = serial then f c else c) }) s

/-- A killed command's engine is quiet: it ends without having completed. -/
def endKilled (qi serial : Nat) (s : State) : State :=
  modQueue qi (fun q => { q with inflight := q.inflight.map (fun c =>
    if c.serial = serial ∧ c.phase = .running then { c with phase := .ended c.killed } else c) }) s

/-- The operations a command has under way at the fabric engines. -/
def cmdOps (s : State) (qi serial : Nat) : Nat :=
  (s.fabric.west.ops.filter (fun e => e.2.used && e.2.issuer == .command qi serial)).length +
    (s.fabric.east.ops.filter (fun e => e.2.used && e.2.issuer == .command qi serial)).length

/-- Operations of a command that were never sent are withdrawn (R307 step 4). -/
def withdrawOps (qi serial : Nat) (s : State) : State :=
  let f (_ : Nat) (o : OutOp) : OutOp :=
    if o.used ∧ o.issuer = .command qi serial ∧ o.sent = none then { gen := o.gen } else o
  onFabric (fun x => { x with west := { x.west with ops := tmap {} x.west.ops f }, east := { x.east with ops := tmap {} x.east.ops f } }) s

/-- A killed command that still runs is brought to its end (R302 step 2, R307). -/
def endRunning (qi : Nat) (c : InFlight) (s : State) : State :=
  if c.phase ≠ .running ∨ c.killed = 0 then s else
  let t := fld c.cmd 1 1
  if t = 1 then
    match c.task with
    | some k => if (taskAt s k).live then (if (taskAt s k).aborting then s else abortTask k s) else freeTask k (endKilled qi c.serial s)
    | none => endKilled qi c.serial s
  else if t = 2 ∨ t = 3 then (if c.flying = 0 then endKilled qi c.serial s else s)
  else if t = 4 then
    let s := withdrawOps qi c.serial s
    if cmdOps s qi c.serial = 0 then endKilled qi c.serial s else s
  else onFe (fun f => { f with waits := f.waits.filter (fun w => ¬ (w.qi = qi ∧ w.serial = c.serial)) }) (endKilled qi c.serial s)

/-! ## Retirement (R301, R302, R307) -/

/-- The index of a queue's completion register. -/
def completionKey (q : Queue) : Nat := 64 * q.part + q.q

/-- A queue's completion register (R293). -/
def completion (s : State) (qi : Nat) : Word64 := tget 0 s.fe.completions (completionKey (queueAt s qi))

/-- The register takes a value; CMIRROR follows (R293). -/
def setCompletion (qi : Nat) (v : Word64) (s : State) : State :=
  let q := queueAt s qi
  let s := onFe (fun f => { f with completions := tset 0 f.completions (completionKey q) v }) s
  if q.cmirror = 0 then s else emit (.hostWrite q.part (queuePasid s q.part q.q) q.cmirror (le 8 v.toNat)) s

/-- The register takes the error word of the first command that fails and keeps it (R302). -/
def failCompletion (qi st : Nat) (s : State) : State :=
  let v := completion s qi
  if v.msb then s else setCompletion qi (errorWord st v) s

/-- Whether a context tag belongs to an owner (R300). -/
def ctxOk (s : State) (p ctx : Nat) : Bool := pdef s p 12 2 ≤ ctx && ctx < pdef s p 12 2 + pdef s p 14 2

/-- What a command named is no longer named; its context counts it; its RETIRE record goes out (R268, R301, R410). -/
def leaveCommand (qi st : Nat) (c : InFlight) (s : State) : State :=
  let q := queueAt s qi
  let s := unnameFences c.fences (dropObjs c.objs s)
  let ctx := fld c.cmd 4 2
  let s := if ctxOk s q.part ctx then charge ctx (fun x => { x with commands := satTo 64 (x.commands + 1) }) s else s
  traceEmit { type := 2, kind := kindFrontEnd, part := q.part, ctx := ctx
              arg := le 1 q.q ++ le 1 (fld c.cmd 1 1) ++ le 2 ctx ++ le 2 st ++ zeros 2 ++ le 8 (fld c.cmd 16 8) } s

/-- A command leaves the list of dispatched ones. -/
def takeOut (qi serial : Nat) (s : State) : State :=
  modQueue qi (fun q => { q with inflight := q.inflight.filter (fun c => c.serial ≠ serial) }) s

/-- A command retires complete: fence, register, counts (R301). -/
def retireOk (ue : Ue) (qi : Nat) (c : InFlight) (s : State) : State :=
  let p := (queueAt s qi).part
  let v := fld c.cmd 16 8
  let s := takeOut qi c.serial s
  let s := if fld c.cmd 8 4 = 0 then s
    else setCompletion qi (BitVec.ofNat 64 v) (fenceByHandle ue p (fld c.cmd 8 4) (.signal v) s)
  let s := modCounters p (fun x => { x with retired := satTo 64 (x.retired + 1) }) s
  leaveCommand qi stOk c s

/-- A command retires with an error word on its fence. -/
def retireError (ue : Ue) (qi st : Nat) (c : InFlight) (s : State) : State :=
  let p := (queueAt s qi).part
  let s := takeOut qi c.serial s
  let s := fenceByHandle ue p (fld c.cmd 8 4) (.error st) s
  leaveCommand qi st c s

/-- A failure counted at the partition (R420). -/
def countFailed (p : Nat) (s : State) : State := modCounters p (fun x => { x with failed := satTo 64 (x.failed + 1) }) s

/-- The command that fails on its own account retires (R302 step 4). -/
def retireFailed (ue : Ue) (qi st : Nat) (c : InFlight) (s : State) : State :=
  let p := (queueAt s qi).part
  countFailed p (failCompletion qi st (retireError ue qi st c s))

/-- Whether a command has ended. -/
def InFlight.isEnded (c : InFlight) : Bool := c.phase != .running

/-- The status of an ended command. -/
def InFlight.status (c : InFlight) : Nat :=
  match c.phase with
  | .running => 0
  | .ended e => e

/-- Fences of ended commands waiting for their error words, in ascending VALUE, ties in submission order. -/
def insertByValue (x : Nat × Option InFlight × Bytes) : List (Nat × Option InFlight × Bytes) → List (Nat × Option InFlight × Bytes)
  | [] => [x]
  | y :: ys => if fld x.2.2 16 8 ≤ fld y.2.2 16 8 then x :: y :: ys else y :: insertByValue x ys

/-- Error words on the fences of the commands ended without having failed on their own (R302 step 5, R307 step 5). -/
def flushErrors (ue : Ue) (qi : Nat) (xs : List (Nat × Option InFlight × Bytes)) (s : State) : State :=
  (xs.foldr insertByValue []).foldl (fun s x =>
    let s := if x.1 = stResetLost ∧ (queueAt s qi).state = .stopped then countFailed (queueAt s qi).part s else s
    match x.2.1 with
    | some c => retireError ue qi x.1 c s
    | none => fenceByHandle ue (queueAt s qi).part (fld x.2.2 8 4) (.error x.1) s) s

/-- The status a command's fence will take: what an earlier failure or a halt gave it, else its own. -/
def InFlight.ending (c : InFlight) : Nat := if c.killed ≠ 0 then c.killed else c.status

/-- A STOPPED queue whose dispatched commands have all ended: those that failed on their own retire in order, then the
rest and the discarded take their error words (R302); the register takes the word of the first in submission order, which in a halt need
not be the one whose fault halted the partition (R264); a failed fetch stands as the last failure (R288). -/
def flushStopped (ue : Ue) (qi : Nat) (s : State) : State :=
  let q := queueAt s qi
  match q.inflight.find? (fun c => c.killed == 0) with
  | some c => retireFailed ue qi c.status c (failCompletion qi ((q.inflight.map InFlight.ending).headD c.status) s)
  | none =>
    if q.inflight = [] ∧ q.discarded = [] then
      if q.fetchError = 0 then s else failCompletion qi q.fetchError (modQueue qi (fun q => { q with fetchError := 0 }) s)
    else
      let first := ((q.inflight.map (fun c => c.killed)) ++ q.discarded.map Prod.fst).headD 0
      let st := if q.fetchError ≠ 0 ∧ q.inflight = [] then q.fetchError else first
      let xs := q.inflight.map (fun c => (c.killed, some c, c.cmd)) ++ q.discarded.map (fun d => (d.1, none, d.2))
      let s := flushErrors ue qi xs (failCompletion qi st s)
      modQueue qi (fun q => { q with discarded := [], fetchError := 0 }) s

/-- A queue whose destruction has found every engine quiet: from the first command that did not complete on, every fence
takes the error word; the number is free (R307). -/
def flushDestroyed (ue : Ue) (qi : Nat) (s : State) : State :=
  let q := queueAt s qi
  let xs := q.inflight.map (fun c => (q.endStatus, some c, c.cmd)) ++ q.discarded.map (fun d => (q.endStatus, none, d.2))
  let s := flushErrors ue qi xs s
  let s := if q.device then unbindObj q.ringObj s else s
  setQueue qi {} (onFe (fun f => { f with waits := f.waits.filter (fun w => w.qi ≠ qi) }) s)

/-- One step of a queue's retirement. -/
def retireStep (ue : Ue) (qi : Nat) (s : State) : State :=
  let q := queueAt s qi
  match q.inflight with
  | c :: _ =>
    if c.isEnded ∧ c.killed = 0 ∧ c.status = 0 then retireOk ue qi c s
    else if c.isEnded ∧ c.killed = 0 ∧ q.state = .stopped then retireFailed ue qi c.status c s
    else if q.inflight.all (fun c => c.isEnded) then
      (if q.state = .stopped then flushStopped ue qi s else if q.state = .destroying then flushDestroyed ue qi s else s)
    else s
  | [] => if q.state = .stopped then flushStopped ue qi s else if q.state = .destroying then flushDestroyed ue qi s else s

/-- A queue's retirement as far as it goes; `fuel` bounds its commands. -/
def retireQueue (ue : Ue) (qi : Nat) : Nat → State → State
  | 0, s => s
  | fuel + 1, s => if (queueAt s qi).state = .absent then s else retireQueue ue qi fuel (retireStep ue qi s)

/-- Killed commands of a queue are brought to their end, then the queue retires what it can. -/
def settleQueue (ue : Ue) (qi : Nat) (s : State) : State :=
  let s := (queueAt s qi).inflight.foldl (fun s c => endRunning qi c s) s
  retireQueue ue qi ((queueAt s qi).inflight.length + 3) s

/-! ## Waits (R282 to R285) -/

/-- How a wait stands: its status when it has ended. `late` says that the deadline cycle's signals are in. -/
def waitOutcome (s : State) (late : Bool) (k gen : Nat) (target : Word64) (deadline : Nat) : Option Nat :=
  let f := fenceAt s k
  if deadline ≠ 0 ∧ now s > deadline then some stWaitTimeout
  else if f.gen ≠ gen ∨ f.state ≠ .active then some stObjectRevoked
  else if f.value.msb then some (bits f.value.toNat 47 32)
  else if target.toNat ≤ f.value.toNat then some stOk
  else if late ∧ deadline ≠ 0 ∧ now s ≥ deadline then some stWaitTimeout
  else none

/-- Queue waits that have ended end their WAIT commands. -/
def settleWaits (late : Bool) (s : State) : State :=
  s.fe.waits.foldl (fun s w =>
    match waitOutcome s late w.fence w.gen w.target w.deadline with
    | none => s
    | some st =>
      endCommand w.qi w.serial st (onFe (fun f => { f with waits := f.waits.filter (· ≠ w) }) s)) s

/-! ## Pilots (R311, R312) -/

/-- A pilot's fence takes the error word it owes; a stopped pilot without a running item frees its wicks. -/
def settlePilot (ue : Ue) (pi : Nat) (s : State) : State :=
  let p := pilotAt s pi
  if p.state = .absent then s else
  let s := if p.owed ≠ 0 ∧ p.current = none then
      fenceByHandle ue p.part p.fence (.error p.owed) (modPilot pi (fun p => { p with owed := 0 }) s) else s
  if p.state = .stopping ∧ p.current = none ∧ (p.items = [] ∨ ¬ p.drain) then
    dropObjs p.objs (unbindObj p.ringObj (freeTask p.task (chargeRun p.task (setPilot pi {} s))))
  else s

/-! ## Waiting mailbox requests -/

/-- Whether every unit's share of a rotation has begun. -/
def sweepBegun (s : State) (n : Nat) : Bool :=
  (rotationAt s n).units.all (fun u => u.open_ || u.done || u.watermark ≠ (u.segs.headD (0, 0)).1)

/-- A digest seed in place of the one that a STOP has cleared (DESIGN CHOICE, notes/assumptions/53.md): the partition stands, and R238 has its
seed drawn with it. -/
def redrawSeed (p : Nat) (s : State) : State := if s.ll.drbgRunning then drawSeed p 0 s else s

/-- The end of a partition reset, a destruction or a STOP_INTERFACE (R253, R264): the partition is ACTIVE again or gone, the request is
answered, the mailbox un-negotiated. -/
def endPartReset (w : Waiting) (p : Nat) (destroy : Bool) (s : State) : State :=
  let s := onBoxes (fun b => { b with waiting := b.waiting.erase w }) s
  let s := if destroy then removePart p s else modPart p (fun x => { x with state := .active }) s
  let s := if w.mb = 18 then
      emit (.tdispAnswer true) (redrawSeed p (modPart p (fun x => { x with tdi := .configUnlocked, nonce := [], stream := none }) s))
    else reply w.mb w.slot stOk w.payload s
  unnegotiate p s

/-- A waiting request whose condition holds is answered, or moves to its next condition. -/
def settleRequest (ue : Ue) (late : Bool) (w : Waiting) (s : State) : State :=
  let drop (s : State) : State := onBoxes (fun b => { b with waiting := b.waiting.erase w }) s
  let swap (c : WaitCond) (s : State) : State :=
    onBoxes (fun b => { b with waiting := b.waiting.map (fun x => if x = w then { x with cond := c } else x) }) s
  let ok (s : State) : State := reply w.mb w.slot stOk w.payload (drop s)
  match w.cond with
  | .fence k gen target deadline =>
    match waitOutcome s late k gen target deadline with
    | none => s
    | some st => reply w.mb w.slot st (fencePayload s k) (drop s)
  | .queueQuiet qi => if (queueAt s qi).state = .absent then ok s else s
  | .pilotQuiet pi => if (pilotAt s pi).state = .absent then ok s else s
  | .poolQuiet k => if seqsOf s k = [] then ok (dropPool k s) else s
  | .serverQuiet k =>
    if (serverAt s k).slices.all (fun c => (pilotAt s c.pilot).state = .absent) then ok (setServer k {} s) else s
  | .keyDrain k =>
    if slotNamed s k (fun _ => true) then s
    else if (slotAt s k).state = .empty then ok s
    else
      let s := wipeSlot k (endGrants k (fun _ => true) s)
      if s.seam.paired then swap (.eastKeys (lastKeyMessage s)) s else ok s
  | .grantDrain k p => if slotNamed s k (fun x => x == p) then s else ok (endGrants k (fun g => g.part == p) s)
  | .retireDrain n =>
    let r := rotationAt s n
    if slotNamed s r.a (fun _ => true) then s
    else
      let s := retireKey n s
      if s.seam.paired then swap (.eastKeys (lastKeyMessage s)) s else ok s
  | .eastKeys n => if eastHeard s n then ok s else s
  | .sweepOpen n => if sweepBegun s n then ok s else s
  | .partQuiet p destroy =>
    if s.boxes.waiting.any (fun x => x ≠ w && x.mb == p && (match x.cond with
        | .fence _ _ _ _ => false
        | .partQuiet _ _ | .partKeys _ _ | .partGone _ _ _ => false
        | _ => true)) then s
    else
      let s := beginReset p s
      if ¬ ownerQuiet s p then s
      else
        let s := finishReset ue p s
        if destroy ∨ w.mb = 18 then swap (.partKeys p destroy) (drainOwned p s) else endPartReset w p destroy s
  | .partKeys p destroy =>
    if (ownedSlots s p).any (fun k => slotNamed s k (fun _ => true)) then s
    else
      let s := wipeOwned p s
      if s.seam.paired then swap (.partGone p destroy (lastKeyMessage s)) s else endPartReset w p destroy s
  | .partGone p destroy n => if eastHeard s n then endPartReset w p destroy s else s
  | _ => s

/-! ## Everything together -/

/-- East lanterns are told to abort by a dispatch record (R10, R119). -/
def sendAborts (s : State) : State :=
  s.fe.tasks.foldl (fun s e =>
    if e.2.live ∧ e.2.aborting ∧ ¬ e.2.abortSent ∧ eastPart s e.2 ≠ [] then
      sendDispatch (.abortTask e.1) (modTask e.1 (fun x => { x with abortSent := true }) s) else s) s

/-- Whether an island has stopped for a curfew (R427). -/
def islandStopped (s : State) (i : Island) : Bool := s.curfew.stopped.contains i

/-- One round. While the front end stands stopped by a curfew it retires nothing and evaluates no wait (R427). -/
def settleOnce (ue : Ue) (late : Bool) (s : State) : State :=
  let s := (s.boxes.boxes.map Prod.fst).foldl (fun s mb => answerReserved mb s) s
  if islandStopped s .frontEnd then lookAtNoticed s else
  let s := sendAborts s
  let s := (s.fe.queues.map Prod.fst).foldl (fun s k => settleQueue ue k s) s
  let s := (s.fe.pilots.map Prod.fst).foldl (fun s k => settlePilot ue k s) s
  let s := settleWaits late s
  let s := s.boxes.waiting.foldl (fun s w => settleRequest ue late w s) s
  startDues (lookAtNoticed s)

/-- Rounds until everything that follows has happened; `fuel` bounds them. -/
def settleLoop (ue : Ue) (late : Bool) : Nat → State → State
  | 0, s => s
  | fuel + 1, s => settleLoop ue late fuel (settleOnce ue late s)

/-- How many rounds can bring something new. -/
def settleFuel (s : State) : Nat :=
  (s.fe.queues.map (fun q => q.2.inflight.length)).sum + s.fe.pilots.length + s.boxes.waiting.length + s.fe.waits.length + 3

/-- What follows at once from a change. -/
def settle (ue : Ue) (s : State) : State := inCore (settleLoop ue false (settleFuel s)) s

/-- The same at a deadline cycle, when that cycle's signals are in (R284). -/
def settleLate (ue : Ue) (s : State) : State := inCore (settleLoop ue true (settleFuel s)) s

end Sys2Proof.Machine
end

