-- ==== Sys2Proof/Machine/Fuses.lean ====
section
/-! DEFINITION. The OTP rows (R435 to R438), the steps of a life-cycle transition and of fuse burns (R442, R443, R449), the flash
as the Lamplighter uses it: boot record (R507), image slots (R317, R318), sealed user region (R509); the wipe of keys (R240,
R442). -/
namespace Sys2Proof.Machine

/-! ## OTP rows (R435 to R438) -/

/-- A row. -/
def otpRow (s : State) (k : Nat) : Word32 := tget 0 s.lc.otp k

/-- Bits of a row are burned: a burned bit stays. -/
def burnRow (k : Nat) (b : Word32) (s : State) : State := onLc (fun l => { l with otp := tset 0 l.otp k (tget 0 l.otp k ||| b) }) s

/-- Rows as bytes, low row and low byte first. -/
def otpBytes (s : State) (k n : Nat) : Bytes := (List.range n).flatMap (fun i => le 4 (otpRow s (k + i)).toNat)

/-- The code of a state (R437). -/
def lcCode (st : Nat) : Word32 := [0x00000000#32, 0x00FF00FF#32, 0xFFFF00FF#32, 0xFFFFFFFF#32].getD st 0

/-- The state whose code a row holds. -/
def codeState (w : Word32) : Option Nat := (List.range 4).find? (fun k => lcCode k == w)

/-- Whole-copy majority of three rows (R438): the state that two of them hold, 0xFF where none do. -/
def voteCode (a b c : Word32) : Nat :=
  let v := if a = b ∨ a = c then some a else if b = c then some b else none
  match v with
  | some w => (codeState w).getD 0xFF
  | none => 0xFF

/-- Burned bits of a row. -/
def rowBits (s : State) (k : Nat) : Nat := popcount (otpRow s k).toNat

/-- Whether the intent row of a target counts as burned. -/
def intentBurned (s : State) (target : Nat) : Bool := rowBits s (2 + target) ≥ 24

/-- The burned intent whose transition is unfinished, 0 for none. -/
def openIntent (s : State) (st : Nat) : Nat :=
  if st = 0xFF then 0
  else if intentBurned s 3 ∧ st < 3 then 3 else if intentBurned s 2 ∧ st < 2 then 2 else if intentBurned s 1 ∧ st < 1 then 1 else 0

/-- The SVN fuse count: consecutive burned bits from row 29 bit 0. -/
def svnCount (s : State) : Nat :=
  ((List.range 512).find? (fun i => !(otpRow s (29 + i / 32)).getLsbD (i % 32))).getD 512

/-- Whether a firmware-signing key is revoked. -/
def fwRevoked (s : State) (k : Nat) : Bool := popcount (bits (otpRow s 15).toNat (8 * k + 7) (8 * k)) ≥ 5

/-- Whether the debug authority is revoked, and whether its digest is burned. -/
def debugAuthRevoked (s : State) : Bool := rowBits s 28 ≥ 24
def debugAuthSet (s : State) : Bool := (List.range 12).any (fun i => otpRow s (16 + i) ≠ 0)

/-- The fuse-row summary of R436. -/
def fuseSummary (s : State) : Nat :=
  let any (a n : Nat) : Nat := b2n ((List.range n).any (fun i => otpRow s (a + i) ≠ 0))
  any 0 3 + 2 * any 3 3 + 4 * any 6 9 + 8 * any 15 1 + 16 * any 16 12 + 32 * any 28 1 + 64 * any 29 16

/-- The life-cycle state of TI_LC_STATUS: what the shadow registers hold. -/
def shadowState (s : State) : Nat := s.trust.shadow.headD 0

/-! ## Zeroising (R240, R380, R442) -/

/-- Every key slot, the mirror, and the keys held by link engines and by the seam's users are zero; link sessions end. -/
def zeroiseKeys (s : State) : State :=
  let s := onKeys (fun k => { k with slots := [], mirror := [], targets := [], captureKey := [] }) s
  let s := onFabric (fun f => { f with haveCur := false, havePrev := false, linkKeys := [], links := tmap {} f.links (fun _ l =>
    { l with state := if l.master = [] then l.state else .failed, master := [], txKey := [], txNext := [], rxKey := [], rxNext := [], transcript := [] }) }) s
  clearAllEast s

/-- Step 2 of R442: keys zeroised, the root secret with them. -/
def wipeKeys (s : State) : State := onTrust (fun t => { t with rootSecret := [], rootValid := false }) (zeroiseKeys s)

/-! ## Flash (R505 to R509) -/

/-- A byte of the flash; an erased one reads 0xFF. -/
def flashRead (s : State) (a n : Nat) : Bytes := treads 0xFF#8 s.flash.bytes a n

/-- Bytes programmed after an erase. -/
def flashWrite (a : Nat) (b : Bytes) (s : State) : State := onFlash (fun f => { f with bytes := twrites 0xFF#8 f.bytes a b }) s

/-- A range erased. -/
def flashErase (a n : Nat) (s : State) : State := onFlash (fun f => { f with bytes := tclear f.bytes a (a + n) }) s

/-- A boot record's bytes by copy, where its DIGEST checks (R507). -/
def bootCopy (s : State) (c : Nat) : Option Bytes :=
  let b := flashRead s (0x1000 * c) 512
  if fld b 0 1 = 1 ∧ sha384 (b.take 464) = sub b 464 48 then some b else none

/-- Whether SEQ `a` is higher than `b` modulo 2^32. -/
def seqAfter (a b : Nat) : Bool := let d := (a + 2 ^ 32 - b) % 2 ^ 32; 0 < d && d < 2 ^ 31

/-- The boot record in force and its copy (R507). -/
def bootRecord (s : State) : Option (Nat × Bytes) :=
  match bootCopy s 0, bootCopy s 1 with
  | none, none => none
  | some a, none => some (0, a)
  | none, some b => some (1, b)
  | some a, some b => if seqAfter (fld b 8 4) (fld a 8 4) then some (1, b) else some (0, a)

/-- Fields of the record in force: PREFERRED, TRIAL, the state of a slot (EMPTY without a good copy). -/
def bootPreferred (s : State) : Nat := ((bootRecord s).map (fun r => fld r.2 1 1)).getD 0
def bootTrial (s : State) : Nat := ((bootRecord s).map (fun r => fld r.2 2 1)).getD 0
def slotStateOf (s : State) (slot : Nat) : Nat := ((bootRecord s).map (fun r => fld r.2 (3 + slot) 1)).getD 0

/-- A record with SEQ one higher than `old` had, and its DIGEST. -/
def sealBoot (old b : Bytes) : Bytes :=
  let b := put b 8 (le 4 (fld old 8 4 + 1))
  put b 464 (sha384 (b.take 464))

/-- A copy of the boot record programmed. -/
def writeBootCopy (c : Nat) (b : Bytes) (s : State) : State := flashWrite (0x1000 * c) b (flashErase (0x1000 * c) 4096 s)

/-- The record rewritten into the other copy with SEQ one higher. -/
def rewriteBoot (f : Bytes → Bytes) (s : State) : State :=
  let r := (bootRecord s).getD (1, put (zeros 512) 0 [1#8])
  writeBootCopy (1 - r.1) (sealBoot r.2 (f r.2)) s

/-- Where an image slot begins. -/
def slotBase (slot : Nat) : Nat := 0x100000 + 0x100000 * slot

/-- The 3,504 B header of an image and its body. -/
def imageHeader (s : State) (slot : Nat) : Bytes := flashRead s (slotBase slot) 3504
def imageBody (s : State) (slot : Nat) : Bytes :=
  let h := imageHeader s slot
  flashRead s (slotBase slot + 3504) (fld h 8 4 + fld h 12 4)

/-- Bytes of mask ROM. -/
def romBytes (o n : Nat) : Bytes := (List.range n).map (fun i => Sys2Proof.Config.romByte (o + i))

/-- The firmware-signing public key of an index, from the boot record, where its digest matches the boot ROM's (R317). -/
def signKey (s : State) (k : Nat) : Option Bytes :=
  match bootRecord s with
  | none => none
  | some r => let p := sub r.2 (16 + 96 * k) 96; if sha384 p = romBytes (48 + 48 * k) 48 then some p else none

/-- Whether the boot ROM accepts the image of a slot (R318); bits [7:2] of SIGS are reserved and ignored (R5). -/
def imageOk (s : State) (slot : Nat) : Bool :=
  let h := imageHeader s slot
  let k := fld h 2 1
  let sigs := fld h 1 1
  if fld h 0 1 ≠ 1 ∨ fld h 3 1 ≠ 1 ∨ fld h 8 4 > 262144 ∨ fld h 12 4 > 262144 ∨ k > 3 ∨ fwRevoked s k then false else
  let body := imageBody s slot
  let msg := h.take 96 ++ body
  sigs % 2 == 1 && sub h 32 48 == sha384 body &&
    (match signKey s k with
      | some p => ecdsaVerify p (sha384 msg) (sub h 96 96)
      | none => false) &&
    (if sigs / 2 % 2 = 1 then Sys2Proof.Config.mldsaOk k (ascii "EONAL-FW-1" ++ msg) (sub h 192 3309) else !s.build.mldsa) &&
    decide (fld h 4 4 ≥ svnCount s) && fld h 24 1 == 1 && fld h 25 1 == 0

/-! ## The sealed user region (R231, R256, R258, R509) -/

/-- Where a copy lies; its length: generation 8 B, IV 12 B, ciphertext 44 B, tag 16 B. -/
def sealedBase (c : Nat) : Nat := 0x0C0000 + 0x8000 * c
def sealedLen : Nat := 80

/-- What a copy holds, opened under the storage key, where its generation is the trust island's: whether a secret is present, the
failure count (4 B), the secret's uses left (6 B) and FLAGS, the secret. The additional data holds the generation, its most significant
byte first (R4). -/
def openSealed (s : State) (c : Nat) : Option Bytes :=
  let b := flashRead s (sealedBase c) sealedLen
  if fld b 0 8 ≠ s.trust.sealedGen then none else gcmOpen (storageKey s) (sub b 8 12) (be 8 s.trust.sealedGen) (sub b 20 44) (sub b 64 16)

/-- The sealed state, from the copy of the current generation. -/
def readSealed (s : State) : Option Bytes := (openSealed s 0).orElse (fun _ => openSealed s 1)

/-- The management secret and the failure count are sealed into the older copy under the next generation, which the trust island
then takes. -/
def writeSealed (s : State) : State :=
  let k := slotAt s 1031
  let on := k.state = .active
  let plain := le 1 (b2n on) ++ le 4 s.ll.mgmtFails ++ le 6 k.uses ++ [if on then k.flags else 0#8] ++ (if on then fit 32 k.key else zeros 32)
  let c := if fld (flashRead s (sealedBase 0) 8) 0 8 = s.trust.sealedGen then 1 else 0
  let g := s.trust.sealedGen + 1
  let (iv, s) := drbg 12 s
  let (ct, tag) := gcmSeal (storageKey s) iv (be 8 g) plain
  let s := flashWrite (sealedBase c) (le 8 g ++ iv ++ ct ++ tag) (flashErase (sealedBase c) 0x8000 s)
  onTrust (fun t => { t with sealedGen := g }) s

/-! ## Transitions and burns (R442, R443, R449) -/

/-- The rows whose burned value a step gives it lack nothing of. -/
def holdsBits (s : State) (row : Nat) (b : Word32) : Bool := otpRow s row &&& b == b

/-- The steps of R442 from step 2 on. -/
def lcSteps (target : Nat) (debugHash : Bytes) : List LcOp :=
  (if target ≥ 2 then [.wipe, .erase] else []) ++
  (if target = 2 ∧ debugHash ≠ [] then (List.range 12).map (fun i => .burn (16 + i) (BitVec.ofNat 32 (fld debugHash (4 * i) 4))) else []) ++
  (if target = 2 then (List.range 8).map (fun i => .udsRow (6 + i)) ++ [.udsCheck] else []) ++
  (List.range 3).map (fun i => .burn i (lcCode target)) ++ [.done true]

/-- Whether a step has nothing to do (R443). -/
def lcSkips (s : State) : LcOp → Bool
  | .burn row b => holdsBits s row b
  | .udsRow row => otpRow s row ≠ 0
  | _ => false

/-- How long a step takes: a burned row 20 µs; what the spec gives no time, none. -/
def lcTime (s : State) (o : LcOp) : Nat :=
  match o with
  | .burn _ _ | .udsRow _ | .udsCheck => if lcSkips s o then 0 else 20000
  | _ => 0

/-- The first step begins, unless a power event holds it (R443, R498), or, for the erase, the flash bus is given away (R510). -/
def lcBegin (s : State) : State :=
  match s.lc.ops with
  | [] => s
  | o :: _ => if s.lc.opOn ∨ s.trust.dusk ∨ (o = .erase ∧ s.flash.extAck) then s else onLc (fun l => { l with opOn := true, opEnd := now s + lcTime s o }) s

/-- The intent whose transition is open, brought up to date: with End of life intended every decision is that state's and the UDS
is withheld (R442). -/
def noteIntent (s : State) : State :=
  onLc (fun l => { l with intent := openIntent s (shadowState s), udsWithheld := l.udsWithheld || intentBurned s 3 }) s

/-- The end of a transition or of FW_COMMIT's burns: the request is answered; a transition's block reset falls due (R442 step 7). -/
def lcDone (transition : Bool) (s : State) : State :=
  let r := s.lc.req
  let s := onLc (fun l => { l with req := none, debugHash := if transition then [] else l.debugHash }) s
  let s := match r with
    | some q => keepFuses (reply q.1 q.2 stOk []) s
    | none => s
  if transition then dueBlockReset 2 none false s else s

/-- The first step has ended. -/
def lcApply (o : LcOp) (s : State) : State :=
  match o with
  | .burn row b => if lcSkips s o then s else noteIntent (burnRow row b s)
  | .wipe => keepFuses wipeKeys s
  | .erase => flashErase 0x0C0000 0x10000 s
  | .udsRow row =>
    if lcSkips s o then s
    else let (b, s) := drbg 4 s; burnRow row (BitVec.ofNat 32 (leNat b)) s
  | .udsCheck => burnRow 14 (BitVec.ofNat 32 (fld (sha384 (otpBytes s 6 8)) 0 4)) s
  | .done t => lcDone t s

/-- Steps whose time has come are taken; `fuel` bounds them. -/
def lcRun : Nat → State → State
  | 0, s => s
  | fuel + 1, s =>
    match s.lc.ops with
    | [] => s
    | o :: rest =>
      let s := lcBegin s
      if ¬ s.lc.opOn ∨ now s < s.lc.opEnd then s
      else lcRun fuel (lcApply o (onLc (fun l => { l with ops := rest, opOn := false }) s))

/-- The fuse controller at work. -/
def lcAdvance (s : State) : State := lcRun 64 s

end Sys2Proof.Machine
end

