-- ==== Sys2Proof/Machine/Records.lean ====
section
/-! DEFINITION. The record region of the flash (R73, R139, R320, R387, R397, R506, R509): the append-only log of page remaps, wick remaps,
poison entries and sweep watermarks, each under the record key; keeping it up to date, and reading it back. -/
namespace Sys2Proof.Machine

/-- The bytes of R509's BODY. DESIGN CHOICE (notes/assumptions/82.md): the number of the entry (4 B), 4 B of zero, its value (16 B). The entry is
the table entry of a page remap, the physical wick, the page of a poison entry, and rotation + 256 for a capacity port's watermark; the
value the register value of R73 or of the sweep watermark, the poison mask, or the wick's logical number and its spare's, one added to
each. R509 leaves the content to the statements of the types, and they give none. -/
structure FlashRecord where
  type  : Nat
  unit  : Nat
  entry : Nat
  seq   : Nat
  value : Bytes
  deriving DecidableEq, Repr

/-- Where a half begins, and the entries it holds. -/
def recordHalf (h : Nat) : Nat := 0x040000 + 0x040000 * h
def recordSlots : Nat := 4096

/-- The 64 B entries of a half up to the first erased one; `n` bounds them. -/
def halfEntries (s : State) (h : Nat) : Nat → Nat → List Bytes
  | 0, _ => []
  | n + 1, i =>
    let b := flashRead s (recordHalf h + 64 * i) 64
    if b.all (· == 0xFF#8) then [] else b :: halfEntries s h n (i + 1)

/-- The MAC of a record's first 32 bytes (R509). -/
def recordMac (s : State) (b : Bytes) : Bytes := (hmac s.ll.recordKey (b.take 32)).take 32

/-- A record's bytes. -/
def FlashRecord.bytes (s : State) (r : FlashRecord) : Bytes :=
  let b := le 1 1 ++ le 1 r.type ++ le 1 r.unit ++ zeros 1 ++ le 4 r.seq ++ le 4 r.entry ++ zeros 4 ++ fit 16 r.value
  b ++ recordMac s b

/-- An entry read back. -/
def flashEntry (b : Bytes) : FlashRecord := ⟨fld b 1 1, fld b 2 1, fld b 8 4, fld b 4 4, sub b 16 16⟩

/-- Whether an entry is sound: of this format, its MAC under the record key. -/
def recordSound (s : State) (b : Bytes) : Bool := fld b 0 1 == 1 && s.ll.recordKey != [] && recordMac s b == sub b 32 32

/-- Every entry of the region, in the order it was written. -/
def allEntries (s : State) : List Bytes := halfEntries s 0 recordSlots 0 ++ halfEntries s 1 recordSlots 0

/-- What two records stand for alike. -/
def FlashRecord.same (a b : FlashRecord) : Bool := a.type == b.type && a.unit == b.unit && a.entry == b.entry

/-- The records that govern: the newest of each type, unit and entry, those that govern longest first (R509). -/
def liveRecords (s : State) : List FlashRecord :=
  ((allEntries s).filter (recordSound s)).foldl (fun rs b => rs.filter (fun r => !r.same (flashEntry b)) ++ [flashEntry b]) []

/-! ## What is to be recorded -/

/-- The register value of a page-remap entry (LN_REMAP). -/
def RemapEntry.value (e : RemapEntry) : Nat := b2n e.valid * 2 ^ 63 + e.spare * 2 ^ 24 + e.page

/-- What stands for a failed wick: its logical number and the spare in its place, one added to each. -/
def wickValue (x : Lantern) (phys : Nat) : Bytes :=
  match x.wickOf.find? (fun e => e.1 == phys) with
  | some e => le 2 (e.2.1) ++ le 2 (e.2.2)
  | none => zeros 4

/-- The watermark of a share, as LN_SWEEP_WM shows it. -/
def SweepUnit.value (a : Nat) (u : SweepUnit) : Nat := b2n (!u.done) * 2 ^ 63 + b2n u.done * 2 ^ 62 + a * 2 ^ 36 + u.watermark / 4096 * 4096

/-- The records a lantern's tables ask for. -/
def lanternRecords (l : Nat) (x : Lantern) : List FlashRecord :=
  x.remap.map (fun e => ⟨1, l, e.1, 0, le 16 e.2.value⟩) ++ x.failed.map (fun p => ⟨2, l, p, 0, fit 16 (wickValue x p)⟩) ++
    x.poison.map (fun e => ⟨3, l, e.page, 0, le 16 e.mask.toNat⟩)

/-- The records the rotations ask for. -/
def sweepRecords (n : Nat) (r : Rotation) : List FlashRecord :=
  if ¬ r.active then [] else
  r.units.map (fun u => match u.unit with
    | .lantern l => ⟨4, l, n, 0, le 16 (u.value r.a)⟩
    | .capacity c => ⟨4, c, n + 256, 0, le 16 (u.value r.a)⟩)

/-- Every record the block's tables ask for. -/
def wantedRecords (s : State) : List FlashRecord :=
  s.path.lanterns.flatMap (fun e => lanternRecords e.1 e.2) ++ s.path.rotations.flatMap (fun e => sweepRecords e.1 e.2)

/-- The records that are still to be written: new values, and zero for what is no longer there. -/
def recordsDue (s : State) : List FlashRecord :=
  let want := wantedRecords s
  let live := liveRecords s
  want.filter (fun w => !live.any (fun r => r.same w && r.value == w.value)) ++
    (live.filter (fun r => !want.any (fun w => w.same r) && r.value ≠ zeros 16)).map (fun r => { r with value := zeros 16 })

/-! ## Writing -/

/-- The half that is written: 1 where only it holds entries. -/
def activeHalf (s : State) : Nat := if halfEntries s 0 1 0 = [] ∧ halfEntries s 1 1 0 ≠ [] then 1 else 0

/-- A half that is full: the live records go into the other one, and the full one is erased (R509). -/
def compactRecords (s : State) : State :=
  let h := activeHalf s
  let live := liveRecords s
  let s := live.zipIdx.foldl (fun s r => flashWrite (recordHalf (1 - h) + 64 * r.2) (r.1.bytes s) s) s
  flashErase (recordHalf h) 0x40000 s

/-- A record is appended, under the next number. -/
def appendRecord (r : FlashRecord) (s : State) : State :=
  let s := if (halfEntries s (activeHalf s) recordSlots 0).length ≥ recordSlots then compactRecords s else s
  let es := halfEntries s (activeHalf s) recordSlots 0
  let n := (es.map (fun b => fld b 4 4)).foldl max 0 + 1
  flashWrite (recordHalf (activeHalf s) + 64 * es.length) (({ r with seq := n } : FlashRecord).bytes s) s

/-- Stolaikor brings its records up to date (R73, R139, R387, R397), where it has the record key and the bus and no power event forbids a
program (R499, R510). -/
def syncRecords (s : State) : State :=
  if s.ll.recordKey = [] ∨ s.flash.extAck ∨ s.trust.dusk then s else (recordsDue s).foldl (fun s r => appendRecord r s) s

/-- A row that changes what the records keep: its effect is that of a served command, and the records follow. DESIGN CHOICE
(notes/assumptions/82.md): with which commands the records follow; poison marks that a write clears follow at the next tick. -/
def recording (f : State → State) (s : State) : State := syncRecords (inCore f s)

/-! ## Reading back -/

/-- A record back in its table; a page-remap entry, a failed wick with its spare or its withdrawal, a poison entry. A watermark stands with its
rotation, which no reset that the records outlive ends. -/
def loadRecord (r : FlashRecord) (x : Lantern) : Lantern :=
  match r.type with
  | 1 => { x with remap := tset {} x.remap r.entry ⟨bits (leNat r.value) 63 63 == 1, bits (leNat r.value) 29 24, bits (leNat r.value) 23 0⟩ }
  | 2 =>
    let logical := fld r.value 0 2
    let spare := fld r.value 2 2
    let x := { x with failed := x.failed ++ [r.entry], wickOf := x.wickOf ++ [(r.entry, logical, spare)] }
    if logical = 0 then x
    else if spare = 0 then { x with withdrawn := x.withdrawn ++ [logical - 1] }
    else { x with wickMap := tset 0 x.wickMap (logical - 1) spare }
  | 3 => if leNat r.value = 0 then x else { x with poison := x.poison ++ [⟨r.entry, BitVec.ofNat 64 (leNat r.value)⟩] }
  | _ => x

/-- What a lantern's tables keep beside the flash when its records are read: none. -/
def Lantern.unrecorded (x : Lantern) : Lantern := { x with remap := [], poison := [], wickMap := [], failed := [], withdrawn := [], wickOf := [] }

/-- The tables of a lantern from its records (R73, R139, R397). -/
def loadLantern (rs : List FlashRecord) (l : Nat) (x : Lantern) : Lantern :=
  (rs.filter (fun r => r.unit == l && r.type ≤ 3)).foldl (fun x r => loadRecord r x) x.unrecorded

/-- Every lantern's tables from the records, or those of one lantern. -/
def loadRecords (ls : List Nat) (s : State) : State :=
  let rs := liveRecords s
  ls.foldl (fun s l => modLantern l (loadLantern rs l) s) s

end Sys2Proof.Machine
end

