-- ==== Sys2Proof/Machine/Exchange.lean ====
section
/-! DEFINITION. Exchange records as they are sealed and sent (R108 to R110): keys, IVs, counters, the records a task waits for. -/
namespace Sys2Proof.Machine

/-- The half a source of exchange records lies in: a lantern's, or that of link port n, which is source 0x40 + n (R108). -/
def sourceWest (s : State) (src : Nat) : Bool := if src < 0x40 then lanternWest s src else linkWest s (src - 0x40)

/-- The incarnation of a source: a link complex has none but 0. -/
def sourceInc (s : State) (src : Nat) : Nat := if src < 0x40 then (lanternAt s src).incarnation else 0

/-- The receive key of lantern `d` as half `west` holds it. -/
def exchangeKeyIn (s : State) (west : Bool) (d : Nat) : Bytes :=
  hkdf [] (slotKey s west 1025) (ascii "EONAL-EXCH-1" ++ le 1 d ++ le 4 (lanternAt s d).incarnation) 32

/-- The receive key of a lantern. -/
def exchangeKey (s : State) (d : Nat) : Bytes := exchangeKeyIn s (lanternWest s d) d

/-- The IV of an exchange record. -/
def exchangeIv (m : ExchangeMsg) : Bytes := be 4 (m.incarnation % 2 ^ 16 * 2 ^ 16 + m.source % 256 * 256 + m.dest % 256) ++ be 8 m.counter

/-- Key of a source at a destination. -/
def exchKey (m : ExchangeMsg) : Nat := m.dest * 256 + m.source

/-- The lead of a whole unit record. The spec gives its content no layout beyond the header of R109, so the model fixes one: KIND
(0 sheet data, 1 dispatch record, 2 answer record, 3 share of a SET barrier's operation, 4 import data), owner, server or queue, task or
command, sheet operand or lanes (DESIGN CHOICE, notes/assumptions/61.md). -/
structure ExchLead where
  kind   : Nat
  part   : Nat
  server : Nat
  task   : Nat
  opnd   : Nat
  deriving DecidableEq, Repr
def exchLead (b : Bytes) : ExchLead := ⟨fld b 0 1, fld b 1 1, fld b 2 2, fld b 4 4, fld b 8 4⟩

/-- The 16 B of a lead. -/
def ExchLead.bytes (x : ExchLead) : Bytes := le 1 x.kind ++ le 1 x.part ++ le 2 x.server ++ le 4 x.task ++ le 4 x.opnd ++ zeros 4

/-- The task whose data a record carries, while the record is under way. -/
def exchSender (s : State) (m : ExchangeMsg) : Option Nat :=
  (s.fe.tasks.find? (fun e => e.2.live && e.2.exch.contains (exchKey m, m.counter))).map Prod.fst

/-- A record of a link complex is no longer under way: an answer whose last one it was has landed in its lantern. -/
def recordLanded (m : ExchangeMsg) (now : Nat) (r : RxRecord) : RxRecord :=
  if r.under.contains (exchKey m, m.counter) then
    { r with under := r.under.erase (exchKey m, m.counter)
             landed := if r.under.erase (exchKey m, m.counter) = [] then now else r.landed }
  else r

/-- A record is no longer under way. -/
def exchLanded (m : ExchangeMsg) (s : State) : State :=
  let k := (exchKey m, m.counter)
  let s := onFe (fun f => { f with
    tasks := f.tasks.map (fun e => (e.1, { e.2 with exch := e.2.exch.erase k }))
    queues := f.queues.map (fun e => (e.1, { e.2 with inflight := e.2.inflight.map (fun c => { c with exch := c.exch.erase k }) })) }) s
  onExperts (fun e => { e with
    records := e.records.map (recordLanded m (clock s (lanternWest s m.dest)))
    servers := e.servers.map (fun x => (x.1, { x.2 with slices := x.2.slices.map (fun c =>
      { c with lanes := c.lanes.map (fun l => { l with under := l.under.erase k }) }) })) }) s

/-- One piece of a unit record of `total` bytes leaves for lantern `dst`: piece `i`, `last` where no other follows (R108, R109). -/
def sendPiece (src dst total i : Nat) (last : Bool) (b : Bytes) (s : State) : (Nat × Nat) × State :=
  let k := dst * 256 + src
  let c := tget 0 s.experts.exchTx k + 1
  let m : ExchangeMsg := ⟨src, dst, sourceInc s src, c, [], []⟩
  let h := le 1 1 ++ le 1 (b2n (decide (i = 0)) + 2 * b2n last) ++ zeros 2 ++ le 4 total ++ le 4 (4096 * i) ++ zeros 4
  let x := gcmSeal (exchangeKeyIn s (sourceWest s src) dst) (exchangeIv m) [] (h ++ b)
  ((k, c), emit (.exchange { m with sealed := x.1, tag := x.2 }) (onExperts (fun e => { e with exchTx := tset 0 e.exchTx k c }) s))

/-- A unit record leaves source `src` for lantern `dst` as consecutive exchange records in ascending OFFSET (R108, R109): the records
now under way. -/
def sendExchange (src dst : Nat) (b : Bytes) (s : State) : List (Nat × Nat) × State :=
  let ps := chunks 4096 b
  ps.zipIdx.foldl (fun acc p =>
    let x := sendPiece src dst b.length p.2 (decide (p.2 + 1 = ps.length)) p.1 acc.2
    (acc.1 ++ [x.1], x.2)) ([], s)

/-- A unit record of a task leaves one of its lanterns. -/
def sendUnit (t src dst : Nat) (b : Bytes) (s : State) : State :=
  let x := sendExchange src dst b s
  modTask t (fun y => { y with exch := y.exch ++ x.1 }) x.2

/-- Sheet data of a task crosses to the same sheet of another lantern, in unit records of at most 4,080 B behind their lead. -/
def sendSheet (t src dst n off : Nat) (d : Bytes) (s : State) : State :=
  (chunks 4080 d).zipIdx.foldl (fun s x =>
    let o := n * 2 ^ 27 + spSheet * 2 ^ 24 + (off + 4080 * x.2)
    sendUnit t src dst ((⟨0, (taskAt s t).part, 0, t, o⟩ : ExchLead).bytes ++ x.1) s) s

/-! ## Shares of an operation that acts as a SET barrier (R29, R123, R133, R153, R163, R170) -/

/-- Key of a share: its round, its destination and its source. -/
def shareKey (round src dst : Nat) : Nat := round * 65536 + dst * 256 + src

/-- What one lantern gives another, or keeps for itself, in a round: through the exchange, or at once. -/
def giveShare (t round : Nat) (x : Nat × Nat × Bytes) (s : State) : State :=
  if x.1 = x.2.1 then modTask t (fun y => { y with shares := y.shares ++ [(shareKey round x.1 x.2.1, x.2.2)] }) s
  else sendUnit t x.1 x.2.1 ((⟨3, (taskAt s t).part, 0, t, round⟩ : ExchLead).bytes ++ x.2.2) s

/-- The share a lantern holds of another's in a round. -/
def shareAtOf (s : State) (t round src dst : Nat) : Bytes :=
  (((taskAt s t).shares.find? (fun e => e.1 == shareKey round src dst)).map Prod.snd).getD []

/-- A round of an operation over a set: `mk` says what each lantern gives each, and `act` goes on once all of it has landed. -/
def withShares {α : Type} (t round : Nat) (mk : State → WOut (List (Nat × Nat × Bytes))) (act : State → WOut α) (s : State) : WOut α :=
  let x := taskAt s t
  if round ≤ x.shared then (if x.shared = round ∧ x.exch ≠ [] then .waits [] else act s)
  else (mk s).andThen fun xs s =>
    let s := modTask t (fun y => { y with shared := round }) (xs.foldl (fun s e => giveShare t round e s) s)
    if (taskAt s t).exch = [] then act s else .stays s

/-- The rounds of an operation are over. -/
def endShares (t : Nat) (s : State) : State := modTask t (fun y => { y with shared := 0, shares := [] }) s

/-- Every lantern of a task gives every one of them the same. -/
def toAll (ls : List Nat) (f : Nat → Bytes) : List (Nat × Nat × Bytes) := ls.flatMap (fun a => ls.map (fun b => (a, b, f a)))

end Sys2Proof.Machine
end

