-- ==== Sys2Proof/Machine/Links.lean ====
section
/-! DEFINITION. Frames and routes: the EFP header (R194), routing (R190, R192), stamps (R195), the protection of HOP and SEALED
frames (R196, R209 to R213), transit between the halves (R193), BULK containers (R226, R227), responses (R198). -/
namespace Sys2Proof.Machine

/-! ## The header (R194) -/

def fVer (h : Bytes) : Nat := fld h 0 1
def fMode (h : Bytes) : Nat := fld h 1 1 / 64
def fShalf (h : Bytes) : Nat := bits (fld h 1 1) 5 5
def fKepoch (h : Bytes) : Nat := bits (fld h 1 1) 4 3
def fOp (h : Bytes) : Nat := fld h 2 1
def fHops (h : Bytes) : Nat := fld h 3 1
def fDst (h : Bytes) : Nat := fld h 4 2
def fSrc (h : Bytes) : Nat := fld h 6 2
def fStamp (h : Bytes) : Nat := fld h 8 8
def fOffset (h : Bytes) : Nat := fld h 16 6
def fLen (h : Bytes) : Nat := fld h 22 2
def fTxn (h : Bytes) : Nat := fld h 24 2
def fFlags (h : Bytes) : Nat := fld h 26 1
def fSub (h : Bytes) : Nat := fld h 27 1
def fSpart (h : Bytes) : Nat := fld h 28 1
def fStatus (h : Bytes) : Nat := fld h 30 2

/-- Operation codes (R198). -/
def opLoad : Nat := 0x01
def opStore : Nat := 0x02
def opAtomic : Nat := 0x03
def opReduce : Nat := 0x04
def opTrigger : Nat := 0x05
def opAck : Nat := 0x10
def opData : Nat := 0x11
def opNack : Nat := 0x12

/-- Flag bits. -/
def flRelease : Nat := 1
def flAcquire : Nat := 2
def flLast : Nat := 4
def flMcast : Nat := 8
def flResend : Nat := 16

/-- A frame as its sender forms it. -/
structure FrameArg where
  op      : Nat
  dst     : Nat
  offset  : Nat := 0
  len     : Nat := 0
  txn     : Nat := 0
  flags   : Nat := 0
  sub     : Nat := 0
  spart   : Nat := 0xFF
  status  : Nat := 0
  payload : Bytes := []
  deriving DecidableEq, Repr

/-- The 32 header bytes. -/
def headerBytes (ver ctl hops src stamp : Nat) (a : FrameArg) : Bytes :=
  le 1 ver ++ le 1 ctl ++ le 1 a.op ++ le 1 hops ++ le 2 a.dst ++ le 2 src ++ le 8 stamp ++ le 6 a.offset ++ le 2 a.len ++
    le 2 a.txn ++ le 1 a.flags ++ le 1 a.sub ++ le 1 a.spart ++ zeros 1 ++ le 2 a.status

/-! ## Halves and routes -/

def halfOf (s : State) (west : Bool) : LinkHalf := if west then s.fabric.west else s.fabric.east
def onHalf (west : Bool) (f : LinkHalf → LinkHalf) (s : State) : State :=
  onFabric (fun x => if west then { x with west := f x.west } else { x with east := f x.east }) s

/-- Fields of a routing entry (R190). -/
def rtValid (e : RouteEntry) : Bool := e.msb
def rtMode (e : RouteEntry) : Nat := bits e.toNat 62 61
def rtVer (e : RouteEntry) : Nat := bits e.toNat 55 48
def rtHops (e : RouteEntry) : Nat := bits e.toNat 47 42
def rtVia (e : RouteEntry) : Nat := bits e.toNat 39 24
def rtAlt (e : RouteEntry) : Bool := e.toNat.testBit 23
def rtAltPort (e : RouteEntry) : Nat := bits e.toNat 15 8
def rtPort (e : RouteEntry) : Nat := e.toNat % 256

/-- The entry of a destination; none beyond the table or not VALID. -/
def routeTo (s : State) (west : Bool) (dst : Nat) : Option RouteEntry :=
  let e := tget 0 (halfOf s west).routes dst
  if dst < 16384 ∧ rtValid e then some e else none

/-- The role of a port (R191). -/
def roleOf (s : State) (p : Nat) : Nat := tget 0 s.boxes.portRole p

/-- Whether a half's link engines have stopped for a curfew (R427). -/
def linkStopped (s : State) (west : Bool) : Bool := islandStopped s (.link (b2n (!west)))

/-- Whether a port's HOP keys are in force: it is UP, or makes its probes (R215 step 7). -/
def hopOpen (l : Link) : Bool := l.state == .up || (l.state == .handshake && decide (l.step ≥ 7))

/-- Whether a snuff holds a link port fenced. -/
def portFenced (s : State) (p : Nat) : Bool := (snuffAt s (100 + p)).fencedW || (snuffAt s (100 + p)).fencedE

/-- Whether a port carries frames: a PEER port that is UP, another port whose link is trained. -/
def portUp (s : State) (p : Nat) : Bool :=
  p < s.build.links && !portFenced s p &&
    (if roleOf s p = 0 then (linkAt s p).state == .up else (linkAt s p).trained)

/-- Whether a port's negotiated version carries a frame of version `v` (R216). -/
def portCarries (s : State) (p v : Nat) : Bool :=
  roleOf s p ≠ 0 || v ≤ 16 * (linkAt s p).major + (linkAt s p).minor

/-- The port a frame of version `v` leaves by (R192); a HOP frame leaves by PEER ports only (R191). -/
def choosePort (s : State) (e : RouteEntry) (hop : Bool) (v : Nat) : Option Nat :=
  let ok (p : Nat) : Bool := portUp s p && portCarries s p v && (!hop || roleOf s p == 0)
  if ok (rtPort e) then some (rtPort e) else if rtAlt e && ok (rtAltPort e) then some (rtAltPort e) else none

/-! ## Keys (R196, R212) -/

/-- The sealed key of an epoch's KEPOCH as a half holds it: slot 1,029 current, 1,030 previous; none otherwise. -/
def sealedKey (s : State) (west : Bool) (kepoch : Nat) : Option (Bytes × Bool) :=
  if s.fabric.haveCur ∧ s.fabric.epoch % 4 = kepoch then some (engineKey s west 1029, true)
  else if s.fabric.havePrev ∧ s.fabric.prevEpoch % 4 = kepoch then some (engineKey s west 1030, false)
  else none

/-- The IV of a SEALED frame. -/
def sealedIv (h : Bytes) : Bytes := be 4 (fSrc h * 2 ^ 16 + fShalf h * 2 ^ 15 + fKepoch h) ++ be 8 (fStamp h)

/-- The additional data: the header with HOPS zero. -/
def frameAad (h : Bytes) : Bytes := put h 3 [0#8]

/-- The IV of a HOP frame. -/
def hopIv (session : Word32) (ctr : Nat) : Bytes := be 4 session.toNat ++ be 8 ctr

/-! ## Sending -/

/-- The next stamp of a half (R195): distinct and rising; a seventeenth in one nanosecond takes the next. -/
def nextStamp (s : State) (west : Bool) : Nat :=
  max (clock s west % 2 ^ 60 * 16) ((halfOf s west).stampTime * 16 + (halfOf s west).stampSeq + 1)
def takeStamp (west : Bool) (s : State) : State :=
  let t := nextStamp s west
  onHalf west (fun h => { h with stampTime := t / 16, stampSeq := t % 16 }) s

/-- The FRAME record of a frame at a port (R410). -/
def traceFrame (port : Nat) (received : Bool) (h : Bytes) (s : State) : State :=
  traceEmit { type := 7, kind := kindLink, inst := port, part := fSpart h, sub := b2n received, arg := h.take 16 } s

/-- Payload counted for the issuing partition (R421). -/
def spartOwner (p : Nat) : Nat := if p < 16 then p else 16

/-- Frames inside a container, each padded to 16 B (R227). -/
def padFrame (f : Frame) : Bytes := let b := f.header ++ f.payload ++ f.tag; b ++ zeros ((16 - b.length % 16) % 16)

/-- A container leaves its port (R226, R227). -/
def flushBulk (west : Bool) (port via : Nat) (s : State) : State :=
  match (halfOf s west).bulks.find? (fun b => b.port == port && b.via == via) with
  | none => s
  | some b =>
    let h := headerBytes 0 0 0 s.fabric.node 0 { op := 0x30, dst := via, len := b.payload.length, spart := 0 }
    let s := onHalf west (fun x => { x with bulks := x.bulks.filter (fun y => ¬ (y.port = port ∧ y.via = via)) }) s
    emit (.frame port ⟨h, b.payload, []⟩) s

/-- A SEALED STORE or REDUCE enters the container for its gateway, others leave alone after it (R226). -/
def gatewayOut (west : Bool) (port : Nat) (f : Frame) (s : State) : State :=
  let via := match routeTo s west (fDst f.header) with
    | some e => rtVia e
    | none => 0xFFFF
  if fOp f.header = opStore ∨ fOp f.header = opReduce then
    let n := (padFrame f).length
    let cur := ((halfOf s west).bulks.find? (fun b => b.port == port && b.via == via)).map (fun b => b.payload.length)
    let s := if (cur.getD 0) + n + 32 > 65536 then flushBulk west port via s else s
    let s := onHalf west (fun x =>
      if x.bulks.any (fun b => b.port == port && b.via == via) then
        { x with bulks := x.bulks.map (fun b => if b.port = port ∧ b.via = via then { b with payload := b.payload ++ padFrame f } else b) }
      else { x with bulks := x.bulks ++ [⟨port, via, padFrame f, clock s west⟩] }) s
    if (fFlags f.header).testBit 0 then flushBulk west port via s else s
  else emit (.frame port f) (flushBulk west port via s)

/-- A frame leaves by a port of this half: a HOP frame under the port's key and counter (R196), a SEALED frame as it is. A
direction at 2^41 frames sends nothing (R211). -/
def portOut (west : Bool) (port : Nat) (h payload tag : Bytes) (s : State) : State :=
  let l := linkAt s port
  let s' := traceFrame port false h s
  if fMode h = 1 then
    if l.txCtr ≥ 2 ^ 41 then s else
    let (ct, tg) := gcmSeal l.txKey (hopIv l.session l.txCtr) (frameAad h) payload
    emit (.frame port ⟨h, ct, tg⟩) (modLink port (fun l => { l with txCtr := l.txCtr + 1 }) s')
  else if roleOf s port = 2 then gatewayOut west port ⟨h, payload, tag⟩ s'
  else emit (.frame port ⟨h, payload, tag⟩) s'

/-- The IV of a transit record (R193). -/
def transitIv (toEast : Bool) (ctr : Nat) : Bytes := be 4 (if toEast then 3 else 4) ++ be 8 ctr

/-- A frame crosses from half `west` to the other, sealed under the transit key (R193). -/
def crossTransit (west : Bool) (port : Nat) (frame : Bytes) (s : State) : State :=
  let c := (if west then s.keys.transitW2E else s.keys.transitE2W) + 1
  let (ct, tg) := gcmSeal (engineKey s west 1026) (transitIv west c) [] frame
  let s := onKeys (fun k => if west then { k with transitW2E := c } else { k with transitE2W := c }) s
  emit (.transit west port c ct tg) s

/-- A frame goes out by a port, across the transit path where the port is in the other half (R193). -/
def frameOut (west : Bool) (port : Nat) (h payload tag : Bytes) (s : State) : State :=
  if linkWest s port = west then portOut west port h payload tag s else crossTransit west port (h ++ payload ++ tag) s

/-- What a send comes to: it left by a port, it is for this node itself, or it has no route. -/
inductive Sent where
  | port (p : Nat)
  | here (header : Bytes)
  | noRoute
  deriving DecidableEq, Repr

/-- This node sends a frame (R190 to R196). -/
def sendFrame (west : Bool) (a : FrameArg) (s : State) : Sent × State :=
  match routeTo s west a.dst with
  | none => (.noRoute, s)
  | some e =>
    let stamp := nextStamp s west
    let ctl (mode kepoch : Nat) : Nat := mode * 64 + b2n (!west) * 32 + kepoch * 8
    if rtMode e = 0 then (.here (headerBytes (rtVer e) (ctl 0 0) 1 s.fabric.node stamp a), takeStamp west s)
    else match choosePort s e (rtMode e == 1) (rtVer e) with
      | none => (.noRoute, s)
      | some p =>
        let s := takeStamp west s
        if rtMode e = 1 then
          (.port p, frameOut west p (headerBytes (rtVer e) (ctl 1 0) (rtHops e) s.fabric.node stamp a) a.payload [] s)
        else
          let kep := s.fabric.sendEpoch % 4
          match sealedKey s west kep with
          | none => (.noRoute, s)
          | some (k, _) =>
            let h := headerBytes (rtVer e) (ctl 2 kep) (rtHops e) s.fabric.node stamp a
            let (ct, tg) := gcmSeal k (sealedIv h) (frameAad h) a.payload
            (.port p, frameOut west p h ct tg s)

/-! ## Responses (R198) -/

/-- An ACK, DATA or NACK to the sender of a request; the request's SPART stands in it. -/
def respondTo (west : Bool) (h : Bytes) (op status : Nat) (payload : Bytes) (s : State) : State :=
  if linkStopped s west then s else
  (sendFrame west { op := op, dst := fSrc h, len := payload.length, txn := fTxn h, spart := fSpart h, status := status
                    payload := payload } s).2

/-- Whether a frame's operation carries a TXN. -/
def carriesTxn (h : Bytes) : Bool := 1 ≤ fOp h && fOp h ≤ 5

/-- A NACK for a frame whose operation carries a TXN. -/
def nack (west : Bool) (h : Bytes) (st : Nat) (s : State) : State :=
  if carriesTxn h then respondTo west h opNack st [] s else s

/-- The ACKs collected for a node leave. -/
def flushAcks (west : Bool) (node shalf : Nat) (s : State) : State :=
  match (halfOf s west).acks.find? (fun a => a.node == node && a.shalf == shalf) with
  | none => s
  | some a =>
    if linkStopped s west then s else
    let s := onHalf west (fun x => { x with acks := x.acks.filter (fun y => ¬ (y.node = node ∧ y.shalf = shalf)) }) s
    (sendFrame west { op := opAck, dst := node, len := 2 * a.txns.length, txn := a.txns.headD 0
                      payload := a.txns.flatMap (fun t => le 2 t) } s).2

/-- A TXN is acknowledged, together with others for the same node and issuing half, 64 at most (R198). -/
def ackLater (west : Bool) (node txn : Nat) (s : State) : State :=
  let sh := txn / 2 ^ 15
  let s := onHalf west (fun x =>
    if x.acks.any (fun a => a.node == node && a.shalf == sh) then
      { x with acks := x.acks.map (fun a => if a.node = node ∧ a.shalf = sh then { a with txns := a.txns ++ [txn] } else a) }
    else { x with acks := x.acks ++ [⟨node, sh, [txn], clock s west⟩] }) s
  match (halfOf s west).acks.find? (fun a => a.node == node && a.shalf == sh) with
  | some a => if a.txns.length ≥ 64 then flushAcks west node sh s else s
  | none => s

/-! ## Receiving -/

/-- A fault of a link port about a frame (R204, R210, R213, R373). -/
def frameFault (cls port : Nat) (h : Bytes) (part : Nat) (detail : Bytes) (s : State) : State :=
  recordFault { cls := cls, kind := kindLink, inst := port, status := classStatus cls, part := part, master := 8, access := 6
                addr := fDst h * 2 ^ 48 + fOffset h, masterId := fSrc h, detail := detail } s

/-- A HOP frame that failed its tag: counted, the port reset by its fault's level (R210). -/
def hopFailed (port : Nat) (h : Bytes) (s : State) : State :=
  frameFault clsLinkTag port h 255 (h.take 16) (modLink port (fun l => { l with tagFail := true, dropped := l.dropped + 1 }) s)

/-- A frame dropped at a port and counted. -/
def dropFrame (port : Nat) (s : State) : State := modLink port (fun l => { l with dropped := l.dropped + 1 }) s

/-- The outcome of the tag check of a frame (R210, R213). -/
structure Opened where
  pass  : Bool
  plain : Bytes
  deriving DecidableEq, Repr

/-- A HOP frame opened under the port's receive key and the next counter. -/
def openHop (s : State) (port : Nat) (f : Frame) : Opened :=
  let l := linkAt s port
  match gcmOpen l.rxKey (hopIv l.rxSession l.rxCtr) (frameAad f.header) f.payload f.tag with
  | some p => ⟨true, p⟩
  | none => ⟨false, gcmCtr (roundKeys l.rxKey) (hopIv l.rxSession l.rxCtr) f.payload⟩

/-- The half whose replay table checks a source half (R213). -/
def dhalfWest (h : Bytes) : Bool := (fSrc h + fShalf h) % 2 = 0

/-- A SEALED frame that failed a check: counted and noted (R213). -/
def sealedDrop (port : Nat) (h : Bytes) (f : LinkHalf → LinkHalf) (s : State) : State :=
  frameFault clsSealedDrop port h 255 [] (onHalf (dhalfWest h) f (dropFrame port s))

/-- The replay value that belongs to an epoch. -/
def replayValue (s : State) (h : Bytes) (cur : Bool) : Nat :=
  let e := tget {} (halfOf s (dhalfWest h)).replay (fSrc h)
  if cur then e.cur else e.prev

/-- A SEALED frame's stamp is taken. -/
def takeReplay (h : Bytes) (cur : Bool) (s : State) : State :=
  onHalf (dhalfWest h) (fun x => { x with replay := tmod {} x.replay (fSrc h) (fun e =>
    if cur then { e with cur := fStamp h } else { e with prev := fStamp h }) }) s

/-- Whether a frame's version is one this block implements (R216). -/
def verKnown (h : Bytes) : Bool := fVer h == 0x10 || fVer h == 0x11

/-- A frame dropped for want of a route: its source hears ROUTE_DOWN (R192). -/
def routeDown (west : Bool) (port : Nat) (h : Bytes) (s : State) : State := respondTo west h opNack stRouteDown [] (dropFrame port s)

/-- A frame forwarded to another node (R192): HOPS falls, a HOP frame is sent anew under the outgoing port's key, a SEALED one
as it is. One of a version this block does not implement goes back as a NACK (R216). -/
def forward (west : Bool) (port : Nat) (h payload tag : Bytes) (s : State) : State :=
  if ¬ verKnown h then respondTo west h opNack stVersion [] s else
  match routeTo s west (fDst h) with
  | none => routeDown west port h s
  | some e =>
    if fHops h ≤ 1 then routeDown west port h s
    else match choosePort s e (fMode h == 1) (fVer h) with
      | none => routeDown west port h s
      | some p => frameOut west p (put h 3 (le 1 (fHops h - 1))) payload tag s

/-- What a received frame comes to. -/
inductive Received where
  | gone
  | local_ (pass : Bool) (payload : Bytes)
  deriving DecidableEq, Repr

/-- Whether the window a frame names takes records before their verdict: ARRIVAL and COMBINE windows (R205). -/
def earlyWindow (s : State) (h : Bytes) : Bool :=
  let k := (windowAt s (fOffset h / 2 ^ 40)).kind
  fOp h == opStore && (fFlags h &&& flMcast) == 0 && (k == 2 || k == 3)

/-- The checks of a SEALED frame for this node, made in its half DHALF (R212, R213). A source beyond the replay table's 16,384 entries has
none that could admit it. -/
def checkSealed (port : Nat) (f : Frame) (s : State) : Received × State :=
  let h := f.header
  match sealedKey s (dhalfWest h) (fKepoch h) with
  | none => (.gone, sealedDrop port h (fun x => { x with sealedFail := x.sealedFail + 1 }) s)
  | some (k, cur) =>
    if fSrc h ≥ 16384 ∨ fStamp h ≤ replayValue s h cur then
      (.gone, sealedDrop port h (fun x => { x with replayDrop := x.replayDrop + 1 }) s)
    else
    let (inj, s) := injectCheck clsSealedDrop kindLink port 0 (fDst h * 2 ^ 48 + fOffset h) s
    match (if inj then none else gcmOpen k (sealedIv h) (frameAad h) f.payload f.tag) with
      | some p => (.local_ true p, takeReplay h cur s)
      | none =>
        if earlyWindow s h then (.local_ false (gcmCtr (roundKeys k) (sealedIv h) f.payload), s)
        else (.gone, sealedDrop port h (fun x => { x with sealedFail := x.sealedFail + 1 }) s)

/-- A frame at a port, up to its delivery at this node (R192, R196, R210, R213). Frames for ARRIVAL and COMBINE windows are
delivered before their verdict, which then comes apart (R205). A SEALED frame for this node that is the other half's to check crosses
to it (R193, R213). -/
def receiveFrame (port : Nat) (f : Frame) (s : State) : Received × State :=
  let west := linkWest s port
  let h := f.header
  let s := traceFrame port true h s
  if port ≥ s.build.links ∨ portFenced s port ∨ s.fabric.domState ≠ 2 ∨ h.length ≠ 32 ∨ f.payload.length > 4096 then (.gone, dropFrame port s)
  else if fMode h = 0 ∨ fMode h = 3 then (.gone, nack west h stBadArg (dropFrame port s))
  else
    let mcast := (fFlags h &&& flMcast) ≠ 0
    let here := mcast || fDst h == s.fabric.node
    if fMode h = 1 then
      if roleOf s port ≠ 0 ∨ ¬ hopOpen (linkAt s port) then (.gone, dropFrame port s) else
      let (inj, s) := injectCheck clsLinkTag kindLink port 0 (fDst h * 2 ^ 48 + fOffset h) s
      let o := openHop s port f
      let o := { o with pass := o.pass && !inj }
      let s := if o.pass then modLink port (fun l => { l with rxCtr := l.rxCtr + 1 }) s else s
      if here ∧ earlyWindow s h then (.local_ o.pass o.plain, s)
      else if ¬ o.pass then (.gone, hopFailed port h s)
      else if here then (.local_ true o.plain, s)
      else (.gone, forward west port h o.plain [] s)
    else if ¬ here then (.gone, forward west port h f.payload f.tag s)
    else if dhalfWest h = west then checkSealed port f s
    else (.gone, crossTransit west port (h ++ f.payload ++ f.tag) s)

end Sys2Proof.Machine
end

