-- ==== Sys2Proof/Machine/Experts.lean ====
section
/-! DEFINITION. Expert routing on this device: combine slots and answers (R174 to R176, R182 to R185), arrival batches and
servers (R177 to R180), pilot queues (R308 to R311), placement (R172). -/
namespace Sys2Proof.Machine

/-! ## Pilot queues (R309 to R311) -/

/-- The pilot of an owner with a partition-local number. -/
def pilotNamed (s : State) (p n : Nat) : Option Nat :=
  (s.fe.pilots.find? (fun e => e.2.part == p && e.2.n == n && e.2.state != .absent)).map Prod.fst

/-- Whether a pilot queue takes items at all. -/
def pilotTakes (s : State) (pi : Nat) : Bool :=
  let p := pilotAt s pi
  (p.state == .waiting || p.state == .running) && !p.closed

/-- Whether a pilot queue has room. -/
def pilotRoom (s : State) (pi : Nat) : Bool := (pilotAt s pi).items.length < 2 ^ (pilotAt s pi).log2

/-- An item enters a pilot queue (R313). -/
def postItem (pi : Nat) (item : Bytes) (s : State) : State :=
  modPilot pi (fun p => { p with items := p.items ++ [fit 64 item], state := if p.state = .waiting then .running else p.state }) s

/-! ## Combine slots -/

/-- The batch tag of a slot (R174). -/
def batchTag (gen slot : Nat) : Nat := gen % 4096 * 2 ^ 20 + slot

/-- Slots an owner holds. -/
def slotsHeld (s : State) (p : Nat) : Nat := (s.experts.slots.filter (fun e => e.2.state ≠ .free && e.2.part == p)).length

/-- A slot to open: within the owner's quota, the lowest free one. -/
def openableSlot (s : State) (p : Nat) : Option Nat :=
  if slotsHeld s p ≥ pdef s p 22 2 then none else tfind {} s.experts.slots 1024 (fun c => c.state == .free)

/-- A slot leaves OPEN once any part of it is EXPIRED, or when every part is COMPLETE (R185). -/
def settleSlot (k : Nat) (s : State) : State :=
  let c := combineAt s k
  if c.state ≠ .open_ then s
  else if c.parts.any (fun p => p.state = .expired) then setCombine k { c with state := .expired, gen := (c.gen + 1) % 4096 } s
  else if c.parts.all (fun p => p.state = .complete) then setCombine k { c with state := .complete, gen := (c.gen + 1) % 4096 } s
  else s

/-- Pairs of a slot are marked with the status their record failed with (R176). -/
def markPairs (k : Nat) (pairs : List Nat) (st : Nat) (s : State) : State :=
  modCombine k (fun c => { c with parts := c.parts.map (fun p => { p with pairs := p.pairs.map (fun x =>
    if pairs.contains x.pair ∧ x.failed = 0 then { x with failed := st } else x) }) }) s

/-- The deadline of a slot as one lantern's unit finds it (R183). -/
def expirePart (k l : Nat) (s : State) : State :=
  let c := combineAt s k
  if (c.state = .open_ ∨ c.state = .expired) ∧ c.deadline ≤ clock s (lanternWest s l) then
    settleSlot k (setCombine k { c with parts := c.parts.map (fun p => if p.lantern = l ∧ p.state = .open_ then { p with state := .expired } else p) } s)
  else s

/-- Intervals of rows without the interval `a` to `b - 1`, where it lies in one of them. -/
def takeRows (rows : List (Nat × Nat)) (a b : Nat) : Option (List (Nat × Nat)) :=
  match rows with
  | [] => none
  | (x, y) :: r =>
    if x ≤ a ∧ b ≤ y then some ((if x < a then [(x, a)] else []) ++ (if b < y then [(b, y)] else []) ++ r)
    else (takeRows r a b).map (fun r => (x, y) :: r)

/-- Frames whose verdict is out join tickets of a task in a lantern (R57, R179, R182); none where a ticket is lacking. -/
def joinFrames (t l port : Nat) : List Nat → State → Option State
  | [], s => some s
  | id :: ids, s =>
    match joinTicket t l (64 + port) s with
    | (some k, s) =>
      joinFrames t l port ids (onFabric (fun f => { f with verdicts := f.verdicts.map (fun v =>
        if v.id = id then { v with tickets := v.tickets ++ [(l, k)] } else v) }) s)
    | (none, _) => none

/-- An answer record dropped as malformed (R182), or for a version that is not implemented (R6). -/
def malformedAnswer (l st : Nat) (r : RxRecord) (s : State) : State :=
  recordFault { cls := clsMalformedAnswer, kind := kindLantern, inst := l, status := st, part := r.part }
    (modCounters r.part (fun c => { c with malformed := satTo 64 (c.malformed + 1) }) s)

/-- A stale answer record. -/
def staleAnswer (r : RxRecord) (s : State) : State := modCounters r.part (fun c => { c with stale := satTo 64 (c.stale + 1) }) s

/-- The values of an answer added into C, weighted, in the pair's token lane (R107, R182). -/
def addAnswer (t l : Nat) (c : CombineSlot) (lane local0 : Nat) (w : F32) (vals : List Nat) (s : State) : State :=
  let o := opndOf c.c.toNat
  vals.zipIdx.foldl (fun s x => addSheet t l o.arg (o.off + 32 * (local0 + x.2) + 4 * lane) (f32Mul w (enc32 (decBf16 x.1))) s) s

/-- Whether an answer record is laid out by R181. -/
def answerOk (b : Bytes) : Bool := fld b 1 1 == 0 && 1 ≤ fld b 12 2 && fld b 12 2 ≤ 2032 && b.length == 32 + 2 * fld b 12 2

/-- The lantern whose combine unit an answer record is for (R182): the one of rank ROW0 div CRB of its slot's task. -/
def answerLantern (s : State) (b : Bytes) : Option Nat :=
  let c := combineAt s (fld b 4 4 % 1024)
  if c.state ≠ .open_ ∨ bits (fld b 4 4) 31 20 ≠ c.gen then none else (taskAt s c.task).lanterns[fld b 8 4 / max 1 c.crb]?

/-- An answer applied to the pair's row block `rest` leaves (R107, R182, R183). -/
def answerApplied (slot l : Nat) (r : RxRecord) (part : SlotPart) (pr : PairState) (rest : List (Nat × Nat)) (s : State) : Option State :=
  let b := r.bytes
  let c := combineAt s slot
  let row0 := fld b 8 4
  (joinFrames c.task l r.port r.frames s).map (fun s =>
    let s := addAnswer c.task l c (pr.pair / 8) (row0 - row0 / c.crb * c.crb) pr.weight.toNat ((chunks 2 (b.drop 32)).map leNat) s
    let pairs := part.pairs.map (fun p => if p.pair = pr.pair then { p with rows := rest } else p)
    let part' : SlotPart := { part with pairs := pairs, state := if pairs.all (fun p => p.rows.isEmpty) then .complete else part.state }
    settleSlot slot (modCombine slot (fun c => { c with parts := c.parts.map (fun p => if p.lantern = l then part' else p) }) s))

/-- An answer record at the combine unit (R182, R183); none where it waits for a ticket. Bits [19:10] of its TAG are reserved and
ignored (R5). An answer that landed after the deadline cycle finds its part EXPIRED. -/
def applyAnswer (r : RxRecord) (s : State) : Option State :=
  let b := r.bytes
  let slot := fld b 4 4 % 1024
  let c := combineAt s slot
  if fld b 0 1 ≠ 1 then some (malformedAnswer 0 stVersion r s)
  else if c.state ≠ .open_ ∨ bits (fld b 4 4) 31 20 ≠ c.gen then some (staleAnswer r s)
  else match answerLantern s b with
    | none => some (malformedAnswer 0 stBadArg r s)
    | some l =>
      if c.deadline < r.landed then some (staleAnswer r (expirePart slot l s)) else
      match c.parts.find? (fun p => p.lantern == l) with
      | none => some (malformedAnswer l stBadArg r s)
      | some part =>
        match part.pairs.find? (fun p => p.pair == fld b 2 1) with
        | none => some (malformedAnswer l stBadArg r s)
        | some pr =>
          match takeRows pr.rows (fld b 8 4) (fld b 8 4 + fld b 12 2) with
          | none => some (malformedAnswer l stBadArg r s)
          | some rest => if ¬ answerOk b then some (malformedAnswer l stBadArg r s) else answerApplied slot l r part pr rest s

/-- Whether an answer record has landed in a lantern for a slot by its deadline. -/
def landedFor (s : State) (slot l : Nat) (r : RxRecord) : Bool :=
  !r.arrival && r.under.isEmpty && fld r.bytes 4 4 % 1024 == slot && answerLantern s r.bytes == some l && decide (r.landed ≤ (combineAt s slot).deadline)

/-- A lantern's combine unit evaluates a slot's deadline: what has landed by the end of the deadline cycle is applied first (R183). While
one of those waits for a ticket the evaluation waits too. -/
def deadlinePart (slot l : Nat) (s : State) : State :=
  if (combineAt s slot).deadline > clock s (lanternWest s l) then s else
  let s := (s.experts.records.filter (landedFor s slot l)).foldl (fun s r =>
    match applyAnswer r s with
    | none => s
    | some s => onExperts (fun e => { e with records := e.records.erase r }) s) s
  if s.experts.records.any (landedFor s slot l) then s else expirePart slot l s

/-! ## Arrival (R177 to R180) -/

/-- Pair `i` of a dispatch record: instance and PAIR. -/
def recPair (b : Bytes) (i : Nat) : Nat × Nat := (fld b (32 + 4 * i + 2) 2, fld b (32 + 4 * i) 1)

/-- Whether a dispatch record of a version that is implemented is laid out by R177. -/
def dispatchOk (b : Bytes) : Bool :=
  let w := fld b 4 2
  fld b 1 1 ≤ 1 && 1 ≤ fld b 2 1 && fld b 2 1 ≤ 8 && 64 ≤ w && w ≤ 16384 && w % 64 == 0 &&
    b.length == 64 + w * (2 - fld b 1 1)

/-- The BF16 values a record's vector widens to. -/
def recValues (b : Bytes) : List Nat :=
  if fld b 1 1 = 0 then (chunks 2 (b.drop 64)).map leNat
  else (b.drop 64).map (fun x => bf16Of (fMul (decElem 3 x.toNat) (dec32 (fld b 24 4))))

/-- A slice that may take a batch: its pilot idle, its queue empty, nothing bound to it. -/
def sliceFree (s : State) (c : Slice) : Bool :=
  let p := pilotAt s c.pilot
  c.bound.isNone && !c.posted && p.state == .waiting && p.items.isEmpty && !p.closed

/-- A slice whose pilot can still run. -/
def sliceUsable (s : State) (c : Slice) : Bool := pilotTakes s c.pilot

/-- A change of one slice. -/
def modSlice (k i : Nat) (f : Slice → Slice) (s : State) : State :=
  modServer k (fun x => { x with slices := x.slices.zipIdx.map (fun e => if e.2 = i then f e.1 else e.1) }) s

/-- The bytes IN takes: 8 token lanes in the ACT layout (R104), +0 in lanes that hold nothing. -/
def inBytes (lanes : List (Option (List Nat))) (width : Nat) : Bytes :=
  (List.range width).flatMap (fun e => (List.range 8).flatMap (fun t =>
    le 2 (((lanes.getD t none).getD []).getD e 0)))

/-- Whether every lane's record has landed in the slice's lanterns, or failed. -/
def lanesLanded (c : Slice) : Bool := c.lanes.all (fun l => l.lost || (l.sent && l.under.isEmpty))

/-- A closed batch whose lanes have landed (R179, R180): expired lanes dropped, IN and CNT written in every lantern of the slice, the item
posted. A lane whose exchange record failed is zeroed as a dropped one is. -/
def postBatch (k i inst : Nat) (c : Slice) (s : State) : State :=
  let x := serverAt s k
  let live := c.lanes.filter (fun l => !l.lost && now s ≤ l.deadline)
  let dropped := (c.lanes.filter (fun l => !l.lost)).length - live.length
  let s := modCounters x.part (fun y => { y with expired := satTo 64 (y.expired + dropped) }) s
  if live = [] then modSlice k i (fun y => { pilot := y.pilot }) s
  else
    let o := opndOf x.inRef.toNat
    let t := (pilotAt s c.pilot).task
    let width := c.lanes.foldl (fun m l => max m l.width) 0
    let vals := (List.range 8).map (fun n => (live.find? (fun l => l.lane == n)).map (fun l => (chunks 2 l.values).map leNat))
    let s := (taskAt s t).lanterns.foldl (fun s l =>
      writeSheet t l o.arg x.cnt (le 4 c.lanes.length) (writeSheet t l o.arg o.off (inBytes vals width) s)) s
    postItem c.pilot (le 8 (x.instances.getD inst 0).toNat) (modSlice k i (fun y => { y with lanes := live, posted := true }) s)

/-- A batch closes: no token joins it any more; its item is posted once its lanes have landed and the pilot queue has room. -/
def closeBatch (k i : Nat) (s : State) : State :=
  match (serverAt s k).slices[i]? with
  | none => s
  | some c =>
    match c.bound with
    | none => s
    | some inst =>
      if c.posted ∨ c.lanes = [] then s
      else if ¬ lanesLanded c ∨ ¬ pilotRoom s c.pilot then modSlice k i (fun y => { y with closing := true }) s
      else postBatch k i inst c s

/-- Batches of a server that are closed and wait for their lanes are taken up again. -/
def closeWaiting (k : Nat) (s : State) : State :=
  (List.range (serverAt s k).slices.length).foldl (fun s i => if ((serverAt s k).slices.getD i {}).closing then closeBatch k i s else s) s

/-- A token joins a slice's batch; none where a ticket is lacking. -/
def joinSlice (k i : Nat) (r : RxRecord) (inst pair : Nat) (opening : Bool) (s : State) : Option State :=
  let c := (serverAt s k).slices.getD i {}
  let t := (pilotAt s c.pilot).task
  let b := r.bytes
  ((taskAt s t).lanterns.foldl (fun (s : Option State) l => s.bind (joinFrames t l r.port r.frames)) (some s)).map (fun s =>
    let lane : LaneInfo := { lane := c.lanes.length, origin := fld b 20 2, tag := BitVec.ofNat 32 (fld b 16 4), pair := pair
                             crb := fld b 6 2, width := fld b 4 2, deadline := fld b 8 8, values := (recValues b).flatMap (le 2) }
    modSlice k i (fun y => { y with bound := some inst, lanes := y.lanes ++ [lane], closing := decide (c.lanes.length = 7)
                                    window := if opening then now s + (serverAt s k).gatherNs else y.window }) s)

/-- The lanes a record has just joined in a slice. -/
def newLanes (c : Slice) : List LaneInfo := c.lanes.filter (fun l => !l.sent)

/-- The arrival unit forwards a dispatch record to the lanterns of the slices its tokens joined, as exchange records of the link complex
(R108, R109, R179). -/
def forwardRecord (r : RxRecord) (s : State) : State :=
  let k := r.server
  let src := 0x40 + (if r.port < s.build.links then r.port else 0)
  (List.range (serverAt s k).slices.length).foldl (fun s i =>
    let c := (serverAt s k).slices.getD i {}
    if newLanes c = [] then s else
    let t := (pilotAt s c.pilot).task
    let mask := ((newLanes c).map (fun l => 2 ^ l.lane)).sum
    let lead : ExchLead := ⟨1, (serverAt s k).part, k, t, 256 * i + mask⟩
    let x := (taskAt s t).lanterns.foldl (fun acc l =>
      let y := sendExchange src l (lead.bytes ++ r.bytes) acc.2
      (acc.1 ++ y.1, y.2)) (([] : List (Nat × Nat)), s)
    modSlice k i (fun y => { y with lanes := y.lanes.map (fun l => if l.sent then l else { l with sent := true, under := x.1 }) }) x.2) s

/-- One pair of a dispatch record (R179): it joins, opens a batch, is dropped, or waits (none). -/
def arrivePair (r : RxRecord) (inst pair : Nat) (s : State) : Option State :=
  let k := r.server
  let x := serverAt s k
  if inst ≥ x.instances.length then
    some (recordFault { cls := clsInstanceRange, kind := kindLantern, inst := 0, status := stBadArg, part := x.part } s)
  else if ¬ x.slices.any (sliceUsable s) then some (modServer k (fun y => { y with dropped := y.dropped + 1 }) s)
  else
    match x.slices.findIdx? (fun c => c.bound == some inst && !c.posted && !c.closing && sliceUsable s c && decide (c.lanes.length < 8)) with
    | some i => joinSlice k i r inst pair false s
    | none =>
      match x.slices.findIdx? (sliceFree s) with
      | some i => joinSlice k i r inst pair true s
      | none => none

/-- The pairs of a dispatch record in order: how many were handled, and the state after. -/
def arrivePairs (r : RxRecord) : Nat → Nat → State → Nat × State
  | 0, i, s => (i, s)
  | fuel + 1, i, s =>
    let p := recPair r.bytes i
    match arrivePair r p.1 p.2 s with
    | none => (i, s)
    | some s => arrivePairs r fuel (i + 1) s

/-- A record with its first `n` pairs taken away. -/
def cutPairs (b : Bytes) (n : Nat) : Bytes := put (put b 2 (le 1 (fld b 2 1 - n))) 32 (fit 32 ((sub b 32 32).drop (4 * n)))

/-- Batches whose gather window ended before a time close (R179): a record that lands by the end of the window's last cycle joins, a later
one finds the batch closed. -/
def closeBefore (k at_ : Nat) (s : State) : State :=
  (List.range (serverAt s k).slices.length).foldl (fun s i =>
    let c := (serverAt s k).slices.getD i {}
    if c.bound.isSome ∧ ¬ c.posted ∧ c.window < at_ then closeBatch k i s else s) s

/-- A dispatch record at the arrival unit: its pairs in order, then its tokens' way to the lanterns; what it could not place waits
(R179). One of a version that is not implemented is dropped with a Note (R6; which class the Note has is DESIGN CHOICE,
notes/assumptions/79.md). -/
def arriveRecord (r : RxRecord) (s : State) : State :=
  let k := r.server
  let gone (s : State) : State := onExperts (fun e => { e with records := e.records.erase r }) s
  if fld r.bytes 0 1 ≠ 1 then
    gone (recordFault { cls := clsFabricDeniedIn, kind := kindLink, inst := r.port, status := stVersion, part := r.part } s)
  else if ¬ dispatchOk r.bytes then gone s
  else if ¬ (serverAt s k).live ∨ (serverAt s k).closing then
    gone (modServer k (fun y => if y.live then { y with dropped := y.dropped + 1 } else y) s)
  else
    let n := fld r.bytes 2 1
    let (done, s) := arrivePairs r n 0 (closeBefore k r.landed s)
    let s := closeWaiting k (forwardRecord r s)
    if done = n then gone s
    else onExperts (fun e => { e with records := e.records.map (fun x => if x = r then { x with bytes := cutPairs x.bytes done } else x) }) s

/-- The gather window of a slice has ended (R179): what landed by its end joins first. -/
def expireWindow (k i : Nat) (s : State) : State :=
  match (serverAt s k).slices[i]? with
  | none => s
  | some c =>
    if c.bound.isNone ∨ c.posted ∨ now s < c.window then s else
    closeBatch k i ((s.experts.records.filter (fun r => r.arrival && r.server == k && decide (r.landed ≤ c.window))).foldl (fun s r => arriveRecord r s) s)

/-- The lanes a pilot's current item serves. -/
def lanesOf (s : State) (pi : Nat) : List LaneInfo :=
  (s.experts.servers.flatMap (fun e => e.2.slices.filter (fun c => c.pilot == pi && c.posted && e.2.live))).flatMap (fun c => c.lanes)

/-- An item of a slice has retired: the slice is free again. -/
def freeSlice (pi : Nat) (s : State) : State :=
  onExperts (fun e => { e with servers := tmap {} e.servers (fun _ x =>
    { x with slices := x.slices.map (fun c => if c.pilot = pi ∧ c.posted then { pilot := c.pilot } else c) }) }) s

/-! ## Records landing (R197) -/

/-- A whole record waits for its unit; an answer goes on to its lantern as exchange records of the link complex (R108, R182). -/
def recordWhole (port : Nat) (west : Bool) (h : Bytes) (w : Window) (b : Bytes) (ids : List Nat) (s : State) : State :=
  let r : RxRecord := { port := port, src := fSrc h, arrival := w.kind == 2, server := w.base, part := w.part, bytes := b, frames := ids
                        landed := clock s west }
  match (if w.kind = 2 then none else answerLantern s b) with
  | none => onExperts (fun e => { e with records := e.records ++ [r] }) s
  | some l =>
    let x := sendExchange (0x40 + (if port < s.build.links then port else 0)) l ((⟨2, w.part, 0, 0, 0⟩ : ExchLead).bytes ++ b) s
    onExperts (fun e => { e with records := e.records ++ [{ r with under := x.1, landed := 0 }] }) x.2

/-- A piece of a record lands in an ARRIVAL or COMBINE window (R197): pieces of one record come from one source half to consecutive
offsets. A piece that follows nothing that came begins a record of its own; of a record past 65,536 B nothing is delivered, up to and
with the piece that has LAST. -/
def landPiece (port : Nat) (west : Bool) (h payload : Bytes) (vid : Option Nat) (s : State) : State :=
  let k := fOffset h / 2 ^ 40
  let w := windowAt s k
  let mine (x : RxPartial) : Bool := x.port == port && x.src == fSrc h && x.shalf == fShalf h && x.window == k && x.next == fOffset h
  let old := (s.experts.partials.find? mine).getD { port := port, src := fSrc h, shalf := fShalf h, window := k, next := fOffset h }
  let all := old.bytes ++ payload
  let ids := old.frames ++ vid.toList
  let spoilt := old.spoilt || decide (all.length > 65536)
  let s := onExperts (fun e => { e with partials := e.partials.filter (fun x => !mine x) }) s
  if (fFlags h &&& flLast) ≠ 0 then (if spoilt then s else recordWhole port west h w all ids s)
  else onExperts (fun e => { e with partials := e.partials ++ [{ old with
    next := fOffset h + payload.length, spoilt := spoilt, bytes := if spoilt then [] else all, frames := ids }] }) s

/-! ## Placement (R172) -/

/-- Whether a group's placement table serves it: it is loaded, the group's owner may use it, and LAYERS and EXPERTS agree (R86, R173). A table
that the owner may not use is taken like an unloaded one (DESIGN CHOICE, notes/assumptions/69.md). -/
def placementServes (s : State) (g : RGroup) : Bool :=
  let t := placementAt s g.placement
  tableUsable s g.owner 3 g.placement && fld t.image 2 2 == g.layers && fld t.image 4 2 == g.experts

/-- Where an origin sends expert `e` of layer `λ`: node and instance; none where the table does not serve (R173). -/
def placementOf (s : State) (g : RGroup) (layer e : Nat) : Option (Nat × Nat) :=
  let t := placementAt s g.placement
  if ¬ placementServes s g then none
  else
    let o := 64 + 16 * (layer * g.experts + e)
    let n := max 1 (fld t.image o 1)
    let r := fld t.image (o + 4 + 4 * ((s.fabric.node + layer) % n)) 4
    some (r / 65536, r % 65536)

end Sys2Proof.Machine
end

