-- ==== Sys2Proof/Machine/FabricOps.lean ====
section
/-! DEFINITION. Fabric operations: as a target applies them (R198 to R205, R220, R224, R225) and as an issuer sends, repeats and
ends them (R206 to R208, R216, R218 to R223), multicast (R201). -/
namespace Sys2Proof.Machine

/-! ## Elements (R199) -/

/-- Bytes of an element type. -/
def elemBytes (ty : Nat) : Nat := if ty = 1 ∨ ty = 3 then 8 else if ty = 5 then 2 else 4

/-- A number of `w` bytes read as two's complement. -/
def signedOf (w v : Nat) : Int := if v ≥ 2 ^ (8 * w - 1) then (v : Int) - 2 ^ (8 * w) else v

/-- A BF16 result of BINARY32 arithmetic (R95, R199). -/
def bf16Via (f : F32 → F32 → F32) (a b : Nat) : Nat := bf16Of (dec32 (f (enc32 (decBf16 a)) (enc32 (decBf16 b))))

/-- The new value of an element: function, type, old value, operand. -/
def elemFn (fn ty a b : Nat) : Nat :=
  let w := elemBytes ty
  match fn with
  | 0 => if ty = 4 then f32Add a b else if ty = 5 then bf16Via f32Add a b else (a + b) % 2 ^ (8 * w)
  | 1 => b
  | 3 => if ty = 4 then f32Max a b else if ty = 5 then bf16Via f32Max a b
         else if ty ≥ 2 then (if signedOf w a ≥ signedOf w b then a else b) else max a b
  | 4 => if ty = 4 then f32Min a b else if ty = 5 then bf16Via f32Min a b
         else if ty ≥ 2 then (if signedOf w a ≤ signedOf w b then a else b) else min a b
  | 5 => a &&& b
  | 6 => a ||| b
  | _ => a ^^^ b

/-- The combinations an ATOMIC and a REDUCE permit (R199); BF16 REDUCE needs EFP 1.1. -/
def atomicOk (fn ty : Nat) : Bool :=
  ((fn == 0 || fn == 3 || fn == 4) && ty ≤ 4) || ((fn == 1 || fn == 2 || fn == 5 || fn == 6 || fn == 7) && ty ≤ 1)
def reduceOk (fn ty ver : Nat) : Bool := (fn == 0 || fn == 3 || fn == 4) && (ty ≤ 4 || (ty == 5 && ver ≥ 0x11))

/-! ## The combining buffer (R224) -/

/-- Whether the memory of a domain line lies in West. -/
def lineWest (s : State) (line : Nat) : Bool :=
  match place s (line * 64) with
  | some pl => placeWest s pl
  | none => true

/-- A held line. -/
def combAt (s : State) (line : Nat) : Option CombLine := (halfOf s (lineWest s line)).comb.find? (fun c => c.line == line)

/-- The request of a window's access (R205, R373). -/
def windowReq (s : State) (part src access addr : Nat) : Req :=
  match place s (domainOf addr) with
  | some (.capacity c _) => { part := part, kind := kindCapacity, inst := c, master := 8, access := access, masterId := src }
  | some (.stacked l _) => { part := part, kind := kindLantern, inst := l, master := 8, access := access, masterId := src }
  | none => { part := part, kind := kindFrontEnd, master := 8, access := access, masterId := src }

/-- A line is written back and leaves the buffer. -/
def writeBackLine (ue : Ue) (line : Nat) (s : State) : State :=
  match combAt s line with
  | none => s
  | some c =>
    let s := onHalf (lineWest s line) (fun h => { h with comb := h.comb.filter (fun x => x.line ≠ line) }) s
    if ¬ c.dirty then s else
    let a := reqAddr c.key (line * 64)
    (underOldKey c.key (memWrite { (windowReq s c.part 0 4 a) with own := true } ue a c.data) s).2

/-- The checks of R34 and R36 that an operation of a window meets at a held line (R205); a refusal is recorded. -/
def lineAdmits (part src access key line : Nat) (s : State) : Nat × State :=
  let a := reqAddr key (line * 64)
  let r := windowReq s part src access a
  let c := checkReq s r a true
  (c.status, if c.status = stOk then s else recordDenied r a c s)

/-- The line that leaves when one more is fetched into a full buffer: the one used longest ago. -/
def oldestLine (cs : List CombLine) : Option CombLine :=
  cs.foldl (fun (m : Option CombLine) c => match m with
    | none => some c
    | some x => if c.last < x.last then some c else some x) none

/-- A line is fetched from memory, the least recently used one leaving when 512 are held: its status. -/
def fillLine (ue : Ue) (part src key line : Nat) (s : State) : Nat × State :=
  let a := reqAddr key (line * 64)
  let (r, s) := memRead (windowReq s part src 4 a) ue a 64 s
  if r.status ≠ stOk then (r.status, s) else
  let w := lineWest s line
  let cs := (halfOf s w).comb
  let s := if cs.length < 512 then s else
    match oldestLine cs with
    | some old => writeBackLine ue old.line s
    | none => s
  (stOk, onHalf w (fun h => { h with comb := h.comb ++ [⟨line, key, part, r.data, clock s w, false⟩] }) s)

/-- A line stands in the buffer under the key an operation names: its status. One held under another key goes back to memory first. -/
def fetchLine (ue : Ue) (part src key line : Nat) (s : State) : Nat × State :=
  let (st, s) := lineAdmits part src 4 key line s
  if st ≠ stOk then (st, s) else
  match combAt s line with
  | some c => if c.key = key then (stOk, s) else fillLine ue part src key line (writeBackLine ue line s)
  | none => fillLine ue part src key line s

/-- Bytes of a held line changed. -/
def changeLine (line off : Nat) (d : Bytes) (s : State) : State :=
  onHalf (lineWest s line) (fun h => { h with comb := h.comb.map (fun c =>
    if c.line = line then { c with data := put c.data off d, dirty := true, last := clock s (lineWest s line) } else c) }) s

/-- A LOAD served from held lines is an operation on them: they are written back 1 µs after it (R224). -/
def touchLines (key a len : Nat) (s : State) : State :=
  let f (w : Bool) (h : LinkHalf) : LinkHalf := { h with comb := h.comb.map (fun c =>
    if c.key = key ∧ c.line * 64 < a + len ∧ a < c.line * 64 + 64 then { c with last := clock s w } else c) }
  onHalf false (f false) (onHalf true (f true) s)

/-- The elements of a range combined with operands, line by line: the first failing status. -/
def reduceLines (ue : Ue) (part src key fn ty : Nat) : Nat → Nat → Bytes → State → Nat × State
  | 0, _, _, s => (stOk, s)
  | fuel + 1, a, d, s =>
    if d = [] then (stOk, s) else
    let n := min d.length (64 - a % 64)
    let (st, s) := fetchLine ue part src key (a / 64) s
    if st ≠ stOk then (st, s) else
    let w := elemBytes ty
    let old := sub (((combAt s (a / 64)).map (fun c => c.data)).getD []) (a % 64) n
    let new := (List.range (n / w)).flatMap (fun i => le w (elemFn fn ty (fld old (w * i) w) (fld (d.take n) (w * i) w)))
    reduceLines ue part src key fn ty fuel (a + n) (d.drop n) (changeLine (a / 64) (a % 64) new s)

/-! ## Windows (R202 to R205) -/

/-- The PERM bit of an operation. -/
def permBit (op : Nat) : Nat := if op = opLoad then 0 else if op = opStore then 1 else if op = opAtomic then 2 else if op = opReduce then 3 else 4

/-- Whether the regions an operation writes allow its source (R203). -/
def ownersAdmit (s : State) (w : Window) (off len src : Nat) : Bool :=
  (List.range (len / 2 ^ 21 + 2)).all (fun i =>
    let r := off / 2 ^ 21 + i
    if r * 2 ^ 21 < off + max 1 len then
      let o := tget 0xFFFE s.fabric.owners (w.ownBase + r)
      o == src || o == 0xFFFF
    else true)

/-- The bytes an operation writes: of an ATOMIC one element, whatever its operands take. -/
def writtenLen (h : Bytes) : Nat := if fOp h = opAtomic then elemBytes (fSub h % 16) else fLen h

/-- The checks of R204; kinds other than MEMORY take their own operation only. -/
def windowAdmits (s : State) (h : Bytes) : Bool :=
  let w := windowAt s (fOffset h / 2 ^ 40)
  let off := fOffset h % 2 ^ 40
  let op := fOp h
  w.kind ≠ 0 && w.perm.testBit (permBit op) && (w.peer == 0xFF || w.peer == fSpart h) && decide (off + fLen h ≤ w.length) &&
    (¬ w.perm.testBit 5 || op == opLoad || op == opTrigger || ownersAdmit s w off (writtenLen h) (fSrc h)) &&
    (w.kind == 1 && op ≠ opTrigger || (w.kind == 2 || w.kind == 3) && op == opStore || w.kind == 4 && op == opTrigger)

/-- What the target answers. -/
inductive Resp where
  | ack
  | data (b : Bytes)
  | nack (st : Nat)
  deriving DecidableEq, Repr

/-- Whether an operation is formed as R198 and R199 ask; SUB is reserved outside ATOMIC and REDUCE, and ignored there (R5). -/
def opFormed (h payload : Bytes) : Bool :=
  let op := fOp h
  let n := fLen h
  let fn := fSub h / 16
  let ty := fSub h % 16
  let a := fOffset h % 2 ^ 40
  if op = opLoad then 1 ≤ n && n ≤ 4096 && payload.isEmpty
  else if op = opStore then 1 ≤ n && n ≤ 4096 && payload.length == n
  else if op = opAtomic then atomicOk fn ty && payload.length == n && n == elemBytes ty * (if fn = 2 then 2 else 1) && a % elemBytes ty == 0
  else if op = opReduce then reduceOk fn ty (fVer h) && payload.length == n && 1 ≤ n && n ≤ 4096 && n % elemBytes ty == 0 && a % elemBytes ty == 0
  else 8 ≤ n && n ≤ 64 && n % 8 == 0 && payload.length == n

/-- The window an operation names. -/
def opWindow (s : State) (h : Bytes) : Window := windowAt s (fOffset h / 2 ^ 40)

/-- The request address of an operation in a MEMORY window. -/
def addrIn (w : Window) (h : Bytes) : Nat := reqAddr w.key (w.base + fOffset h % 2 ^ 40)
def opAddr (s : State) (h : Bytes) : Nat := addrIn (opWindow s h) h

/-- A store with held lines taken into account. -/
def storeBytes (ue : Ue) (r : Req) : Nat → Nat → Bytes → State → Nat × State
  | 0, _, _, s => (stOk, s)
  | fuel + 1, a, d, s =>
    if d = [] then (stOk, s) else
    let n := min d.length (64 - a % 64)
    let line := domainOf a / 64
    let (st, s) := match combAt s line with
      | some c =>
        if c.key ≠ keyOf a then memWrite r ue a (d.take n) (writeBackLine ue line s) else
        let x := lineAdmits r.part r.masterId r.access c.key line s
        if x.1 = stOk then (stOk, changeLine line (a % 64) (d.take n) x.2) else x
      | none => memWrite r ue a (d.take n) s
    if st ≠ stOk then (st, s) else storeBytes ue r fuel (a + n) (d.drop n) s

/-- Whether a range touches a held line. -/
def touchesComb (s : State) (a len : Nat) : Bool :=
  (s.fabric.west.comb ++ s.fabric.east.comb).any (fun c => c.line * 64 < a + len && a < c.line * 64 + 64)

/-- The effect of an operation that window `w` admitted. `vid` is the verdict still out on its frame. -/
def applyOp (ue : Ue) (west : Bool) (port : Nat) (w : Window) (h payload : Bytes) (vid : Option Nat) (s : State) : Resp × State :=
  let op := fOp h
  let a := addrIn w h
  let s := modTotals w.part (fun t => { t with fabricIn := satTo 64 (t.fabricIn + payload.length) }) s
  if w.kind = 2 ∨ w.kind = 3 then (.ack, landPiece port west h payload vid s)
  else if op = opTrigger then
    match pilotNamed s w.part (w.base % 2 ^ 8) with
    | none => (.nack stFabricDenied, s)
    | some pi =>
      if ¬ pilotTakes s pi then (.nack stFabricDenied, s)
      else if ¬ pilotRoom s pi then (.nack stBusy, s)
      else (.ack, postItem pi payload s)
  else if op = opLoad then
    let (r, s) := memRead (windowReq s w.part (fSrc h) 1 a) ue a (fLen h) s
    if r.status ≠ stOk then (.nack r.status, s) else (.data r.data, touchLines w.key (domainOf a) (fLen h) s)
  else if op = opStore then
    let r := windowReq s w.part (fSrc h) 2 a
    let (st, s) := if touchesComb s (domainOf a) payload.length then storeBytes ue r (payload.length / 64 + 2) a payload s
      else memWrite r ue a payload s
    (if st = stOk then .ack else .nack st, s)
  else if op = opReduce then
    let (st, s) := reduceLines ue w.part (fSrc h) w.key (fSub h / 16) (fSub h % 16) (payload.length / 64 + 2) (domainOf a) payload s
    (if st = stOk then .ack else .nack st, s)
  else
    let line := domainOf a / 64
    let (st, s) := fetchLine ue w.part (fSrc h) w.key line s
    if st ≠ stOk then (.nack st, s) else
    let n := elemBytes (fSub h % 16)
    let old := fld (((combAt s line).map (fun c => c.data)).getD []) (a % 64) n
    let new := if fSub h / 16 = 2 then (if old = fld payload 0 n then fld payload n n else old)
      else elemFn (fSub h / 16) (fSub h % 16) old (fld payload 0 n)
    (.data (le n old), changeLine line (a % 64) (le n new) s)

/-! ## Acceptance (R204, R220, R225) -/

/-- Units of an operation (R219). -/
def opUnits (op len : Nat) : Nat := if op = opStore ∨ op = opReduce then max 1 ((len + 255) / 256) else 1

/-- The lowest link port of a half. -/
def lowPort (s : State) (west : Bool) : Nat := if west then 0 else westOf s.build.links

/-- An operation on a line is counted in its half; a line at HOT_THRESH is latched and noted, once per 1 ms (R225). -/
def countLine (line : Nat) (s : State) : State :=
  let w := lineWest s line
  let hot := (halfOf s w).hot
  let ops := (hot.ops.filter (fun o => clock s w < o.1 + 10000)) ++ [(clock s w, line)]
  let n := ops.countP (fun o => o.2 == line)
  let s := onHalf w (fun h => { h with hot := { h.hot with ops := ops } }) s
  let last := tget 0 hot.events line
  if n ≥ s.boxes.hotThresh ∧ (last = 0 ∨ clock s w ≥ last - 1 + 1000000) then
    let s := onHalf w (fun h => { h with hot := { h.hot with valid := true, count := satTo 15 n, line := line
                                                             events := tset 0 h.hot.events line (clock s w + 1) } }) s
    let s := recordFault { cls := clsHotLine, kind := kindLink, inst := lowPort s w, addr := line * 64 } s
    postOpenEvent 16 evHotLine s
  else s

/-- The lines an operation touches. -/
def linesIn (w : Window) (h : Bytes) : List Nat :=
  if w.kind ≠ 1 then [] else
  let a := domainOf (addrIn w h)
  let n := max 1 (writtenLen h)
  (List.range (n / 64 + 2)).filterMap (fun i => if (a / 64 + i) * 64 < a + n then some (a / 64 + i) else none)

def opLines (s : State) (h : Bytes) : List Nat := linesIn (opWindow s h) h

/-- Whether the inbound store must refuse an operation (R220). -/
def storeFull (s : State) (west : Bool) (h : Bytes) : Bool :=
  let q := (halfOf s west).inbound
  let u := opUnits (fOp h) (fLen h)
  let used (l : List Inbound) : Nat := (l.map (fun i => opUnits (fOp i.header) (fLen i.header))).sum
  used q + u > 8192 || used (q.filter (fun i => (linesIn i.win i.header).head? == (opLines s h).head? && (opLines s h) ≠ [])) + u > s.boxes.lineCap

/-- Key of a source half. -/
def sourceHalf (h : Bytes) : Nat := 2 * fSrc h + fShalf h

/-- The answer to an operation goes back. -/
def answerOp (west : Bool) (h : Bytes) (r : Resp) (s : State) : State :=
  match r with
  | .ack => ackLater west (fSrc h) (fTxn h) s
  | .data b => respondTo west h opData stOk b s
  | .nack st => respondTo west h opNack st [] s

/-- Whether the memory an operation needs must be waited for (R67, R393). -/
def opWaits (s : State) (w : Window) (h : Bytes) : Bool :=
  w.kind == 1 && rangeWaits s (fOp h ≠ opLoad) (addrIn w h) (max 1 (fLen h))

/-- Whether an operation of the same source on the same bytes waits before another one (R206). -/
def behindSame (held : List Inbound) (w : Window) (h : Bytes) : Bool :=
  held.any (fun i => fSrc i.header == fSrc h && (linesIn i.win i.header).any (fun l => (linesIn w h).contains l))

/-! ## The trim loop's operations at their target (R186, R188) -/

/-- Where the trim loop's areas stand. The spec gives the leader's count area, its report count and the members' bias areas no address, so
the model fixes one (DESIGN CHOICE, notes/assumptions/66.md): in the last 64 GiB of the space of window number 0xFF, which only a MEMORY
window of more than 960 GiB reaches, with SPART 0xFF; group g at g * 2^32 there, its counters from 0 on, its bias block from 2^30 on, its
report count at 2^31. -/
def trimWindow : Nat := 0xFF
def trimBase : Nat := trimWindow * 2 ^ 40 + 2 ^ 40 - 2 ^ 36
def trimBlock : Nat := 2 ^ 30
def trimReport : Nat := 2 ^ 31

/-- The group of a trim operation, and the offset in its area. -/
def trimGroup (h : Bytes) : Nat := (fOffset h - trimBase) / 2 ^ 32
def trimOff (h : Bytes) : Nat := fOffset h % 2 ^ 32

/-- Whether a frame is a trim operation that this node takes from its source: counts and reports at the leader from a member, a
bias block at a member from the leader. -/
def trimTaken (s : State) (h : Bytes) : Bool :=
  let g := groupAt s (trimGroup h)
  decide (trimBase ≤ fOffset h) && !windowAdmits s h && fSpart h == 0xFF && g.live && decide (trimGroup h < 16) &&
    (if fOp h = opStore then g.leader == fSrc h && trimBlock ≤ trimOff h && decide (trimOff h < trimReport)
     else (fOp h == opReduce || fOp h == opAtomic) && g.leader == s.fabric.node && g.members.contains (fSrc h))

/-- Counts added into the leader's count area. -/
def addCounts (g first : Nat) (vs : List Nat) (s : State) : State :=
  modGroup g (fun x => { x with counts := vs.zipIdx.foldl (fun c v => tmod 0 c (first + v.2) (fun n => (n + v.1) % 2 ^ 32)) x.counts }) s

/-- One more report. -/
def addReport (g node : Nat) (s : State) : State :=
  modGroup g (fun x => { x with reported := x.reported + 1, reports := if x.reports.contains node then x.reports else x.reports ++ [node] }) s

/-- Whether a whole block may become the one that waits: it is the group's, of a version that is implemented (R6), newer than what is
installed and than a block that waits already (R188). -/
def blockNewer (x : RGroup) (b : Bytes) : Bool :=
  fld b 0 1 == 1 && fld b 2 2 == x.layers && fld b 4 2 == x.experts && b.length == 64 + 4 * (x.layers * x.experts) &&
    decide (x.epoch < fld b 8 8) && (!x.pending || decide (fld x.waitBlock 8 8 < fld b 8 8))

/-- A piece of a bias block; a whole one that is newer becomes the block that waits. A version that is not implemented is refused with a Note
(R6; its class is DESIGN CHOICE, notes/assumptions/79.md). -/
def blockPiece (g off : Nat) (d : Bytes) (last : Bool) (s : State) : State :=
  let x := groupAt s g
  let b := put (if off = 0 then [] else x.assembling) off d
  if ¬ last then modGroup g (fun x => { x with assembling := b }) s
  else
    let s := modGroup g (fun x => { x with assembling := [] }) s
    if fld b 0 1 ≠ 1 then recordFault { cls := clsFabricDeniedIn, kind := kindLink, inst := 0, status := stVersion, part := x.owner } s
    else if blockNewer x b then modGroup g (fun x => { x with waitBlock := b, pending := true }) s
    else s

/-- A trim operation at its target. -/
def trimApply (h payload : Bytes) (s : State) : Resp × State :=
  let g := trimGroup h
  if fOp h = opStore then (.ack, blockPiece g (trimOff h - trimBlock) payload ((fFlags h &&& flLast) ≠ 0) s)
  else if fOp h = opReduce then (.ack, addCounts g (trimOff h / 4) ((chunks 4 payload).map leNat) s)
  else (.data (le 4 (groupAt s g).reported), addReport g (fSrc h) s)

/-- An operation for this node is checked, refused, held or applied: its answer, where it has one now. -/
def acceptOp (ue : Ue) (west : Bool) (port : Nat) (h payload : Bytes) (vid : Option Nat) (s : State) : Option Resp × State :=
  if fVer h / 16 ≠ 1 ∨ fVer h % 16 > 1 then (some (.nack stVersion), s)
  else if ¬ opFormed h payload ∨ (fVer h < 0x11 ∧ (fFlags h).testBit 1) then (some (.nack stBadArg), s)
  else if trimTaken s h then ((fun x => (some x.1, x.2)) (trimApply h payload s))
  else if ¬ windowAdmits s h then
    (some (.nack stFabricDenied), frameFault clsFabricDeniedIn port h 255 [] s)
  else
    let w := opWindow s h
    let resend := (fFlags h &&& flResend) ≠ 0
    let k := sourceHalf h
    let refusing := (halfOf s west).refusing.contains k && !resend
    let s := if resend then onHalf west (fun x => { x with refusing := x.refusing.filter (· ≠ k) }) s else s
    let refuse (s : State) : Option Resp × State :=
      (some (.nack stBusy), onHalf west (fun x => { x with refusing := if x.refusing.contains k then x.refusing else k :: x.refusing }) s)
    if refusing ∨ storeFull s west h then refuse s
    else
      let s' := (linesIn w h).foldl (fun s l => countLine l s) s
      if opWaits s w h ∨ behindSame (halfOf s west).inbound w h then
        (none, arrived (onHalf west (fun x => { x with inbound := x.inbound ++ [⟨port, h, payload, w, s'.path.arrivals⟩] }) s'))
      else
        let (r, s') := applyOp ue west port w h payload vid s'
        if r = .nack stBusy then refuse s' else (some r, s')

/-- A replicated multicast has one copy less outstanding; with none left the upstream is acknowledged (R201). -/
def mcastDone (west : Bool) (node txn : Nat) (s : State) : State :=
  let sh := txn / 2 ^ 15
  match s.fabric.mcasts.find? (fun m => m.node == node && m.shalf == sh && m.txn == txn) with
  | none => s
  | some m =>
    if m.left ≤ 1 then ackLater west node txn (onFabric (fun f => { f with mcasts := f.mcasts.erase m }) s)
    else onFabric (fun f => { f with mcasts := f.mcasts.map (fun x => if x = m then { x with left := x.left - 1 } else x) }) s

/-- A multicast that failed at a member is not acknowledged. -/
def mcastFails (node txn : Nat) (s : State) : State :=
  onFabric (fun f => { f with mcasts := f.mcasts.filter (fun m => ¬ (m.node = node ∧ m.txn = txn)) }) s

/-- The answer to an operation that was held: a multicast's local delivery counts among its copies. -/
def answerHeld (west : Bool) (h : Bytes) (r : Resp) (s : State) : State :=
  if (fFlags h &&& flMcast) = 0 then answerOp west h r s
  else match r with
    | .nack st => respondTo west h opNack st [] (mcastFails (fSrc h) (fTxn h) s)
    | _ => mcastDone west (fSrc h) (fTxn h) s

/-- A held operation that need not wait any longer is applied and answered. -/
def releaseInbound (ue : Ue) (west : Bool) (i : Inbound) (s : State) : State :=
  let held := (halfOf s west).inbound
  if opWaits s i.win i.header ∨ behindSame (held.take (held.idxOf i)) i.win i.header then s else
  let s := onHalf west (fun x => { x with inbound := x.inbound.erase i }) s
  let (r, s) := applyOp ue west i.port i.win i.header i.payload none s
  answerHeld west i.header r s

/-! ## The issuing side (R206 to R208, R218, R219) -/

/-- A change of an entry of the outstanding table. -/
def modOp (west : Bool) (k : Nat) (f : OutOp → OutOp) (s : State) : State :=
  onHalf west (fun h => { h with ops := tmod {} h.ops k f }) s

/-- What an issuer asks for. -/
structure OpArg where
  issuer : Issuer
  op     : Nat
  sub    : Nat := 0
  flags  : Nat := 0
  dst    : Nat
  offset : Nat
  len    : Nat
  spart  : Nat
  data   : Bytes := []
  local_ : Nat := 0

/-- An operation waits to be sent: it holds no table entry yet, so it stands beyond the table. -/
def enqueueOp (west : Bool) (a : OpArg) (s : State) : State :=
  let n := (halfOf s west).order
  let o : OutOp :=
    { used := true, issuer := a.issuer, op := a.op, sub := a.sub, flags := a.flags, dst := a.dst, offset := a.offset
      len := a.len, spart := a.spart, data := a.data, local_ := a.local_, units := opUnits a.op a.len, order := n }
  onHalf west (fun h => { h with order := n + 1, ops := tset {} h.ops (4096 + n) o }) s

/-- The operations of an issuer in a half. -/
def opsOf (s : State) (west : Bool) (i : Issuer) : List (Nat × OutOp) := (halfOf s west).ops.filter (fun e => e.2.used && e.2.issuer == i)

/-- The units of a half's operations that are outstanding to a destination (R219): those that hold an entry, and those that ended without
their response, whose credit comes back with it (R218). -/
def creditUsed (h : LinkHalf) (dst : Nat) : Nat :=
  ((h.ops.filter (fun e => e.2.used && e.2.sent.isSome && e.2.dst == dst)).map (fun e => e.2.units)).sum +
    ((h.owed.filter (fun e => e.dst == dst)).map (fun e => e.units)).sum

/-- The credit an operation in an entry of the table owes until its response comes. -/
def owedOf (e : Nat × OutOp) : Option OwedCredit :=
  if e.1 < 4096 ∧ e.2.used ∧ e.2.sent.isSome then some ⟨e.1, e.2.gen, e.2.dst, e.2.units⟩ else none

/-- An operation is about to end with its response still out: its credit stays owed. -/
def oweCredit (west : Bool) (k : Nat) (s : State) : State :=
  onHalf west (fun h => { h with owed := h.owed ++ (owedOf (k, tget {} h.ops k)).toList }) s

/-- The credit of an entry's generation comes back; that of a generation used anew too, whose response can no longer be told apart (DESIGN
CHOICE, notes/assumptions/87.md). -/
def returnOwed (west : Bool) (k gen : Nat) (s : State) : State :=
  onHalf west (fun h => { h with owed := h.owed.filter (fun e => ¬ (e.entry = k ∧ e.gen = gen)) }) s

/-- Whether an operation may not be sent yet. -/
def opBlocked (s : State) (west : Bool) (o : OutOp) : Bool :=
  let h := halfOf s west
  let mine := h.ops.filter (fun e => e.2.used && e.2.issuer == o.issuer && e.2.order < o.order)
  (o.flags.testBit 0 && mine.any (fun e => 2 ≤ e.2.op && e.2.op ≤ 5)) || mine.any (fun e => e.2.flags.testBit 1) ||
    mine.any (fun e => e.2.sent.isNone && e.2.dst == o.dst) || (tget {} h.backoffs o.dst).active ||
    creditUsed h o.dst + o.units > s.boxes.destUnits

/-- Where an issuer's bytes are counted: at a command's context, at the task that runs (R268, R269). -/
def issuerCount (s : State) (i : Issuer) : Option ((Context → Context) → State → State) :=
  match i with
  | .command qi n => ((queueAt s qi).inflight.find? (fun c => c.serial == n)).map (fun c => charge (fld c.cmd 4 2))
  | .dispatch slot _ _ => some (chargeTask (combineAt s slot).task)
  | .answer pi => some (chargeTask (pilotAt s pi).task)
  | _ => none

/-- Payload sent is counted (R268, R421). -/
def countOut (o : OutOp) (s : State) : State :=
  let n := o.data.length
  let s := modTotals (spartOwner o.spart) (fun t => { t with fabricOut := satTo 64 (t.fabricOut + n) }) s
  match issuerCount s o.issuer with
  | some c => c (fun x => { x with fabricOut := satTo 64 (x.fabricOut + n) }) s
  | none => s

/-- The status a failed dispatch record marks its pairs with (R176). -/
def pairStatus (st : Nat) : Nat := if st = stFabricTimeout then stFabricTimeout else stFabricDenied

/-- A FABRIC command's engine has ended with a status: what it has not sent is withdrawn, and the command ends, or, where its frames leave
by an East port, East reports it (R10, R23). One that was ended from outside waits for its operations alone (R307). -/
def endFabric (qi : Nat) (c : InFlight) (st : Nat) (s : State) : State :=
  if c.killed ≠ 0 ∨ c.doneEast then s
  else
    let s := if st = stOk then s else withdrawOps qi c.serial s
    if c.east then sendReport (.fabricDone qi) (modInFlight qi c.serial (fun c => { c with doneEast := true, result := st }) s)
    else endCommand qi c.serial st s

/-- What an operation's end means to its issuer. -/
def opDone (ue : Ue) (west : Bool) (o : OutOp) (st : Nat) (data : Bytes) (s : State) : State :=
  match o.issuer with
  | .command qi n =>
    match (queueAt s qi).inflight.find? (fun c => c.serial == n) with
    | none => s
    | some c =>
      let p := (queueAt s qi).part
      if st ≠ stOk then
        endFabric qi c st s
      else
        let s := if data = [] then s else charge (fld c.cmd 4 2) (fun x => { x with fabricIn := satTo 64 (x.fabricIn + data.length) }) s
        let (w, s) := if data = [] then (stOk, s) else
          memWrite { (windowReq s p 0 2 o.local_) with master := 4, masterId := (queueAt s qi).q } ue o.local_ data s
        if w ≠ stOk then endFabric qi c w s
        else if cmdOps s qi n = 0 ∧ c.next ≥ fld c.cmd 56 4 then endFabric qi c stOk s
        else s
  | .dispatch slot gen pairs =>
    if st ≠ stOk ∧ (combineAt s slot).gen = gen then markPairs slot pairs (pairStatus st) s else s
  | .multicast _ node txn =>
    if st = stOk then mcastDone west node txn s
    else mcastFails node txn s
  | _ => s

/-- An operation ends: its entry is free, with the next generation; later RELEASE operations of its issuer that wait fall
with a failure (R208). -/
def finishOp (ue : Ue) (west : Bool) (k st : Nat) (data : Bytes) (s : State) : State :=
  let o := tget {} (halfOf s west).ops k
  let s := modOp west k (fun o => if k ≥ 4096 then {} else { gen := (o.gen + 1) % 8 }) s
  let s := if st = stOk then (if (tget {} (halfOf s west).backoffs o.dst).active then s else onHalf west (fun h => { h with backoffs := tset {} h.backoffs o.dst {} }) s) else
    onHalf west (fun h => { h with ops := h.ops.filter (fun e =>
      ¬ (e.1 ≥ 4096 ∧ e.2.issuer = o.issuer ∧ e.2.flags.testBit 0 ∧ e.2.order > o.order)) }) s
  opDone ue west o st data s

/-- The transaction number of an entry (R194). -/
def txnOf (west : Bool) (gen k : Nat) : Nat := b2n (!west) * 2 ^ 15 + gen % 8 * 2 ^ 12 + k

/-- The frame of an operation. -/
def opFrame (west : Bool) (o : OutOp) (gen k extra : Nat) : FrameArg :=
  { op := o.op, dst := o.dst, offset := o.offset, len := o.len, txn := txnOf west gen k, flags := o.flags ||| extra, sub := o.sub
    spart := o.spart, payload := o.data }

/-- Whether an operation needs EFP 1.1 (R216). -/
def needs11 (o : OutOp) : Bool := o.flags.testBit 1 || (o.op == opReduce && o.sub % 16 == 5)

/-- The backoff a refusal starts: a draw from half to the whole of the value, which doubles up to 64 µs (R221). -/
def startBackoff (west : Bool) (dst : Nat) (s : State) : State :=
  let b := tget {} (halfOf s west).backoffs dst
  if b.active then s else
  let d := b.value / 2 + leNat (entropyBytes 4 s) % (b.value / 2 + 1)
  onHalf west (fun h => { h with backoffs := tset {} h.backoffs dst { active := true, value := min 64000 (2 * b.value), until_ := clock s west + d } }) (drawn 4 s)

/-- An operation that its target refused waits for the backoff toward it (R221). -/
def refusedOp (west : Bool) (k : Nat) (s : State) : State :=
  startBackoff west (tget {} (halfOf s west).ops k).dst (modOp west k (fun o => { o with refused := true }) s)

/-- The answer of this node itself to an operation of its own. -/
def answeredHere (ue : Ue) (west : Bool) (k : Nat) (x : Option Resp × State) : State :=
  match x.1 with
  | none => x.2
  | some .ack => finishOp ue west k stOk [] x.2
  | some (.data b) => finishOp ue west k stOk b x.2
  | some (.nack st) => if st = stBusy then refusedOp west k x.2 else finishOp ue west k st [] x.2

/-- Whether the port of a multicast copy carries it: it is a PEER port that is UP at the frame's version, and HOPS has not run out
(R192, R201, R216). -/
def mcastGoes (s : State) (o : OutOp) : Bool := portUp s o.port && roleOf s o.port == 0 && portCarries s o.port o.ver && o.local_ ≠ 0

/-- The frame of a multicast copy leaves by its PEER port: a HOP frame of this node that keeps the group in DST. -/
def mcastFrame (west : Bool) (k extra : Nat) (s : State) : State :=
  let o := tget {} (halfOf s west).ops k
  let hb := headerBytes o.ver (64 + b2n (!west) * 32) o.local_ s.fabric.node (nextStamp s west) { (opFrame west o o.gen k extra) with dst := o.group }
  frameOut west o.port hb o.data [] (takeStamp west s)

/-- An operation takes an entry of the table. -/
def takeEntry (west : Bool) (k i gen : Nat) (o : OutOp) (s : State) : State :=
  returnOwed west i gen (modOp west i (fun _ => { o with gen := gen, sent := some (clock s west) }) (modOp west k (fun _ => {}) s))

/-- A waiting operation is sent: it takes the lowest free entry. An operation for this node is applied at once. -/
def sendOp (ue : Ue) (west : Bool) (k : Nat) (s : State) : State :=
  let o := tget {} (halfOf s west).ops k
  match tfind {} (halfOf s west).ops 4096 (fun e => !e.used) with
  | none => s
  | some i =>
    let gen := (tget {} (halfOf s west).ops i).gen
    if (o.flags &&& flMcast) ≠ 0 then
      (if mcastGoes s o then mcastFrame west i 0 (countOut o (takeEntry west k i gen o s)) else finishOp ue west k stRouteDown [] s)
    else if needs11 o ∧ ((routeTo s west o.dst).map rtVer).getD 0x11 < 0x11 then finishOp ue west k stVersion [] s
    else
      let (r, s) := sendFrame west (opFrame west o gen i 0) s
      match r with
      | .noRoute => finishOp ue west k stRouteDown [] s
      | .port p => countOut o (takeEntry west k i gen { o with port := p } s)
      | .here h => answeredHere ue west i (acceptOp ue west 0xFF h o.data none (countOut o (takeEntry west k i gen o s)))

/-- Waiting operations of a half leave in order as far as they may; `fuel` bounds them. -/
def pumpOps (ue : Ue) (west : Bool) : Nat → State → State
  | 0, s => s
  | fuel + 1, s =>
    if linkStopped s west then s else
    match (halfOf s west).ops.find? (fun e => e.1 ≥ 4096 && !opBlocked s west e.2) with
    | none => s
    | some e =>
      let s' := sendOp ue west e.1 s
      if (tget {} (halfOf s' west).ops e.1).used then s' else pumpOps ue west fuel s'

/-! ## FABRIC commands (R298) -/

/-- The next piece of a FABRIC command: at most 4,096 B, RELEASE and ACQUIRE on the last. -/
def issuePiece (ue : Ue) (qi : Nat) (c : InFlight) (s : State) : State :=
  let q := queueAt s qi
  let len := fld c.cmd 56 4
  let op := fld c.cmd 60 1
  let sb := fld c.cmd 61 1
  let ef := fld c.cmd 62 1
  let remote := fld c.cmd 40 8
  let loc := fld c.cmd 48 8
  let n := min 4096 (len - c.next)
  let last := c.next + n ≥ len
  let fl := if last then ef % 4 else 0
  let size := if op = opAtomic ∧ sb / 16 = 2 then 2 * n else n
  let (r, s) := if op = opLoad then (({} : MemRead), s)
    else memRead { (windowReq s q.part 0 1 (loc + c.next)) with master := 4, masterId := q.q } ue (loc + c.next) size s
  if r.status ≠ stOk then endFabric qi c r.status s
  else
    let s := modQueue qi (fun q => { q with inflight := q.inflight.map (fun x => if x.serial = c.serial then { x with next := x.next + n } else x) }) s
    let a : OpArg :=
      { issuer := .command qi c.serial, op := op, sub := sb, flags := fl, dst := remote / 2 ^ 48, offset := (remote + c.next) % 2 ^ 48
        len := if op = opAtomic then size else n, spart := if q.part < 16 then q.part else 0xFF
        data := if op = opLoad then [] else r.data, local_ := loc + c.next }
    enqueueOp (!c.east) a s

/-- Pieces a command keeps waiting at once. -/
def pieceAhead : Nat := 64

/-- A running FABRIC command issues what it may. -/
def feedFabric (ue : Ue) (qi serial : Nat) : Nat → State → State
  | 0, s => s
  | fuel + 1, s =>
    match (queueAt s qi).inflight.find? (fun c => c.serial == serial) with
    | none => s
    | some c =>
      if c.phase ≠ .running ∨ ¬ c.started ∨ (c.east ∧ ¬ c.taken) ∨ c.doneEast ∨ c.killed ≠ 0 ∨ c.next ≥ fld c.cmd 56 4 ∨
          (opsOf s (!c.east) (.command qi serial)).countP (fun e => e.2.sent.isNone) ≥ pieceAhead then s
      else feedFabric ue qi serial fuel (issuePiece ue qi c s)

/-- Every FABRIC command issues what it may, and the halves send what they may. -/
def driveFabric (ue : Ue) (s : State) : State :=
  let cmds := s.fe.queues.flatMap (fun e => (e.2.inflight.filter (fun c => fld c.cmd 1 1 == 4 && c.started)).map (fun c => (e.1, c.serial)))
  let s := cmds.foldl (fun s c => feedFabric ue c.1 c.2 pieceAhead s) s
  let s := pumpOps ue true ((halfOf s true).ops.length + 1) s
  pumpOps ue false ((halfOf s false).ops.length + 1) s

/-! ## Multicast (R201) -/

/-- Fields of a group entry. -/
def grValid (e : Bytes) : Bool := (fld e 1 1).testBit 0
def grLocal (e : Bytes) : Bool := (fld e 1 1).testBit 1
def grUp (e : Bytes) : Nat := fld e 2 1
def grPorts (e : Bytes) : Nat := fld e 4 4
def grLegs (e : Bytes) : List Nat := ((List.range 8).map (fun i => fld e (8 + 2 * i) 2)).filter (· ≠ 0xFFFF)

/-- A copy of a multicast frame for a PEER port: an operation of this node toward the port's peer, which waits like any other until it may
be sent (R219). -/
def enqueueMcast (west : Bool) (issuer : Issuer) (h payload : Bytes) (p : Nat) (s : State) : State :=
  let n := (halfOf s west).order
  let o : OutOp := { used := true, issuer := issuer, op := fOp h, flags := fFlags h &&& (255 - flResend), dst := (linkAt s p).peer, group := fDst h
                     ver := fVer h, offset := fOffset h, len := fLen h, spart := fSpart h, data := payload, local_ := fHops h - 1, port := p
                     units := opUnits (fOp h) (fLen h), order := n }
  onHalf west (fun x => { x with order := n + 1, ops := tset {} x.ops (4096 + n) o }) s

/-- Every copy of a multicast frame. -/
def mcastCopies (ue : Ue) (west : Bool) (issuer : Issuer) (e h payload : Bytes) (s : State) : State :=
  let s := (bitList 24 (grPorts e)).foldl (fun s p => enqueueMcast west issuer h payload p s) s
  let s := (grLegs e).foldl (fun s n =>
    enqueueOp west { issuer := issuer, op := fOp h, flags := fFlags h &&& (255 - flMcast - flResend), dst := n, offset := fOffset h
                     len := fLen h, spart := fSpart h, data := payload } s) s
  pumpOps ue west ((halfOf s west).ops.length + 1) s

/-- A multicast frame at a replicating device: copies, local delivery, and the acknowledgement upstream once all are in. A local delivery
that is held counts among the copies. -/
def takeMcast (ue : Ue) (west : Bool) (port : Nat) (h payload : Bytes) (s : State) : State :=
  let e := tget [] (halfOf s west).groups (fDst h)
  if ¬ verKnown h then respondTo west h opNack stVersion [] s
  else if fDst h ≥ 256 ∨ ¬ grValid e ∨ grUp e ≠ port ∨ ¬ (fOp h = opStore ∨ fOp h = opTrigger) then dropFrame port s
  else
    let x := if grLocal e then acceptOp ue west port h payload none s else (some Resp.ack, s)
    let left := (grLegs e).length + (bitList 24 (grPorts e)).length + b2n (x.1 == none)
    match x.1 with
    | some (.nack st) => respondTo west h opNack st [] x.2
    | _ =>
      if left = 0 then ackLater west (fSrc h) (fTxn h) x.2
      else
        let s := onFabric (fun f => { f with mcasts := f.mcasts ++ [⟨fSrc h, fTxn h / 2 ^ 15, fTxn h, left⟩] }) x.2
        mcastCopies ue west (.multicast port (fSrc h) (fTxn h)) e h payload s

end Sys2Proof.Machine
end

