-- ==== Sys2Proof/Machine/Submission.lean ====
section
/-! DEFINITION. The command front end: doorbells (R290 to R292, R521 to R523), the fetch of ring entries (R288, R289, R304),
the checks of a command before dispatch (R300) and its start (R301). -/
namespace Sys2Proof.Machine

/-! ## Admission to the registers (R477, R478, R521) -/

/-- Whether partition `p`'s TDI is locked: PART_LOCKED (R255). -/
def partLocked (s : State) (p : Nat) : Bool := (partAt s p).tdi == .configLocked || (partAt s p).tdi == .run

/-- The partition page of a window offset, and the offset in it. -/
def pageOf (off : Nat) : Option (Nat × Nat) :=
  if 0x100000 ≤ off ∧ off < 0x200000 then some (off / 0x10000 - 16, off % 0x10000) else none

/-- A refused access to a partition page is counted in BAD_DOORBELL of queue 0 (R478, R521). -/
def countDoorbell (p q : Nat) (s : State) : State :=
  modCounters p (fun c => { c with doorbell := tset 0 c.doorbell q (satTo 64 (tget 0 c.doorbell q + 1)) }) s

/-- Whether an access to partition page `p` at a page offset is admitted. -/
def pageAdmits (s : State) (a : RegAccess) (p off : Nat) (write : Bool) : Bool :=
  if a.func = 16 then !write && decide (0x3000 ≤ off ∧ off < 0x6000) && !partLocked s p
  else a.func == p && (a.tee || !partLocked s p)

/-! ## Doorbells (R290 to R292, R523) -/

/-- The queue of an owner with a partition-local number. -/
def queueNamed (s : State) (p q : Nat) : Option Nat :=
  (s.fe.queues.find? (fun e => e.2.part == p && e.2.q == q && e.2.state != .absent)).map Prod.fst

/-- A difference of two counts modulo 2^32. -/
def countDiff (a b : Word32) : Nat := (a - b).toNat

/-- Whether a doorbell value is accepted (R291). -/
def doorbellOk (q : Queue) (t : Word32) : Bool := countDiff t q.head ≤ 2 ^ q.log2 && countDiff t q.tail < 2 ^ 31

/-- A doorbell write of `t` to the queue numbered `n` of partition `p` (R253, R264, R291, R523). The queues of
a halted partition are STOPPED: TAIL moves, nothing is fetched (R264, R306). -/
def ringDoorbell (p n : Nat) (t : Word32) (s : State) : State :=
  match queueNamed s p n with
  | none => s
  | some qi =>
    let q := queueAt s qi
    if q.state = .destroying then countDoorbell p n s
    else if (partAt s p).tdi = .configLocked ∨ (partAt s p).tdi = .error then countDoorbell p n s
    else if p < 16 ∧ (partAt s p).state ≠ .active ∧ (partAt s p).state ≠ .halted then s
    else if doorbellOk q t then setQueue qi { q with tail := t, rung := true } s
    else recordFault { cls := clsBadDoorbell, kind := kindFrontEnd, inst := 0, status := stBadArg, part := p, master := 0, masterId := n }
      (countDoorbell p n s)

/-- The effect of a doorbell write at the register port. -/
def doorbell (a : RegAccess) (s : State) : State :=
  match pageOf a.offset with
  | none => s
  | some (p, off) =>
    if s.faults.inBlockReset ∨ a.func > 16 then s
    else if ¬ (0x1000 ≤ off ∧ off < 0x1200) then s
    else if ¬ pageAdmits s a p off true then countDoorbell p 0 s
    else if ¬ a.size8 ∧ off % 8 = 4 then s
    else ringDoorbell p ((off - 0x1000) / 8) (a.data.setWidth 32) s

/-- DOORBELL_WRITE (R291). -/
def execDoorbellWrite (a : RegAccess) (s : State) : Host.Outcome State Fault Refusal := whenServing (doorbell a) s

/-! ## Fetch (R288, R292, R304) -/

/-- Whether the front end works at all: no power event under way (R498), no curfew stop (R427), no block reset. -/
def dispatchOpen (s : State) : Bool := !s.trust.dusk && !islandStopped s .frontEnd && !s.faults.inBlockReset

/-- Whether a queue is served: it and its partition are ACTIVE (R264, R302). -/
def queueServed (s : State) (q : Queue) : Bool := q.state == .active && (partAt s q.part).state == .active

/-- Entries fetched and not yet dispatched. -/
def aheadOf (q : Queue) : Nat := q.fetched.length + (if q.atDispatch.isSome then 1 else 0)

/-- Whether a queue has work for the fetch unit: a rung bit to sample, or entries below the sample it may fetch. -/
def wantsTurn (s : State) (q : Queue) : Bool :=
  queueServed s q && q.fetching == 0 && decide (aheadOf q < 32) && (q.rung || q.head != q.tail)

/-- The queue served next: REALTIME before NORMAL, round robin within a class (R304). -/
def nextServed (s : State) : Option Nat :=
  let order (from_ : Nat) : List Nat := (List.range 256).map (fun i => (from_ + i) % 256)
  match (order s.fe.rrReal).find? (fun k => (queueAt s k).realtime && wantsTurn s (queueAt s k)) with
  | some k => some k
  | none => (order s.fe.rrNormal).find? (fun k => !(queueAt s k).realtime && wantsTurn s (queueAt s k))

/-- How many entries one fetch request asks for: 8 at most, none at or beyond the sample, within the ring, 32 ahead. -/
def fetchCount (q : Queue) : Nat :=
  min 8 (min (countDiff q.sampled q.head) (min (32 - aheadOf q) (2 ^ q.log2 - q.head.toNat % 2 ^ q.log2)))

/-- Where entry HEAD of a ring lies (R288): a DEVICE ring under its object's current KEY_ID. -/
def ringAddr (s : State) (q : Queue) : Nat :=
  let a := q.ring.toNat + 64 * (q.head.toNat % 2 ^ q.log2)
  if q.device then reqAddr (objAt s q.ringObj).key (domainOf a) else a

/-- The served queue's TAIL is sampled, its rung bit cleared and a fetch issued (R292 step 2). -/
def serveQueue (k : Nat) (s : State) : State :=
  let q := queueAt s k
  let q := { q with sampled := q.tail, rung := false }
  let q := { q with fetching := fetchCount q }
  let s := onFe (fun f => if q.realtime then { f with rrReal := (k + 1) % 256 } else { f with rrNormal := (k + 1) % 256 })
    (setQueue k q s)
  if q.fetching = 0 ∨ q.device then s
  else emit (.hostRead q.part (queuePasid s q.part q.q) (BitVec.ofNat 64 (ringAddr s q)) (64 * q.fetching)) s

/-- A queue is idle only if its rung bit is clear and HEAD equals the sampled TAIL (R292 step 3). -/
def decideIdle (s : State) : State :=
  onFe (fun f => { f with queues := tmap {} f.queues (fun _ q =>
    if q.state = .absent then q else { q with idle := !q.rung && q.head == q.sampled }) }) s

/-- One cycle of the arbiter (R292); the cycle's doorbell writes have come before it. -/
def arbiterCycle (s : State) : State :=
  if ¬ dispatchOpen s then s else
  decideIdle (match nextServed s with
    | some k => serveQueue k s
    | none => s)

/-- QUEUE_ARBITER_CYCLE (R292). -/
def execQueueArbiterCycle (s : State) : Host.Outcome State Fault Refusal := whenServing arbiterCycle s

/-- The front end's request for a ring. -/
def ringReq (q : Queue) : Req := feReq q.part 6 q.q

/-- A failed fetch stops its queue as though the command at HEAD had failed (R288, R302). -/
def fetchFailed (qi st : Nat) (s : State) : State :=
  modQueue qi (fun q => { (q.stop stQueueStopped q.serial) with fetching := 0, fetchError := st }) s

/-- Entries that came back (R289). -/
def fetchDone (qi : Nat) (d : Bytes) (s : State) : State :=
  modQueue qi (fun q => { q with head := q.head + BitVec.ofNat 32 q.fetching, fetched := q.fetched ++ (chunks 64 (fit (64 * q.fetching) d))
                                 fetching := 0 }) s

/-- A DEVICE ring's entries that have been read. -/
def ringRead (qi : Nat) (ue : Ue) (x : MemRead × State) : State :=
  if x.1.status ≠ stOk then settle ue (fetchFailed qi x.1.status x.2) else fetchDone qi x.1.data x.2

/-- A fetch's read comes back (R288): from the host, or from the ring's memory under its key ID. -/
def fetchReturn (qi : Nat) (h : HostRead) (ue : Ue) (s : State) : State :=
  let q := queueAt s qi
  if q.fetching = 0 then s
  else if ¬ queueServed s q then modQueue qi (fun q => { q with fetching := 0 }) s
  else if ¬ q.device then
    (if h.status ≠ stOk then settle ue (fetchFailed qi h.status s) else fetchDone qi h.data s)
  else
    let a := ringAddr s q
    if rangeWaits s false a (64 * q.fetching) then s else ringRead qi ue (memRead (ringReq q) ue a (64 * q.fetching) s)

/-- RING_FETCH_RETURN (R288). -/
def execRingFetchReturn (qi : Nat) (host : HostRead) (ue : Ue) (s : State) : Host.Outcome State Fault Refusal :=
  whenServing (fetchReturn qi host ue) s

/-! ## The checks before dispatch (R300) -/

/-- Fields of the common header (R294). -/
def cmdType (c : Bytes) : Nat := fld c 1 1
def cmdOrdered (c : Bytes) : Bool := bit (fld c 2 1) 0 || cmdType c == 5
def cmdNobj (c : Bytes) : Nat := fld c 3 1
def cmdCtx (c : Bytes) : Nat := fld c 4 2
def cmdFence (c : Bytes) : Nat := fld c 8 4
def cmdDeadline (c : Bytes) : Nat := fld c 12 4
def cmdValue (c : Bytes) : Nat := fld c 16 8
def cmdObjs (c : Bytes) : List Nat := (List.range (cmdNobj c)).map (fun i => fld c (24 + 4 * i) 4)

/-- The reserved fields of a command's type (R296 to R299); SIGNAL has none of its own, so its bytes 40 to 63 are reserved
(DEDUCED). -/
def typeReserved (c : Bytes) : Bool :=
  match cmdType c with
  | 1 => fld c 60 4 == 0
  | 2 => fld c 62 1 < 4 && fld c 63 1 == 0
  | 3 => true
  | 4 => fld c 62 1 < 4 && fld c 63 1 == 0
  | 5 => zeroIn c 40 64
  | 6 => fld c 44 4 == 0
  | 7 => zeroIn c 41 48 && zeroIn c 56 64
  | _ => false

/-- Step 1 of R300: VER, TYPE and reserved fields, DEADLINE_US among them in a NORMAL queue (R305). -/
def headerStatus (c : Bytes) (rt : Bool) : Nat :=
  if fld c 0 1 ≠ 1 then stVersion
  else if ¬ (1 ≤ cmdType c ∧ cmdType c ≤ 7) ∨ fld c 2 1 ≥ 2 ∨ cmdNobj c > 3 ∨ fld c 6 2 ≠ 0 ∨ ¬ zeroIn c (24 + 4 * cmdNobj c) 40 ∨
      ¬ typeReserved c ∨ (¬ rt ∧ cmdDeadline c ≠ 0) then stBadArg
  else stOk

/-- The absolute deadline that the memory requests of a command dispatched now carry; 0 for none (R305). -/
def deadlineOf (s : State) (c : Bytes) : Nat := if cmdDeadline c = 0 then 0 else now s + 1000 * cmdDeadline c

/-- A TASK command as what it asks for (R296). -/
def taskAskOf (s : State) (qi : Nat) (c : Bytes) (serial : Nat) : TaskAsk :=
  let q := queueAt s qi
  { part := q.part, ctx := cmdCtx c, realtime := q.realtime
    deadline := deadlineOf s c
    prog := fld c 40 8, argsAddr := fld c 48 8, mask := fld c 56 2, w := fld c 58 1, xobj := fld c 59 1
    purpose := .command qi serial, pilot := false }

/-- The layout of a TASK's own fields (R296): alignment, XOBJ, ARGS zero only without a block. -/
def taskFieldsOk (c : Bytes) : Bool := fld c 40 8 % 64 == 0 && fld c 48 8 % 64 == 0 && fld c 59 1 ≤ 28

/-- Handles resolved one after another: the slots, or the first status (R274). -/
def resolveObjs (s : State) (p : Nat) : List Nat → Except Nat (List Nat)
  | [] => .ok []
  | h :: hs =>
    match objHandle s p h with
    | .error e => .error e
    | .ok k =>
      match resolveObjs s p hs with
      | .error e => .error e
      | .ok ks => .ok (k :: ks)

/-- A status, and what a command that passes names. -/
structure DispatchCheck where
  status  : Nat
  fence   : Nat := 0
  objs    : List Nat := []
  fences  : List Nat := []
  handles : List Nat := []
  deriving DecidableEq, Repr

/-- The handles of a TASK's argument block, read ahead for step 3; the program and block are read again, with their faults,
when the command is dispatched. -/
def blockHandles (ue : Ue) (qi : Nat) (c : Bytes) (s : State) : List Nat :=
  if cmdType c = 1 ∧ taskFieldsOk c then (fetchProgram ue (taskAskOf s qi c 0) s).1.objs else []

/-- Step 3 of R300: FENCE where it is not 0, WFENCE, and the object handles `hs` that a command names, in order. `fence` is the handle that
an early failure may still signal. -/
def checkHandles (s : State) (p : Nat) (c : Bytes) (hs : List Nat) : DispatchCheck :=
  let f : Except Nat (List Nat) := if cmdFence c = 0 then .ok [] else
    match fenceHandle s p (cmdFence c) with
    | .error e => .error e
    | .ok k => .ok [k]
  match f with
  | .error e => { status := e }
  | .ok fs =>
    let w : Except Nat (List Nat) := if cmdType c ≠ 6 then .ok [] else
      match fenceHandle s p (fld c 40 4) with
      | .error e => .error e
      | .ok k => .ok [k]
    match w with
    | .error e => { status := e, fence := cmdFence c }
    | .ok ws =>
      match resolveObjs s p hs with
      | .error e => { status := e, fence := cmdFence c }
      | .ok os => { status := stOk, fence := cmdFence c, objs := os, fences := fs ++ ws, handles := hs }

/-- Steps 1 to 4 of R300, in order. -/
def checkCommand (ue : Ue) (qi : Nat) (c : Bytes) (s : State) : DispatchCheck :=
  let q := queueAt s qi
  let p := q.part
  let st := headerStatus c q.realtime
  if st = stVersion then { status := st }
  else if st ≠ stOk then { status := st, fence := cmdFence c }
  else if ¬ ctxOk s p (cmdCtx c) then { status := stBadArg, fence := cmdFence c }
  else
    let k := checkHandles s p c (cmdObjs c ++ blockHandles ue qi c s)
    if k.status = stOk ∧ cmdValue c ≥ 2 ^ 63 then { status := stFenceRange, fence := cmdFence c } else k

/-- A command that failed before its start stands ended among the dispatched ones. -/
def failAtDispatch (ue : Ue) (qi : Nat) (cmd : Bytes) (st : Nat) (s : State) : State :=
  let n := (queueAt s qi).serial
  let s := modQueue qi (fun q => { q with serial := n + 1, inflight := q.inflight ++ [{ cmd := cmd, serial := n, started := true, since := now s }] }) s
  settle ue (endCommand qi n st s)

/-- Whether a queue's next command may be looked at: nothing of the queue waits at dispatch (R300). -/
def dispatchReady (s : State) (q : Queue) : Bool :=
  dispatchOpen s && queueServed s q && q.atDispatch.isNone &&
    q.inflight.all (fun c => c.started && (c.isEnded || fld c.cmd 1 1 ≠ 6))

/-- The next command of a queue is checked (R300 steps 1 to 4). -/
def dispatchNext (qi : Nat) (ue : Ue) (s : State) : State :=
  let q := queueAt s qi
  match q.fetched with
  | [] => s
  | c :: rest =>
    if ¬ dispatchReady s q then s else
    let k := checkCommand ue qi c s
    let s := setQueue qi { q with fetched := rest } s
    if k.status ≠ stOk then failAtDispatch ue qi (put c 8 (le 4 k.fence)) k.status s
    else modQueue qi (fun q => { q with atDispatch := some ⟨c, k.objs, k.fences, k.handles⟩ }) s

/-- COMMAND_DISPATCH (R300). -/
def execCommandDispatch (qi : Nat) (ue : Ue) (s : State) : Host.Outcome State Fault Refusal := whenServing (dispatchNext qi ue) s

/-! ## Admission and start (R300 step 5, R301) -/

/-- A command that passed every check is dispatched: it takes its number, what it names is held, its record goes out. -/
def admitCommand (qi : Nat) (d : AtDispatch) (task : Option Nat) (s : State) : State :=
  let q := queueAt s qi
  let s := setQueue qi { q with atDispatch := none, serial := q.serial + 1
                                inflight := q.inflight ++ [{ cmd := d.cmd, serial := q.serial, objs := d.objs, fences := d.fences, task := task, since := now s }] } s
  let s := nameFences d.fences (holdObjs d.objs s)
  traceEmit { type := 1, kind := kindFrontEnd, part := q.part, ctx := cmdCtx d.cmd
              arg := le 1 q.q ++ le 1 (cmdType d.cmd) ++ le 2 (cmdCtx d.cmd) ++ zeros 4 ++ le 8 (cmdValue d.cmd) } s

/-- The last number a queue gave. -/
def lastSerial (s : State) (qi : Nat) : Nat := (queueAt s qi).serial - 1

/-- Whether an ORDERED command may start: every earlier one has retired (R301). -/
def orderFree (s : State) (qi : Nat) (c : InFlight) : Bool :=
  !cmdOrdered c.cmd || (queueAt s qi).inflight.all (fun x => x.serial ≥ c.serial)

/-- Whether the copy-and-cipher engine has space: its 8 chunks in flight (R297). -/
def copySpace (s : State) : Bool :=
  decide (((s.fe.queues.flatMap (fun e => e.2.inflight)).filter (fun c => fld c.cmd 1 1 == 2 || fld c.cmd 1 1 == 3)).foldl
    (fun n c => n + c.flying) 0 < 8)

/-- A WAIT ends at once or waits (R282 to R284). -/
def startWait (ue : Ue) (qi : Nat) (c : InFlight) (s : State) : State :=
  let s := modInFlight qi c.serial (fun c => { c with started := true }) s
  let k := fld c.cmd 40 4 % 2048
  let g := (fenceAt s k).gen
  let v := BitVec.ofNat 64 (fld c.cmd 48 8)
  match waitOutcome s false k g v 0 with
  | some st => settle ue (endCommand qi c.serial st s)
  | none => settle ue (onFe (fun f => { f with waits := f.waits ++ [⟨qi, c.serial, k, g, v, fld c.cmd 56 8⟩] }) s)

/-- The dispatch checks of a TASK in the order of R118: the wick set, then the program, its tables and sequences. -/
def taskChecks (s : State) (a : TaskAsk) (f : Fetched) : Nat :=
  if ¬ setOk s a.part a.mask a.w then stBadArg else taskStatus s a f

/-- Whether a task that waits at dispatch could be placed now. -/
def placeable (s : State) (qi : Nat) (c : InFlight) (t : Nat) : Bool :=
  let a := taskAskOf s qi c.cmd c.serial
  let x := taskAt s t
  let f := fetchedOf x
  !c.started && !c.isEnded && c.killed == 0 && orderFree s qi c && taskChecks s a f == stOk &&
    resourcesFree s a x.sheetUnits.sum (progSeqs (progOf a f x.lanterns.length)) &&
    !(progPins s (progOf a f x.lanterns.length)).any (fun k => tableLoading s k.1 k.2)

/-- Whether wicks that a waiting task could take are offered to another one first (R113): one of the same partition with a lantern in
common that can be placed now, from a real-time queue where this one is not, or of the same class and older. -/
def outranked (s : State) (qi : Nat) (c : InFlight) : Bool :=
  let q := queueAt s qi
  s.fe.queues.any (fun e => e.1 ≠ qi && e.2.part == q.part && (e.2.realtime || !q.realtime) &&
    e.2.inflight.any (fun d => cmdType d.cmd == 1 && fld d.cmd 56 2 &&& fld c.cmd 56 2 ≠ 0 &&
      ((e.2.realtime && !q.realtime) || decide (d.since < c.since)) &&
      ((d.task.map (fun t => placeable s e.1 d t)).getD false)))

/-- A TASK starts when wicks, sheets and sequences are free and not offered to another task first; its checks are made again against the
state it starts in. -/
def startTask (ue : Ue) (qi : Nat) (c : InFlight) (t : Nat) (s : State) : State :=
  let a := taskAskOf s qi c.cmd c.serial
  let x := taskAt s t
  let f := fetchedOf x
  let st := taskChecks s a f
  if st ≠ stOk then settle ue (endCommand qi c.serial st (freeTask t s))
  else if outranked s qi c ∨ ¬ resourcesFree s a x.sheetUnits.sum (progSeqs (progOf a f x.lanterns.length)) ∨
      (progPins s (progOf a f x.lanterns.length)).any (fun k => tableLoading s k.1 k.2) then s
  else
    let s := modInFlight qi c.serial (fun c => { c with started := true }) s
    let s := allotTask a t s
    settle ue (runTask t x.args (modTask t (fun x => { x with deadline := a.deadline }) s))

/-- A POST whose item has been read hands it over. -/
def postFetched (ue : Ue) (qi pi : Nat) (c : InFlight) (x : MemRead × State) : State :=
  if x.1.status ≠ stOk then settle ue (endCommand qi c.serial x.1.status x.2)
  else settle ue (endCommand qi c.serial stOk (postItem pi x.1.data x.2))

/-- A POST hands its item over when the pilot queue has room (R299, R309, R311). -/
def startPost (ue : Ue) (qi : Nat) (c : InFlight) (s : State) : State :=
  let p := (queueAt s qi).part
  match pilotNamed s p (fld c.cmd 40 1) with
  | none => settle ue (endCommand qi c.serial stBadArg s)
  | some pi =>
    if ¬ pilotTakes s pi then settle ue (endCommand qi c.serial stQueueStopped s)
    else if ¬ pilotRoom s pi ∨ rangeWaits s false (fld c.cmd 48 8) 64 then s
    else
      let s := modInFlight qi c.serial (fun c => { c with started := true }) s
      postFetched ue qi pi c (memRead (feReq p 6 (queueAt s qi).q) ue (fld c.cmd 48 8) 64 s)

/-- Whether a FABRIC command's frames leave by an East port: its destination's route stands at one (R10, R192). -/
def fabricEast (s : State) (c : InFlight) : Bool :=
  match routeTo s true (fld c.cmd 40 8 / 2 ^ 48) with
  | some e => rtMode e ≠ 0 && ((choosePort s e (rtMode e == 1) (rtVer e)).map (fun p => !linkWest s p)).getD false
  | none => false

/-- A FABRIC command starts: in West at once, in East by a dispatch record to the agent. -/
def startFabric (ue : Ue) (qi : Nat) (c : InFlight) (s : State) : State :=
  if fabricEast s c then sendDispatch (.fabric qi) (modInFlight qi c.serial (fun c => { c with started := true, east := true }) s)
  else settle ue (driveFabric ue (modInFlight qi c.serial (fun c => { c with started := true }) s))

/-- A held command starts if what it waits for is there (R300, R301). -/
def tryStart (ue : Ue) (qi : Nat) (c : InFlight) (s : State) : State :=
  if c.started ∨ c.isEnded ∨ c.killed ≠ 0 ∨ ¬ dispatchOpen s ∨ ¬ orderFree s qi c then s else
  match cmdType c.cmd with
  | 1 => (match c.task with
    | some t => startTask ue qi c t s
    | none => s)
  | 2 | 3 =>
    if copySpace s then sendDispatch (.copyChunk qi) (modInFlight qi c.serial (fun c => { c with started := true, deadline := deadlineOf s c.cmd }) s)
    else s
  | 4 => startFabric ue qi c s
  | 5 => settle ue (endCommand qi c.serial stOk (modInFlight qi c.serial (fun c => { c with started := true }) s))
  | 6 => startWait ue qi c s
  | 7 => startPost ue qi c s
  | _ => s

/-- The command of a queue that is dispatched and not started. -/
def heldCommand (s : State) (qi : Nat) : Option InFlight := (queueAt s qi).inflight.find? (fun c => !c.started && !c.isEnded)

/-- The held command of a queue starts if it can. -/
def resumeQueue (qi : Nat) (ue : Ue) (s : State) : State :=
  match heldCommand s qi with
  | some c => tryStart ue qi c s
  | none => s

/-- DISPATCH_RESUME (R300). -/
def execDispatchResume (qi : Nat) (ue : Ue) (s : State) : Host.Outcome State Fault Refusal := whenServing (resumeQueue qi ue) s

/-- The command of TYPE `ty` that stands at a queue's dispatch, with the state in which it may go on. -/
def atType (s : State) (qi ty : Nat) : Option AtDispatch :=
  if ¬ dispatchOpen s ∨ ¬ queueServed s (queueAt s qi) then none
  else (queueAt s qi).atDispatch.filter (fun d => cmdType d.cmd == ty)

/-- A command leaves dispatch to be looked at by its type. -/
def takeDispatch (qi : Nat) (s : State) : State := modQueue qi (fun q => { q with atDispatch := none }) s

/-- What the handles of a command at dispatch come to now: an object or fence freed since they were checked is revoked (R274). -/
def handlesNow (s : State) (qi : Nat) (d : AtDispatch) : DispatchCheck := checkHandles s (queueAt s qi).part d.cmd d.handles

/-- A command whose own checks gave a status is refused, or admitted and started where it can be; so is one whose handles no longer hold.
Where the queue stopped in the meantime (a halt that its own reads caused), it is discarded with the fetched ones. -/
def passType (ue : Ue) (qi : Nat) (d : AtDispatch) (st : Nat) (task : Option Nat) (s : State) : State :=
  let k := handlesNow s qi d
  if k.status ≠ stOk then failAtDispatch ue qi (put d.cmd 8 (le 4 k.fence)) k.status (takeDispatch qi s)
  else if st ≠ stOk then failAtDispatch ue qi d.cmd st (takeDispatch qi s)
  else if (queueAt s qi).state ≠ .active then
    modQueue qi (fun q => { q with atDispatch := none, discarded := q.discarded ++ [(stResetLost, d.cmd)] }) s
  else resumeQueue qi ue (admitCommand qi d task s)

end Sys2Proof.Machine
end

