-- ==== Sys2Proof/Machine/Commands.lean ====
section
/-! DEFINITION. The commands of a queue by type (R296 to R299): TASK, COPY and IMPORT with their chunks (R297, R250), FABRIC,
SIGNAL, WAIT, POST, and how each ends; the sealed records between front end and agent (R10, R23). -/
namespace Sys2Proof.Machine

/-! ## TASK (R296) -/

/-- A TASK whose program has been read is checked, and it starts or waits. -/
def taskChecked (qi : Nat) (ue : Ue) (d : AtDispatch) (a : TaskAsk) (x : Fetched × State) : State :=
  if taskChecks x.2 a x.1 ≠ stOk ∨ (handlesNow x.2 qi d).status ≠ stOk then passType ue qi d (taskChecks x.2 a x.1) none x.2
  else passType ue qi d stOk (some (prepareTask a x.1 x.2).1) (prepareTask a x.1 x.2).2

/-- A TASK at dispatch: its program is read. -/
def taskCommand (qi : Nat) (ue : Ue) (s : State) : State :=
  match atType s qi 1 with
  | none => s
  | some d =>
    let a := taskAskOf s qi d.cmd (queueAt s qi).serial
    if ¬ taskFieldsOk d.cmd ∨ ¬ setOk s a.part a.mask a.w then passType ue qi d stBadArg none s
    else if rangeWaits s false a.prog 64 then s
    else taskChecked qi ue d a (fetchProgram ue a (takeDispatch qi s))

/-- TASK (R296). -/
def execTask (qi : Nat) (ue : Ue) (s : State) : Host.Outcome State Fault Refusal := whenServing (taskCommand qi ue) s

/-! ## COPY and IMPORT (R250, R297) -/

/-- Chunks of a COPY or IMPORT. -/
def chunkCount (c : Bytes) : Nat := if cmdType c = 2 then (fld c 56 6 + 65535) / 65536 else fld c 58 2

/-- Whether a COPY's source and destination are host addresses. -/
def srcHost (c : Bytes) : Bool := cmdType c == 2 && bit (fld c 62 1) 0
def dstHost (c : Bytes) : Bool := cmdType c == 2 && bit (fld c 62 1) 1

/-- A COPY's own checks (R297). -/
def copyStatus (s : State) (p : Nat) (c : Bytes) : Nat :=
  let len := fld c 56 6
  if len % 64 ≠ 0 ∨ len < 64 ∨ len > 2 ^ 40 then stBadArg
  else if (srcHost c ∨ dstHost c) ∧ ((partAt s p).tdi = .configLocked ∨ (partAt s p).tdi = .error) then stBadArg
  else stOk

/-- COPY at dispatch. -/
def copyCommand (qi : Nat) (s : State) : State :=
  match atType s qi 2 with
  | none => s
  | some d => passType {} qi d (copyStatus s (queueAt s qi).part d.cmd) none s

/-- COPY (R297). -/
def execCopy (qi : Nat) (s : State) : Host.Outcome State Fault Refusal := whenServing (copyCommand qi) s

/-- IMPORT at dispatch. -/
def importCommand (qi : Nat) (s : State) : State :=
  match atType s qi 3 with
  | none => s
  | some d => passType {} qi d (if fld d.cmd 58 2 = 0 then stBadArg else stOk) none s

/-- IMPORT (R250). -/
def execImportCmd (qi : Nat) (s : State) : Host.Outcome State Fault Refusal := whenServing (importCommand qi) s

/-- Offset and bytes of chunk `k` of a COPY. -/
def copyChunk (c : Bytes) (k : Nat) : Nat × Nat := (65536 * k, min 65536 (fld c 56 6 - 65536 * k))

/-- Chunks the copy-and-cipher engine holds. -/
def chunksFlying (s : State) : Nat := ((s.fe.queues.flatMap (fun e => e.2.inflight)).map (fun c => c.flying)).sum

/-- Chunk `k` of a command begins: a host source is asked for. -/
def beginChunk (qi : Nat) (c : Bytes) (k : Nat) (s : State) : State :=
  let q := queueAt s qi
  if srcHost c then emit (.hostRead q.part (queuePasid s q.part q.q) (BitVec.ofNat 64 (fld c 40 8 + (copyChunk c k).1)) (copyChunk c k).2) s else s

/-- As many chunks of a command begin as the engine has room for, up to 8 in flight. -/
def fillChunks (qi serial : Nat) : Nat → State → State
  | 0, s => s
  | fuel + 1, s =>
    match (queueAt s qi).inflight.find? (fun c => c.serial == serial) with
    | none => s
    | some c =>
      if chunksFlying s ≥ 8 ∨ c.killed ≠ 0 ∨ c.doneEast ∨ c.next + c.flying ≥ chunkCount c.cmd then s
      else fillChunks qi serial fuel (beginChunk qi c.cmd (c.next + c.flying) (modInFlight qi serial (fun c => { c with flying := c.flying + 1 }) s))

/-- The agent takes up a queue's started copies. -/
def beginCopies (qi : Nat) (s : State) : State :=
  ((queueAt s qi).inflight.filter (fun c => (cmdType c.cmd == 2 || cmdType c.cmd == 3) && c.started && !c.isEnded)).foldl
    (fun s c => fillChunks qi c.serial 8 s) s

/-- The oldest command of a type with chunks in flight. -/
def flyingCommand (s : State) (qi ty : Nat) : Option InFlight :=
  (queueAt s qi).inflight.find? (fun c => cmdType c.cmd == ty && c.flying ≠ 0 && !c.isEnded)

/-- A chunk has ended with a status: the next begins, or the engine reports the command's end; of a command that was ended
from outside no further chunk begins (R307). -/
def chunkEnded (ue : Ue) (qi : Nat) (c : InFlight) (st : Nat) (s : State) : State :=
  let n := c.next + 1
  if c.killed ≠ 0 then settle ue (modInFlight qi c.serial (fun c => { c with next := n, flying := 0 }) s)
  else if st ≠ stOk ∨ n ≥ chunkCount c.cmd then
    sendReport (.copyDone qi) (modInFlight qi c.serial (fun c => { c with next := n, flying := 0, result := st, doneEast := true }) s)
  else fillChunks qi c.serial 8 (modInFlight qi c.serial (fun c => { c with next := n, flying := c.flying - 1 }) s)

/-- The engine's request under a memory key ID: the COPY bit is needed too (R36). -/
def copyReq (s : State) (qi access addr : Nat) : Req :=
  let q := queueAt s qi
  let dl := ((q.inflight.find? (fun c => c.started && !c.isEnded)).map (fun c => c.deadline)).getD 0
  { (windowReq s q.part q.q access addr) with master := 3, engines := 4, deadline := dl }

/-- Whether two ranges of one space overlap. -/
def overlaps (a b len : Nat) : Bool := a < b + len && b < a + len

/-- Whether a COPY's source and destination overlap: its destination contents are then undefined. -/
def copyOverlaps (c : Bytes) : Bool :=
  let src := fld c 40 8
  let dst := fld c 48 8
  if srcHost c != dstHost c then false
  else if srcHost c then overlaps src dst (fld c 56 6)
  else overlaps (domainOf src) (domainOf dst) (fld c 56 6)

/-- Bytes read for a context (R268). -/
def chargeCopyRead (c : Bytes) (s0 : State) (a n : Nat) (s : State) : State := charge (cmdCtx c) (Context.hasRead s0 a n) s
def chargeCopyWrite (c : Bytes) (s0 : State) (a n : Nat) (s : State) : State := charge (cmdCtx c) (Context.wrote s0 a n) s

/-- A chunk's bytes go to the host, or to memory. -/
def chunkStored (qi : Nat) (ue : Ue) (c : InFlight) (dst n : Nat) (s0 : State) (x : Bytes × State) : State :=
  if dstHost c.cmd then
    let q := queueAt x.2 qi
    chunkEnded ue qi c stOk (emit (.hostWrite q.part (queuePasid x.2 q.part q.q) (BitVec.ofNat 64 dst) x.1) x.2)
  else
    let y := memWrite (copyReq x.2 qi 2 dst) ue dst x.1 x.2
    chunkEnded ue qi c y.1 (chargeCopyWrite c.cmd s0 dst n y.2)

/-- A chunk that has been read; the destination's contents are undefined where it overlaps the source. -/
def chunkFetched (qi : Nat) (ue : Ue) (c : InFlight) (src dst n : Nat) (s0 : State) (x : MemRead × State) : State :=
  if x.1.status ≠ stOk then chunkEnded ue qi c x.1.status x.2
  else
    let s := if srcHost c.cmd then x.2 else chargeCopyRead c.cmd s0 src n x.2
    chunkStored qi ue c dst n s0 (if copyOverlaps c.cmd then (unstatedBytes n s, drawn n s) else (x.1.data, s))

/-- The next chunk of a COPY is moved. -/
def copyChunkDone (qi : Nat) (h : HostRead) (ue : Ue) (s : State) : State :=
  match flyingCommand s qi 2 with
  | none => s
  | some c =>
    let k := copyChunk c.cmd c.next
    let src := fld c.cmd 40 8 + k.1
    let dst := fld c.cmd 48 8 + k.1
    if islandStopped s .copyEngine ∨ (¬ srcHost c.cmd ∧ rangeWaits s false src k.2) ∨ (¬ dstHost c.cmd ∧ rangeWaits s true dst k.2) then s
    else chunkFetched qi ue c src dst k.2 s
      (if srcHost c.cmd then (({ status := h.status, data := fit k.2 h.data } : MemRead), s) else memRead (copyReq s qi 1 src) ue src k.2 s)

/-- COPY_CHUNK_DONE (R297). -/
def execCopyChunkDone (qi : Nat) (host : HostRead) (ue : Ue) (s : State) : Host.Outcome State Fault Refusal :=
  whenServing (copyChunkDone qi host ue) s

/-- A weight chunk's fields (R249). -/
def wcLength (h : Bytes) : Nat := fld h 16 4
def wcIv (h : Bytes) : Bytes := sub h 4 4 ++ (sub h 8 8).reverse

/-- Whether a chunk's header is one of R249 with the INDEX expected; its reserved bytes are ignored (R5). -/
def wcOk (h : Bytes) (index : Nat) : Bool :=
  fld h 0 1 == 1 && fld h 8 8 == index && 64 ≤ wcLength h && wcLength h ≤ 1048576 && wcLength h % 64 == 0

/-- A use of a MODEL slot by an import (R236, R250): the slot must be the partition's own, of class MODEL, for IMPORT. -/
def useModel (k p : Nat) (s : State) : Nat × State :=
  let v := slotAt s k
  if v.state = .empty ∨ v.cls ≠ .model ∨ v.owner ≠ p ∨ ¬ v.engines.toNat.testBit 3 then (stKeyIdDenied, s) else useSlot k s

/-- The bytes of a chunk that lie in lantern `l`: offset and length of each stretch within a 4 KiB stripe. -/
def chunkParts (s : State) (l dst n : Nat) : List (Nat × Nat) :=
  ((List.range (n / 4096 + 2)).map (fun i =>
    let a := if i = 0 then 0 else (dst / 4096 + i) * 4096 - dst
    let b := min n ((dst / 4096 + i + 1) * 4096 - dst)
    (a, b - a))).filter (fun p => 0 < p.2 && (match place s (domainOf dst + p.1) with
      | some (.stacked k _) => k == l
      | _ => false))

/-- The lanterns other than `l` in which a chunk has bytes. -/
def chunkLanterns (s : State) (l dst n : Nat) : List Nat :=
  (List.range s.build.lanterns).filter (fun k => k ≠ l && chunkParts s k dst n ≠ [])

/-- A chunk's stretches are written one by one, as far as `own` takes them: the first status that is not OK, and the state after. -/
def writeParts (qi : Nat) (ue : Ue) (dst : Nat) (b : Bytes) (parts : List (Nat × Nat)) (s : State) : Nat × State :=
  parts.foldl (fun (acc : Nat × State) p =>
    if acc.1 ≠ stOk then acc else memWrite (copyReq acc.2 qi 2 (dst + p.1)) ue (dst + p.1) (sub b p.1 p.2) acc.2) (stOk, s)

/-- The stretches of a chunk that go to no other lantern: those of lantern `l` and those of the capacity tier. -/
def ownParts (s : State) (l dst n : Nat) : List (Nat × Nat) :=
  ((List.range (n / 4096 + 2)).map (fun i =>
    let a := if i = 0 then 0 else (dst / 4096 + i) * 4096 - dst
    let b := min n ((dst / 4096 + i + 1) * 4096 - dst)
    (a, b - a))).filter (fun p => 0 < p.2 && (match place s (domainOf dst + p.1) with
      | some (.stacked k _) => k == l
      | _ => true))

/-- The bytes of a chunk for another lantern leave as exchange records (R108, R250). -/
def sendImport (qi serial l k dst : Nat) (b : Bytes) (s : State) : State :=
  let parts := chunkParts s k dst b.length
  let x := sendExchange l k ((⟨4, (queueAt s qi).part, qi, serial, 0⟩ : ExchLead).bytes ++ (le 8 dst ++ le 4 b.length ++ zeros 4) ++
    parts.flatMap (fun p => sub b p.1 p.2)) s
  modInFlight qi serial (fun c => { c with exch := c.exch ++ x.1 }) x.2

/-- The chunk of an IMPORT whose bytes have all landed has ended. -/
def importWaiting (qi : Nat) (s : State) : State :=
  match flyingCommand s qi 3 with
  | none => s
  | some c => if c.storing ∧ c.exch = [] then chunkEnded {} qi c c.result (modInFlight qi c.serial (fun c => { c with storing := false }) s) else s

/-- A deciphered chunk is written by the lantern that deciphered it: its own bytes and those of the capacity tier at once, bytes of other
lanterns through the exchange; the chunk ends when all have landed. -/
def importStored (qi : Nat) (ue : Ue) (c : InFlight) (l dst n : Nat) (s0 : State) (plain : Option Bytes) (s : State) : State :=
  match plain with
  | none => chunkEnded ue qi c stIntegrityFail s
  | some b =>
    let y := writeParts qi ue dst b (ownParts s l dst n) s
    let s := chargeCopyWrite c.cmd s0 dst n y.2
    let ks := chunkLanterns s l dst n
    if y.1 ≠ stOk ∨ ks = [] then chunkEnded ue qi c y.1 s
    else ks.foldl (fun s k => sendImport qi c.serial l k dst b s) (modInFlight qi c.serial (fun c => { c with storing := true, result := stOk }) s)

/-- A chunk whose body has been read under its header `h`. -/
def importBody (qi : Nat) (ue : Ue) (c : InFlight) (key h : Bytes) (l src dst : Nat) (s0 : State) (x : MemRead × State) : State :=
  if x.1.status ≠ stOk then chunkEnded ue qi c x.1.status x.2
  else
    let n := wcLength h
    importStored qi ue c l dst n s0 (gcmOpen key (wcIv h) h (x.1.data.take n) (x.1.data.drop n)) (chargeCopyRead c.cmd s0 src (80 + n) x.2)

/-- A chunk whose header has been read. -/
def importHead (qi : Nat) (ue : Ue) (c : InFlight) (key : Bytes) (l index src dst : Nat) (s0 : State) (x : MemRead × State) : State :=
  if x.1.status ≠ stOk then chunkEnded ue qi c x.1.status x.2
  else if ¬ wcOk x.1.data index then chunkEnded ue qi c stBadArg x.2
  else importBody qi ue c key x.1.data l src dst s0 (memRead (copyReq x.2 qi 1 (src + 64)) ue (src + 64) (wcLength x.1.data + 16) x.2)

/-- A chunk whose key slot has been used. -/
def importKeyed (qi : Nat) (ue : Ue) (c : InFlight) (key : Bytes) (l index src dst : Nat) (s0 : State) (x : Nat × State) : State :=
  if x.1 ≠ stOk then chunkEnded ue qi c x.1 x.2
  else importHead qi ue c key l index src dst s0 (memRead (copyReq x.2 qi 1 src) ue src 64 x.2)

/-- The next chunk of an IMPORT: a lantern deciphers it and writes it, or the command ends. -/
def importChunkDone (qi : Nat) (ue : Ue) (s : State) : State :=
  match flyingCommand s qi 3 with
  | none => s
  | some c =>
    let slot := fld c.cmd 56 2
    let index := fld c.cmd 60 4 + c.next
    let src := fld c.cmd 40 8 + 1048704 * c.next
    let dst := fld c.cmd 48 8 + 1048576 * c.next
    let l := index % max 1 s.build.lanterns
    if c.storing then importWaiting qi s
    else if islandStopped s .copyEngine ∨ islandStopped s (.crypto l) ∨ rangeWaits s false src 1048704 ∨ rangeWaits s true dst 1048576 then s
    else if lanternSnuffed s l then chunkEnded ue qi c stDomainSnuffed s
    else importKeyed qi ue c (slotKey s (lanternWest s l) slot) l index src dst s (useModel slot (queueAt s qi).part s)

/-- IMPORT_CHUNK_DONE (R250). -/
def execImportChunkDone (qi : Nat) (ue : Ue) (s : State) : Host.Outcome State Fault Refusal := whenServing (importChunkDone qi ue) s

/-! ## FABRIC, SIGNAL, WAIT, POST (R298, R299) -/

/-- A FABRIC command's own checks (R298, R199). -/
def fabricStatus (c : Bytes) : Nat :=
  let len := fld c 56 4
  let op := fld c 60 1
  let sb := fld c 61 1
  if len = 0 ∨ op = 0 ∨ op > 5 then stBadArg
  else if op = opAtomic then (if (len = 4 ∨ len = 8) ∧ atomicOk (sb / 16) (sb % 16) ∧ len = elemBytes (sb % 16) then stOk else stBadArg)
  else if op = opReduce then (if reduceOk (sb / 16) (sb % 16) 0x11 ∧ len % elemBytes (sb % 16) = 0 then stOk else stBadArg)
  else if sb ≠ 0 then stBadArg
  else if op = opTrigger then (if 8 ≤ len ∧ len ≤ 64 ∧ len % 8 = 0 then stOk else stBadArg)
  else stOk

/-- FABRIC at dispatch. -/
def fabricCommand (qi : Nat) (ue : Ue) (s : State) : State :=
  match atType s qi 4 with
  | none => s
  | some d => passType ue qi d (fabricStatus d.cmd) none s

/-- FABRIC (R298). -/
def execFabric (qi : Nat) (ue : Ue) (s : State) : Host.Outcome State Fault Refusal := whenServing (fabricCommand qi ue) s

/-- SIGNAL at dispatch. -/
def signalCommand (qi : Nat) (ue : Ue) (s : State) : State :=
  match atType s qi 5 with
  | none => s
  | some d => passType ue qi d stOk none s

/-- SIGNAL (R299). -/
def execSignal (qi : Nat) (ue : Ue) (s : State) : Host.Outcome State Fault Refusal := whenServing (signalCommand qi ue) s

/-- WAIT at dispatch: a target at or above 2^63 is refused (R282). -/
def waitCommand (qi : Nat) (ue : Ue) (s : State) : State :=
  match atType s qi 6 with
  | none => s
  | some d => passType ue qi d (if fld d.cmd 48 8 ≥ 2 ^ 63 then stFenceRange else stOk) none s

/-- WAIT (R299). -/
def execWait (qi : Nat) (ue : Ue) (s : State) : Host.Outcome State Fault Refusal := whenServing (waitCommand qi ue) s

/-- POST at dispatch. -/
def postCommand (qi : Nat) (ue : Ue) (s : State) : State :=
  match atType s qi 7 with
  | none => s
  | some d => passType ue qi d (if fld d.cmd 40 1 > 63 then stBadArg else stOk) none s

/-- POST (R299). -/
def execPost (qi : Nat) (ue : Ue) (s : State) : Host.Outcome State Fault Refusal := whenServing (postCommand qi ue) s

/-- WAIT_DEADLINE (R284): the deadline cycle's signals are in. -/
def execWaitDeadline (ue : Ue) (s : State) : Host.Outcome State Fault Refusal := whenServing (settleLate ue) s

/-! ## Records between the halves (R10, R23) -/

/-- The East part of a task begins. -/
def startEast (t : Nat) (s : State) : State :=
  let x := taskAt s t
  if ¬ x.live ∨ x.eastGo then s
  else startWicks t (eastPart s x) x.args (modTask t (fun x => { x with eastGo := true }) s)

/-- A record whose counter or seal fails: it is rejected and the dispatch path's fault recorded (R10, R376). -/
def dispatchPathFault (kind : Nat) (s : State) : State :=
  recordFault { cls := clsDispatchPath, kind := kind, inst := 0, status := stIntegrityFail } s

/-- The agent takes up a queue's FABRIC commands whose frames leave by East ports. -/
def takeFabric (qi : Nat) (s : State) : State :=
  modQueue qi (fun q => { q with inflight := q.inflight.map (fun c => if c.east ∧ c.started then { c with taken := true } else c) }) s

/-- A command whose East engine has ended, of a queue and of the types named. -/
def eastEnded (s : State) (qi : Nat) (tys : List Nat) : Option InFlight :=
  (queueAt s qi).inflight.find? (fun c => c.doneEast && !c.isEnded && tys.contains (cmdType c.cmd))

/-- A queue's command ends with what its East engine reported (R23). -/
def endReported (ue : Ue) (qi : Nat) (tys : List Nat) (s : State) : State :=
  match eastEnded s qi tys with
  | none => s
  | some c => settle ue (endCommand qi c.serial c.result s)

/-- The agent takes a dispatch record. -/
def takeDispatchRecord (r : SealedRecord) (s : State) : State :=
  if islandStopped s .feAgent then s
  else
  let (inj, s) := injectCheck clsDispatchPath kindFeAgent 0 0 0 s
  match (if inj ∨ r.counter ≠ s.keys.dispatchRx + 1 then none else openRecord s true r) with
  | none => dispatchPathFault kindFeAgent s
  | some b =>
    let s := onKeys (fun k => { k with dispatchRx := r.counter }) s
    match dispatchBodyOf b with
    | some (.startTask t) => startEast t s
    | some (.abortTask t) => modTask t (fun x => if x.live then { x with aborting := true } else x) s
    | some (.copyChunk qi) => beginCopies qi s
    | some (.fabric qi) => settle {} (driveFabric {} (takeFabric qi s))
    | none => s

/-- DISPATCH_RECORD (R10). -/
def execDispatchRecord (r : SealedRecord) (s : State) : Host.Outcome State Fault Refusal := whenServing (takeDispatchRecord r) s

/-- A task that runs for a command has ended everywhere: its wicks go and its command ends (R61, R295). -/
def finishTask (ue : Ue) (t : Nat) (s : State) : State :=
  let x := taskAt s t
  match x.purpose with
  | .pilot _ => s
  | .command qi n =>
    if ¬ taskEnded s t then s else
    let s := freeTask t (endRun t s)
    settle ue (if x.failed then endCommand qi n x.status s else if x.aborting then endKilled qi n s else endCommand qi n stOk s)

/-- A task's East part has ended: its counters of R134 are added to the context's. -/
def eastReported (t nan sat : Nat) (s : State) : State :=
  let x := taskAt s t
  if ¬ x.live then s else
  charge x.ctx (fun c => { c with nanToInt := satTo 32 (c.nanToInt + nan), saturated := satTo 32 (c.saturated + sat) })
    (modTask t (fun x => { x with eastDone := true }) s)

/-- The report of a task's East part leaves with the counters not yet added (R134, R269). -/
def reportEast (t : Nat) (s : State) : State :=
  let x := taskAt s t
  sendReport (.taskDone t x.nanEast x.satEast) (modTask t (fun x => { x with reported := true, nanEast := 0, satEast := 0 }) s)

/-- The front end takes a completion report. -/
def takeReport (r : SealedRecord) (ue : Ue) (s : State) : State :=
  if islandStopped s .frontEnd then s
  else
  let (inj, s) := injectCheck clsDispatchPath kindFrontEnd 0 0 0 s
  match (if inj ∨ r.counter ≠ s.keys.reportRx + 1 then none else openRecord s false r) with
  | none => dispatchPathFault kindFrontEnd s
  | some b =>
    let s := onKeys (fun k => { k with reportRx := r.counter }) s
    match reportBodyOf b with
    | some (.taskDone t nan sat) => finishTask ue t (eastReported t nan sat s)
    | some (.copyDone qi) => endReported ue qi [2, 3] s
    | some (.fabricDone qi) => endReported ue qi [4] s
    | none => s

/-- COMPLETION_REPORT (R23). -/
def execCompletionReport (r : SealedRecord) (ue : Ue) (s : State) : Host.Outcome State Fault Refusal := whenServing (takeReport r ue) s

/-- Whether the East part of a task has begun and ended and stands unreported. -/
def eastReady (s : State) (t : Nat) : Bool :=
  let x := taskAt s t
  x.live && x.eastGo && !x.reported && !(eastPart s x).isEmpty && partEnded s t (eastPart s x)

/-- A task's completion report: East's goes to the front end; a task that has ended everywhere ends its command. -/
def reportTask (t : Nat) (ue : Ue) (s : State) : State :=
  if eastReady s t then reportEast t s
  else if islandStopped s .frontEnd then s
  else finishTask ue t s

/-- TASK_COMPLETION_REPORT (R61). -/
def execTaskCompletionReport (t : Nat) (ue : Ue) (s : State) : Host.Outcome State Fault Refusal := whenServing (reportTask t ue) s

end Sys2Proof.Machine
end

