-- ==== Sys2Proof/Machine/Bringup.lean ====
section
/-! DEFINITION. Link ports: bring-up (R215 to R217), link keys and their rolls (R209, R211, R20), the time measurements between
devices (R406 to R409, R475), the reset of a port (R223, R473). -/
namespace Sys2Proof.Machine

/-! ## Link keys (R209, R211) -/

/-- The key of a direction (0 requester to responder) and generation under a session. -/
def linkKey (master : Bytes) (session : Word32) (dir gen : Nat) : Bytes :=
  hkdfExpand master (ascii "EONAL-LINK-1" ++ le 1 dir ++ le 4 gen ++ le 4 session.toNat) 32

/-- The direction number of a port's sending or receiving side. -/
def linkDir (l : Link) (recv : Bool) : Nat := if l.requester = recv then 1 else 0

/-- A key put into a port's link engine. -/
def putLinkKey (p : Nat) (recv next : Bool) (key : Bytes) (s : State) : State :=
  modLink p (fun l => match recv, next with
    | false, false => { l with txKey := key }
    | false, true => { l with txNext := key }
    | true, false => { l with rxKey := key }
    | true, true => { l with rxNext := key }) s

/-- The TARGET byte of a TRANSFER slot (R233). -/
def transferTarget (s : State) (p : Nat) (recv next : Bool) : Nat := p - westOf s.build.links + 16 * b2n recv + 32 * b2n next

/-- The Lamplighter loads one link key: at once in West, in East by a KEY message on TRANSFER slot 1,055 (R209). Without its session's
secret, which a block reset clears (R217), it has none to load. -/
def loadLinkKey (p : Nat) (recv next : Bool) (gen : Nat) (s : State) : State :=
  let l := linkAt s p
  let key := linkKey l.master l.newSession (linkDir l recv) gen
  if l.master = [] then s
  else if linkWest s p then putLinkKey p recv next key s
  else
    let v : KeySlot := { key := key, cls := .transfer, state := .active, owner := 17, engines := 0x20#8
                         target := BitVec.ofNat 8 (transferTarget s p recv next), uses := uncounted }
    sendKey true (keyArg 1055 1) (key ++ v.attrs) s

/-- What a TIME_PROBE or ROLL needs: a HOP frame to the peer by the port itself. -/
def peerFrame (p op : Nat) (payload : Bytes) (s : State) : State :=
  let west := linkWest s p
  if linkStopped s west then s else
  let l := linkAt s p
  let stamp := nextStamp s west
  let h := headerBytes (16 * l.major + l.minor) (64 + 32 * b2n (!west)) 1 s.fabric.node stamp { op := op, dst := l.peer, len := payload.length }
  portOut west p h payload [] (takeStamp west s)

/-- Whether the next keys of a port are those of the session that renews its own (R217): they are loaded in step 6. -/
def Link.freshKeys (l : Link) (current : Word32) : Bool := l.renewing && decide (l.step ≥ 6) && current ≠ l.newSession

/-- Whether a port sends no ROLL now: its link engines stand stopped, or it lies in East and the seam is not paired (R20). -/
def rollWaits (s : State) (p : Nat) : Bool := linkStopped s (linkWest s p) || (!linkWest s p && !s.seam.paired)

/-- The Lamplighter loads the generation after the one just taken, where it still holds that session's secret (R211). -/
def loadAfter (p : Nat) (recv : Bool) (gen : Nat) (s : State) : State :=
  let l := linkAt s p
  if (if recv then l.rxSession else l.session) = l.newSession then loadLinkKey p recv true (gen + 1) s else s

/-- A direction's sender switches to the next key after its ROLL; without a next key, or while no ROLL can leave, it keeps the old one
(R20, R211). -/
def rollSend (p : Nat) (s : State) : State :=
  let l := linkAt s p
  if l.txNext = [] ∨ rollWaits s p then modLink p (fun l => { l with rollDeferred := true }) s
  else
    let fresh := l.freshKeys l.session
    let gen := if fresh then 0 else l.txGen + 1
    let s := peerFrame p 0x22 (le 4 gen) s
    let s := modLink p (fun l => { l with txKey := l.txNext, txNext := [], txGen := gen, txCtr := 0, genStart := clock s (linkWest s p), rollDeferred := false
                                          session := if fresh then l.newSession else l.session }) s
    loadAfter p false gen s

/-- The renewal of a session ends when both directions use it; the old session is closed (R217). -/
def endRenewal (p : Nat) (s : State) : State :=
  let l := linkAt s p
  if l.renewing ∧ l.step ≥ 6 ∧ l.session = l.newSession ∧ l.rxSession = l.newSession then
    emit (.spdm p 9) (modLink p (fun l => { l with renewing := false, step := 8 }) s)
  else s

/-- The receiver switches after a ROLL that names the next generation. -/
def rollReceive (p gen : Nat) (s : State) : State :=
  let l := linkAt s p
  let fresh := l.freshKeys l.rxSession
  let want := if fresh then 0 else l.rxGen + 1
  if gen ≠ want ∨ l.rxNext = [] then s
  else
    let s := modLink p (fun l => { l with rxKey := l.rxNext, rxNext := [], rxGen := gen, rxCtr := 0
                                          rxSession := if fresh then l.newSession else l.rxSession }) s
    endRenewal p (loadAfter p true gen s)

/-! ## Bring-up (R215) -/

/-- A step of the bring-up failed: the port is FAILED, the manager hears of it, a Note stands in the store. -/
def failPort (p st : Nat) (s : State) : State :=
  let s := modLink p (fun l => { l with state := .failed, failStep := l.step, failStatus := st, failedAt := clock s (linkWest s p), renewing := false }) s
  postOpenEvent 16 evPortFailed (recordFault { cls := clsPortFailed, kind := kindLink, inst := p, status := st } s)

/-- The payload of HELLO; the spec names its fields and gives no layout, so the model fixes one: the two versions, the node, the
port, 4 reserved bytes, the domain ID, the block version. -/
def helloPayload (s : State) (p : Nat) : Bytes :=
  [0x10#8, 0x11#8] ++ le 2 s.fabric.node ++ le 1 p ++ zeros 3 ++ fit 16 s.fabric.domId ++ [1#8, 0#8, 0#8] ++ zeros 5

/-- A CONTROL frame (R196). -/
def controlFrame (p op : Nat) (payload : Bytes) (s : State) : State :=
  let west := linkWest s p
  if linkStopped s west then s else
  let h := headerBytes 0x11 (32 * b2n (!west)) 1 s.fabric.node (nextStamp s west) { op := op, dst := 0xFFFF, len := payload.length }
  emit (.frame p ⟨h, payload, zeros 16⟩) (traceFrame p false h (takeStamp west s))

/-- Bring-up begins at a trained PEER port (R215 step 2). -/
def startBringup (p : Nat) (s : State) : State :=
  controlFrame p 0x20 (helloPayload s p) (modLink p (fun l => { l with state := .handshake, step := 2, renewing := false }) s)

/-- Whether a port failed less than a second ago, so that its bring-up may not begin again yet (R215). -/
def failedLately (s : State) (p : Nat) : Bool :=
  let l := linkAt s p
  l.failStep ≠ 0 && decide (clock s (linkWest s p) < l.failedAt + 1000000000)

/-- The link layer reports a port trained. -/
def linkTrainedStep (p : Nat) (s : State) : State :=
  if p ≥ s.build.links ∨ (linkAt s p).trained then s
  else if roleOf s p = 0 ∧ failedLately s p then modLink p (fun l => { l with trained := true, state := .failed }) s
  else
    let s := modLink p (fun l => { l with trained := true, state := .trained, step := 1 }) s
    if roleOf s p = 0 ∧ ¬ portFenced s p then startBringup p s else s

/-- LINK_TRAINED (R215). -/
def execLinkTrained (p : Nat) (s : State) : Host.Outcome State Fault Refusal := whenServing (linkTrainedStep p) s

/-- A FAILED port tries again, a second after it failed. -/
def retryBringup (p : Nat) (s : State) : State :=
  let l := linkAt s p
  if p < s.build.links ∧ l.state = .failed ∧ l.trained ∧ roleOf s p = 0 ∧ ¬ portFenced s p ∧ clock s (linkWest s p) ≥ l.failedAt + 1000000000 then startBringup p s else s

/-- PORT_BRINGUP_RETRY (R215). -/
def execPortBringupRetry (p : Nat) (s : State) : Host.Outcome State Fault Refusal := whenServing (retryBringup p) s

/-- Whether a frame may be a CONTROL frame of an operation at a PEER port. -/
def controlOk (s : State) (port op : Nat) (f : Frame) : Bool :=
  decide (port < s.build.links) && roleOf s port == 0 && f.header.length == 32 && fMode f.header == 0 && decide (fVer f.header / 16 ≤ 1) && fOp f.header == op && !portFenced s port

/-- The highest EFP version both sides list (R216): its minor number. -/
def commonVersion (b : Bytes) : Option Nat :=
  let vs := [fld b 0 1, fld b 1 1]
  if vs.contains 0x11 then some 1 else if vs.contains 0x10 then some 0 else none

/-- HELLO taken in (R215 steps 2 and 3). -/
def takeHello (port : Nat) (f : Frame) (s : State) : State :=
  let node := s.fabric.node
  let s := traceFrame port true f.header s
  if fOp f.header ≠ 0x20 then s
  else if ¬ controlOk s port 0x20 f ∨ f.payload.length ≠ 32 then dropFrame port s
  else
    let l := linkAt s port
    if ¬ l.trained ∨ ¬ (l.state = .trained ∨ l.state = .handshake) then dropFrame port s
    else
      let s := if l.state = .trained then startBringup port s else s
      match commonVersion f.payload with
      | none => failPort port stVersion s
      | some minor =>
        let peer := fld f.payload 2 2
        let s := modLink port (fun l => { l with peer := peer, peerPort := fld f.payload 4 1, major := 1, minor := minor, step := 3 }) s
        if peer = node then failPort port stBadArg s
        else
          let s := modLink port (fun l => { l with requester := decide (node < peer), step := 4 }) s
          if (linkAt s port).requester then emit (.spdm port 4) s else s

/-- EFP_HELLO (R215). -/
def execEfpHello (port : Nat) (f : Frame) (s : State) : Host.Outcome State Fault Refusal := whenServing (takeHello port f) s

/-- The 16 round trips of a measurement begin (R215 step 7, R407). -/
def startProbes (p : Nat) (s : State) : State :=
  let s := modLink p (fun l => { l with probes := 16, samples := [] }) s
  (List.range 16).foldl (fun s _ => peerFrame p 0x23 (le 8 (clock s (linkWest s p))) s) s

/-- Whether a port holds the keys it needs. -/
def keysThere (l : Link) : Bool := l.txKey ≠ [] && l.rxKey ≠ [] && l.txNext ≠ [] && l.rxNext ≠ []

/-- Whether a roll waits for its key or for a link engine that may send: a deferred one, or that of a renewal. -/
def rollPending (l : Link) : Bool := l.state == .up && l.txNext ≠ [] && (l.rollDeferred || l.freshKeys l.session)

/-- What follows when a port's keys have been loaded: the probes of a bring-up, the ROLL of a renewal, a deferred roll. -/
def keysLoaded (p : Nat) (s : State) : State :=
  let l := linkAt s p
  if l.state = .handshake ∧ l.step = 6 then
    (if keysThere l then startProbes p (modLink p (fun l => { l with step := 7 }) s) else s)
  else if rollPending l then endRenewal p (rollSend p s)
  else s

/-- Generation 0 of both directions is derived and loaded (R215 step 6), in a renewal as the next keys (R217). -/
def deriveKeys (p : Nat) (s : State) : State :=
  let l := linkAt s p
  if l.renewing then
    let s := modLink p (fun l => { l with step := 6, txNext := [], rxNext := [] }) s
    keysLoaded p (loadLinkKey p true true 0 (loadLinkKey p false true 0 s))
  else
    let s := modLink p (fun l => { l with step := 6, session := l.newSession, rxSession := l.newSession, txKey := [], txNext := [], rxKey := [], rxNext := []
                                          txGen := 0, rxGen := 0, txCtr := 0, rxCtr := 0, genStart := clock s (linkWest s p), rollDeferred := false }) s
    let s := loadLinkKey p true false 0 (loadLinkKey p false false 0 s)
    keysLoaded p (loadLinkKey p true true 1 (loadLinkKey p false true 1 s))

/-- The domain key of an epoch that the device holds. -/
def domainKey (s : State) (epoch : Nat) : Option Bytes :=
  if s.fabric.haveCur ∧ epoch = s.fabric.epoch then some (slotAt s 1027).key
  else if s.fabric.havePrev ∧ epoch = s.fabric.prevEpoch then some (slotAt s 1028).key
  else none

/-- The MAC of EFP_CONFIRM (R215 step 5). -/
def confirmMac (domainKey transcript : Bytes) : Bytes := hmac (hkdf [] domainKey (ascii "EONAL-PEER-1") 48) transcript

/-- This side's EFP_CONFIRM inside the session (R215 step 5): both node IDs, the version chosen, the domain ID, the epoch this node sends
under and the MAC under that epoch's domain key (R246). A node without a domain key fails here; the status is DESIGN CHOICE
(notes/assumptions/59.md). -/
def sendConfirm (p : Nat) (s : State) : State :=
  let l := linkAt s p
  match domainKey s s.fabric.sendEpoch with
  | none => failPort p stNotPermitted s
  | some k => emit (.efpConfirm p s.fabric.node l.peer (16 * l.major + l.minor) s.fabric.domId s.fabric.sendEpoch (confirmMac k l.transcript)) s

/-- Whether a port is in steps 4 and 5, for bring-up or renewal. -/
def shaking (l : Link) : Bool := (l.state == .handshake || (l.state == .up && l.renewing)) && (l.step == 4 || l.step == 5)

/-- One outcome of the SPDM exchange (R215 steps 4 and 5). -/
def spdmStep (p : Nat) (ev : SpdmEvent) (s : State) : State :=
  let l := linkAt s p
  match ev with
  | .progress => emit (.spdm p l.step) s
  | .sessionEstablished session master root transcript =>
    if l.step ≠ 4 then s
    else if ¬ s.fabric.trust.contains root then failPort p stIntegrityFail s
    else sendConfirm p (modLink p (fun l => { l with newSession := session, master := master, rootOk := true, transcript := transcript, step := 5 }) s)
  | .confirm selfNode peerNode version domain epoch mac =>
    if l.step ≠ 5 ∨ ¬ l.rootOk then failPort p stIntegrityFail s
    else if s.fabric.domState ≠ 2 ∨ selfNode ≠ l.peer ∨ peerNode ≠ s.fabric.node ∨ version ≠ 16 * l.major + l.minor ∨ domain ≠ s.fabric.domId then
      failPort p stNotPermitted s
    else match domainKey s epoch with
      | none => failPort p stIntegrityFail s
      | some k => if confirmMac k l.transcript = mac then deriveKeys p s else failPort p stIntegrityFail s
  | .endSession => if l.state = .handshake then failPort p stNotPermitted s else s
  | .failure st => failPort p st s

/-- A session's renewal begins at step 4 on a port that is UP (R217). -/
def beginRenewal (p : Nat) (s : State) : State := emit (.spdm p 4) (modLink p (fun l => { l with renewing := true, step := 4, rootOk := false }) s)

/-- Whether an SPDM message on an UP port asks for a renewal: the peer runs steps 4 to 6 again. -/
def asksRenewal (s : State) (p : Nat) (ev : SpdmEvent) : Bool :=
  (linkAt s p).state == .up && !(linkAt s p).renewing &&
    (match ev with
      | .progress => true
      | .sessionEstablished _ _ _ _ => true
      | _ => false)

/-- An SPDM frame taken in. -/
def takeSpdm (port : Nat) (f : Frame) (ev : SpdmEvent) (s : State) : State :=
  let s := traceFrame port true f.header s
  if fOp f.header ≠ 0x21 then s
  else if controlOk s port 0x21 f ∧ asksRenewal s port ev then spdmStep port ev (beginRenewal port s)
  else if ¬ controlOk s port 0x21 f ∨ ¬ shaking (linkAt s port) then dropFrame port s
  else spdmStep port ev s

/-- EFP_SPDM (R215). -/
def execEfpSpdm (port : Nat) (f : Frame) (ev : SpdmEvent) (s : State) : Host.Outcome State Fault Refusal := whenServing (takeSpdm port f ev) s

/-! ## Rolls (R211) -/

/-- A direction due for a roll, or with one that has waited. -/
def rollDueStep (p : Nat) (s : State) : State :=
  let l := linkAt s p
  if p < s.build.links ∧ roleOf s p = 0 ∧ l.state = .up ∧ ¬ linkStopped s (linkWest s p) ∧
      (l.txCtr ≥ 2 ^ 40 ∨ clock s (linkWest s p) ≥ l.genStart + 86400000000000 ∨ rollPending l) then endRenewal p (rollSend p s) else s

/-- ROLL_DUE (R211). -/
def execRollDue (p : Nat) (s : State) : Host.Outcome State Fault Refusal := whenServing (rollDueStep p) s

/-- A direction at 2^41 frames: its fault is recorded, whose level resets the port. -/
def rollOverrunStep (p : Nat) (s : State) : State :=
  if p < s.build.links ∧ (linkAt s p).txCtr ≥ 2 ^ 41 ∧ ¬ (snuffAt s (100 + p)).due then simpleFault clsRollOverrun kindLink p s else s

/-- ROLL_OVERRUN (R211). -/
def execRollOverrun (p : Nat) (s : State) : Host.Outcome State Fault Refusal := whenServing (rollOverrunStep p) s

/-! ## The reset of a port (R223) -/

/-- Operations whose frames left by a port fail. -/
def failPortOps (west : Bool) (p : Nat) (s : State) : State :=
  (halfOf s west).ops.foldl (fun s e => if e.2.used ∧ e.2.sent.isSome ∧ e.2.port = p then finishOp {} west e.1 stResetLost [] (oweCredit west e.1 s) else s) s

/-- A port's session, keys and frames in transit go; operations that left by it fail; those not yet sent take another route
or fail. -/
def resetPort (p : Nat) (s : State) : State :=
  let s := modLink p (fun l => { dropped := l.dropped, resets := l.resets + 1, tagFail := l.tagFail, failStep := l.failStep, failStatus := l.failStatus
                                 failedAt := l.failedAt, loopback := l.loopback }) s
  let s := onHalf (linkWest s p) (fun h => { h with bulks := h.bulks.filter (fun b => b.port ≠ p) }) s
  let s := onExperts (fun e => { e with partials := e.partials.filter (fun x => x.port ≠ p) }) s
  let lost := (s.curfew.captured.filter (fun c => c.port == p && c.spill == 0)).length
  let s := onCurfew (fun c => { c with captured := c.captured.filter (fun x => ¬ (x.port = p ∧ x.spill = 0)) }) s
  let s := modLink p (fun l => { l with dropped := l.dropped + lost }) s
  let s := failPortOps false p (failPortOps true p s)
  emit (.portReset p) s

/-- LOST, or TRAINED falling. -/
def linkLostStep (p : Nat) (s : State) : State :=
  if p ≥ s.build.links then s else settle {} (driveFabric {} (resetPort p s))

/-- LINK_LOST (R473). -/
def execLinkLost (p : Nat) (s : State) : Host.Outcome State Fault Refusal := whenServing (linkLostStep p) s

/-! ## Time between devices (R406 to R409) -/

/-- The node that roots time: the lowest node ID that the routing table reaches, this node's own included. -/
def timeRoot (s : State) : Nat :=
  let known := (s.fabric.west.routes.filter (fun e => rtValid e.2)).map Prod.fst
  known.foldl min s.fabric.node

/-- The time parent: the primary port toward the root, if it is an UP PEER port. -/
def timeParent (s : State) : Option Nat :=
  match routeTo s true (timeRoot s) with
  | some e => if rtMode e ≠ 0 ∧ roleOf s (rtPort e) = 0 ∧ (linkAt s (rtPort e)).state = .up then some (rtPort e) else none
  | none => none

/-- A change of the counter is told to the follower at once (R26). -/
def tellEast (steer : Int) (s : State) : State := seamSend true 5 (.sync ⟨s.time.now, 0, steer⟩) s

/-- The counter jumps forward. -/
def jumpTime (d : Nat) (s : State) : State := tellEast d (onTime (fun t => { t with now := t.now + d }) s)

/-- Root, parent and time state as they stand now. -/
def updateTimeState (s : State) : State :=
  if s.fabric.domState ≠ 2 then onTime (fun t => { t with root := 0xFFFF, parent := 0xFF, state := 0, bound := 0, steer := 0 }) s
  else if timeRoot s = s.fabric.node then onTime (fun t => { t with root := s.fabric.node, parent := 0xFF, state := 2, bound := 0, steer := 0 }) s
  else match timeParent s with
    | none => onTime (fun t => { t with root := timeRoot s, parent := 0xFF, state := 0, bound := 0, steer := 0 }) s
    | some p => onTime (fun t => { t with root := timeRoot s, parent := if t.parent = p then p else 0xFF, state := if t.parent = p then t.state else 0 }) s

/-- A measured offset of the parent steers the counter (R407); a new parent's may make it jump. -/
def steerBy (p : Nat) (off : Int) (s : State) : State :=
  if timeParent s ≠ some p ∨ s.fabric.domState ≠ 2 ∨ timeRoot s = s.fabric.node then s else
  let first := s.time.parent ≠ p
  let s := onTime (fun t => { t with root := timeRoot s, parent := p, bound := (linkAt s p).bound, state := if off < -1000000 then 3 else 1
                                     steer := if off < -1000000 then 0 else off }) s
  let s := if first ∧ off > 1000 ∧ ¬ s.faults.inBlockReset then onTime (fun t => { t with steer := 0 }) (jumpTime off.toNat s) else s
  traceEmit { type := 11, kind := kindTrace, arg := le 8 (off % 2 ^ 64).toNat ++ le 2 (linkAt s p).bound ++ le 1 s.time.state ++ le 1 p } s

/-- The round trips within 2 ns of the shortest. -/
def goodSamples (xs : List (Nat × Int)) : List Int :=
  let best := xs.foldl (fun m x => min m x.1) (xs.headD (0, 0)).1
  (xs.filter (fun x => decide (x.1 ≤ best + 2))).map Prod.snd

/-- A measurement is complete: the mean of the good round trips (R475); its residual bound, 4 ns at most, is a free value. -/
def finishProbes (p : Nat) (s : State) : State :=
  let l := linkAt s p
  let g := goodSamples l.samples
  let off := g.foldl (· + ·) (0 : Int) / ((max 1 g.length : Nat) : Int)
  let b := leNat (unstatedBytes 1 s) % 5
  let s := modLink p (fun l => { l with offset := off, bound := b, samples := [], probes := 0 }) (drawn 1 s)
  let s := if l.state = .handshake ∧ l.step = 7 then modLink p (fun l => { l with state := .up, step := 8 }) s else s
  steerBy p off s

/-- An echo of a probe: times of probe, its receipt and the echo's sending. -/
def takeEcho (p : Nat) (b : Bytes) (s : State) : State :=
  let l := linkAt s p
  if l.probes = 0 then s else
  let t1 : Int := (fld b 0 8 : Nat)
  let t2 : Int := (fld b 8 8 : Nat)
  let t3 : Int := (fld b 16 8 : Nat)
  let t4 : Int := (clock s (linkWest s p) : Nat)
  let rtt := ((t4 - t1) - (t3 - t2)).toNat
  let off := ((t2 - t1) + (t3 - t4)) / 2
  let s := modLink p (fun l => { l with samples := l.samples ++ [(rtt, off)] }) s
  if l.samples.length + 1 ≥ 16 then finishProbes p s else s

/-- Every 100 µs a member measures its parent. -/
def probeRound (s : State) : State :=
  if now s < s.time.lastProbe + 100000 then s else
  let s := updateTimeState (onTime (fun t => { t with lastProbe := now s }) s)
  if s.fabric.domState ≠ 2 ∨ timeRoot s = s.fabric.node then s else
  match timeParent s with
  | some p => startProbes p s
  | none => s

/-- TIME_PROBE_ROUND (R407). -/
def execTimeProbeRound (s : State) : Host.Outcome State Fault Refusal := whenFused probeRound s

/-- The root sets its counter once. -/
def rootSetStep (peerTimes : List Nat) (s : State) : State :=
  if s.fabric.domState ≠ 2 ∨ timeRoot s ≠ s.fabric.node ∨ s.time.rootSet ∨ s.faults.inBlockReset then s else
  let top := peerTimes.foldl max 0
  let s := onTime (fun t => { t with rootSet := true }) s
  let s := if top > now s then jumpTime (top - now s) s else s
  updateTimeState s

/-- TIME_ROOT_SET (R408). -/
def execTimeRootSet (peerTimes : List Nat) (s : State) : Host.Outcome State Fault Refusal := whenFused (rootSetStep peerTimes) s

end Sys2Proof.Machine
end

