-- ==== Sys2Proof/Machine/EfpRows.lean ====
section
/-! DEFINITION. Frames at a port, one row per operation (R192 to R227), their capture in a curfew (R428, R429), verdicts, timeouts,
backoff, coalescing, the write-back of the combining buffer. -/
namespace Sys2Proof.Machine

/-! ## Capture (R428, R429) -/

/-- The request address of a byte of the capture area; a home-placed object serves from its lowest lantern. -/
def areaAddr (s : State) (off : Nat) : Nat :=
  let o := objAt s s.curfew.area
  if o.placement = 1 then reqAddr o.key (homeAddr s ((bitList 16 o.mask.toNat).headD 0) (o.base + off)) else reqAddr o.key (o.base + off)

/-- Eonal writes into the capture area on its own account. -/
def areaWrite (off : Nat) (b : Bytes) (s : State) : State :=
  let s := onParts (fun p => { p with captureBytes := satTo 64 (p.captureBytes + b.length) }) s
  (memWrite { part := 16, own := true } {} (areaAddr s off) b s).2

/-- The 64 B header of the area. -/
def areaHeader (st : Nat) (s : State) : State :=
  let c := s.curfew
  areaWrite 0 (le 1 1 ++ le 1 st ++ zeros 6 ++ le 8 c.t ++ le 8 c.dawn ++ le 4 c.inFlight ++ le 4 c.outside ++ le 4 c.postDawn ++ zeros 28) s

/-- Bytes a captured frame takes in a buffer and in the area. -/
def Captured.size (c : Captured) : Nat := alignUp (32 + c.plain.length) 64

/-- The half whose link engine captured a frame: that of its port, or of a SEALED frame the half that checked it. -/
def Captured.inWest (c : Captured) (s : State) : Bool := if fMode c.frame.header = 2 then dhalfWest c.frame.header else linkWest s c.port

/-- Where spilled frames begin. -/
def spillBase : Nat := 2 ^ 20 + 64

/-- Whether one more frame of `n` bytes has room in the area. -/
def areaRoom (s : State) (n : Nat) : Bool :=
  let waiting := ((s.curfew.captured.filter (fun c => c.spill == 0)).map Captured.size).sum
  s.curfew.captured.length < 65536 && spillBase + s.curfew.spillAt + waiting + alignUp n 64 ≤ (objAt s s.curfew.area).length

/-- The frame at place `i` of the list goes to the area. The spec names no cipher mode, so the payload's bytes there are free
values. -/
def spillFrame (i : Nat) (s : State) : State :=
  match s.curfew.captured[i]? with
  | none => s
  | some c =>
    if c.spill ≠ 0 then s else
    let off := spillBase + s.curfew.spillAt
    let ct := unstatedBytes c.plain.length s
    let s := drawn c.plain.length s
    let body := c.frame.header ++ ct
    let s := areaWrite off (fit (alignUp body.length 64) body) s
    let s := areaWrite (64 + 16 * i) (le 1 c.port ++ le 1 c.cls ++ zeros 2 ++ le 4 off ++ le 8 (fStamp c.frame.header)) s
    onCurfew (fun x => { x with spillAt := x.spillAt + c.size, captured := x.captured.set i { c with spill := off } }) s

/-- Every captured frame goes to the area. -/
def spillAll (s : State) : State := (List.range s.curfew.captured.length).foldl (fun s i => spillFrame i s) s

/-- A verified frame is captured in its class. A half's engine keeps 64 KiB until the curfew is STOPPED. -/
def captureFrame (west : Bool) (port : Nat) (f : Frame) (plain : Bytes) (s : State) : State :=
  let t := fStamp f.header / 16
  let cls := if t < s.curfew.t then 0 else if t < s.curfew.dawn then 1 else 2
  let s := onCurfew (fun c => { c with
    captured := c.captured ++ [⟨port, cls, f, plain, 0⟩]
    inFlight := satTo 24 (c.inFlight + b2n (cls == 0)), outside := satTo 32 (c.outside + b2n (cls == 1)), postDawn := satTo 32 (c.postDawn + b2n (cls == 2)) }) s
  let mine := s.curfew.captured.filter (fun c => c.inWest s == west && c.spill == 0)
  if s.curfew.state ≥ 3 ∨ (mine.map Captured.size).sum > 65536 then spillAll s else s

/-! ## Delivery -/

/-- An operation that is answered now sends its answer. -/
def answered (west : Bool) (h : Bytes) (x : Option Resp × State) : State :=
  match x.1 with
  | some a => answerOp west h a x.2
  | none => x.2

/-- A verdict stands out for a frame that has landed (R205). -/
def oweFrame (port : Nat) (h : Bytes) (pass : Bool) (s : State) : State :=
  onFabric (fun x => { x with nextVerdict := s.fabric.nextVerdict + 1, verdicts := x.verdicts ++ [⟨s.fabric.nextVerdict, port, pass, [], h⟩] }) s

/-- A frame that landed before its verdict is answered only where its tag passed. -/
def answeredEarly (west : Bool) (h : Bytes) (pass : Bool) (x : Option Resp × State) : State := if pass then answered west h x else x.2

/-- A request for this node. A frame of an ARRIVAL or COMBINE window lands before its verdict, which stands out (R205). -/
def takeRequest (ue : Ue) (west : Bool) (port : Nat) (h plain : Bytes) (pass : Bool) (s : State) : State :=
  if (fFlags h &&& flMcast) ≠ 0 then takeMcast ue west port h plain s
  else if earlyWindow s h then answeredEarly west h pass (acceptOp ue west port h plain (some s.fabric.nextVerdict) (oweFrame port h pass s))
  else answered west h (acceptOp ue west port h plain none s)

/-- The half, generation and entry of a transaction number. -/
def txnWest (t : Nat) : Bool := t / 2 ^ 15 == 0
def txnGen (t : Nat) : Nat := bits t 14 12
def txnEntry (t : Nat) : Nat := t % 4096

/-- A late response is counted, and its credit comes back (R218). -/
def lateResponse (t : Nat) (s : State) : State :=
  onHalf (txnWest t) (fun h => { h with late := h.late + 1 }) (returnOwed (txnWest t) (txnEntry t) (txnGen t) s)

/-- The operation a response names, if its generation stands. -/
def respondedOp (s : State) (t : Nat) : Option OutOp :=
  let o := tget {} (halfOf s (txnWest t)).ops (txnEntry t)
  if o.used ∧ o.sent.isSome ∧ o.gen = txnGen t then some o else none

/-- Whether an operation is answered with DATA. -/
def wantsData (o : OutOp) : Bool := o.op == opLoad || o.op == opAtomic

/-- One acknowledged transaction. -/
def takeAckOne (t : Nat) (s : State) : State :=
  match respondedOp s t with
  | some o => if wantsData o then lateResponse t s else finishOp {} (txnWest t) (txnEntry t) stOk [] s
  | none => lateResponse t s

/-- ACK (R198). -/
def takeAck (port : Nat) (h plain : Bytes) (s : State) : State :=
  if plain.length < 2 ∨ plain.length > 128 ∨ plain.length % 2 ≠ 0 ∨ fLen h ≠ plain.length then dropFrame port s
  else ((chunks 2 plain).map leNat).foldl (fun s t => takeAckOne t s) s

/-- Bytes a DATA response to an operation carries. -/
def dataBytes (o : OutOp) : Nat := if o.op = opLoad then o.len else elemBytes (o.sub % 16)

/-- DATA (R198). -/
def takeData (ue : Ue) (h plain : Bytes) (s : State) : State :=
  let t := fTxn h
  match respondedOp s t with
  | some o =>
    if wantsData o ∧ plain.length = dataBytes o then finishOp ue (txnWest t) (txnEntry t) stOk plain s else lateResponse t s
  | none => lateResponse t s

/-- NACK (R198, R221). -/
def takeNack (h : Bytes) (s : State) : State :=
  let t := fTxn h
  let west := txnWest t
  match respondedOp s t with
  | none => lateResponse t s
  | some _ =>
    if fStatus h = stBusy then refusedOp west (txnEntry t) s
    else if fStatus h = stOk then lateResponse t s
    else finishOp {} west (txnEntry t) (fStatus h) [] s

/-- ROLL (R211): a HOP frame of the peer itself. -/
def takeRoll (port : Nat) (h plain : Bytes) (s : State) : State :=
  if fMode h ≠ 1 ∨ plain.length ≠ 4 then dropFrame port s else rollReceive port (leNat plain) s

/-- TIME_PROBE (R198, R475): the echo carries the probe's time, its receipt, its own sending. -/
def takeProbe (west : Bool) (port : Nat) (h plain : Bytes) (s : State) : State :=
  if plain.length ≠ 8 then dropFrame port s else
  let b := plain ++ le 8 (clock s west) ++ le 8 (clock s west)
  if fMode h = 1 ∧ fSrc h = (linkAt s port).peer then peerFrame port 0x24 b s
  else if linkStopped s west then s
  else (sendFrame west { op := 0x24, dst := fSrc h, len := 24, payload := b } s).2

/-- TIME_ECHO (R407, R475). -/
def takeTimeEcho (port : Nat) (h plain : Bytes) (s : State) : State :=
  if plain.length ≠ 24 then dropFrame port s
  else if fMode h = 1 ∧ fSrc h = (linkAt s port).peer then takeEcho port plain s
  else s

/-- A verified frame for this node is delivered in the half that checked it. An operation that its mode does not permit is dropped and
counted; a frame of a later major version is refused whole (R216): a request with VERSION, another frame by its drop. -/
def deliverFrame (ue : Ue) (west : Bool) (port : Nat) (h plain : Bytes) (pass : Bool) (s : State) : State :=
  let op := fOp h
  if 1 ≤ op ∧ op ≤ 5 then takeRequest ue west port h plain pass s
  else if fVer h / 16 ≠ 1 then dropFrame port s
  else if op = opAck then takeAck port h plain s
  else if op = opData then takeData ue h plain s
  else if op = opNack then takeNack h s
  else if op = 0x22 then takeRoll port h plain s
  else if op = 0x23 then takeProbe west port h plain s
  else if op = 0x24 then takeTimeEcho port h plain s
  else dropFrame port s

/-- The tag check of an early frame failed. -/
def earlyFailed (port : Nat) (h : Bytes) (s : State) : State :=
  if fMode h = 1 then hopFailed port h s else sealedDrop port h (fun x => { x with sealedFail := x.sealedFail + 1 }) s

/-- A frame checked in half `west`: delivered, or captured while the half's link engines stand stopped. A ROLL acts on the
receive key at once, since the frames after it need the new key. -/
def takenIn (ue : Ue) (west : Bool) (port : Nat) (f : Frame) (stopped : Bool) (x : Received × State) : State :=
  match x.1 with
  | .gone => x.2
  | .local_ pass plain =>
    if stopped ∧ fOp f.header ≠ 0x22 then
      (if pass then captureFrame west port f plain x.2 else earlyFailed port f.header x.2)
    else deliverFrame ue west port f.header plain pass x.2

/-- The same from the state it arrives in: one that finds no room in a stopped half is not taken. -/
def handleFrame (ue : Ue) (port : Nat) (f : Frame) (s : State) : State :=
  if linkStopped s (linkWest s port) ∧ ¬ areaRoom s (32 + f.payload.length) then s
  else takenIn ue (linkWest s port) port f (linkStopped s (linkWest s port)) (receiveFrame port f s)

/-- The row of one operation: a frame of another operation is not this row's. -/
def efpRow (op : Nat) (ue : Ue) (port : Nat) (f : Frame) (s : State) : State :=
  if fOp f.header ≠ op then s else settle ue (driveFabric ue (handleFrame ue port f s))

/-- EFP LOAD (R198). -/
def execEfpLoad (port : Nat) (f : Frame) (ue : Ue) (s : State) : Host.Outcome State Fault Refusal := whenFused (efpRow opLoad ue port f) s
/-- EFP STORE (R198). -/
def execEfpStore (port : Nat) (f : Frame) (ue : Ue) (s : State) : Host.Outcome State Fault Refusal := whenFused (efpRow opStore ue port f) s
/-- EFP ATOMIC (R198, R199). -/
def execEfpAtomic (port : Nat) (f : Frame) (ue : Ue) (s : State) : Host.Outcome State Fault Refusal := whenFused (efpRow opAtomic ue port f) s
/-- EFP REDUCE (R198, R199). -/
def execEfpReduce (port : Nat) (f : Frame) (ue : Ue) (s : State) : Host.Outcome State Fault Refusal := whenFused (efpRow opReduce ue port f) s
/-- EFP TRIGGER (R200). -/
def execEfpTrigger (port : Nat) (f : Frame) (ue : Ue) (s : State) : Host.Outcome State Fault Refusal := whenFused (efpRow opTrigger ue port f) s
/-- EFP ACK (R198, R218). -/
def execEfpAck (port : Nat) (f : Frame) (s : State) : Host.Outcome State Fault Refusal := whenFused (efpRow opAck {} port f) s
/-- EFP DATA (R198, R218). -/
def execEfpData (port : Nat) (f : Frame) (ue : Ue) (s : State) : Host.Outcome State Fault Refusal := whenFused (efpRow opData ue port f) s
/-- EFP NACK (R198, R221). -/
def execEfpNack (port : Nat) (f : Frame) (s : State) : Host.Outcome State Fault Refusal := whenFused (efpRow opNack {} port f) s
/-- EFP ROLL (R211). -/
def execEfpRoll (port : Nat) (f : Frame) (s : State) : Host.Outcome State Fault Refusal := whenFused (efpRow 0x22 {} port f) s
/-- EFP TIME_PROBE (R198). -/
def execEfpTimeProbe (port : Nat) (f : Frame) (s : State) : Host.Outcome State Fault Refusal := whenFused (efpRow 0x23 {} port f) s
/-- EFP TIME_ECHO (R198, R407). -/
def execEfpTimeEcho (port : Nat) (f : Frame) (s : State) : Host.Outcome State Fault Refusal := whenFused (efpRow 0x24 {} port f) s

/-! ## BULK (R227) -/

/-- The frames inside a container's payload. -/
def bulkFrames : Nat → Bytes → List Frame
  | 0, _ => []
  | fuel + 1, b =>
    if b.length < 48 then [] else
    let h := b.take 32
    let n := fLen h
    ⟨h, (b.drop 32).take n, (b.drop (32 + n)).take 16⟩ :: bulkFrames fuel (b.drop (alignUp (48 + n) 16))

/-- A container is unpacked, each frame forwarded in order; anything but a well-formed container is dropped and counted. -/
def takeBulk (port : Nat) (f : Frame) (s : State) : State :=
  let h := f.header
  if fOp h ≠ 0x30 then s else
  let s := traceFrame port true h s
  if port ≥ s.build.links ∨ portFenced s port ∨ h.length ≠ 32 ∨ fMode h ≠ 0 ∨ roleOf s port ≠ 2 ∨ fDst h ≠ s.fabric.node ∨ f.payload.length ≠ fLen h then dropFrame port s
  else
    let s := (bulkFrames (f.payload.length / 48 + 1) f.payload).foldl (fun s g => handleFrame {} port g s) s
    settle {} (driveFabric {} s)

/-- EFP BULK (R226, R227). -/
def execEfpBulk (port : Nat) (f : Frame) (s : State) : Host.Outcome State Fault Refusal := whenFused (takeBulk port f) s

/-! ## Verdicts (R62, R205, R210, R213) -/

/-- Records that rest on a failed frame go. -/
def dropRecords (id : Nat) (s : State) : State :=
  onExperts (fun e => { e with records := e.records.filter (fun r => !r.frames.contains id), partials := e.partials.filter (fun r => !r.frames.contains id) }) s

/-- A passed frame's number leaves the records that still wait. -/
def clearRecords (id : Nat) (s : State) : State :=
  onExperts (fun e => { e with records := e.records.map (fun r => { r with frames := r.frames.filter (· ≠ id) })
                               partials := e.partials.map (fun r => { r with frames := r.frames.filter (· ≠ id) }) }) s

/-- The oldest verdict of a port comes in. -/
def frameVerdictStep (p : Nat) (s : State) : State :=
  match s.fabric.verdicts.find? (fun v => v.port == p) with
  | none => s
  | some v =>
    let s := onFabric (fun f => { f with verdicts := f.verdicts.filter (fun x => x.id ≠ v.id) }) s
    let s := if v.pass then clearRecords v.id s else dropRecords v.id (earlyFailed p v.header s)
    settle {} (v.tickets.foldl (fun s t => ticketVerdict {} t.1 t.2 (fDst v.header * 2 ^ 48 + fOffset v.header) v.pass s) s)

/-- LINK_FRAME_VERDICT (R62). -/
def execLinkFrameVerdict (p : Nat) (s : State) : Host.Outcome State Fault Refusal := whenServing (frameVerdictStep p) s

/-! ## Timers -/

/-- The half of a number: 0 West. -/
def halfWest (half : Nat) : Bool := half == 0

/-- An operation at its timeout (R222); a stopped half's timeouts move with the dawn. -/
def timeoutStep (half entry : Nat) (ue : Ue) (s : State) : State :=
  let o := tget {} (halfOf s (halfWest half)).ops entry
  match o.sent with
  | none => s
  | some t =>
    if entry < 4096 ∧ o.used ∧ clock s (halfWest half) ≥ t + 1000 * s.boxes.fabricTimeout ∧ ¬ linkStopped s (halfWest half) then
      settle ue (driveFabric ue (finishOp ue (halfWest half) entry stFabricTimeout [] (oweCredit (halfWest half) entry s)))
    else s

/-- FABRIC_TIMEOUT (R222). -/
def execFabricTimeout (half entry : Nat) (ue : Ue) (s : State) : Host.Outcome State Fault Refusal := whenServing (timeoutStep half entry ue) s

/-- A refused operation is sent again (R221): a new frame under its transaction number. -/
def resendOp (west : Bool) (k extra : Nat) (s : State) : State :=
  let o := tget {} (halfOf s west).ops k
  let s := modOp west k (fun o => { o with refused := false }) s
  if (o.flags &&& flMcast) ≠ 0 then (if mcastGoes s o then mcastFrame west k extra s else finishOp {} west k stRouteDown [] s)
  else
    let (r, s) := sendFrame west (opFrame west o o.gen k extra) s
    match r with
    | .noRoute => finishOp {} west k stRouteDown [] s
    | .port p => modOp west k (fun o => { o with port := p }) s
    | .here h => answeredHere {} west k (acceptOp {} west 0xFF h o.data none s)

/-- Entries in the order their operations were issued. -/
def insertByOrder (e : Nat × OutOp) : List (Nat × OutOp) → List (Nat × OutOp)
  | [] => [e]
  | x :: xs => if e.2.order ≤ x.2.order then e :: x :: xs else x :: insertByOrder e xs

/-- A backoff ends: the refused operations leave again in order, the first with RESEND. -/
def backoffStep (half dst : Nat) (s : State) : State :=
  let west := halfWest half
  let b := tget {} (halfOf s west).backoffs dst
  if ¬ b.active ∨ clock s west < b.until_ ∨ linkStopped s west then s else
  let s := onHalf west (fun h => { h with backoffs := tset {} h.backoffs dst { b with active := false } }) s
  let es := ((halfOf s west).ops.filter (fun e => e.2.used && e.2.refused && e.2.dst == dst)).foldr insertByOrder []
  let s := es.zipIdx.foldl (fun s e => resendOp west e.1.1 (if e.2 = 0 then flResend else 0) s) s
  settle {} (driveFabric {} s)

/-- BACKOFF_EXPIRY (R221). -/
def execBackoffExpiry (half dst : Nat) (s : State) : Host.Outcome State Fault Refusal := whenServing (backoffStep half dst) s

/-- ACKs that have waited 64 ns leave (R198). -/
def ackStep (half dst : Nat) (s : State) : State :=
  let west := halfWest half
  ((halfOf s west).acks.filter (fun a => a.node == dst && a.since + 64 ≤ clock s west)).foldl (fun s a => flushAcks west a.node a.shalf s) s

/-- ACK_COALESCE_EXPIRY (R198). -/
def execAckCoalesceExpiry (half dst : Nat) (s : State) : Host.Outcome State Fault Refusal := whenServing (ackStep half dst) s

/-- Whether the unit of a domain address issues no request because a curfew stopped it (R427). -/
def unitStopped (s : State) (a : Nat) : Bool :=
  match place s a with
  | some (.stacked l _) => islandStopped s (.crypto l)
  | some (.capacity c _) => islandStopped s (.capacity c)
  | none => false

/-- Whether a held line of a half has seen no operation for 1 µs and may be written now. -/
def lineDue (s : State) (half line : Nat) (c : CombLine) : Bool :=
  lineWest s line == halfWest half && decide (c.last + 1000 ≤ clock s (halfWest half)) && !rangeWaits s true (reqAddr c.key (line * 64)) 64 && !unitStopped s (line * 64)

/-- A held line that has seen no operation for 1 µs is written back (R224). -/
def lineAged (half line : Nat) (x : Option CombLine) (s : State) : State :=
  match x with
  | none => s
  | some c => if lineDue s half line c then settle {} (writeBackLine {} line s) else s

/-- The line as the buffer holds it. -/
def lineStep (half line : Nat) (s : State) : State := lineAged half line (combAt s line) s

/-- COMBINING_LINE_WRITEBACK (R224). -/
def execCombiningLineWriteback (half line : Nat) (s : State) : Host.Outcome State Fault Refusal := whenServing (lineStep half line) s

/-- A container that has stood 2 µs leaves (R226). -/
def bulkStep (port via : Nat) (s : State) : State :=
  let west := linkWest s port
  match (halfOf s west).bulks.find? (fun b => b.port == port && b.via == via) with
  | some b => if clock s west ≥ b.since + 2000 then flushBulk west port via s else s
  | none => s

/-- BULK_FLUSH (R226). -/
def execBulkFlush (port via : Nat) (s : State) : Host.Outcome State Fault Refusal := whenServing (bulkStep port via) s

end Sys2Proof.Machine
end

