-- ==== Sys2Proof/Machine/SeamRows.lean ====
section
/-! DEFINITION. Messages over the seam as their receiver takes them (R11 to R21, R25, R26, R372, R389, R416, R426), exchange records
(R108, R109) and transit crossings (R193). -/
namespace Sys2Proof.Machine

/-! ## Receiving (R11 to R16) -/

def hdrVer (h : Word64) : Nat := h.toNat % 16
def hdrCls (h : Word64) : Nat := bits h.toNat 7 4
def hdrLen (h : Word64) : Nat := bits h.toNat 15 12
def hdrSeq (h : Word64) : Nat := bits h.toNat 31 16
def hdrArg (h : Word64) : Nat := h.toNat / 2 ^ 32

/-- A seam fault at the receiving endpoint. -/
def seamFault (toEast : Bool) (s : State) : State := simpleFault clsSeamUe kindSeam (b2n toEast) s

/-- Corrected words are counted, each a Corrected fault (R11). -/
def countCorrected (m : SeamMsg) (s : State) : State :=
  (List.range (min m.corrected 16)).foldl (fun s _ =>
    simpleFault clsSeamCe kindSeam (b2n m.toEast) (onSeam (fun x => { x with corrected := x.corrected + 1 }) s)) s

/-- A receive credit goes back (R15). -/
def returnCredit (toEast : Bool) (cls : Nat) (s : State) : State := seamSend (!toEast) 9 (.words (cls + 256) []) s

/-- The message's words leave the receive FIFO, and what waited for the wires follows (R483, R14). -/
def wordsTaken (m : SeamMsg) (s : State) : State := seamFlush (onWire m.toEast (takeWords (m.payload.length + 1)) s)

/-- A message of a class: what is damaged, of another version, of a reserved class or out of sequence is a seam fault and is
discarded; a sound one takes effect and its buffer is free again. Before pairing a sound one of a class the seam does not carry yet has
no effect (R16). -/
def seamTake (cls : Nat) (m : SeamMsg) (f : State → State) (s : State) : State :=
  let h := m.header
  let k := seamKey m.toEast (hdrCls h)
  let s := wordsTaken m s
  let (ce, s) := injectCheck clsSeamCe kindSeam (b2n m.toEast) 0 0 s
  let (ue, s) := injectCheck clsSeamUe kindSeam (b2n m.toEast) 0 0 s
  let m := { m with corrected := m.corrected + b2n ce }
  let bad := ue || m.uncorrectable || hdrVer h ≠ 1 || hdrCls h = 0 || decide (hdrCls h ≥ 10)
  if ¬ bad ∧ (hdrCls h ≠ cls ∨ m.payload.length ≠ hdrLen h) then s
  else
    let s := countCorrected m s
    if bad ∨ hdrSeq h ≠ (tget 0 s.seam.rxSeq k).toNat then seamFault m.toEast s
    else
      let s := onSeam (fun x => { x with rxSeq := tset 0 x.rxSeq k (tget 0 x.rxSeq k + 1) }) s
      let s := if cls = 9 then s else returnCredit m.toEast cls s
      if seamCarries s cls then f s else s

/-! ## SESSION (R17) -/

/-- The boot ends in stage 0xFF, HALTED, with a REASON and CODE (R319 to R321). -/
def haltBoot (reason code : Nat) (s : State) : State :=
  onLl (fun l => { l with stage := 0xFF, halted := true, ready := false, reason := reason, code := code, boot := none }) s

/-- Pairing has failed: the Lamplighter stands HALTED and says why (R17, R319). -/
def pairingFails (s : State) : State := haltBoot 4 stOk s

/-- The tag of a confirmation: over nothing, with the direction's counter value 0. -/
def confirmTag (key : Bytes) (toEast : Bool) : Bytes := (gcmSeal key (keyIv toEast 0) [] []).2

/-- The session key a half derives from its private key and its nonce, and the other half's key and nonce as they came over the seam: the
West nonce comes first in the salt (R17). `toEast` says that the deriving half is East. -/
def pairKey (s : State) (toEast : Bool) (pub nonce : Bytes) : Option Bytes :=
  let priv := if toEast then s.seam.eastPriv else s.seam.westPriv
  let salt := if toEast then nonce ++ s.seam.eastNonce else s.seam.westNonce ++ nonce
  (ecdh priv pub).map (fun z => hkdf salt z (ascii "EONAL-SEAM-1") 32)

/-- What follows pairing: the mirror is reloaded, link keys East still lacks are loaded, messages that waited leave (R20). -/
def afterPairing (s : State) : State :=
  let s := s.keys.slots.foldl (fun s e => if e.2.state = .empty ∨ e.1 = 1055 then s else loadChecked e.1 s) s
  let s := (List.range s.build.links).foldl (fun s p =>
    let l := linkAt s p
    if linkWest s p ∨ l.state ≠ .up ∨ l.master = [] then s else
    let s := if l.txNext = [] then loadLinkKey p false true (l.txGen + 1) s else s
    if l.rxNext = [] then loadLinkKey p true true (l.rxGen + 1) s else s) s
  seamFlush s

/-- Both confirmations have checked. -/
def pairIfReady (s : State) : State :=
  if s.seam.confWest ∧ s.seam.confEast ∧ ¬ s.seam.paired then
    afterPairing (onSeam (fun x => { x with paired := true, keyTxW2E := 1, keyRxW2E := 1, keyTxE2W := 1, keyRxE2W := 1 }) s)
  else s

/-- The other half's public key and nonce: the session key follows, and this half's confirmation. -/
def takePairKey (toEast : Bool) (b : Bytes) (s : State) : State :=
  match pairKey s toEast (b.take 96) (b.drop 96) with
  | none => pairingFails s
  | some k =>
    let s := onSeam (fun x => if toEast then { x with eastKey := k } else { x with sessionKey := k }) s
    seamSend (!toEast) 1 (.words 0 (wordsOf (confirmTag k (!toEast)))) s

/-- The other half's confirmation. -/
def takeConfirm (toEast : Bool) (b : Bytes) (s : State) : State :=
  let k := if toEast then s.seam.eastKey else s.seam.sessionKey
  if k = [] ∨ confirmTag k toEast ≠ b then pairingFails s
  else pairIfReady (onSeam (fun x => if toEast then { x with confWest := true } else { x with confEast := true }) s)

/-- A SESSION message while the seam is unpaired. -/
def takeSession (m : SeamMsg) (s : State) : State :=
  if s.seam.paired then s
  else if m.payload.length = 14 then takePairKey m.toEast (bytesOf m.payload) s
  else if m.payload.length = 2 then takeConfirm m.toEast (bytesOf m.payload) s
  else s

/-! ## KEY (R18 to R20) -/

/-- A KEY message opened under the next counter of its direction; one that fails is a seam fault. -/
def openKeyMsg (m : SeamMsg) (s : State) : Option Bytes × State :=
  let key := if m.toEast then s.seam.eastKey else s.seam.sessionKey
  let c := if m.toEast then s.seam.keyRxW2E else s.seam.keyRxE2W
  let b := bytesOf m.payload
  match gcmOpen key (keyIv m.toEast c) (le 8 m.header.toNat) (b.take (b.length - 16)) (b.drop (b.length - 16)) with
  | none => (none, seamFault m.toEast s)
  | some p => (some p, onSeam (fun x => if m.toEast then { x with keyRxW2E := x.keyRxW2E + 1 } else { x with keyRxE2W := x.keyRxE2W + 1 }) s)

/-- Slot and subtype of a KEY message. -/
def keySlotOf (h : Word64) : Nat := hdrArg h % 2048
def keySubOf (h : Word64) : Nat := hdrArg h / 2 ^ 24

/-- A message of a subtype and length, toward East or West; slots are numbered 0 to 1,055 (R18). -/
def takeKeyMsg (toEast : Bool) (sub len : Nat) (m : SeamMsg) (f : Bytes → State → State) (s : State) : State :=
  if m.toEast ≠ toEast ∨ keySubOf m.header ≠ sub ∨ m.payload.length ≠ len ∨ 1056 ≤ keySlotOf m.header then s else
  let (p, s) := openKeyMsg m s
  match p with
  | some b => f b s
  | none => s

/-- East acknowledges. -/
def ackKey (m : SeamMsg) (s : State) : State := sendKey false (hdrArg m.header) [] s

/-- The tag that protects a mirror's copy of a slot, keyed from the seam session key as East holds it (R18). Its form is the model's own,
DESIGN CHOICE (notes/assumptions/78.md). -/
def mirrorTag (s : State) (slot : Nat) (b : Bytes) : Bytes := (hmac s.seam.eastKey (le 2 slot ++ b)).take 16

/-- The mirror stores a slot with its tag; a link key goes on to its engine and leaves no copy. -/
def storeMirror (slot : Nat) (b : Bytes) (s : State) : State :=
  if slot = 1055 then
    let t := fld b 38 1
    let p := westOf s.build.links + t % 16
    if p < s.build.links then keysLoaded p (putLinkKey p (t.testBit 4) (t.testBit 5) (b.take 32) s) else s
  else setEngineKey slot (b.take 32) (setMirror slot ⟨b.take 32, b.drop 32, true, mirrorTag s slot b⟩ s)

/-- East's copies of a slot go: the mirror's and the link engines'. -/
def dropMirror (slot : Nat) (s : State) : State := setEngineKey slot [] (setMirror slot {} s)

/-- The rolls of East's ports that waited for the seam's first KEY message after pairing (R20). -/
def deferredRolls (s : State) : State :=
  (List.range s.build.links).foldl (fun s p => if linkWest s p ∨ ¬ (linkAt s p).rollDeferred then s else keysLoaded p s) s

/-- SEAM_KEY_LOAD (R18, R19). -/
def execSeamKeyLoad (m : SeamMsg) (s : State) : Host.Outcome State Fault Refusal :=
  whenServing (seamTake 2 m (takeKeyMsg true 1 8 m (fun b s => ackKey m (deferredRolls (storeMirror (keySlotOf m.header) b s))))) s

/-- SEAM_KEY_CLEAR (R18, R19). -/
def execSeamKeyClear (m : SeamMsg) (s : State) : Host.Outcome State Fault Refusal :=
  whenServing (seamTake 2 m (takeKeyMsg true 2 2 m (fun _ s => ackKey m (deferredRolls (dropMirror (keySlotOf m.header) s))))) s

/-- SEAM_KEY_CLEAR_ALL (R18, R19). -/
def execSeamKeyClearAll (m : SeamMsg) (s : State) : Host.Outcome State Fault Refusal :=
  whenServing (seamTake 2 m (takeKeyMsg true 3 2 m (fun _ s => ackKey m (onFabric (fun f => { f with linkKeys := [] }) (onKeys (fun k => { k with mirror := [] }) s))))) s

/-- SEAM_KEY_ACK (R19). East acknowledges each KEY message in order (R16), so the count of the acknowledgements West has taken says which
message is acknowledged: the requests that wait for one see it there. -/
def execSeamKeyAck (m : SeamMsg) (s : State) : Host.Outcome State Fault Refusal :=
  whenServing (fun s => settle {} (seamTake 2 m (fun s =>
    if keySubOf m.header < 1 ∨ keySubOf m.header > 3 then s
    else takeKeyMsg false (keySubOf m.header) 2 m (fun _ s => s) s) s)) s

/-! ## SNUFF (R389) -/

/-- The key of a domain and instance of a SNUFF message; the block stands at 200. -/
def snuffMsgKey (domain inst : Nat) : Nat := if domain = 1 then inst else if domain = 2 then 100 + inst else 200

/-- CLASS_ARG of a SNUFF message. -/
def snuffArg (phase domain inst : Nat) : Nat := phase * 2 ^ 24 + domain * 2 ^ 16 + inst * 256

/-- A SNUFF message: East applies FENCE and RELEASE and answers with ACK; QUIET and ACK tell West. -/
def takeSnuff (m : SeamMsg) (s : State) : State :=
  let a := hdrArg m.header
  let phase := bits a 31 24
  let domain := bits a 23 16
  let inst := bits a 15 8
  if ¬ (1 ≤ domain ∧ domain ≤ 3) ∨ (domain = 1 ∧ inst ≥ s.build.lanterns) ∨ (domain = 2 ∧ inst ≥ s.build.links) then s
  else if m.toEast ∧ (phase = 1 ∨ phase = 3) then
    seamSend false 3 (.words (snuffArg 4 domain inst) []) (modSnuff (snuffMsgKey domain inst) (fun x => { x with fencedE := decide (phase = 1) }) s)
  else s

/-- SEAM_SNUFF (R389). -/
def execSeamSnuff (m : SeamMsg) (s : State) : Host.Outcome State Fault Refusal := whenServing (fun s => settle {} (seamTake 3 m (takeSnuff m) s)) s

/-! ## CURFEW (R13, R426 to R431) -/

/-- The islands of a half (R427). -/
def islandsOf (s : State) (west : Bool) : List Island :=
  (if west then [.frontEnd] else [.feAgent, .copyEngine]) ++
  ((List.range s.build.lanterns).filter (fun l => lanternWest s l == west)).flatMap (fun l => [.wicks l, .crypto l]) ++
  ((List.range s.build.caps).filter (fun c => capWest s c == west)).map .capacity ++ [.link (b2n (!west))]

/-- Whether every island of a half has stopped. -/
def halfStopped (s : State) (west : Bool) : Bool := (islandsOf s west).all (fun i => s.curfew.stopped.contains i)

/-- The curfew is STOPPED when every island has stopped and East has reported: what was captured is spilled, the event goes out
(R427, R429). -/
def stoppedIfReady (s : State) : State :=
  if s.curfew.state = 2 ∧ s.curfew.eastStop ∧ halfStopped s true then
    let s := spillAll (onCurfew (fun c => { c with state := if c.dawn < c.maxDawn then 4 else 3 }) s)
    postOpenEvent 16 evCurfew (areaHeader 1 s)
  else s

/-- A CURFEW message. -/
def takeCurfewMsg (m : SeamMsg) (body : SeamCurfewBody) (s : State) : State :=
  match m.toEast, body with
  | true, .arm t dawn => seamSend false 4 (.curfew (.arm t dawn)) (onCurfew (fun c => { c with armedE := true }) s)
  | true, .cancel => onCurfew (fun c => { c with armedE := false }) s
  | true, .dawn t => onCurfew (fun c => { c with dawn := t }) s
  | true, .stopped => s
  | false, .arm _ _ => settle {} (onBoxes (fun b => { b with waiting := b.waiting.map (fun w =>
      if w.cond = .curfewArmed then { w with cond := .eastKeys 0 } else w) }) s)
  | false, .stopped => stoppedIfReady (onCurfew (fun c => { c with eastStop := true }) s)
  | false, _ => s

/-- SEAM_CURFEW (R13, R426). -/
def execSeamCurfew (m : SeamMsg) (body : SeamCurfewBody) (s : State) : Host.Outcome State Fault Refusal :=
  whenServing (seamTake 4 m (takeCurfewMsg m body)) s

/-! ## TIME (R25, R26) -/

/-- The follower applies a sync and echoes its counter; a steering change of R26 is applied and not echoed. -/
def takeSync (m : SeamMsg) (b : TimeSyncBody) (s : State) : State :=
  if ¬ m.toEast then s else
  let fwd (d : Int) (s : State) : State := if d ≥ 0 then onTime (fun t => { t with east := t.east + d.toNat }) s
    else onTime (fun t => { t with hold := t.hold + (-d).toNat }) s
  let s := fwd (min b.correction 2) (fwd b.steer s)
  if b.steer = 0 then seamSend false 5 (.echo s.time.east) s else s

/-- SEAM_TIME_SYNC (R25, R26). -/
def execSeamTimeSync (m : SeamMsg) (body : TimeSyncBody) (s : State) : Host.Outcome State Fault Refusal :=
  whenFused (seamTake 5 m (takeSync m body)) s

/-- The echo gives the follower's offset, which the next sync corrects. -/
def takeSyncEcho (m : SeamMsg) (echo : Nat) (s : State) : State :=
  if m.toEast then s
  else onTime (fun t => { t with correction := (((t.lastSync + t.now) / 2 : Nat) : Int) - (echo : Nat) }) s

/-- SEAM_TIME_ECHO (R25). -/
def execSeamTimeEcho (m : SeamMsg) (echo : Nat) (s : State) : Host.Outcome State Fault Refusal :=
  whenFused (seamTake 5 m (takeSyncEcho m echo)) s

/-- The time island's sync, every 4 µs. -/
def syncSend (s : State) : State :=
  if now s < s.time.lastSync + 4000 then s else
  let s := seamSend true 5 (.sync ⟨now s, s.time.correction, 0⟩) s
  onTime (fun t => { t with lastSync := t.now, correction := 0 }) s

/-- TIME_SYNC_SEND (R25). -/
def execTimeSyncSend (s : State) : Host.Outcome State Fault Refusal := whenFused syncSend s

/-! ## FAULT (R372) -/

/-- A record from East enters the West store; West acknowledges it. -/
def takeFaultMsg (m : SeamMsg) (s : State) : State :=
  if m.toEast ∨ m.payload.length ≠ 8 then s
  else settle {} (seamSend true 6 (.words 0 []) (storeRecord (recordOf (bytesOf m.payload)) s))

/-- SEAM_FAULT (R372). -/
def execSeamFault (m : SeamMsg) (s : State) : Host.Outcome State Fault Refusal := whenServing (seamTake 6 m (takeFaultMsg m)) s

/-- East's oldest buffered record is acknowledged: its buffer is free, held records take the room. -/
def takeFaultAck (m : SeamMsg) (s : State) : State :=
  if ¬ m.toEast ∨ m.payload ≠ [] then s else
  let s := onFaults (fun f => { f with eastBuf := f.eastBuf.drop 1 }) s
  let held := s.faults.eastHold
  let s := onFaults (fun f => { f with eastHold := [] }) s
  held.foldl (fun s e => eastRecord e.2 s) s

/-- SEAM_FAULT_ACK (R372). -/
def execSeamFaultAck (m : SeamMsg) (s : State) : Host.Outcome State Fault Refusal := whenServing (seamTake 6 m (takeFaultAck m)) s

/-! ## MAILBOX (R21) -/

/-- The entries of a routing-table image (R190) and of a group-table image (R201). -/
def tabOfList {α : Type} [DecidableEq α] (d : α) (xs : List α) : Tab α :=
  (xs.zipIdx.filter (fun e => e.1 ≠ d)).map (fun e => (e.2, e.1))
def routesOf (img : Bytes) : Tab RouteEntry := tabOfList 0 ((chunks 8 (img.drop 64)).map (fun c => BitVec.ofNat 64 (leNat c)))
def groupsOf (img : Bytes) : Tab Bytes := tabOfList (zeros 32) (chunks 32 (img.drop 64))

/-- Kinds of table a fetch names: 0 to 3 the tables of R341, 4 routes, 5 groups. -/
def fetchRoutes : Nat := 4
def fetchGroups : Nat := 5

/-- A half takes a routing or group table. -/
def installRoutes (west : Bool) (kind : Nat) (img : Bytes) (s : State) : State :=
  if kind = fetchRoutes then onHalf west (fun h => { h with routes := routesOf img }) s
  else if kind = fetchGroups then onHalf west (fun h => { h with groups := groupsOf img }) s
  else s

/-- Kind of a bias block that a fetch names (R188). -/
def fetchBias : Nat := 6

/-- A bias block goes into the copy that is not active, in every lantern of a half (R188). -/
def writeBias (west : Bool) (gi : Nat) (block : Bytes) (s : State) : State :=
  let g := groupAt s gi
  (lanternsOf s west).foldl (fun s l => (memWrite (regionReq g l) {} (regionAddr s g l (g.biasOff (1 - g.active))) block s).2) s

/-- The East unit fetches the copy of a table, checks its digest, takes it, and replies. -/
def eastFetches (ticket kind index len : Nat) (digest : Bytes) (s : State) : State :=
  let c := tget (0, []) s.ll.images ticket
  let st := if c.1 = kind ∧ c.2.length = len ∧ sha384 c.2 = digest then stOk else stIntegrityFail
  let s := if st ≠ stOk then s else if kind = fetchBias then writeBias false index c.2 s else installRoutes false kind c.2 s
  seamSend false 7 (.mailbox (.reply ticket st)) s

/-- East's lanterns zeroise the entries of a range of indices, and East replies (R88). -/
def eastDrops (ticket kind index count : Nat) (s : State) : State :=
  seamSend false 7 (.mailbox (.reply ticket stOk)) ((List.range count).foldl (fun s j => storeIn false kind (index + j) [] s) s)

/-- New content of one index of a table: what the image holds for it, its digest, who loaded it; a grant stands (R85). -/
def newTable (owner kind j : Nat) (img : Bytes) (t : Table) : Table :=
  { t with loaded := true, owner := owner, digest := sha384 img, image := if kind = 1 then sub img (16 + 512 * j) 512 else img }

/-- A load takes effect in every lantern's store and in Stolaikor's copies. -/
def commitTable (owner kind index count : Nat) (img : Bytes) (s : State) : State :=
  (List.range count).foldl (fun s j =>
    let t := newTable owner kind j img (tableAt s kind (index + j))
    storeIn false kind (index + j) t.image (storeIn true kind (index + j) t.image (setTable kind (index + j) t s))) s

/-- The copy of an image that a ticket names is done with. -/
def dropImage (ticket : Nat) (s : State) : State := onLl (fun l => { l with images := tset (0, []) l.images ticket (0, []) }) s

/-- East's reply to the fetch of a bias block: the copy it was written into becomes the active one, or the old one stays (R188). -/
def biasReplied (ticket st : Nat) (s : State) : State :=
  (List.range 16).foldl (fun s gi =>
    if (groupAt s gi).fetching ≠ ticket then s else
    let block := (tget (0, []) s.ll.images ticket).2
    dropImage ticket (modGroup gi (fun g =>
      if st = stOk then { g with active := 1 - g.active, epoch := fld block 8 8, fetching := 0 } else { g with fetching := 0 }) s)) s

/-- East's reply to a fetch ends the request that waits for it: the new content is in force everywhere, or the old stands (R85, R190). Its
reply to an unload does (R88), and so does that to a bias block. -/
def fetchReplied (ticket st : Nat) (s : State) : State :=
  (biasReplied ticket st s).boxes.waiting.foldl (fun s w =>
    match w.cond with
    | .eastFetch t kind index count =>
      if t ≠ ticket then s else
      let img := (tget (0, []) s.ll.images ticket).2
      let s := dropImage ticket (onBoxes (fun b => { b with waiting := b.waiting.erase w }) s)
      let s := if st ≠ stOk then s else if kind < 4 then commitTable w.mb kind index count img s else installRoutes true kind img s
      reply w.mb w.slot st w.payload s
    | .eastDrop t _ _ _ => if t ≠ ticket then s else reply w.mb w.slot st w.payload (onBoxes (fun b => { b with waiting := b.waiting.erase w }) s)
    | _ => s) (biasReplied ticket st s)

/-- A MAILBOX message. A setting needs no copy of its own: both halves' units read the one the model holds. -/
def takeMailboxMsg (m : SeamMsg) (body : SeamMailboxBody) (ue : Ue) (s : State) : State :=
  match m.toEast, body with
  | true, .fetch ticket kind index _ len digest => eastFetches ticket kind index len digest s
  | true, .drop ticket kind index count => eastDrops ticket kind index count s
  | false, .reply ticket st => settle ue (fetchReplied ticket st s)
  | _, _ => s

/-- SEAM_MAILBOX (R21). -/
def execSeamMailbox (m : SeamMsg) (body : SeamMailboxBody) (ue : Ue) (s : State) : Host.Outcome State Fault Refusal :=
  whenServing (seamTake 7 m (takeMailboxMsg m body ue)) s

/-! ## TRACE (R416, R425) -/

/-- A sub-buffer follows a subop of TRACE_CONFIG. -/
def controlSub (k h subop : Nat) (s : State) : State :=
  match subop with
  | 0 => writeHeader k h (modSub k h (fun _ => { state := 1 }) s)
  | 4 => fireTrigger k h 6 0 (clock s (h == 0)) s
  | 5 => stopSub k h 4 s
  | 6 => if ((bufAt s k).half h).state ≥ 2 then writeHeader k h (modSub k h (fun _ => { state := 1 }) (modBuf k (fun b => { b with fired := false }) s)) else s
  | _ => modSub k h (fun _ => {}) s

/-- A TRACE message: control or a trigger for East, a trigger or a status for West. -/
def takeTraceMsg (m : SeamMsg) (body : SeamTraceBody) (s : State) : State :=
  match body with
  | .control k subop => if m.toEast ∧ (bufAt s k).owner ≠ none then
      seamSend false 8 (.trace (.status k ((bufAt (controlSub k 1 subop s) k).east.state))) (controlSub k 1 subop s) else s
  | .trigger k time _ _ => freezeSub k (b2n m.toEast) time (modBuf k (fun b => if b.owner = none then b else { b with fired := true }) s)
  | .status _ _ => s

/-- SEAM_TRACE (R416, R425). -/
def execSeamTrace (m : SeamMsg) (body : SeamTraceBody) (s : State) : Host.Outcome State Fault Refusal :=
  whenServing (seamTake 8 m (takeTraceMsg m body)) s

/-! ## CREDIT (R15) -/

/-- Credits come back for the other direction; messages that waited for one leave. -/
def takeCredit (m : SeamMsg) (s : State) : State :=
  let a := hdrArg m.header
  let k := seamKey (!m.toEast) (a % 16)
  seamFlush (onSeam (fun x => { x with spent := tset 0 x.spent k (tget 0 x.spent k - bits a 15 8) }) s)

/-- SEAM_CREDIT (R15). -/
def execSeamCredit (m : SeamMsg) (s : State) : Host.Outcome State Fault Refusal := whenServing (seamTake 9 m (takeCredit m)) s

/-! ## Exchange records (R108, R109) -/

/-- Whether a record is the next of its source. -/
def exchangeNext (s : State) (m : ExchangeMsg) : Bool :=
  let last := tget (0, 0) s.experts.exchRx (exchKey m)
  (m.incarnation == last.1 && m.counter == last.2 + 1) || (m.counter == 1 && (decide (m.incarnation > last.1) || last == (0, 0)))

/-- Import data that has landed is written by its lantern, under the request the chunk came with (R250). -/
def importLanded (qi : Nat) (l serial : Nat) (d : Bytes) (s : State) : State :=
  let dst := fld d 0 8
  let parts := chunkParts s l dst (fld d 8 4)
  (parts.foldl (fun (acc : Bytes × State) p =>
    let y := memWrite (copyReq acc.2 qi 2 (dst + p.1)) {} (dst + p.1) (acc.1.take p.2) acc.2
    (acc.1.drop p.2, if y.1 = stOk then y.2 else modInFlight qi serial (fun c => if c.result = stOk then { c with result := y.1 } else c) y.2))
    (d.drop 16, s)).2

/-- A whole unit record takes effect: sheet data is written; what a link complex sent has landed (the arrival and combine units hold
it); a share stands for its round; import data is written. -/
def exchangeWhole (m : ExchangeMsg) (b : Bytes) (s : State) : State :=
  let x := exchLead b
  let d := b.drop 16
  if x.kind = 0 then
    (if (taskAt s x.task).live ∧ (taskAt s x.task).lanterns.contains m.dest ∧ (opndOf x.opnd).space = spSheet then
      writeSheet x.task m.dest (opndOf x.opnd).arg (opndOf x.opnd).off d s else s)
  else if x.kind = 1 then closeWaiting x.server s
  else if x.kind = 3 then
    (if (taskAt s x.task).live ∧ (taskAt s x.task).shared = x.opnd ∧ (taskAt s x.task).lanterns.contains m.dest then
      modTask x.task (fun y => { y with shares := y.shares ++ [(shareKey x.opnd m.source m.dest, d)] }) s else s)
  else if x.kind = 4 then importLanded x.server m.dest x.task d s
  else s

/-- What a link complex sent in a record that fails is lost: a token's lane, an answer (R108). -/
def loseCarried (m : ExchangeMsg) (s : State) : State :=
  let k := (exchKey m, m.counter)
  onExperts (fun e => { e with
    records := e.records.filter (fun r => !r.under.contains k)
    servers := e.servers.map (fun x => (x.1, { x.2 with slices := x.2.slices.map (fun c =>
      { c with lanes := c.lanes.map (fun l => if l.under.contains k then { l with lost := true } else l) }) })) }) s

/-- A record that fails its checks: discarded with the pieces before it; its task, or the copy command it belongs to, fails; a fault against
the lantern. -/
def exchangeFails (m : ExchangeMsg) (st : Nat) (b : Bytes) (s : State) : State :=
  let t := (exchSender s m).getD (exchLead b).task
  let s := onExperts (fun e => { e with exchPart := tset [] e.exchPart (exchKey m) [] }) s
  let s := if m.source ≥ 0x40 ∨ t = 0 ∨ (exchLead b).kind = 4 then s else failTask t st s
  let s := onFe (fun f => { f with queues := f.queues.map (fun e => (e.1, { e.2 with inflight := e.2.inflight.map (fun c =>
    if c.exch.contains (exchKey m, m.counter) ∧ c.result = stOk then { c with result := st } else c) })) }) s
  recordFault { cls := clsExchangeFail, kind := kindLantern, inst := m.dest, sub := m.source, status := st, part := if (taskAt s t).live then (taskAt s t).part else 255 }
    (exchLanded m (loseCarried m s))

/-- One piece of a unit record is accepted (R109): bits [7:2] of FLAGS are reserved and ignored (R5), a version that is not implemented
fails with VERSION (R6). -/
def exchangePiece (m : ExchangeMsg) (p : Bytes) (s : State) : State :=
  let k := exchKey m
  let fl := fld p 1 1
  let old := if fl.testBit 0 then [] else tget [] s.experts.exchPart k
  let all := old ++ p.drop 16
  if fld p 0 1 ≠ 1 then exchangeFails m stVersion all s
  else if fld p 8 4 ≠ old.length ∨ all.length > fld p 4 4 ∨ (fl.testBit 1 ∧ all.length ≠ fld p 4 4) then exchangeFails m stIntegrityFail all s
  else if fl.testBit 1 then exchangeWhole m all (onExperts (fun e => { e with exchPart := tset [] e.exchPart k [] }) (exchLanded m s))
  else onExperts (fun e => { e with exchPart := tset [] e.exchPart k all }) (exchLanded m s)

/-- The copy commands whose chunk waited for its bytes to land go on. -/
def importResume (s : State) : State :=
  s.fe.queues.foldl (fun s e => importWaiting e.1 s) s

/-- A lantern takes an exchange record. -/
def takeExchange (m : ExchangeMsg) (s : State) : State :=
  if m.dest ≥ s.build.lanterns ∨ m.source ≥ 256 ∨ islandStopped s (.wicks m.dest) ∨ m.sealed.length > 4112 then s else
  let old := tget [] s.experts.exchPart (exchKey m)
  let (inj, s) := injectCheck clsExchangeFail kindLantern m.dest m.source 0 s
  match (if inj then none else gcmOpen (exchangeKey s m.dest) (exchangeIv m) [] m.sealed m.tag) with
  | none => settle {} (importResume (exchangeFails m stIntegrityFail old s))
  | some p =>
    if ¬ exchangeNext s m then
      settle {} (importResume (exchangeFails m stIntegrityFail (if (fld p 1 1).testBit 0 then p.drop 16 else old) s))
    else
      let s := onExperts (fun e => { e with exchRx := tset (0, 0) e.exchRx (exchKey m) (m.incarnation, m.counter) }) s
      settle {} (importResume (exchangePiece m p s))

/-- EXCHANGE_RECORD (R108, R109). -/
def execExchangeRecord (m : ExchangeMsg) (s : State) : Host.Outcome State Fault Refusal := whenServing (takeExchange m) s

/-! ## Transit crossings (R193) -/

/-- The frame of a transit record: a HOP frame crosses in plaintext and has no tag. -/
def transitFrame (p : Bytes) : Frame :=
  let n := if fMode (p.take 32) = 2 then p.length - 48 else p.length - 32
  ⟨p.take 32, (p.drop 32).take n, (p.drop 32).drop n⟩

/-- A frame that crossed: it leaves by a port of this half, or, where a port of the other half received it, this half checks it and takes
it in (R213). -/
def crossed (ue : Ue) (west : Bool) (port : Nat) (f : Frame) (s : State) : State :=
  if linkWest s port = west then (if ¬ portUp s port then dropFrame port s else portOut west port f.header f.payload f.tag s)
  else settle ue (driveFabric ue (takenIn ue west port f (linkStopped s west) (checkSealed port f s)))

/-- A frame from the other half. A record whose counter or tag fails is rejected with the fault of R10; a stopped half takes none that it
would have to capture without room (R428). -/
def takeTransit (toEast : Bool) (port counter : Nat) (sealed tag : Bytes) (ue : Ue) (s : State) : State :=
  let west := !toEast
  if port ≥ s.build.links ∨ (linkWest s port ≠ west ∧ linkStopped s west ∧ ¬ areaRoom s sealed.length) then s else
  let last := if toEast then s.keys.transitRxE else s.keys.transitRxW
  match gcmOpen (engineKey s west 1026) (transitIv toEast counter) [] sealed tag with
  | none => dispatchPathFault (if toEast then kindFeAgent else kindFrontEnd) s
  | some p =>
    if counter ≠ last + 1 then dispatchPathFault (if toEast then kindFeAgent else kindFrontEnd) s
    else
      let s := onKeys (fun k => if toEast then { k with transitRxE := counter } else { k with transitRxW := counter }) s
      crossed ue west port (transitFrame p) s

/-- TRANSIT_CROSSING (R193). -/
def execTransitCrossing (toEast : Bool) (port counter : Nat) (sealed : CrossingText) (tag : Bytes) (s : State) : Host.Outcome State Fault Refusal :=
  whenServing (takeTransit toEast port counter sealed.bytes tag sealed.ue) s

end Sys2Proof.Machine
end

