-- ==== Sys2Proof/Machine/PortRows.lean ====
section
/-! DEFINITION. Requests at the target sides (R454 to R466), the answers of the memory controllers, tag verdicts (R55, R462), rotation
sweeps (R53, R65 to R71), quarantine and repair (R393 to R397, R72, R73). -/
namespace Sys2Proof.Machine

/-! ## Requests at a port (R456 to R463) -/

/-- The requests a port holds. -/
def portAt (s : State) (p : Nat) : List PortWait := tget [] s.path.ports p
def setPort (p : Nat) (ws : List PortWait) (s : State) : State := onPath (fun x => { x with ports := tset [] x.ports p ws }) s

/-- Bytes a request covers. -/
def portBytes (r : PortReq) : Nat := 64 * (r.len + 1)

/-- The request as the memory path sees it: MASTER 5 a request port, 6 the front-end port (R373). -/
def portReq (r : PortReq) (access : Nat) : Req :=
  { part := r.part, kind := if r.port < 16 then kindLantern else kindFrontEnd, inst := if r.port < 16 then r.port else 0
    master := if r.port < 16 then 5 else 6, access := access, masterId := r.id }

/-- Whether a port accepts a request that decodes to a place (R456). -/
def portTakes (s : State) (p : Nat) (pl : Place) : Bool :=
  match pl with
  | .stacked l _ => p == l
  | .capacity c _ => if p < 16 then capWest s c == lanternWest s p else p == 16 && capWest s c

/-- The status a request is refused with at acceptance: its form (R458, R459), its port (R456), the checks of R529. -/
def portStatus (s : State) (r : PortReq) (write : Bool) : Nat × Nat :=
  let a := r.addr.toNat
  if r.part > 16 ∨ a % 64 ≠ 0 ∨ r.len > 63 ∨ a % 4096 + (portBytes r) > 4096 then (stBadArg, 0)
  else
    let c := checkReq s (portReq r 0) a write
    if c.cls = clsUnmapped then (c.status, c.cls)
    else match place s (domainOf a) with
      | some pl =>
        if ¬ portTakes s r.port pl then (stAddressUnmapped, 0)
        else if c.status = stOk ∧ r.port < 16 ∧ lanternSnuffed s r.port then (stDomainSnuffed, 0)
        else (c.status, c.cls)
      | none => (c.status, c.cls)

/-- Whether two requests share a byte. -/
def portOverlap (a b : PortReq) : Bool :=
  decide (domainOf a.addr.toNat < domainOf b.addr.toNat + (portBytes b)) && decide (domainOf b.addr.toNat < domainOf a.addr.toNat + (portBytes a))

/-- Whether a request not yet performed stands before another one it overlaps (R461). -/
def behind (earlier : List PortWait) (r : PortReq) : Bool := earlier.any (fun w => w.phase == 0 && portOverlap w.req r)

/-- A performed request. -/
def PortWait.ended (w : PortWait) (st : Nat) : PortWait := { w with phase := 2, status := st, wdata := [], wbe := [] }

/-- The write of a held request. -/
def portWrite (ue : Ue) (w : PortWait) (s : State) : Nat × State :=
  underOldKey (keyOf w.req.addr.toNat) (memWriteBe (portReq w.req 2) ue w.req.addr.toNat w.wdata w.wbe) s

/-- Held writes that need wait no longer are performed in acceptance order; those that arrived after number `n` stay. -/
def pumpWrites (ue : Ue) (n : Nat) : List PortWait → List PortWait → State → List PortWait × State
  | _, [], s => ([], s)
  | done, w :: ws, s =>
    if w.phase = 0 ∧ w.write ∧ w.arrival ≤ n ∧ ¬ behind done w.req ∧ ¬ rangeWaits s true w.req.addr.toNat (portBytes w.req) then
      let (st, s) := portWrite ue w s
      let w := w.ended st
      let (r, s) := pumpWrites ue n (done ++ [w]) ws s
      (w :: r, s)
    else
      let (r, s) := pumpWrites ue n (done ++ [w]) ws s
      (w :: r, s)

/-- The response of a request. -/
def portRespond (w : PortWait) (s : State) : State :=
  if w.write then emit (.writeResponse w.req.port w.req.id w.status) s
  else emit (.readResponse w.req.port w.req.id w.status w.data w.poison) s

/-- Responses leave, those of one ID in acceptance order (R461). Answers what stays. -/
def pumpResponses : List Nat → List PortWait → State → List PortWait × State
  | _, [], s => ([], s)
  | blocked, w :: ws, s =>
    if w.phase = 2 ∧ ¬ blocked.contains w.req.id then pumpResponses blocked ws (portRespond w s)
    else
      let (r, s) := pumpResponses (w.req.id :: blocked) ws s
      (w :: r, s)

/-- A port does what it can. -/
def pumpPort (ue : Ue) (p : Nat) (s : State) : State :=
  let (ws, s) := pumpWrites ue s.path.arrivals [] (portAt s p) s
  let (ws, s) := pumpResponses [] ws s
  setPort p ws s

/-- A port performs the writes that had arrived by number `n`. -/
def pumpPortTo (ue : Ue) (n p : Nat) (s : State) : State :=
  let (ws, s) := pumpWrites ue n [] (portAt s p) s
  setPort p ws s

/-- Every port does what it can. -/
def pumpPorts (s : State) : State := (s.path.ports.map Prod.fst).foldl (fun s p => pumpPort {} p s) s

/-- A number in its place in a rising list. -/
def insertNumber (n : Nat) : List Nat → List Nat
  | [] => [n]
  | x :: xs => if n < x then n :: x :: xs else if n = x then x :: xs else x :: insertNumber n xs

/-- The numbers of the requests that wait, in the order they arrived: held writes, port writes, the fabric's operations. -/
def waitingNumbers (s : State) : List Nat :=
  let hs := (List.range s.build.lanterns).flatMap (fun l => ((lanternAt s l).held.filter (fun h => h.mark = [])).map (fun h => h.arrival))
  let ps := s.path.ports.flatMap (fun e => (e.2.filter (fun w => w.phase == 0 && w.write)).map (fun w => w.arrival))
  let is := (s.fabric.west.inbound ++ s.fabric.east.inbound).map (fun i => i.arrival)
  (hs ++ ps ++ is).foldl (fun ns n => insertNumber n ns) []

/-- The request that arrived as number `n`, where it waits no longer, goes. -/
def releaseNumber (ue : Ue) (n : Nat) (s : State) : State :=
  let s := (List.range s.build.lanterns).foldl (fun s l => releaseHeldTo ue l n s) s
  let s := (s.path.ports.map Prod.fst).foldl (fun s p => pumpPortTo ue n p s) s
  let s := ((halfOf s true).inbound.filter (fun i => i.arrival ≤ n)).foldl (fun s i => releaseInbound ue true i s) s
  ((halfOf s false).inbound.filter (fun i => i.arrival ≤ n)).foldl (fun s i => releaseInbound ue false i s) s

/-- What is free once a chunk or page is goes in arrival order (R67): held writes, the ports' held requests, the fabric's held operations. -/
def pumpHeld (ue : Ue) (s : State) : State :=
  settle ue (driveFabric ue (pumpPorts ((waitingNumbers s).foldl (fun s n => releaseNumber ue n s) s)))

/-- Whether a port takes a request now: its lantern accepts requests, or is snuffed and refuses them (R388), it holds fewer than 256, no write stands before it in a
curfew (R427, R463). -/
def portOpen (s : State) (p : Nat) : Bool :=
  (if p < 16 then p < s.build.lanterns && ((lanternAt s p).ready || lanternSnuffed s p) else p == 16) && (portAt s p).length < 256 && !s.curfew.blockedPorts.contains p

/-- Whether a port's writes stall for a curfew. -/
def portStalls (s : State) (p : Nat) : Bool := if p < 16 then islandStopped s (.crypto p) else islandStopped s .frontEnd

/-- A request enters a port's list. -/
def portEnter (w : PortWait) (s : State) : State := arrived (setPort w.req.port (portAt s w.req.port ++ [{ w with arrival := s.path.arrivals }]) s)

/-- A refused request is answered; its read returns poison. -/
def portRefuse (ue : Ue) (r : PortReq) (write : Bool) (st : Nat × Nat) (s : State) : State :=
  let n := min (r.len + 1) 128
  let s := recordDenied (portReq r (if write then 2 else 1)) r.addr.toNat { status := st.1, cls := st.2 } s
  settle ue (pumpPort ue r.port (portEnter
    { req := r, write := write, phase := 2, status := st.1, data := if write then [] else poisonBytes (64 * n)
      poison := if write then [] else List.replicate n true } s))

/-- A READ is accepted (R456, R459). -/
def takePortRead (r : PortReq) (s : State) : State :=
  if ¬ portOpen s r.port then s else
  let st := portStatus s r false
  if st.1 ≠ stOk then portRefuse {} r false st s
  else portEnter { req := r, write := false, phase := 0, status := stOk, data := [], poison := [] } s

/-- REQUEST_PORT_READ (R456). -/
def execRequestPortRead (r : PortReq) (s : State) : Host.Outcome State Fault Refusal := whenServing (takePortRead r) s

/-- Whether a stacked write's enables are all alike in each sector (R460). -/
def enablesOk (s : State) (r : PortReq) (be : List Bool) : Bool :=
  match place s (domainOf r.addr.toNat) with
  | some (.stacked _ _) => (List.range (r.len + 1)).all (fun i => let x := (be.drop (64 * i)).take 64; x.all (fun b => b) || x.all (fun b => !b))
  | _ => true

/-- A WRITE is accepted (R456, R460). -/
def takePortWrite (r : PortReq) (data : Bytes) (be : List Bool) (ue : Ue) (s : State) : State :=
  if ¬ portOpen s r.port then s
  else if portStalls s r.port then onCurfew (fun c => { c with blockedPorts := c.blockedPorts ++ [r.port] }) s
  else
    let st := portStatus s r true
    if st.1 ≠ stOk then portRefuse ue r true st s
    else if data.length ≠ (portBytes r) ∨ be.length ≠ (portBytes r) ∨ ¬ enablesOk s r be then portRefuse ue r true (stBadArg, 0) s
    else settle ue (pumpPort ue r.port (portEnter { req := r, write := true, phase := 0, status := stOk, data := [], poison := [], wdata := data, wbe := be } s))

/-- REQUEST_PORT_WRITE (R456). -/
def execRequestPortWrite (r : PortReq) (data : Bytes) (be : List Bool) (ue : Ue) (s : State) : Host.Outcome State Fault Refusal :=
  whenServing (takePortWrite r data be ue) s

/-- A MESSAGE (R465): answered as it is accepted; the record it carries waits at its endpoint, one with a reserved endpoint is
dropped; a snuffed lantern's port refuses it (R388). -/
def takeMessage (port : Nat) (addr : Word64) (payload : Bytes) (s : State) : State :=
  let a := addr.toNat
  if port > 16 ∨ (port < 16 ∧ port ≥ s.build.lanterns) then s
  else if port < 16 ∧ lanternSnuffed s port then emit (.writeResponse port 0 stDomainSnuffed) s
  else if port < 16 ∧ ¬ (lanternAt s port).ready then s
  else if payload.length < 64 ∨ payload.length > 4160 ∨ a / 2 ^ 24 ≠ 0 ∨ bits a 23 16 ≠ port then emit (.writeResponse port 0 stBadArg) s
  else
    let s := emit (.writeResponse port 0 stOk) s
    if a % 256 > 3 then s else { s with inbox := s.inbox ++ [⟨port, bits a 15 8, a % 256, payload⟩] }

/-- MESSAGE (R465). -/
def execMessage (port : Nat) (addr : Word64) (payload : Bytes) (s : State) : Host.Outcome State Fault Refusal :=
  whenFused (takeMessage port addr payload) s

/-! ## Answers of the memory controllers (R55, R462) -/

/-- The units of a read at request address `a`: each with its read. -/
def portUnits (r : Req) (ue : Ue) (s0 : State) : Nat → Nat → Nat → State → List (Nat × MemRead) × State
  | 0, _, _, s => ([], s)
  | fuel + 1, a, len, s =>
    if len = 0 then ([], s) else
    let n := unitBytes s a len
    let (x, s) := readLoop r true ue s0 (n / 64 + 2) a n s
    let (xs, s) := portUnits r ue s0 fuel (a + n) (len - n) s
    ((n, x) :: xs, s)

/-- A unit's outcome once its verdict is in: a line whose tag fails is poison. -/
def unitStatus (x : MemRead) : Nat := if x.status ≠ stOk then x.status else if x.tags.all (fun t => t.pass) then stOk else stIntegrityFail

/-- The first read of an ID whose data comes back from a tier. -/
def returning (s : State) (port id : Nat) (cap : Bool) : Option (Nat × PortWait) :=
  let ws := portAt s port
  (ws.zipIdx.find? (fun e => e.1.phase == 0 && !e.1.write && e.1.req.id == id && !behind (ws.take e.2) e.1.req &&
    !rangeWaits s false e.1.req.addr.toNat (portBytes e.1.req) &&
    (match place s (domainOf e.1.req.addr.toNat) with
     | some (.capacity _ _) => cap
     | _ => !cap))).map (fun e => (e.2, e.1))

/-- A read whose units are in: its status, data and poison; the tags whose verdicts it still owes. -/
def readAnswer (w : PortWait) (us : List (Nat × MemRead)) : PortWait :=
  { w with phase := if us.flatMap (fun u => u.2.tags) = [] then 2 else 1
           status := ((us.map (fun u => unitStatus u.2)).find? (· ≠ stOk)).getD stOk
           data := us.flatMap (fun u => if unitStatus u.2 = stOk then u.2.data else poisonBytes u.1)
           poison := us.flatMap (fun u => List.replicate (u.1 / 64) (decide (unitStatus u.2 ≠ stOk)))
           left := (us.flatMap (fun u => u.2.tags)).length }

/-- The verdicts a read owes queue at their engines. -/
def oweVerdicts (port id part : Nat) (tags : List Pending) (s : State) : State :=
  tags.foldl (fun s t => modCap t.port (fun c => { c with verdicts := c.verdicts ++ [⟨.port port id, t.pass, BitVec.ofNat 64 t.addr, part⟩] }) s) s

/-- The units of a held read, each with its read. -/
def readUnits (ue : Ue) (w : PortWait) (s : State) : List (Nat × MemRead) × State :=
  underOldKey (keyOf w.req.addr.toNat) (portUnits (portReq w.req 1) ue s (w.req.len + 2) w.req.addr.toNat (portBytes w.req)) s

/-- A read's answer stands in the port's list. -/
def readPlaced (port id k : Nat) (w : PortWait) (x : List (Nat × MemRead) × State) : State :=
  oweVerdicts port id w.req.part (x.1.flatMap (fun u => u.2.tags)) (setPort port ((portAt x.2 port).set k (readAnswer w x.1)) x.2)

/-- The data of a read is in: deciphered, its status and poison known; capacity lines still owe their verdicts. -/
def readReturned (port id : Nat) (cap : Bool) (ue : Ue) (s : State) : State :=
  match returning s port id cap with
  | none => s
  | some (k, w) => settle ue (pumpPort ue port (readPlaced port id k w (readUnits ue w s)))

/-- STACKED_READ_RETURN (R42, R469). -/
def execStackedReadReturn (port id : Nat) (ue : Ue) (s : State) : Host.Outcome State Fault Refusal := whenServing (readReturned port id false ue) s

/-- CAP_READ_RETURN (R55, R471). -/
def execCapReadReturn (port id : Nat) (ue : Ue) (s : State) : Host.Outcome State Fault Refusal := whenServing (readReturned port id true ue) s

/-- One verdict for a port's read: the first read of the ID that waits. -/
def portVerdict (c port id : Nat) (v : Verdict) (s : State) : State :=
  let ws := portAt s port
  match ws.zipIdx.find? (fun e => e.1.phase == 1 && e.1.req.id == id) with
  | none => s
  | some (w, i) =>
    let s := if v.pass then s else capTagFault (portReq w.req 1) c v.addr.toNat s
    let w' : PortWait := { w with left := w.left - 1, phase := if w.left ≤ 1 then 2 else 1 }
    pumpPort {} port (setPort port (ws.set i w') s)

/-- The oldest verdict of a capacity engine comes in (R55, R57). -/
def capVerdict (c : Nat) (s : State) : State :=
  match (capAt s c).verdicts with
  | [] => s
  | v :: vs =>
    let s := modCap c (fun x => { x with verdicts := vs }) s
    let s := match v.target with
      | .ticket l k => ticketVerdict {} l k v.addr.toNat v.pass s
      | .port p id => portVerdict c p id v s
    settle {} s

/-- CAPACITY_VERDICT (R55). -/
def execCapacityVerdict (c : Nat) (s : State) : Host.Outcome State Fault Refusal := whenServing (capVerdict c) s

/-! ## Rotation (R53, R66 to R71) -/

/-- The rotation-due event again, after 1 s without a usable target (R53). -/
def dueRepeat (k : Nat) (s : State) : State :=
  let d := tget {} s.path.due k
  if ¬ d.on ∨ now s < d.last + 1000000000 ∨ dueTarget s d.owner ≠ 0xFFFF then s
  else settle {} (rotationDueEvent k d.cause (onPath (fun p => { p with due := tset {} p.due k { d with last := now s } }) s))

/-- ROTATION_DUE_REPEAT (R53). -/
def execRotationDueRepeat (key : Nat) (s : State) : Host.Outcome State Fault Refusal := whenServing (dueRepeat key) s

/-- A unit's share of a rotation. -/
def shareAt (s : State) (n : Nat) (u : MemUnit) : Option SweepUnit := (rotationAt s n).units.find? (fun x => x.unit == u)
def modShare (n : Nat) (u : MemUnit) (f : SweepUnit → SweepUnit) (s : State) : State :=
  modRotation n (fun r => { r with units := r.units.map (fun x => if x.unit = u then f x else x) }) s

/-- The domain address of a unit's local address. -/
def unitDomain (s : State) (u : MemUnit) (x : Nat) : Nat :=
  match u with
  | .lantern l => domainOfLocal s l x
  | .capacity c => domainOfPort s c x

/-- Whether a unit issues no sweep traffic now: snuffed, stopped by a curfew. -/
def unitIdle (s : State) (u : MemUnit) : Bool :=
  match u with
  | .lantern l => lanternSnuffed s l || islandStopped s (.crypto l)
  | .capacity c => islandStopped s (.capacity c)

/-- Whether a port request accepted earlier is still under way in a chunk. -/
def chunkBusy (s : State) (a : Nat) : Bool :=
  s.path.ports.any (fun e => e.2.any (fun w => w.phase ≠ 2 && domainOf w.req.addr.toNat / 4096 == a / 4096))

/-- A unit opens the chunk at its watermark (R66, R67). -/
def chunkStart (n : Nat) (u : MemUnit) (s : State) : State :=
  let r := rotationAt s n
  match shareAt s n u with
  | none => s
  | some x =>
    if ¬ r.active ∨ r.aliased ∨ x.done ∨ x.open_ ∨ unitIdle s u ∨ chunkBusy s (unitDomain s u x.watermark) then s
    else settle {} (modShare n u (fun x => { x with open_ := true }) s)

/-- SWEEP_CHUNK_START (R66, R67). -/
def execSweepChunkStart (rot : Nat) (u : MemUnit) (s : State) : Host.Outcome State Fault Refusal := whenServing (chunkStart rot u) s

/-- An entry of the poison table takes more sectors (R397); a full table writes zero plaintext, under the key of `k` itself, and loses
them. In a sweep `k` is B, whatever the watermark (R71). -/
def addPoison (l page k : Nat) (mask : BitVec 64) (s : State) : State :=
  if mask = 0 then s else
  let x := lanternAt s l
  let s := dropEntries l (fun e => e.addr / 4096 == domainOfLocal s l (page * 4096) / 4096) s
  if x.poison.any (fun e => e.page == page) then
    modLantern l (fun x => { x with poison := x.poison.map (fun e => if e.page = page then { e with mask := e.mask ||| mask } else e) }) s
  else if x.poison.length < 64 then modLantern l (fun x => { x with poison := x.poison ++ [⟨page, mask⟩] }) s
  else
    let s := (bitList 64 mask.toNat).foldl (fun s i =>
      let la := page * 4096 + 64 * i
      storeSector l la (domainOfLocal s l la) k (zeros 64) s) s
    let (e, s) := newErr s
    let a := domainOfLocal s l (page * 4096)
    let ps := (owners s).filter (fun p => p < 16 && inCarveout s p a (.stacked l (page * 4096)))
    ps.foldl (fun s p => recordFault { cls := clsPoisonLost, kind := kindLantern, inst := l, status := stDataPoison, part := p, master := 9, addr := reqAddr k a, err := some e } s) s

/-- The request of a sweep or repair. -/
def sweepReq (r : Rotation) (kind inst : Nat) : Req := { part := r.owner, own := true, master := 9, access := 1, kind := kind, inst := inst }

/-- One sector of a chunk as key A reads it. -/
def sweepSector (r : Rotation) (ue : Ue) (l la : Nat) (s : State) : Bytes × Bool × State :=
  let a := domainOfLocal s l la
  if quarantined s l (la / 4096) then (poisonBytes 64, true, s)
  else if ue.stacked.contains (stackAddr s l la) then (poisonBytes 64, true, newQuarantine (sweepReq r kindLantern l) l la (reqAddr r.a a) false s)
  else if poisonMarked s l la then (poisonBytes 64, true, s)
  else (openSector s l la a r.a, false, s)

/-- The sectors of a chunk. -/
def sweepSectors (r : Rotation) (ue : Ue) (l : Nat) : List Nat → State → List (Nat × Bytes × Bool) × State
  | [], s => ([], s)
  | la :: las, s =>
    let (d, p, s) := sweepSector r ue l la s
    let (xs, s) := sweepSectors r ue l las s
    ((la, d, p) :: xs, s)

/-- A stacked chunk: rewritten under B, or quarantined and read as poison until its repair (R71). -/
def sweepStacked (r : Rotation) (ue : Ue) (l base : Nat) (s : State) : State :=
  let (xs, s) := sweepSectors r ue l ((List.range 64).map (fun i => base + 64 * i)) s
  if xs.any (fun x => x.2.2) then
    let page := base / 4096
    let s := if quarantined s l page then s
      else modLantern l (fun x => { x with quarantine := x.quarantine ++ [⟨page, clock s (lanternWest s l), s.faults.errs, [], isShared s r.a⟩] }) s
    addPoison l page r.b (BitVec.allOnes 64) s
  else
    xs.foldl (fun s x =>
      let a := domainOfLocal s l x.1
      { s with mem := { s.mem with stacked := twrites 0 s.mem.stacked (stackAddr s l x.1) (sealSector s l a r.b x.2.1) } }) s

/-- One line of a chunk under A: rewritten under B with counter 1; a LOST, flagged or failed line is repaired with zero plaintext,
since no replica covers the capacity tier (R55, R71). -/
def sweepLine (r : Rotation) (ue : Ue) (c pa : Nat) (s : State) : State :=
  let a := domainOfPort s c pa
  let rq := sweepReq r kindCapacity c
  let (m, _, s) := loadMeta rq ue c pa (reqAddr r.a a) s
  let e := m.at pa
  let flagged := lineUe ue c pa
  let (d, ok) := openLine s c pa a r.a e
  if e ≠ lostEntry ∧ flagged = none ∧ ok then sealLine c pa a r.b 1 d s
  else
    let s := sealLine c pa a r.b 1 (zeros 256) s
    let s := if e ≠ lostEntry ∧ flagged = none then capTagFault rq c (reqAddr r.a a) s else s
    capUeFault rq c pa (flagged.getD pa) (reqAddr r.a a) s

/-- A SWEEP record as a unit's watermark moves on (R410). -/
def traceSweep (n : Nat) (u : MemUnit) (s : State) : State :=
  let r := rotationAt s n
  let w := ((shareAt s n u).map (fun x => x.watermark)).getD 0
  let (kind, i) : Nat × Nat := match u with
    | .lantern l => (kindLantern, l)
    | .capacity c => (kindCapacity, c)
  traceEmit { type := 6, kind := kind, inst := i, part := r.owner, arg := le 1 n ++ zeros 3 ++ le 4 r.a ++ le 8 w } s

/-- The contents of a unit's open chunk are rewritten under the rotation's target. -/
def sweepChunk (r : Rotation) (ue : Ue) (u : MemUnit) (at_ : Nat) (s : State) : State :=
  match u with
  | .lantern l => sweepStacked r ue l at_ s
  | .capacity c => (List.range 16).foldl (fun s i => sweepLine r ue c (at_ + 256 * i) s) s

/-- A unit's share after its open chunk: the watermark at its next chunk, or its end. -/
def SweepUnit.swept (x : SweepUnit) : SweepUnit :=
  match x.nextFrom (x.watermark + 4096) with
  | some w => { x with watermark := w, open_ := false }
  | none => { x with watermark := x.watermark + 4096, open_ := false, done := true }

/-- A chunk is swept: the watermark moves on, what waited for it goes (R66, R67); the last chunk ends the share (R69). -/
def chunkDone (n : Nat) (u : MemUnit) (ue : Ue) (s : State) : State :=
  let r := rotationAt s n
  match shareAt s n u with
  | none => s
  | some x =>
    if ¬ r.active ∨ ¬ x.open_ ∨ unitIdle s u then s else
    let s := modTotals r.owner (fun t => { t with sweep := satTo 64 (t.sweep + 8192) }) (sweepChunk r ue u x.watermark s)
    pumpHeld ue (finishSweep n (traceSweep n u (modShare n u SweepUnit.swept s)))

/-- SWEEP_CHUNK_DONE (R66 to R69). -/
def execSweepChunkDone (rot : Nat) (u : MemUnit) (ue : Ue) (s : State) : Host.Outcome State Fault Refusal := whenFused (recording (chunkDone rot u ue)) s

/-! ## Quarantine and repair (R393 to R397) -/

/-- A page's quarantine ends. -/
def endQuarantine (l page : Nat) (s : State) : State := modLantern l (fun x => { x with quarantine := x.quarantine.filter (fun q => q.page ≠ page) }) s

/-- A quarantine lapses after 50 µs (R393). -/
def quarantineLapse (l page : Nat) (s : State) : State :=
  match (lanternAt s l).quarantine.find? (fun q => q.page == page) with
  | none => s
  | some q => if clock s (lanternWest s l) < q.since + 50000 then s else pumpHeld {} (endQuarantine l page s)

/-- QUARANTINE_LAPSE (R393). -/
def execQuarantineLapse (l page : Nat) (s : State) : Host.Outcome State Fault Refusal := whenServing (quarantineLapse l page) s

/-- A valid repair entry (R395): key, base, replica key, replica, length in bytes. -/
structure RepairEntry where
  key     : Nat
  base    : Nat
  rkey    : Nat
  replica : Nat
  length  : Nat
  deriving DecidableEq, Repr

/-- The entry that covers a domain address. -/
def repairEntry (s : State) (a : Nat) : Option RepairEntry :=
  (List.range 16).findSome? (fun n =>
    let lo := (tget 0 s.faults.repairLo n).toNat
    let hi := (tget 0 s.faults.repairHi n).toNat
    let e : RepairEntry := ⟨bits lo 59 48, bits lo 47 21 * 2 ^ 21, bits hi 59 48, bits hi 47 21 * 2 ^ 21, hi % 65536 * 2 ^ 21⟩
    if lo.testBit 63 ∧ e.base ≤ a ∧ a < e.base + e.length then some e else none)

/-- The key under which a page's storage stands: that of the object over it. -/
def pageKey (s : State) (a : Nat) : Nat :=
  ((s.parts.objects.find? (fun e => e.2.state == .live && (objRanges s e.2).any (fun r => r.1 ≤ a && a < r.2))).map (fun e => e.2.key)).getD 0

/-- Sectors of a page that do not read: flagged now or marked before. -/
def badSectors (s : State) (ue : Ue) (l page : Nat) : List Nat :=
  (List.range 64).filter (fun i => ue.stacked.contains (stackAddr s l (page * 4096 + 64 * i)) || poisonMarked s l (page * 4096 + 64 * i))

/-- A page number that no lantern-local address has. -/
def noPage : Nat := 2 ^ 24 - 1

/-- The table without a page: an entry that held it stays in use and holds none. -/
def leavePage (page : Nat) (t : Tab RemapEntry) : Tab RemapEntry :=
  t.map (fun e => if e.2.valid ∧ e.2.page = page then (e.1, { e.2 with page := noPage }) else e)

/-- The page takes a spare (R73); none where all 64 entries are in use. DESIGN CHOICE (notes/assumptions/79.md): the lowest entry that is not
valid, with the spare page of its number; and a page that was remapped before takes a further entry, its old one staying in use with no
page, since the spare behind it has failed. R73 says neither. -/
def takeSpare (l page : Nat) (s : State) : Option State :=
  match tfind {} (lanternAt s l).remap 64 (fun e => !e.valid) with
  | none => none
  | some p => some (modLantern l (fun x => { x with remap := tset {} (leavePage page x.remap) p ⟨true, p, page⟩ }) s)

/-- The remap of a page (R397): the replica's contents, or the page's readable sectors with the rest marked poison. -/
def remapPage (ue : Ue) (l page : Nat) (replica : Option (RepairEntry × Bytes)) (s : State) : State :=
  let bad := badSectors s ue l page
  let raw := (List.range 64).map (fun i => rawSector s l (page * 4096 + 64 * i))
  match takeSpare l page s with
  | none => recordFault { cls := clsRemapExhausted, kind := kindLantern, inst := l, status := stRemapExhausted, addr := domainOfLocal s l (page * 4096) } s
  | some s =>
    match replica with
    | some (e, d) =>
      let (_, s) := memWrite { part := 16, own := true, master := 9, access := 2, kind := kindLantern, inst := l } {} (reqAddr e.key (domainOfLocal s l (page * 4096))) d s
      endQuarantine l page s
    | none =>
      let s := (raw.zipIdx).foldl (fun s x =>
        { s with mem := { s.mem with stacked := twrites 0 s.mem.stacked (stackAddr s l (page * 4096 + 64 * x.2)) x.1 } }) s
      let mask : BitVec 64 := BitVec.ofNat 64 ((bad.map (fun i => 2 ^ i)).sum)
      endQuarantine l page (addPoison l page (effectiveKey s (pageKey s (domainOfLocal s l (page * 4096))) (.stacked l (page * 4096))) mask s)

/-- Errors of a page within 24 h. -/
def recentErrors (s : State) (l page : Nat) : Nat :=
  (lanternAt s l).ueLog.countP (fun e => e.1 == page && decide (clock s (lanternWest s l) < e.2 + 86400000000000))

/-- The request of a repair in a lantern. -/
def repairReq (l access : Nat) : Req := { part := 16, own := true, master := 9, access := access, kind := kindLantern, inst := l }

/-- What a page reads as after its replica was written over it. -/
def readBack (l page : Nat) (ue : Ue) (key : Nat) (s : State) : Bytes :=
  (List.range 64).flatMap (fun i =>
    let la := page * 4096 + 64 * i
    let d := domainOfLocal s l la
    if ue.stacked.contains (stackAddr s l la) then poisonBytes 64 else openSector s l la d (effectiveKey s key (.stacked l la)))

/-- A page's repair ends: it has no poison marks any more, and a page no longer quarantined is recorded as repaired. -/
def repairDone (l page : Nat) (ue : Ue) (key : Nat) (s : State) : State :=
  let s := modLantern l (fun x => { x with poison := x.poison.filter (fun p => p.page ≠ page) }) s
  pumpHeld ue (if quarantined s l page then s
    else recordFault { cls := clsRepaired, kind := kindLantern, inst := l, addr := reqAddr key (domainOfLocal s l (page * 4096)) } s)

/-- Whether a page under repair reads back as its replica `d`, with no error. -/
def repairHolds (l page : Nat) (ue : Ue) (key : Nat) (d : Bytes) (s : State) : Bool :=
  sha384 (readBack l page ue key s) == sha384 d && !(List.range 64).any (fun i => ue.stacked.contains (stackAddr s l (page * 4096 + 64 * i)))

/-- A page under repair holds its replica's contents: it is remapped where it fails again or does not read back, else its quarantine
ends. -/
def repairChecked (l page : Nat) (ue : Ue) (again : Bool) (e : RepairEntry) (d : Bytes) (s : State) : State :=
  repairDone l page ue e.key (if again || !repairHolds l page ue e.key d s then remapPage ue l page (some (e, d)) s else endQuarantine l page s)

/-- A repair whose replica has been read: the replica is written over the page. -/
def repairRead (l page : Nat) (ue : Ue) (again : Bool) (e : RepairEntry) (s0 : State) (x : MemRead × State) : State :=
  if x.1.status ≠ stOk then x.2 else
  let s := onParts (fun p => { p with repairBytes := satTo 64 (p.repairBytes + 12288) }) x.2
  repairChecked l page ue again e x.1.data (memWrite (repairReq l 2) {} (reqAddr e.key (domainOfLocal s0 l (page * 4096))) x.1.data s).2

/-- The repair of a quarantined page (R396, R397). -/
def pageRepair (l page : Nat) (ue : Ue) (s : State) : State :=
  if ¬ quarantined s l page ∨ unitIdle s (.lantern l) then s else
  let a := domainOfLocal s l (page * 4096)
  let again : Bool := recentErrors s l page ≥ 2
  match repairEntry s a with
  | none => if again then pumpHeld ue (remapPage ue l page none s) else s
  | some e => repairRead l page ue again e s (memRead (repairReq l 1) ue (reqAddr e.rkey (e.replica + (a - e.base))) 4096 s)

/-- PAGE_REPAIR (R396, R397). -/
def execPageRepair (l page : Nat) (ue : Ue) (s : State) : Host.Outcome State Fault Refusal := whenFused (recording (pageRepair l page ue)) s

end Sys2Proof.Machine
end

