-- ==== Sys2Proof/Machine/WickOps.lean ====
section
/-! DEFINITION. Control of wicks: whether a wick can take its next descriptor, LOOP and PRED (R121, R122), barriers explicit and
implicit (R123), the end of a program. -/
namespace Sys2Proof.Machine

/-- How many descriptors a wick has ended. -/
def descsEnded (k : Wick) : Nat := (k.ends.map Prod.snd).sum

/-- Whether a wick stands before its next descriptor and may take it: its task runs, it has started, waits at nothing, its
island runs (R427) and no debugger holds it (R514). -/
def wickReady (s : State) (w : Wk) : Bool :=
  let x := taskAt s w.t
  let k := wickOf s w
  x.live && x.lanterns.contains w.l && decide (w.r < x.w) && k.started && !k.ended && !x.aborting && k.waiting == .none &&
    !islandStopped s (.wicks w.l) && 
    s.jtag.wickHalt.all (fun h => !(h.l == w.l && h.phys == k.phys) || h.step == some (descsEnded k))

/-- The descriptor a wick stands before. -/
def wickDesc (s : State) (w : Wk) : Option Bytes := (taskAt s w.t).program[(wickOf s w).pc]?

/-- The wicks of a task in some lanterns. -/
def wicksIn (s : State) (t : Nat) (ue : Ue) (ls : List Nat) : List Wk :=
  ls.flatMap (fun l => (List.range (taskAt s t).w).map (fun r => (⟨t, l, r, ue⟩ : Wk)))

/-! ## LOOP and PRED (R121, R122) -/

/-- A 4 B unsigned value of a local operand. -/
def localWord (s : State) (w : Wk) (o : Opnd) : Nat := leNat (getLocal s w o 0 4)

/-- How often a loop runs. -/
def loopTimes (s : State) (w : Wk) (d : Bytes) : Nat :=
  if isNone d 8 then fld d 6 2 else min (fld d 6 2) (localWord s w (opndAt d 8))

/-- A LOOP descriptor is entered, or its body passed over where it runs no time. -/
def enterLoop (prog : List Bytes) (d : Bytes) (n : Nat) (k : Wick) : Wick :=
  if n = 0 then Wick.next prog { k with pc := k.pc + fld d 4 1 }
  else Wick.next prog { k with loops := ⟨k.pc + 1, k.pc + fld d 4 1, n, 0, k.args⟩ :: k.loops }

/-- A comparison by its code on an order of numbers. -/
def cmpNat (c a b : Nat) : Bool :=
  match c with
  | 0 => a == b
  | 1 => a != b
  | 2 => decide (a < b)
  | 3 => decide (a ≤ b)
  | 4 => decide (b < a)
  | _ => decide (b ≤ a)

/-- The same on BINARY32; a NaN compares true only under NE. -/
def cmpF32 (c : Nat) (a b : F32) : Bool :=
  let x := dec32 a
  let y := dec32 b
  if f32IsNan a || f32IsNan b then c == 1
  else match c with
    | 0 => !fLess x y && !fLess y x
    | 1 => fLess x y || fLess y x
    | 2 => fLess x y
    | 3 => !fLess y x
    | 4 => fLess y x
    | _ => !fLess x y

/-- A mask from 8 lane conditions. -/
def maskOf (f : Nat → Bool) : Byte := BitVec.ofNat 8 ((List.range 8).map (fun t => b2n (f t) * 2 ^ t)).sum

/-- What a PRED descriptor sets its register to. -/
def predValue (s : State) (w : Wk) (d : Bytes) : Byte :=
  let k := wickOf s w
  let imm := fld d 12 4
  let old := k.masks.getD (fld d 4 1) 0
  let other := k.masks.getD (imm % 8) 0
  match fld d 5 1 with
  | 0 => BitVec.ofNat 8 imm
  | 1 => maskOf (fun t => decide (t < localWord s w (opndAt d 8)))
  | 2 => maskOf (fun t => cmpF32 (fld d 6 1) (leNat (getLocal s w (opndAt d 8) (4 * t) 4)) imm)
  | 3 => if cmpNat (fld d 6 1) ((k.loops.reverse.map (fun f => f.index)).getD (fld d 7 1) 0) imm then 0xFF else 0
  | 4 => old &&& other
  | _ => old ||| other

/-! ## Barriers (R123) -/

/-- Whether a descriptor acts as a SET barrier of its own. -/
def setOp (d : Bytes) : Bool :=
  match fld d 1 1 with
  | 0x1A | 0x1C => fld d 23 1 == 1
  | 0x28 => fld d 18 1 == 1
  | 0x21 | 0x22 | 0x2A => true
  | _ => false

/-- Whether a descriptor is worked on by the wicks of a lantern, or of the set, together without being a barrier: they meet at
it, and those that come share it (the true value: the set). -/
def meetingOf (d : Bytes) : Option Bool :=
  match fld d 1 1 with
  | 0x1A | 0x1C => if fld d 23 1 = 0 then some false else none
  | 0x1D | 0x20 => some false
  | 0x28 => if fld d 18 1 = 0 then some false else none
  | 0x29 => some (fld d 16 1 != 1)
  | _ => none

/-- Whether a wick waits at such a descriptor. -/
def atMeeting (x : Task) (k : Wick) : Bool :=
  match k.waiting with
  | .implicit pc => (meetingOf (x.program.getD pc [])).isSome
  | _ => false

/-- Whether arriving at `a` in lantern `l` is another barrier than `o`, at which a wick of lantern `l'` waits. -/
def clash (a : WickWait) (l : Nat) (o : WickWait) (l' : Nat) : Bool :=
  match a, o with
  | _, .none => false
  | .explicit false _, .explicit true _ => l == l'
  | .explicit true _, .explicit false _ => l == l'
  | .explicit false i, .explicit false j => l == l' && i != j
  | _, _ => a != o

/-- Whether a wick that arrives finds another barrier waited at, or a wick it waits for that has ended. -/
def mismatch (x : Task) (l : Nat) (a : WickWait) (set : Bool) : Bool :=
  x.wicks.any (fun e => (!atMeeting x e.2 && clash a l e.2.waiting (e.1 / 256)) || (e.2.ended && (set || e.1 / 256 == l)))

/-- Whether every wick of some lanterns waits at the same place. -/
def allAt (s : State) (ws : List Wk) (a : WickWait) : Bool := ws.all (fun w => (wickOf s w).waiting == a)

/-- Whether exchange records of the task are under way, or data of its lanterns is unconfirmed (R110, R123). -/
def setBusy (s : State) (t : Nat) : Bool :=
  let x := taskAt s t
  !x.exch.isEmpty || x.lanterns.any (fun l => !(depsOf s t l).isEmpty)

/-- A wick reaches a barrier: it waits, or as the last one lets `act` happen, after which all of them go on. While `busy`
holds, or while what `act` has sent is under way, the last one stands before it. -/
def arrive (w : Wk) (a : WickWait) (set busy : Bool) (act : State → WOut Unit) (s : State) : WOut Unit :=
  let x := taskAt s w.t
  let ws := wicksIn s w.t w.ue (if set then x.lanterns else [w.l])
  if mismatch x w.l a set then .fails stProgramInvalid s
  else
    let s1 := modWick w (fun k => { k with waiting := a }) s
    if ¬ allAt s1 ws a then .done () s1
    else if busy then .waits []
    else match act s1 with
      | .stays s2 => .stays (modWick w (fun k => { k with waiting := .none }) s2)
      | r => r.andThen fun _ s2 => .done () (ws.foldl (fun t v => endDesc v s t) s2)

/-- A wick comes to a descriptor that its lantern or set shares. -/
def comeTo (w : Wk) (s : State) : WOut Unit := .done () (modWick w (fun k => { k with waiting := .implicit k.pc }) s)

/-- The wicks of a scope at meetings, those before the lowest descriptor, once every wick of the scope waits or has ended. -/
def gathered (s : State) (t : Nat) (ue : Ue) (set : Bool) (ls : List Nat) : Option (List Wk × Nat) :=
  let x := taskAt s t
  let ws := wicksIn s t ue ls
  let pcs := ws.filterMap (fun w => match (wickOf s w).waiting with
    | .implicit pc => if meetingOf (x.program.getD pc []) = some set then some pc else none
    | _ => none)
  if ws.all (fun w => (wickOf s w).ended || (wickOf s w).waiting != .none) then
    pcs.min?.map (fun pc => (ws.filter (fun w => (wickOf s w).waiting == .implicit pc), pc))
  else none

/-- The barrier a BARRIER descriptor is. -/
def barrierOf (d : Bytes) : WickWait := .explicit (fld d 4 1 == 1) (fld d 5 1)

/-- Whether a wick that ends leaves others of its lantern, or of its set, waiting. -/
def othersWait (x : Task) (l : Nat) : Bool :=
  x.wicks.any (fun e => !atMeeting x e.2 && (match e.2.waiting with
    | .none => false
    | .explicit set _ => set || e.1 / 256 == l
    | .implicit _ => true))

/-- A wick's program ends. -/
def endProgram (w : Wk) (s : State) : WOut Unit :=
  let x := taskAt s w.t
  if othersWait x w.l then .fails stProgramInvalid s
  else .done () (modWick w (fun k => { k with ended := true, waiting := .none }) s)

/-- A wick of an aborting task stops (R119). -/
def stopWick (w : Wk) (s : State) : State :=
  modWick w (fun k => if k.ended then k else { k with ended := true, waiting := .none }) s

end Sys2Proof.Machine
end

