-- ==== Sys2Proof/Machine/Vector.lean ====
section
/-! DEFINITION. The vector operations and data movement on a wick's share (R132 to R137). -/
namespace Sys2Proof.Machine

/-- N, IMM and AUX of a vector descriptor. -/
def vecN (d : Bytes) : Nat := fld d 16 4
def vecImm (d : Bytes) : Nat := fld d 24 4
def vecAux (d : Bytes) : Nat := fld d 28 4

/-- The elements wick `w` takes of `n` (R132). -/
def wickShare (s : State) (w : Wk) (n : Nat) : Nat × Nat := shareOf n w.r (taskAt s w.t).w

/-! ## ELEMWISE and CURVE (R133) -/

/-- One result of ELEMWISE. -/
def elemOp (sub : Nat) (table : Bytes) (imm a b : F32) : F32 :=
  match sub with
  | 0 => f32Add a b
  | 1 => f32Sub a b
  | 2 => f32Mul a b
  | 3 => f32Max a b
  | 4 => f32Min a b
  | 5 => f32Mul a imm
  | 6 => enc32 (dec32 a)
  | _ => f32Mul (curveEval table a) b

/-- ELEMWISE on a wick's elements. -/
def doElemwise (w : Wk) (d : Bytes) (s : State) : WOut Unit :=
  let (e0, e1) := wickShare s w (vecN d)
  let a := getRows s w (opndAt d 8) (typeA d) e0 e1
  let b := if elemB (fld d 21 1) then getRows s w (opndAt d 12) (typeB d) e0 e1 else a
  let table := storeImage s w.l 2 (fld d 22 1)
  let rows := (a.zip b).map (fun r => (r.1.zip r.2).map (fun v => elemOp (fld d 21 1) table (vecImm d) v.1 v.2))
  .done () (putRows w (opndAt d 4) (typeD d) (laneMask (wickOf s w) d) e0 rows s)

/-- CURVE on a wick's elements. -/
def doCurve (w : Wk) (d : Bytes) (s : State) : WOut Unit :=
  let (e0, e1) := wickShare s w (vecN d)
  let table := storeImage s w.l 2 (fld d 22 1)
  let rows := (getRows s w (opndAt d 8) (typeA d) e0 e1).map (fun r => r.map (curveEval table))
  .done () (putRows w (opndAt d 4) (typeD d) (laneMask (wickOf s w) d) e0 rows s)

/-! ## NORM (R133) -/

/-- Per lane, the sum of `f` over rows in their order. -/
def laneSums (f : Nat → F32 → F32) (rows : List (List F32)) : List F32 :=
  rows.foldl (fun acc r => (List.range 8).map (fun t => f32Add (acc.getD t 0) (f t (r.getD t 0)))) (List.replicate 8 0)

/-- Per lane, the partial sums of several wicks combined in their order. -/
def addLanes (ps : List (List F32)) : List F32 :=
  ps.foldl (fun acc p => (List.range 8).map (fun t => f32Add (acc.getD t 0) (p.getD t 0))) (List.replicate 8 0)

/-- Each wick's rows of A. -/
def rowsEach (ws : List Wk) (d : Bytes) (s : State) : List (Wk × List (List F32)) :=
  ws.map (fun w =>
    let (e0, e1) := wickShare s w (vecN d)
    (w, getRows s w (opndAt d 8) (typeA d) e0 e1))

/-- An element less its lane's mean under LAYER, the element itself under RMS. -/
def centred (d : Bytes) (a m : F32) : F32 := if fld d 21 1 = 0 then a else f32Sub a m

/-- The rows of NORM written from the means and the divisors of the token lanes. -/
def normOut (ws : List Wk) (m1 den : List F32) (d : Bytes) (s : State) : State :=
  let outs := (rowsEach ws d s).map (fun p =>
    let (e0, e1) := wickShare s p.1 (vecN d)
    let b := getRows s p.1 (opndAt d 12) (typeB d) e0 e1
    (p.1, e0, (p.2.zip b).map (fun (r : List F32 × List F32) => (List.range 8).map (fun t =>
      f32Div (f32Mul (centred d (r.1.getD t 0) (m1.getD t 0)) (r.2.getD t 0)) (den.getD t 0)))))
  outs.foldl (fun s o => putRows o.1 (opndAt d 4) (typeD d) (laneMask (wickOf s o.1) d) o.2.1 o.2.2 s) s

/-- The partial sums of a lantern's wicks, by token lane. -/
def lanternSums (ws : List Wk) (f : Nat → F32 → F32) (d : Bytes) (s : State) : List F32 :=
  addLanes ((rowsEach ws d s).map (fun p => laneSums f p.2))

/-- The square of an element's distance from its lane's mean. -/
def normSquare (d : Bytes) (m1 : List F32) (t : Nat) (a : F32) : F32 :=
  f32Mul (centred d a (m1.getD t 0)) (centred d a (m1.getD t 0))

/-- The divisors of the lanes from their mean squares. -/
def normDen (d : Bytes) (sq : List F32) : List F32 := sq.map (fun v => f32Sqrt (f32Add v (vecImm d)))

/-- NORM for the wicks of a lantern, which share one total (SCOPE LANTERN). -/
def doNorm (ws : List Wk) (d : Bytes) (s : State) : State :=
  let mean (f : Nat → F32 → F32) : List F32 := (lanternSums ws f d s).map (fun v => f32Div v (f32OfNat (vecN d)))
  let m1 := if fld d 21 1 = 0 then List.replicate 8 0 else mean (fun _ a => a)
  normOut ws m1 (normDen d (mean (normSquare d m1))) d s

/-- Eight BINARY32 values as bytes, and back. -/
def lanesBytes (vs : List F32) : Bytes := vs.flatMap (le 4)
def lanesOfBytes (b : Bytes) : List F32 := (chunks 4 b).map leNat

/-- The means that lantern `dst` forms from the partial sums of every lantern of the set. -/
def setMean (s : State) (t round : Nat) (ls : List Nat) (n dst : Nat) : List F32 :=
  (addLanes (ls.map (fun a => lanesOfBytes (shareAtOf s t round a dst)))).map (fun v => f32Div v (f32OfNat n))

/-- Every lantern gives its partial sums to every lantern. -/
def sumShares (ls : List (Nat × List Wk)) (f : Nat → Nat → F32 → F32) (d : Bytes) (s : State) : WOut (List (Nat × Nat × Bytes)) :=
  .done (toAll (ls.map Prod.fst) (fun a => lanesBytes (lanternSums (((ls.find? (fun e => e.1 == a)).map Prod.snd).getD []) (f a) d s))) s

/-- NORM under SCOPE SET: partial statistics through the exchange, one total for the set; LAYER has a round for the means before
that for the squares. -/
def doNormSet (t : Nat) (ls : List (Nat × List Wk)) (d : Bytes) (s : State) : WOut Unit :=
  let names := ls.map Prod.fst
  let n := ls.length * vecN d
  let rms : Bool := fld d 21 1 == 0
  let m1 (s : State) (a : Nat) : List F32 := if rms then List.replicate 8 0 else setMean s t 1 names n a
  let squares (s : State) : WOut Unit :=
    withShares t 2 (fun s => sumShares ls (fun a => normSquare d (m1 s a)) d s) (fun s =>
      .done () (endShares t (ls.foldl (fun s e => normOut e.2 (m1 s e.1) (normDen d (setMean s t 2 names n e.1)) d s) s))) s
  if rms then squares s else withShares t 1 (sumShares ls (fun _ _ a => a) d) squares s

/-! ## REDUCE (R133) -/

/-- Two contributions together; one that does not exist leaves the other. -/
def reducePair (sub : Nat) : Option F32 → Option F32 → Option F32
  | none, b => b
  | a, none => a
  | some a, some b => some (match sub with
    | 1 => f32Max a b
    | 2 => f32Min a b
    | _ => f32Add a b)

/-- A contribution of one element: its value, or its square under SUMSQ; none in a masked lane. -/
def reduceIn (sub m t : Nat) (a : F32) : Option F32 :=
  if laneOn m t then some (if sub = 3 then f32Mul a a else enc32 (dec32 a)) else none

/-- The row stored from 8 results: lanes without one keep their bytes. -/
def putLanes (w : Wk) (o : Opnd) (ty e : Nat) (vs : List (Option F32)) (s : State) : State :=
  let m := ((List.range 8).map (fun t => b2n (vs.getD t none).isSome * 2 ^ t)).sum
  putRows w o ty m e [vs.map (fun v => v.getD 0)] s

/-- REDUCE under SCOPE LANTERN: the wicks' partials in their order, the result to D. -/
def doReduce (ws : List Wk) (d : Bytes) (s : State) : State :=
  let op := fld d 21 1
  let lane (p : Wk × List (List F32)) (t : Nat) : Option F32 :=
    p.2.foldl (fun acc r => reducePair op acc (reduceIn op (laneMask (wickOf s p.1) d) t (r.getD t 0))) none
  let parts := rowsEach ws d s
  let res := (List.range 8).map (fun t => parts.foldl (fun acc p => reducePair op acc (lane p t)) none)
  let o := opndAt d 4
  (if o.space = spSheet then ws.take 1 else ws).foldl (fun s w => putLanes w o (typeD d) 0 res s) s

/-- A lantern's contributions of REDUCE under SCOPE SET: for each element a byte that says which lanes have one, then eight values. -/
def reduceShare (ws : List Wk) (d : Bytes) (s : State) : Bytes :=
  (rowsEach ws d s).flatMap (fun p => p.2.flatMap (fun r =>
    let vs := (List.range 8).map (fun t => reduceIn (fld d 21 1) (laneMask (wickOf s p.1) d) t (r.getD t 0))
    le 1 ((List.range 8).map (fun t => b2n (vs.getD t none).isSome * 2 ^ t)).sum ++ lanesBytes (vs.map (fun v => v.getD 0))))

/-- The contributions of a share, by element and lane. -/
def reduceOfShare (b : Bytes) : List (List (Option F32)) :=
  (chunks 33 b).map (fun r => (List.range 8).map (fun t => if (fld r 0 1).testBit t then some (fld r (1 + 4 * t) 4) else none))

/-- The elements a lantern forms from the contributions of every lantern, in the order of the set. -/
def reduceTotals (op n : Nat) (parts : List (List (List (Option F32)))) : List (List (Option F32)) :=
  (List.range n).map (fun e => (List.range 8).map (fun t =>
    parts.foldl (fun acc p => reducePair op acc ((p.getD e []).getD t none)) none))

/-- REDUCE under SCOPE SET: the same element of every lantern combined, each lantern's contributions through the exchange, the result to
D in every lantern. -/
def doReduceSet (t : Nat) (ls : List (Nat × List Wk)) (d : Bytes) (s : State) : WOut Unit :=
  let names := ls.map Prod.fst
  withShares t 1 (fun s => .done (toAll names (fun a => reduceShare (((ls.find? (fun e => e.1 == a)).map Prod.snd).getD []) d s)) s) (fun s =>
    .done () (endShares t (ls.foldl (fun s e =>
      let res := reduceTotals (fld d 21 1) (vecN d) (names.map (fun a => reduceOfShare (shareAtOf s t 1 a e.1)))
      e.2.foldl (fun s w =>
        let (e0, e1) := wickShare s w (vecN d)
        let m := laneMask (wickOf s w) d
        (List.range (e1 - e0)).foldl (fun s i =>
          putLanes w (opndAt d 4) (typeD d) (e0 + i) ((List.range 8).map (fun t =>
            if laneOn m t then (res.getD (e0 + i) []).getD t none else none)) s) s) s) s))) s

/-! ## DIGEST (R135) -/

/-- The bit patterns of an element row. -/
def rowPatterns (ty : Nat) (b : Bytes) : List Nat := (chunks (rowBytes ty / 8) b).map leNat

/-- Positions and values of a wick's share; position 8 e + t, masked lanes left out. -/
def digestIn (s : State) (w : Wk) (d : Bytes) : List (Nat × Nat) :=
  let (e0, e1) := wickShare s w (vecN d)
  let ty := typeA d
  let m := laneMask (wickOf s w) d
  let ps := rowPatterns ty (getLocal s w (opndAt d 8) (e0 * rowBytes ty) ((e1 - e0) * rowBytes ty))
  (ps.zipIdx.map (fun x => (8 * e0 + x.2, x.1))).filter (fun x => laneOn m (x.1 % 8))

/-- DIGEST of a lantern's region: the wicks' digests add up. -/
def doDigest (ws : List Wk) (l : Nat) (d : Bytes) (s : State) : State :=
  let key := digestKey s (taskAt s ((ws.head?.map (fun w => w.t)).getD 0)).part (lanternWest s l)
  let v := digestOf key (ws.flatMap (fun w => digestIn s w d))
  let o := opndAt d 4
  (if o.space = spSheet then ws.take 1 else ws).foldl (fun s w => putLocal w o 0 (le 8 v) s) s

/-! ## QUANTISE (R133, R134) -/

/-- `w`-bit elements packed as a stream (R76). -/
def packBits (w : Nat) (xs : List Nat) : Bytes :=
  le ((xs.length * w + 7) / 8) (xs.zipIdx.map (fun x => x.1 % 2 ^ w * 2 ^ (w * x.2))).sum

/-- The element of an integer group (R95, R96): NaN gives 0, infinities and what lies beyond the range the least or greatest integer, and a
finite value the integer nearest to its quotient by the group's scale. The rules say how a value converts to an integer and not how the
scale of an integer group is chosen: the scale is a free value (notes/assumptions/15.md), and where it is zero or no number the code of a
finite value is free too. -/
def intElem (f : Fmt) (free : Bytes) (i : Nat) (v : FVal) : Conv :=
  let sc := scaleVal f.scale (fld free (f.elemRegion + f.selRegion + i / f.group * scaleBytes f.scale) (scaleBytes f.scale))
  if ¬ v.isFin then toElem f.elem f.sat f.rtz v
  else if sc.isFin ∧ ¬ sc.isZero then toElem f.elem f.sat f.rtz (fDiv v sc)
  else ⟨streamElem free f.bits i, false, false⟩

/-- Selectors and scales of a tile whose values are free but for groups that hold only positions past the end: these are zeros (R133). -/
def freeScales (f : Fmt) (free : Bytes) (live : Nat) : Bytes :=
  let groups (at_ n : Nat) : Bytes := (List.range f.tileGroups).flatMap (fun g => if g * f.group < live then sub free (at_ + g * n) n else zeros n)
  groups f.elemRegion (f.sel / 8) ++ groups (f.elemRegion + f.selRegion) (scaleBytes f.scale)

/-- A tile of an output entry from its weights' values, of which the first `live` are values and the rest padding; how many conversions
were NaN to an integer, how many saturated (R95 to R97, R133). `free` holds the bytes the spec leaves open: the scales of integer groups,
and what a codebook format makes of a value. -/
def encodeTile (f : Fmt) (vs : List FVal) (live : Nat) (free : Bytes) : Bytes × Nat × Nat :=
  if f.kind = 1 then
    let cs := vs.map (toElem f.elem f.sat f.rtz)
    (packBits f.bits (cs.map Conv.val), cs.countP Conv.nanToInt, cs.countP Conv.sat)
  else if f.kind = 2 then
    let bs := (List.range f.tileGroups).map (fun g => toMx f.elem f.rtz ((vs.drop (32 * g)).take 32))
    (packBits f.bits (bs.flatMap MxBlock.elems) ++ bs.flatMap (fun b => le 1 b.scale), 0, (bs.map MxBlock.sat).sum)
  else
    let conv (i : Nat) (v : FVal) : Conv := if f.kind = 3 then intElem f free i v else ⟨streamElem free f.bits i, false, false⟩
    let cs := (List.range f.tileWeights).map (fun i => if i < live then conv i (vs.getD i .nan) else ⟨0, false, false⟩)
    (packBits f.bits (cs.map Conv.val) ++ freeScales f free live, cs.countP Conv.nanToInt, cs.countP Conv.sat)

/-- Conversions of a lantern counted at the task, by half. -/
def countConv (t l nan sat : Nat) (s : State) : State :=
  modTask t (fun x =>
    if lanternWest s l then { x with nanToInt := satTo 32 (x.nanToInt + nan), saturated := satTo 32 (x.saturated + sat) }
    else { x with nanEast := satTo 32 (x.nanEast + nan), satEast := satTo 32 (x.satEast + sat) }) s

/-- One lane's tile of a QUANTISE SEQ: values from element row `p0` on, +0 past N. -/
def quantTile (w : Wk) (f : Fmt) (d : Bytes) (lane tile : Nat) (rows : List (List F32)) (s : State) : WOut Unit :=
  let tw := f.tileWeights
  let vs := (List.range tw).map (fun i => dec32 ((rows.getD i []).getD lane 0))
  let off := lane * vecAux d + tile * f.tileBytes
  let (b, nan, sat) := encodeTile f vs rows.length (unstatedBytes f.tileBytes s)
  writeOp w (opndAt d 4) off b (countConv w.t w.l nan sat (if f.kind = 3 ∨ f.kind = 4 then drawn f.tileBytes s else s))

/-- QUANTISE SEQ on a wick's tiles. -/
def doSeq (w : Wk) (d : Bytes) (s : State) : WOut Unit :=
  let f := fmtIn s w.l (fld d 22 1)
  let tw := f.tileWeights
  let n := vecN d
  let (t0, t1) := wickShare s w ((n + tw - 1) / tw)
  let m := laneMask (wickOf s w) d
  let jobs := (bitList 8 m).flatMap (fun lane => (List.range (t1 - t0)).map (fun i => (lane, t0 + i)))
  (WOut.each (fun (j : Nat × Nat) s =>
    let p0 := j.2 * tw
    quantTile w f d j.1 j.2 (getRows s w (opndAt d 8) (typeA d) p0 (min n (p0 + tw))) s) jobs s).andThen fun _ s => .done () s

/-- QUANTISE INTERLEAVED on a wick's units of 4 elements. -/
def doInterleaved (w : Wk) (d : Bytes) (s : State) : WOut Unit :=
  let n := vecN d
  let (u0, u1) := wickShare s w ((n + 3) / 4)
  let e0 := min n (4 * u0)
  let rows := getRows s w (opndAt d 8) (typeA d) e0 (min n (4 * u1))
  let m := laneMask (wickOf s w) d
  let o := opndAt d 4
  if o.isMem then writeOp w o (64 * u0) (fit (64 * (u1 - u0)) (encRows 1 m [] rows)) s
  else .done () (putRows w o 1 m e0 rows s)

/-- QUANTISE on a wick's share. -/
def doQuantise (w : Wk) (d : Bytes) (s : State) : WOut Unit :=
  if fld d 21 1 = 0 then doSeq w d s else doInterleaved w d s

/-! ## Data movement (R136, R137) -/

/-- MOVE on a wick's 64 B units. Under ALL the bytes go to the sheet of every lantern, to the others as exchange records. -/
def doMove (w : Wk) (d : Bytes) (s : State) : WOut Unit :=
  let n := vecN d
  let (u0, u1) := wickShare s w ((n + 63) / 64)
  let a := 64 * u0
  let len := min n (64 * u1) - min n a
  let o := opndAt d 4
  if fld d 2 1 = 0 then
    (readOp w (opndAt d 8) a len s).andThen fun b s => writeOp w o a b s
  else if len = 0 then .done () s
  else
    (readSure w (opndAt d 8) a len s).andThen fun b s =>
      let x := taskAt s w.t
      let off := o.off + rankOf x w.l * vecAux d + a
      let s := writeSheet w.t w.l o.arg off b s
      .done () ((x.lanterns.filter (· ≠ w.l)).foldl (fun s l => sendSheet w.t w.l l o.arg off b s) s)

/-- The indices of a wick's share of GATHER and SCATTER, with their positions. -/
def readIdx (w : Wk) (d : Bytes) (s : State) : WOut (List (Nat × Nat)) :=
  let (i0, i1) := wickShare s w (vecN d)
  if i0 = i1 then .done [] s
  else (readSure w (opndAt d 12) (4 * i0) (4 * (i1 - i0)) s).andThen fun b s =>
    .done ((chunks 4 b).zipIdx.map (fun x => (i0 + x.2, leNat x.1))) s

/-- GATHER on a wick's rows, in rising order; an index at or above IMM fails the task before its row. -/
def doGather (w : Wk) (d : Bytes) (s : State) : WOut Unit :=
  (readIdx w d s).andThen fun ix s =>
    (WOut.each (fun (x : Nat × Nat) s =>
      if x.2 ≥ vecImm d then .fails stIndexRange s
      else (readOp w (opndAt d 8) (x.2 * vecAux d) (vecAux d) s).andThen fun b s =>
        writeOp w (opndAt d 4) (x.1 * vecAux d) b s) ix s).andThen fun _ s => .done () s

/-- BINARY32 elements added into a sheet. -/
def addElems (w : Wk) (o : Opnd) (off : Nat) (b : Bytes) (s : State) : State :=
  (chunks 4 b).zipIdx.foldl (fun s x => addSheet w.t w.l o.arg (o.off + off + 4 * x.2) (leNat x.1) s) s

/-- SCATTER on a wick's rows, in rising order. -/
def doScatter (w : Wk) (d : Bytes) (s : State) : WOut Unit :=
  (readIdx w d s).andThen fun ix s =>
    (WOut.each (fun (x : Nat × Nat) s =>
      if x.2 ≥ vecImm d then .fails stIndexRange s
      else (readOp w (opndAt d 8) (x.1 * vecAux d) (vecAux d) s).andThen fun b s =>
        if fld d 21 1 = 0 then writeOp w (opndAt d 4) (x.2 * vecAux d) b s
        else .done () (addElems w (opndAt d 4) (x.2 * vecAux d) b s)) ix s).andThen fun _ s => .done () s

end Sys2Proof.Machine
end

