-- ==== Sys2Proof/Machine/Gemv.lean ====
section
/-! DEFINITION. GEMV and GEMV_SPARSE (R93, R124 to R131): tiles, positions, the tree of a cycle, the additions into Y. -/
namespace Sys2Proof.Machine

/-- A weight's place: row block, panel, row in the block. -/
structure RowKey where
  block : Nat
  panel : Nat
  row   : Nat
  deriving DecidableEq, Repr

/-- One weight lane of a cycle: what row and column its weight has (none: padding), its value. -/
structure LaneIn where
  place : Option (RowKey × Nat)
  value : FVal
  deriving DecidableEq, Repr

/-- One level of the tree of R93: adjacent nodes added, each sum a BINARY32 value. -/
def treeLevel : List FVal → List FVal
  | a :: b :: r => dec32 (enc32 (fAdd a b)) :: treeLevel r
  | r => r

/-- The tree of 7 levels over 128 products. -/
def tree (ps : List FVal) : F32 :=
  enc32 (((List.range 7).foldl (fun xs _ => treeLevel xs) ps).headD (.fin false 0 0))

/-- The shape of a product: rows, columns, rows in a block, weights and bytes of a tile, row blocks of this lantern. -/
structure Gemv where
  rows  : Nat
  k     : Nat
  rb    : Nat
  tw    : Nat
  tb    : Nat
  b0    : Nat
  b1    : Nat
  deriving DecidableEq, Repr

/-- The share of row blocks of a lantern (R125). -/
def gemvShape (s : State) (w : Wk) (f : Fmt) (rows k rb split : Nat) : Gemv :=
  let x := taskAt s w.t
  let b := (rows + rb - 1) / rb
  let c := (b + x.lanterns.length - 1) / x.lanterns.length
  let l := rankOf x w.l
  if split = 0 then ⟨rows, k, rb, f.tileWeights, f.tileBytes, min b (l * c), min b (l * c + c)⟩
  else ⟨rows, k, rb, f.tileWeights, f.tileBytes, 0, b⟩

/-- Rows and tiles of a row block (R124). -/
def Gemv.blockRows (g : Gemv) (b : Nat) : Nat := min g.rb (g.rows - b * g.rb)
def Gemv.tilesOf (g : Gemv) (b : Nat) : Nat := (g.blockRows b * g.k + g.tw - 1) / g.tw

/-- The tiles of a full row block, and of the lantern's share. -/
def Gemv.full (g : Gemv) : Nat := (g.rb * g.k + g.tw - 1) / g.tw
def Gemv.total (g : Gemv) : Nat := if g.b1 ≤ g.b0 then 0 else (g.b1 - 1 - g.b0) * g.full + g.tilesOf (g.b1 - 1)

/-- Where position `e` of a row block's dense layout lies (R124); none past its last weight. -/
def Gemv.placeOf (g : Gemv) (b e : Nat) : Option (RowKey × Nat) :=
  let r := g.blockRows b
  if e ≥ r * g.k then none else
  let p := e / (r * 512)
  let c0 := 512 * p
  let pw := min 512 (g.k - c0)
  let rem := e - r * c0
  some (⟨b, p, rem / pw⟩, c0 + rem % pw)

/-- A row's sums under way: its key and 8 lanes; and the finished ones, each to be added into Y once. -/
structure GemvAcc where
  cur  : Option RowKey := none
  acc  : List F32 := []
  outs : List (RowKey × List F32) := []
  deriving DecidableEq, Repr, Inhabited

/-- The row under way is finished. -/
def GemvAcc.flush (a : GemvAcc) : GemvAcc :=
  match a.cur with
  | none => a
  | some k => { cur := none, acc := [], outs := a.outs ++ [(k, a.acc)] }

/-- A token-lane value of the activations (R92). -/
def tokenAt (x : Bytes) (col t : Nat) : FVal := decBf16 (fld x (16 * col + 2 * t) 2)

/-- One row's tree in one cycle for one token lane: the row's own lanes keep their places, the others give +0 (R93). -/
def rowTree (x : Bytes) (lanes : List LaneIn) (k : RowKey) (t : Nat) : F32 :=
  tree ((List.range 128).map (fun i =>
    match (lanes.getD i ⟨none, .fin false 0 0⟩).place with
    | some p => if p.1 = k then fMul (lanes.getD i ⟨none, .fin false 0 0⟩).value (tokenAt x p.2 t) else .fin false 0 0
    | none => .fin false 0 0))

/-- The rows of a cycle in the order in which they appear. -/
def cycleRows (lanes : List LaneIn) : List RowKey :=
  lanes.foldl (fun ks i =>
    match i.place with
    | some (k, _) => if ks.contains k then ks else ks ++ [k]
    | none => ks) []

/-- One cycle: each row's sum is added to its accumulator. -/
def gemvCycle (x : Bytes) (m : Nat) (lanes : List LaneIn) (a : GemvAcc) : GemvAcc :=
  (cycleRows lanes).foldl (fun a k =>
    let a := if a.cur = some k then a else { a.flush with cur := some k, acc := List.replicate 8 0 }
    { a with acc := (List.range 8).map (fun t =>
        if laneOn m t then f32Add (a.acc.getD t 0) (rowTree x lanes k t) else 0) }) a

/-- The lanes cut into cycles of 128. -/
def cyclesOf : Nat → List LaneIn → List (List LaneIn)
  | 0, _ => []
  | _ + 1, [] => []
  | fuel + 1, xs => xs.take 128 :: cyclesOf fuel (xs.drop 128)

/-- One tile: its weights, placed by `pos`, 128 in each cycle (R126). -/
def gemvTile (s : State) (l : Nat) (f : Fmt) (x : Bytes) (m : Nat) (pos : Nat → Option (RowKey × Nat)) (tile : Bytes) (a : GemvAcc) : GemvAcc :=
  let lanes := (List.range f.tileWeights).map (fun i => (⟨pos i, weightAt s l f tile i⟩ : LaneIn))
  (cyclesOf (lanes.length / 128 + 1) lanes).foldl (fun a c => gemvCycle x m c a) a

/-- The finished rows are added into Y (R126): at their global row, or from the first row of the lantern's share. -/
def gemvStore (w : Wk) (g : Gemv) (y : Opnd) (local_ : Bool) (m : Nat) (a : GemvAcc) (s : State) : State :=
  a.flush.outs.foldl (fun s o =>
    let r := o.1.block * g.rb + o.1.row - (if local_ then g.b0 * g.rb else 0)
    (bitList 8 m).foldl (fun s t => addSheet w.t w.l y.arg (y.off + 32 * r + 4 * t) (o.2.getD t 0) s) s) s

/-- After a product ACC holds free values, and ACT where X lay in a sheet (R127). -/
def gemvScratch (w : Wk) (x : Opnd) (s : State) : State :=
  let acc := unstatedBytes 16384 s
  let s := modWick w (fun k => mendWords spAcc 0 16384 { k with acc := twrites 0 k.acc 0 acc }) (drawn 16384 s)
  if x.space = spAct then s
  else
    let act := unstatedBytes 16384 s
    modWick w (fun k => mendWords spAct 0 16384 { k with act := twrites 0 k.act 0 act }) (drawn 16384 s)

/-- The byte of W at which the lantern's share begins: offset 0 of a SLICED operand; its own tiles of a tensor in MEM. -/
def Gemv.base (g : Gemv) (o : Opnd) : Nat := if o.space = spSliced then 0 else g.b0 * g.full * g.tb

/-- GEMV on a wick's tiles (R126). -/
def doGemv (w : Wk) (d : Bytes) (s : State) : WOut Unit :=
  let f := fmtIn s w.l (fld d 16 1)
  let g := gemvShape s w f (fld d 20 4) (fld d 24 2) (fld d 26 2) (fld d 17 1)
  let (t0, t1) := wickShare s w g.total
  let o := opndAt d 4
  let xo := opndAt d 8
  let x := getLocal s w xo 0 (16 * g.k)
  let m := laneMask (wickOf s w) d
  (WOut.each (fun (i : Nat) s => readOp w o (g.base o + (t0 + i) * g.tb) g.tb s) (List.range (t1 - t0)) s).andThen fun ts s =>
    let a := ts.zipIdx.foldl (fun a e =>
      let t := t0 + e.2
      let b := t / g.full
      gemvTile s w.l f x m (fun i => g.placeOf (g.b0 + b) ((t - b * g.full) * g.tw + i)) e.1 a) ({} : GemvAcc)
    .done () (gemvScratch w xo (gemvStore w g (opndAt d 12) (fld d 2 1 == 1) m a s))

/-! ## Sparse (R129, R130) -/

/-- Bytes of a row block's index data over `n` dense positions in tiles of `tw`. -/
def indexBytes (sparsity n tw : Nat) : Nat :=
  match sparsity with
  | 1 => (n + 7) / 8
  | 2 => ((n + 7) / 8 * 6 + 7) / 8
  | 3 => ((n + 15) / 16 * 4 + 7) / 8
  | _ => ((n + tw - 1) / tw + 7) / 8

/-- The dense positions of a row block's stored weights, in order. -/
def storedAt (sparsity n tw : Nat) (ix : Bytes) : List Nat :=
  match sparsity with
  | 1 => (List.range n).filter (fun i => streamElem ix 1 i == 1)
  | 2 => (List.range ((n + 7) / 8)).flatMap (fun g => [8 * g + streamElem ix 3 (2 * g), 8 * g + streamElem ix 3 (2 * g + 1)])
  | 3 => (List.range ((n + 15) / 16)).map (fun g => 16 * g + streamElem ix 4 g)
  | _ => ((List.range ((n + tw - 1) / tw)).filter (fun i => streamElem ix 1 i == 1)).flatMap (fun t => (List.range tw).map (fun i => t * tw + i))

/-- One row block of a sparse product: its index data, its tiles. -/
def sparseBlock (w : Wk) (d : Bytes) (f : Fmt) (g : Gemv) (x : Bytes) (m : Nat) (e : Nat × Nat × Nat) (a : GemvAcc) (s : State) :
    WOut GemvAcc :=
  let sp := fld d 22 1
  let n := g.blockRows e.1 * g.k
  (readOp w (opndAt d 16) (64 * e.2.2) (indexBytes sp n g.tw) s).andThen fun ix s =>
    let ps := storedAt sp n g.tw ix
    let nt := (ps.length + g.tw - 1) / g.tw
    (WOut.each (fun (i : Nat) s => readOp w (opndAt d 4) ((e.2.1 + i) * g.tb) g.tb s) (List.range nt) s).andThen fun ts s =>
      .done (ts.zipIdx.foldl (fun a t =>
        gemvTile s w.l f x m (fun i => (ps[t.2 * g.tw + i]?).bind (g.placeOf e.1)) t.1 a) a) s

/-- Row blocks one after another. -/
def sparseBlocks (w : Wk) (d : Bytes) (f : Fmt) (g : Gemv) (x : Bytes) (m : Nat) : List (Nat × Nat × Nat) → GemvAcc → State → WOut GemvAcc
  | [], a, s => .done a s
  | e :: es, a, s => (sparseBlock w d f g x m e a s).andThen fun a s => sparseBlocks w d f g x m es a.flush s

/-- GEMV_SPARSE on a wick's row blocks: their table entries first, as confirmed data (R60). -/
def doSparse (w : Wk) (d : Bytes) (s : State) : WOut Unit :=
  let f := fmtIn s w.l (fld d 20 1)
  let g := gemvShape s w f (fld d 24 4) (fld d 28 2) (fld d 30 2) (fld d 21 1)
  let (j0, j1) := wickShare s w (g.b1 - g.b0)
  let xo := opndAt d 8
  let x := getLocal s w xo 0 (16 * g.k)
  let m := laneMask (wickOf s w) d
  let bs := (List.range (j1 - j0)).map (fun i => g.b0 + j0 + i)
  (WOut.each (fun (b : Nat) s => (readSure w (opndAt d 16) (8 * b) 8 s).andThen fun e s => .done (b, fld e 0 4, fld e 4 4) s) bs s).andThen fun es s =>
    (sparseBlocks w d f g x m es {} s).andThen fun a s =>
      .done () (gemvScratch w xo (gemvStore w g (opndAt d 12) (fld d 2 1 == 1) m a s))

end Sys2Proof.Machine
end

