-- ==== Sys2Proof/Machine/Kv.lean ====
section
/-! DEFINITION. The key-value cache: pool geometry and frames (R143 to R145), KV_APPEND (R151 to R156), ATTEND and its exponential
(R157 to R161), ATTN_MERGE (R163). -/
namespace Sys2Proof.Machine

/-! ## Geometry (R143 to R145) -/

/-- Bytes of an element. -/
def Pool.elem (p : Pool) : Nat := if p.elemFmt = 0 then 2 else 1

/-- PAGE_BYTES, HR, FRAME_BYTES. -/
def Pool.pageBytes (p : Pool) : Nat := 64 * 256 * p.heads * p.elem
def Pool.headerBytes (p : Pool) : Nat := alignUp (64 * p.layers) 4096
def Pool.frameBytes (p : Pool) : Nat := p.headerBytes + p.layers * p.pageBytes

/-- The lanterns of a pool's mask. -/
def poolLanterns (s : State) (p : Pool) : List Nat := maskLanterns s p.mask.toNat

/-- MAP_BYTES for `n` lanterns, FRAME_BASE, the bytes of a lantern's share. -/
def Pool.mapBytes (p : Pool) (n : Nat) : Nat := alignUp (4 * (((p.maxTokens + 63) / 64 + n - 1) / max 1 n)) 64
def Pool.frameBase (p : Pool) (n : Nat) : Nat := 4096 + alignUp (p.seqSlots * p.mapBytes n) 4096
def Pool.shareBytes (p : Pool) (n : Nat) : Nat := p.frameBase n + p.frames * p.frameBytes

/-- The request address of a byte of lantern `l`'s share. -/
def poolAddr (s : State) (p : Pool) (l off : Nat) : Nat := reqAddr p.key (homeAddr s l (p.base + off))

/-- The lantern and the local page number of a sequence's page (R145). -/
def pageHome (s : State) (p : Pool) (q : Sequence) (page : Nat) : Nat × Nat :=
  let ls := poolLanterns s p
  let n := max 1 ls.length
  (ls.getD ((page + q.start) % n) 0, page / n)

/-- The address of a page's map entry. -/
def mapAddr (s : State) (p : Pool) (q : Sequence) (page : Nat) : Nat :=
  let h := pageHome s p q page
  poolAddr s p h.1 (4096 + q.slot * p.mapBytes (poolLanterns s p).length + 4 * h.2)

/-- The address of a byte of frame `f` in lantern `l`. -/
def frameAddr (s : State) (p : Pool) (l f off : Nat) : Nat :=
  poolAddr s p l (p.frameBase (poolLanterns s p).length + f * p.frameBytes + off)

/-- Where the K row, or the V row, of a head and slot stands in a frame (R144). -/
def Pool.rowOff (p : Pool) (layer h slot : Nat) (v : Bool) : Nat :=
  p.headerBytes + layer * p.pageBytes + h * 16384 * p.elem + (if v then 8192 * p.elem else 0) + slot * 128 * p.elem

/-! ## Frames (R147, R152) -/

/-- Eonal's own write of pool storage. -/
def poolWrite (ue : Ue) (p : Pool) (l addr : Nat) (d : Bytes) (s : State) : State :=
  (memWrite { part := p.part, own := true, kind := kindLantern, inst := l } ue addr d s).2

/-- The lowest free frame of a lantern: which free frame an allocation takes the spec does not say (DESIGN CHOICE,
notes/assumptions/85.md). -/
def freeFrame (p : Pool) (l : Nat) : Option Nat := (List.range p.frames).find? (fun f => !(tget [] p.used l).contains f)

/-- A page takes a frame: its headers are zeroed and its map entry written; none where the pool has no frame there. Map entries of pages
that have no frame are written by nothing, at the creation or destruction of a pool or a sequence either: they keep what the storage held
(DESIGN CHOICE, notes/assumptions/85.md). -/
def allotFrame (ue : Ue) (k page : Nat) (s : State) : Option State :=
  let q := seqAt s k
  let p := poolAt s q.pool
  let l := (pageHome s p q page).1
  (freeFrame p l).map (fun f =>
    let a := frameAddr s p l f 0
    let m := mapAddr s p q page
    let s := setPool q.pool { p with used := tmod [] p.used l (fun fs => fs ++ [f]) } s
    let s := modSeq k (fun q => { q with pages := tset 0 q.pages page (f + 1) }) s
    let s := poolWrite ue p l a (zeros (64 * p.layers)) s
    poolWrite ue p l m (le 4 (2 ^ 31 + f)) s)

/-- The pages of a list that have no frame take one each; none where frames run out. -/
def allotFrames (ue : Ue) (k : Nat) : List Nat → State → Option State
  | [], s => some s
  | page :: r, s =>
    if tget 0 (seqAt s k).pages page ≠ 0 then allotFrames ue k r s
    else (allotFrame ue k page s).bind (allotFrames ue k r)

/-! ## Page headers -/

/-- Which slots a header marks as drafts of an epoch (R144). -/
def headerMarks (h : Bytes) (epoch slot : Nat) : Bool := fld h 0 1 == 1 && fld h 4 4 == epoch && (fld h 8 8).testBit slot

/-- A header with slots marked in an epoch: another epoch's marks are cleared first (R152). -/
def headerSet (h : Bytes) (epoch bits64 : Nat) : Bytes :=
  let old := if fld h 0 1 = 1 ∧ fld h 4 4 = epoch then fld h 8 8 else 0
  put (le 1 1 ++ zeros 3 ++ le 4 epoch ++ le 8 (old ||| bits64)) 16 (sub h 16 48)

/-- The frame a page's map entry holds, as a wick of its lantern reads it; none where it is not VALID. -/
def readMap (w : Wk) (p : Pool) (q : Sequence) (page : Nat) (s : State) : WOut (Option Nat) :=
  (wickRead w.ue w.t w.l (mapAddr s p q page) 4 s).andThen fun b s =>
    let v := leNat b
    .done (if v.testBit 31 then some (v % 2 ^ 31) else none) s

/-- The header of a layer of a page, all zero where the page has no frame. -/
def readHeader (w : Wk) (p : Pool) (q : Sequence) (layer page : Nat) (s : State) : WOut Bytes :=
  (readMap w p q page s).andThen fun f s =>
    match f with
    | none => .done (zeros 64) s
    | some f => wickRead w.ue w.t w.l (frameAddr s p w.l f (64 * layer)) 64 s

/-! ## The sequence a descriptor names -/

/-- The sequence number in the argument slot of a descriptor, as it was checked at dispatch (R149). -/
def seqOf (s : State) (t : Nat) (d : Bytes) : Nat := ((taskAt s t).args.getD (fld d 4 1) 0).toNat % 4096

/-- The wick of rank 0 of a lantern acts for the lantern. -/
def lead (t l : Nat) (ue : Ue) : Wk := ⟨t, l, 0, ue⟩

/-! ## KV_APPEND (R152 to R154) -/

/-- The epoch after the next: 0 is passed over (R154). -/
def nextEpoch (e : Nat) : Nat := if e ≥ 2 ^ 32 - 1 then 1 else e + 1

/-- At the wrap every header of a page with a position from C to C + 63 is zeroed. -/
def wrapHeaders (ue : Ue) (k : Nat) (s : State) : State :=
  let q := seqAt s k
  let p := poolAt s q.pool
  (List.range (if q.c % 64 = 0 then 1 else 2)).foldl (fun s i =>
    let page := q.c / 64 + i
    let f := tget 0 q.pages page
    if f = 0 then s else
    let l := (pageHome s p q page).1
    poolWrite ue p l (frameAddr s p l (f - 1) 0) (zeros (64 * p.layers)) s) s

/-- The epoch advances and every draft is gone (R154). -/
def advanceEpoch (ue : Ue) (k : Nat) (s : State) : State :=
  let e := nextEpoch (seqAt s k).e
  let s := modSeq k (fun q => { q with e := e, d := 0 }) s
  if e = 1 then wrapHeaders ue k s else s

/-- One token's K and V values of a lantern's sheet, converted to ELEM_FMT (R151, R152): the rows by head, and how many values
saturated. -/
def draftRows (s : State) (w : Wk) (p : Pool) (src : Opnd) (t : Nat) : List (Bytes × Bytes) × Nat :=
  let f := fmtAt s p.elemFmt
  let val (e : Nat) : FVal := decBf16 (fld (getLocal s w src (16 * e + 2 * t) 2) 0 2)
  let row (e0 : Nat) : List Conv := (List.range 128).map (fun i => toElem f.elem true false (val (e0 + i)))
  let rows := (List.range p.heads).map (fun h => (row (h * 128), row (p.heads * 128 + h * 128)))
  (rows.map (fun r => (packBits (8 * p.elem) (r.1.map Conv.val), packBits (8 * p.elem) (r.2.map Conv.val))),
   (rows.map (fun r => r.1.countP Conv.sat + r.2.countP Conv.sat)).sum)

/-- A draft position is written by its lantern: K and V rows, the page header of the layer. -/
def writeDraft (t k layer : Nat) (src : Opnd) (ue : Ue) (lane pos : Nat) (s : State) : WOut Unit :=
  let q := seqAt s k
  let p := poolAt s q.pool
  let page := pos / 64
  let w := lead t (pageHome s p q page).1 ue
  let f := tget 0 q.pages page - 1
  let (rows, sat) := draftRows s w p src lane
  let s := countConv t w.l 0 sat s
  (WOut.each (fun (r : Nat × Bytes × Bytes) s =>
    (wickWrite ue t w.l (frameAddr s p w.l f (p.rowOff layer r.1 (pos % 64) false)) r.2.1 s).andThen fun _ s =>
      wickWrite ue t w.l (frameAddr s p w.l f (p.rowOff layer r.1 (pos % 64) true)) r.2.2 s)
    (rows.zipIdx.map (fun x => (x.2, x.1.1, x.1.2))) s).andThen fun _ s =>
  (readHeader w p q layer page s).andThen fun h s =>
    wickWrite ue t w.l (frameAddr s p w.l f (64 * layer)) (headerSet h q.e (2 ^ (pos % 64))) s

/-- APPEND (R152). The D it raises stays raised where one of its tickets fails later: R156 has C, E and D keep their values, and the model
takes the value at the failure (DESIGN CHOICE, notes/assumptions/85.md). -/
def doAppend (t : Nat) (d : Bytes) (ue : Ue) (s : State) : WOut Unit :=
  let k := seqOf s t d
  let q := seqAt s k
  let p := poolAt s q.pool
  let off := fld d 12 1
  let n := fld d 13 1
  let at_ (i : Nat) : Nat := q.c + off + i
  let on (i : Nat) : Bool := laneOn (laneMask (wickOf s (lead t (pageHome s p q (at_ i / 64)).1 ue)) d) i
  let live := (List.range n).filter on
  if at_ (n - 1) ≥ p.maxTokens then .fails stSequenceFull s
  else match allotFrames ue k (live.map (fun i => at_ i / 64)) s with
    | none => .fails stKvPoolEmpty s
    | some s =>
      (WOut.each (fun (i : Nat) s => writeDraft t k (fld d 6 2) (opndAt d 8) ue i (at_ i) s) live s).andThen fun _ s =>
        .done () (modSeq k (fun q => { q with d := max q.d (off + n) }) s)

/-- Whether an accepted offset is marked in the sequence's epoch in every layer's header (R153). -/
def draftMarked (t k off : Nat) (ue : Ue) (s : State) : WOut Bool :=
  let q := seqAt s k
  let p := poolAt s q.pool
  let pos := q.c + off
  let w := lead t (pageHome s p q (pos / 64)).1 ue
  (WOut.each (fun (y : Nat) s => readHeader w p q y (pos / 64) s) (List.range p.layers) s).andThen fun hs s =>
    .done (hs.all (fun h => headerMarks h q.e (pos % 64))) s

/-- A copy of COMMIT: from a position to a lower one. -/
structure DraftCopy where
  src : Nat
  dst : Nat
  deriving DecidableEq, Repr

/-- The rows of a position: layer, head, K or V. -/
def rowsOfPos (p : Pool) : List (Nat × Nat × Bool) :=
  (List.range p.layers).flatMap (fun y => (List.range p.heads).flatMap (fun h => [(y, h, false), (y, h, true)]))

/-- The lantern of a position's page, and the address of a row of it. -/
def rowPlace (s : State) (k pos : Nat) (r : Nat × Nat × Bool) : Nat × Nat :=
  let q := seqAt s k
  let p := poolAt s q.pool
  let l := (pageHome s p q (pos / 64)).1
  (l, frameAddr s p l (tget 0 q.pages (pos / 64) - 1) (p.rowOff r.1 r.2.1 (pos % 64) r.2.2))

/-- The lanterns of a copy. -/
def copyEnds (s : State) (k : Nat) (c : DraftCopy) : Nat × Nat := ((rowPlace s k c.src (0, 0, false)).1, (rowPlace s k c.dst (0, 0, false)).1)

/-- Every row of a draft position is read. -/
def readDraft (t k : Nat) (ue : Ue) (c : DraftCopy) (s : State) : WOut Bytes :=
  let p := poolAt s (seqAt s k).pool
  (WOut.each (fun r s => let a := rowPlace s k c.src r
    wickRead ue t a.1 a.2 (128 * p.elem) s) (rowsOfPos p) s).andThen fun bs s => .done bs.flatten s

/-- Every row of a position is written. -/
def writeCopy (t k : Nat) (ue : Ue) (c : DraftCopy) (b : Bytes) (s : State) : WOut Unit :=
  let p := poolAt s (seqAt s k).pool
  (WOut.each (fun (r : (Nat × Nat × Bool) × Nat) s => let a := rowPlace s k c.dst r.1
    wickWrite ue t a.1 a.2 (sub b (128 * p.elem * r.2) (128 * p.elem)) s) (rowsOfPos p).zipIdx s).andThen fun _ s => .done () s

/-- The copies of a COMMIT: an accepted offset that is not its own place already (R153). -/
def commitCopies (q : Sequence) (acc : List Nat) : List DraftCopy :=
  (acc.zipIdx.filter (fun x => x.1 ≠ x.2)).map (fun x => ⟨q.c + x.1, q.c + x.2⟩)

/-- What the lanterns give each other in a COMMIT: the rows of the copies between each two, in their order. -/
def commitShares (t k : Nat) (ue : Ue) (cs : List DraftCopy) (s : State) : WOut (List (Nat × Nat × Bytes)) :=
  (WOut.each (fun c s => (readDraft t k ue c s).andThen fun b s => .done (copyEnds s k c, b) s) cs s).andThen fun rs s =>
    let ends := rs.foldl (fun (es : List (Nat × Nat)) r => if es.contains r.1 then es else es ++ [r.1]) []
    .done (ends.map (fun e => (e.1, e.2, (rs.filter (fun r => r.1 == e)).flatMap (fun r => r.2)))) s

/-- The copies land: each from its place in the share of its two lanterns. -/
def commitWrites (t k : Nat) (ue : Ue) (cs : List DraftCopy) (s : State) : WOut Unit :=
  let p := poolAt s (seqAt s k).pool
  let n := 128 * p.elem * (rowsOfPos p).length
  (WOut.each (fun (c : DraftCopy × Nat) s =>
    let e := copyEnds s k c.1
    let i := ((cs.take c.2).filter (fun x => copyEnds s k x == e)).length
    writeCopy t k ue c.1 (sub (shareAtOf s t 1 e.1 e.2) (n * i) n) s) cs.zipIdx s).andThen fun _ s => .done () s

/-- COMMIT (R153): the checks, then every copy, through the exchange where two pages lie in different lanterns, then C, E and D. -/
def doCommit (t : Nat) (d : Bytes) (ue : Ue) (s : State) : WOut Unit :=
  let k := seqOf s t d
  let q := seqAt s k
  let n := fld d 14 1
  let acc := (sub d 16 n).map BitVec.toNat
  let cs := commitCopies q acc
  if ¬ acc.all (fun a => a < q.d) then .fails stBadArg s
  else (WOut.each (fun (a : Nat) s => draftMarked t k a ue s) acc s).andThen fun ok s =>
    if ok.contains false then .fails stBadArg s
    else withShares t 1 (commitShares t k ue cs) (fun s =>
      (commitWrites t k ue cs s).andThen fun _ s =>
        .done () (endShares t (advanceEpoch ue k (modSeq k (fun q => { q with c := q.c + n }) s)))) s

/-- An abort that finds a COMMIT copying: C stays, E advances (R153). -/
def abortCommit (t : Nat) (d : Bytes) (ue : Ue) (s : State) : State :=
  if (taskAt s t).shared ≠ 0 ∧ ¬ (taskAt s t).failed ∧ fld d 1 1 = 0x22 ∧ fld d 5 1 = 1 then endShares t (advanceEpoch ue (seqOf s t d) s) else s

/-- ROLLBACK (R154). -/
def doRollback (t : Nat) (d : Bytes) (ue : Ue) (s : State) : WOut Unit := .done () (advanceEpoch ue (seqOf s t d) s)

/-! ## The exponential (R160) -/

/-- e to the power -y for y = m * 2^e, as a count of 2^-200: a Taylor sum at y / 256, squared eight times. -/
def expFix (m : Nat) (e : Int) : Nat :=
  let one := 2 ^ 200
  let y := if e + 200 ≥ 0 then m <<< (e + 200).toNat else m >>> (-(e + 200)).toNat
  if y ≥ 150 * one then 0 else
  let z := y / 256
  let terms := (List.range 40).foldl (fun (a : Nat × Nat × Nat) i =>
    let t := a.1 * z / one / (i + 1)
    if i % 2 = 0 then (t, a.2.1, a.2.2 + t) else (t, a.2.1 + t, a.2.2)) (one, one, 0)
  (List.range 8).foldl (fun v _ => v * v / one) (terms.2.1 - terms.2.2)

/-- The exponential of a BINARY32 value at or below 0: exact at 0, +0 at -Inf, else the block's own value within a relative
error of 2^-22, and the nearest value where the free value is not within it. -/
def expF32 (x : F32) : F32 :=
  match dec32 x with
  | .nan => nan32
  | .inf _ => 0
  | .fin _ m e =>
    if m = 0 then f32One else
    let v := expFix m e
    let c := Sys2Proof.Config.expBits x % 2 ^ 32
    let near (a b : Nat) : Bool := decide ((if a ≤ b then b - a else a - b) * 2 ^ 22 < b)
    match dec32 c with
    | .fin false n g => if n ≠ 0 ∧ near (n <<< (g + 200).toNat) v then c else enc32 (.fin false v (-200))
    | _ => enc32 (.fin false v (-200))

/-! ## Partial records (R160, R161) -/

/-- A record under way: maximum, sum and output in BINARY32; or empty; or NaN. -/
inductive AttRec where
  | empty
  | bad
  | sums (m l : F32) (o : List F32)
  deriving DecidableEq, Repr

/-- The 264 B of a record. -/
def recBytes : AttRec → Bytes
  | .empty => zeros 256 ++ le 4 0xFF800000 ++ zeros 4
  | .bad => (List.replicate 128 (le 2 0x7FC0)).flatten ++ le 4 nan32 ++ le 4 nan32
  | .sums m l o => o.flatMap (fun v => le 2 (bf16Of (dec32 v))) ++ le 4 m ++ le 4 l

/-- A record read back. -/
def recOf (b : Bytes) : AttRec :=
  let m := fld b 256 4
  let l := fld b 260 4
  if f32IsNan m || f32IsNan l then .bad
  else if m = 0xFF800000 ∧ l = 0 then .empty
  else .sums m l ((chunks 2 (sub b 0 256)).map (fun x => enc32 (decBf16 (leNat x))))

/-- Two records merged (R161). -/
def mergeRec : AttRec → AttRec → AttRec
  | .bad, _ => .bad
  | _, .bad => .bad
  | .empty, b => b
  | a, .empty => a
  | .sums ma la oa, .sums mb lb ob =>
    let m := f32Max ma mb
    let ea := expF32 (f32Sub ma m)
    let eb := expF32 (f32Sub mb m)
    let f (x y : F32) : F32 := f32Add (f32Mul x ea) (f32Mul y eb)
    .sums m (f la lb) ((oa.zip ob).map (fun v => f v.1 v.2))

/-! ## ATTEND (R158 to R160) -/

/-- A position of the wick's share: page, slot, the draft offset where it is one. -/
structure AttPos where
  page  : Nat
  slot  : Nat
  draft : Option Nat
  deriving DecidableEq, Repr

/-- Whether query token `i` admits a position (R158). -/
def admits (d : Bytes) (m i : Nat) (p : AttPos) : Bool :=
  laneOn m i && (match p.draft with
    | none => true
    | some j => if fld d 20 1 = 0 then decide (j ≤ fld d 21 1 + i) else decide (j ≤ 7) && (fld d 24 8).testBit (8 * i + j))

/-- The pages of a sequence in a lantern with positions below C + D, rising. -/
def localPages (s : State) (p : Pool) (q : Sequence) (l : Nat) : List Nat :=
  (List.range ((q.c + q.d + 63) / 64)).filter (fun page => (pageHome s p q page).1 == l)

/-- The positions of a page that some query token admits, its drafts by the page's header. -/
def pagePositions (w : Wk) (d : Bytes) (m : Nat) (p : Pool) (q : Sequence) (page : Nat) (s : State) : WOut (List AttPos) :=
  let old := (List.range 64).filter (fun i => 64 * page + i < q.c)
  let drafts := (List.range 64).filter (fun i => q.c ≤ 64 * page + i && 64 * page + i < q.c + q.d)
  let done (h : Bytes) : List AttPos :=
    (old.map (fun i => (⟨page, i, none⟩ : AttPos)) ++
      (drafts.filter (fun i => headerMarks h q.e i)).map (fun i => (⟨page, i, some (64 * page + i - q.c)⟩ : AttPos))).filter
      (fun x => (List.range 8).any (fun i => admits d m i x))
  if drafts = [] then .done (done []) s
  else (readHeader w p q (fld d 6 2) page s).andThen fun h s => .done (done h) s

/-- A K or V row as lane values (R91). -/
def kvRow (s : State) (l : Nat) (p : Pool) (b : Bytes) : List FVal :=
  let f := fmtAt s p.elemFmt
  (List.range 128).map (fun i => weightAt s l f b i)

/-- A running record: maximum, sum, output; `bad` after a score that is NaN or infinite. -/
structure AttRow where
  bad : Bool := false
  m   : F32 := 0xFF800000
  l   : F32 := 0
  o   : List F32 := List.replicate 128 0
  deriving DecidableEq, Repr

/-- The positions of one page for one query row (R160): scores, the new maximum, the sums. -/
def attBlock (scale : F32) (q : List FVal) (kv : List (List FVal × List FVal)) (r : AttRow) : AttRow :=
  if r.bad ∨ kv = [] then r else
  let ss := kv.map (fun x => f32Mul scale (f32Add 0 (tree ((q.zip x.1).map (fun y => fMul y.2 y.1)))))
  if ss.any (fun v => !f32Finite v) then { r with bad := true } else
  let m := ss.foldl f32Max r.m
  let c := expF32 (f32Sub r.m m)
  let ps := ss.map (fun v => bf16Of (dec32 (expF32 (f32Sub v m))))
  let l := ps.foldl (fun a x => f32Add a (x * 65536)) (f32Mul r.l c)
  let o := (ps.zip kv).foldl (fun acc x => (acc.zip x.2.2).map (fun y => enc32 (fAdd (dec32 y.1) (fMul (decBf16 x.1) y.2))))
    (r.o.map (fun v => f32Mul v c))
  { r with m := m, l := l, o := o }

/-- The K and V rows of a page's positions. -/
def readRowsKv (w : Wk) (d : Bytes) (p : Pool) (q : Sequence) (h : Nat) (ps : List AttPos) (s : State) :
    WOut (List (AttPos × List FVal × List FVal)) :=
  match ps with
  | [] => .done [] s
  | x0 :: _ =>
    (readMap w p q x0.page s).andThen fun f s =>
      WOut.each (fun (x : AttPos) s =>
        let a (v : Bool) : Nat := frameAddr s p w.l (f.getD 0) (p.rowOff (fld d 6 2) h x.slot v)
        (wickRead w.ue w.t w.l (a false) (128 * p.elem) s).andThen fun kb s =>
          (wickRead w.ue w.t w.l (a true) (128 * p.elem) s).andThen fun vb s => .done (x, kvRow s w.l p kb, kvRow s w.l p vb) s) ps s

/-- The pages of a share, in order. -/
def byPage (ps : List AttPos) : List (List AttPos) :=
  (ps.foldl (fun (pages : List Nat) x => if pages.contains x.page then pages else pages ++ [x.page]) []).map (fun g => ps.filter (fun x => x.page == g))

/-- The records of one wick: query row g * 8 + t of its KV head (R159, R160). -/
def attWick (w : Wk) (d : Bytes) (s : State) : WOut (List (Nat × AttRec)) :=
  let q := seqAt s (seqOf s w.t d)
  let p := poolAt s q.pool
  let hs := max 1 p.heads
  let h := w.r % hs
  let g := fld d 5 1
  let m := laneMask (wickOf s w) d
  (WOut.each (pagePositions w d m p q) (localPages s p q w.l) s).andThen fun pss s =>
    let all := pss.flatten
    let (i0, i1) := shareOf all.length (w.r / hs) ((taskAt s w.t).w / hs)
    (WOut.each (fun ps s => readRowsKv w d p q h ps s) (byPage ((all.drop i0).take (i1 - i0))) s).andThen fun blocks s =>
      let qv (gg t : Nat) : List FVal := (List.range 128).map (fun i =>
        decBf16 (fld (getLocal s w (opndAt d 8) (16 * ((h * g + gg) * 128 + i) + 2 * t) 2) 0 2))
      let rows := (List.range (8 * g)).map (fun r =>
        let t := r % 8
        let res := blocks.foldl (fun a b => attBlock (fld d 16 4) (qv (r / 8) t)
          ((b.filter (fun x => admits d m t x.1)).map (fun x => (x.2.1, x.2.2))) a) ({} : AttRow)
        (h * g * 8 + r, if res.bad then AttRec.bad else if res.m = 0xFF800000 ∧ res.l = 0 then .empty
          else recOf (recBytes (.sums res.m res.l res.o))))
      .done rows s

/-- ACT and ACC of a wick after ATTEND: free values (R159). -/
def attScratch (w : Wk) (s : State) : State := gemvScratch w ⟨0, spSheet, 0⟩ s

/-- The records of a lantern's wicks merged in their order and written into P (R161). -/
def attStore (ws : List Wk) (l : Nat) (d : Bytes) (rs : List (List (Nat × AttRec))) (s : State) : State :=
  let t := (ws.head?.map (fun w => w.t)).getD 0
  let p := poolAt s (seqAt s (seqOf s t d)).pool
  let o := opndAt d 12
  let rec_ (r : Nat) : AttRec := (rs.flatten.filter (fun x => x.1 == r)).foldl (fun a x => mergeRec a x.2) .empty
  (List.range (p.heads * fld d 5 1 * 8)).foldl (fun s r => writeSheet t l o.arg (o.off + 264 * r) (recBytes (rec_ r)) s) s

/-- ATTEND for the wicks of a lantern. -/
def doAttend (ws : List Wk) (l : Nat) (d : Bytes) (s : State) : WOut Unit :=
  (WOut.each (fun (w : Wk) s => attWick w d s) ws s).andThen fun rs s =>
    .done () (ws.foldl (fun s w => attScratch w s) (attStore ws l d rs s))

/-! ## ATTN_MERGE (R163) -/

/-- A row's output. -/
def mergeOut : AttRec → List Nat
  | .empty => List.replicate 128 0
  | .bad => List.replicate 128 0x7FC0
  | .sums _ l o => if (dec32 l).isZero then List.replicate 128 0 else o.map (fun v => bf16Of (dec32 (f32Div v l)))

/-- A row's BF16 values in the layout of Q. -/
def putQRow (t l : Nat) (o : Opnd) (r : Nat) (vs : List Nat) (s : State) : State :=
  vs.zipIdx.foldl (fun s v => writeSheet t l o.arg (o.off + 16 * (r / 8 * 128 + v.2) + 2 * (r % 8)) (le 2 v.1) s) s

/-- Query rows of an ATTN_MERGE. -/
def mergeCount (d : Bytes) : Nat := fld d 12 1 * fld d 13 1 * 8

/-- The rows that belong to the lantern of a rank, rising. -/
def ownRows (d : Bytes) (n rank : Nat) : List Nat := (List.range (mergeCount d)).filter (fun r => r % max 1 n == rank)

/-- The first round: each lantern gives each owner the records of the owner's rows. -/
def mergeShares (t : Nat) (d : Bytes) (s : State) : WOut (List (Nat × Nat × Bytes)) :=
  let ls := (taskAt s t).lanterns
  let p := opndAt d 4
  .done (ls.flatMap (fun a => ls.zipIdx.map (fun o =>
    (a, o.1, (ownRows d ls.length o.2).flatMap (fun r => readSheet s t a p.arg (p.off + 264 * r) 264))))) s

/-- The outputs of an owner's rows, in their order, from the records it holds, merged in the order of the set. -/
def ownerOut (s : State) (t : Nat) (d : Bytes) (owner rank : Nat) : List (List Nat) :=
  let ls := (taskAt s t).lanterns
  (ownRows d ls.length rank).zipIdx.map (fun r =>
    mergeOut (ls.foldl (fun a l => mergeRec a (recOf (sub (shareAtOf s t 1 l owner) (264 * r.2) 264))) .empty))

/-- The second round, under ALL: each owner gives every lantern its rows' outputs; else it keeps them. -/
def mergeOutputs (t : Nat) (d : Bytes) (s : State) : WOut (List (Nat × Nat × Bytes)) :=
  let ls := (taskAt s t).lanterns
  .done (ls.zipIdx.flatMap (fun o =>
    (if fld d 2 1 = 1 then ls else [o.1]).map (fun l => (o.1, l, (ownerOut s t d o.1 o.2).flatMap (fun vs => vs.flatMap (le 2)))))) s

/-- The outputs of an owner's rows written in a lantern, those of masked token lanes left out. -/
def mergeWrite (t : Nat) (d : Bytes) (ue : Ue) (owner rank l : Nat) (s : State) : State :=
  let b := shareAtOf s t 2 owner l
  (ownRows d (taskAt s t).lanterns.length rank).zipIdx.foldl (fun s r =>
    if ¬ laneOn (laneMask (wickOf s (lead t owner ue)) d) (r.1 % 8) then s
    else putQRow t l (opndAt d 8) r.1 ((chunks 2 (sub b (256 * r.2) 256)).map leNat) s) s

/-- ATTN_MERGE over the lanterns of the set (R163). -/
def doMerge (t : Nat) (d : Bytes) (ue : Ue) (s : State) : WOut Unit :=
  withShares t 1 (mergeShares t d) (fun s =>
    withShares t 2 (mergeOutputs t d) (fun s =>
      let ls := (taskAt s t).lanterns
      .done () (endShares t (ls.zipIdx.foldl (fun s o =>
        (if fld d 2 1 = 1 then ls else [o.1]).foldl (fun s l => mergeWrite t d ue o.1 o.2 l s) s) s))) s) s

end Sys2Proof.Machine
end

