-- ==== Sys2Proof/Machine/Route.lean ====
section
/-! DEFINITION. TOPK_ROUTE (R167 to R171), EXPERT_SEND (R175 to R177, R181, R185), EXPERT_COMBINE (R184). -/
namespace Sys2Proof.Machine

/-! ## TOPK_ROUTE -/

/-- An expert as a candidate: index, logit, biased score. -/
structure Cand where
  e : Nat
  z : F32
  y : F32
  deriving DecidableEq, Repr

/-- The better of two candidates: the higher score, the lower index among equals. -/
def Cand.better (a b : Cand) : Bool :=
  fLess (dec32 b.y) (dec32 a.y) || (!fLess (dec32 a.y) (dec32 b.y) && decide (a.e < b.e))

/-- The best of a list. -/
def bestOf : List Cand → Option Cand
  | [] => none
  | c :: cs => some (cs.foldl (fun b x => if x.better b then x else b) c)

/-- The first `k` in rank order. -/
def topK : Nat → List Cand → List Cand
  | 0, _ => []
  | k + 1, cs =>
    match bestOf cs with
    | none => []
    | some c => c :: topK k (cs.filter (fun x => x.e ≠ c.e))

/-- A lane's chosen experts (R168): those with a finite score, ranked. -/
def chooseLane (k : Nat) (cs : List Cand) : List Cand := topK k (cs.filter (fun c => f32Finite c.y))

/-- The logistic function of R169. -/
def sigma (z : F32) : F32 :=
  if z.testBit 31 ∧ ¬ (dec32 z).isZero then f32Div (expF32 z) (f32Add f32One (expF32 z))
  else f32Div f32One (f32Add f32One (expF32 (f32Sub 0 z)))

/-- The weights of the chosen experts (R169). -/
def routeWeights (norm : Nat) (scale : F32) (cs : List Cand) : List F32 :=
  let zs := cs.map (fun c => c.z)
  let share (vs : List F32) : List F32 := vs.map (fun v => f32Div v (vs.foldl f32Add 0))
  let ws := match norm with
    | 0 => share (zs.map (fun z => expF32 (f32Sub z (zs.foldl f32Max 0xFF800000))))
    | 1 => share (zs.map sigma)
    | _ => zs.map (fun z => enc32 (dec32 z))
  ws.map (fun w => f32Mul w scale)

/-- The route record of a lane; the weight field of an entry without an expert has no stated value: `free` bytes. -/
def routeRecord (k : Nat) (cs : List Cand) (ws : List F32) (free : Bytes) : Bytes :=
  fit 64 ((List.range k).flatMap (fun i =>
    match cs[i]? with
    | some c => le 4 c.e ++ le 4 (ws.getD i 0)
    | none => le 4 0xFFFFFFFF ++ sub free (4 * i) 4))

/-- The experts whose logits a lantern holds: the first row's expert and how many rows count. -/
def topkRows (x : Task) (g : RGroup) (d : Bytes) (l : Nat) : Nat × Nat :=
  if fld d 18 1 = 0 then (0, g.experts)
  else
    let e0 := rankOf x l * fld d 16 2
    (e0, min g.experts (e0 + fld d 16 2) - min g.experts e0)

/-- The bias copy a task pinned of a group (R188). -/
def pinnedCopy (x : Task) (g : Nat) : Nat := ((x.biasPins.find? (fun p => p.1 == g)).map Prod.snd).getD 0

/-- The candidates of a lantern, by lane: its logits with the biases of the pinned copy. -/
def lanternCands (t : Nat) (d : Bytes) (ue : Ue) (l : Nat) (s : State) : WOut (List (List Cand)) :=
  let x := taskAt s t
  let gi := fld d 14 1
  let g := groupAt s gi
  let (e0, n) := topkRows x g d l
  let (r, s) := memRead (regionReq g l) ue
    (regionAddr s g l (g.biasOff (pinnedCopy x gi) + 64 + 4 * (fld d 12 2 * g.experts + e0))) (4 * n) s
  if n ≠ 0 ∧ r.status ≠ stOk then .fails r.status s
  else
    let o := opndAt d 4
    .done ((List.range 8).map (fun lane => (List.range n).map (fun i =>
      let z := leNat (readSheet s t l o.arg (o.off + 32 * i + 4 * lane) 4)
      ({ e := e0 + i, z := z, y := f32Add z (fld r.data (4 * i) 4) } : Cand)))) s

/-- A load-counter addition now, or once its mark is empty (R171). -/
def countLoad (t l g i : Nat) (ue : Ue) (s : State) : State :=
  let m := depsOf s t l
  if m = [] then addLoad ue l g i s
  else modLantern l (fun x => { x with heldCounts := x.heldCounts ++ [⟨t, g, i, m⟩] }) s

/-- What the candidates a lantern holds of every lantern come to: its route records, the counters and the loads by the lantern of rank
0. Every lantern holds the same candidates, so all records are identical (R170). -/
def topkStore (t : Nat) (d : Bytes) (ue : Ue) (view : Nat → List (List (List Cand))) (s : State) : State :=
  let x := taskAt s t
  let gi := fld d 14 1
  let g := groupAt s gi
  let l0 := x.lanterns.headD 0
  let m := laneMask (wickOf s (lead t l0 ue)) d
  let choice (l : Nat) : List (List Cand) := (List.range 8).map (fun lane =>
    if laneOn m lane then chooseLane g.k ((view l).flatMap (fun c => chooseLane g.k (c.getD lane []))) else [])
  let chosen := choice l0
  let free := unstatedBytes 256 s
  let s := drawn 256 s
  let recs (l : Nat) : List Bytes :=
    (choice l).zipIdx.map (fun c => routeRecord g.k c.1 (routeWeights (fld d 15 1) (fld d 20 4) c.1) (sub free (32 * c.2) 32))
  let o := opndAt d 8
  let s := x.lanterns.foldl (fun s l => (recs l).zipIdx.foldl (fun s r => writeSheet t l o.arg (o.off + 64 * r.2) r.1 s) s) s
  let lanes := bitList 8 m
  let short := lanes.countP (fun lane => (chosen.getD lane []).length < g.k)
  let no := lanes.countP (fun lane => (chosen.getD lane []) == [])
  let s := modTask t (fun x => { x with shortRoute := satTo 32 (x.shortRoute + short), noRoute := satTo 32 (x.noRoute + no) }) s
  chosen.flatten.foldl (fun s c => countLoad t l0 gi (fld d 12 2 * g.experts + c.e) ue s) s

/-- The candidates of every lantern of a task. -/
def topkRead (t : Nat) (d : Bytes) (ue : Ue) (s : State) : WOut (List (List (List Cand))) :=
  WOut.each (fun l s => lanternCands t d ue l s) (taskAt s t).lanterns s

/-- TOPK_ROUTE of a lantern (SCOPE LANTERN). -/
def doTopk (t : Nat) (d : Bytes) (ue : Ue) (s : State) : WOut Unit :=
  (topkRead t d ue s).andThen fun cs s => .done () (topkStore t d ue (fun _ => cs) s)

/-- A lantern's best candidates as it sends them: by token lane the group's K, each index, logit and biased score; an index of all ones
where there is none. -/
def candBytes (k : Nat) (cs : List (List Cand)) : Bytes :=
  (List.range 8).flatMap (fun lane =>
    let best := chooseLane k (cs.getD lane [])
    (List.range k).flatMap (fun i => match best[i]? with
      | some c => le 4 c.e ++ le 4 c.z ++ le 4 c.y
      | none => le 4 0xFFFFFFFF ++ zeros 8))

/-- Candidates as they came. -/
def candsOf (k : Nat) (b : Bytes) : List (List Cand) :=
  (chunks (12 * max 1 k) b).map (fun c => ((chunks 12 c).map (fun x => (⟨fld x 0 4, fld x 4 4, fld x 8 4⟩ : Cand))).filter (fun x => x.e ≠ 0xFFFFFFFF))

/-- Every lantern ranks its own rows and gives its best candidates to every lantern (R170). -/
def topkShares (t : Nat) (d : Bytes) (ue : Ue) (s : State) : WOut (List (Nat × Nat × Bytes)) :=
  (topkRead t d ue s).andThen fun cs s =>
    let ls := (taskAt s t).lanterns
    .done (toAll ls (fun a => candBytes (groupAt s (fld d 14 1)).k (cs.getD (ls.idxOf a) []))) s

/-- TOPK_ROUTE under SCOPE SET. -/
def doTopkSet (t : Nat) (d : Bytes) (ue : Ue) (s : State) : WOut Unit :=
  withShares t 1 (topkShares t d ue) (fun s =>
    let k := (groupAt s (fld d 14 1)).k
    .done () (endShares t (topkStore t d ue (fun l => (taskAt s t).lanterns.map (fun a => candsOf k (shareAtOf s t 1 a l))) s))) s

/-! ## Records into the fabric (R176, R181, R197) -/

/-- The number of a node's window of a kind: the device's own lowest one, another node's a free value. -/
def windowTo (s : State) (node kind : Nat) : Nat :=
  if node = s.fabric.node then ((List.range 256).find? (fun k => (windowAt s k).kind == kind)).getD 0
  else (if kind = 2 then Sys2Proof.Config.arrivalWindow node else Sys2Proof.Config.combineWindow node) % 256

/-- A record leaves as STORE pieces to consecutive offsets, LAST on the final one. -/
def sendRecord (west : Bool) (i : Issuer) (node kind part : Nat) (b : Bytes) (s : State) : State :=
  let ps := chunks 4096 b
  let base := windowTo s node kind * 2 ^ 40
  ps.zipIdx.foldl (fun s p =>
    enqueueOp west { issuer := i, op := opStore, flags := if p.2 + 1 = ps.length then flLast else 0, dst := node, offset := base + 4096 * p.2
                     len := p.1.length, spart := if part < 16 then part else 0xFF, data := p.1 } s) s

/-! ## EXPERT_SEND DISPATCH (R176, R177) -/

/-- A pair of the batch: its number, token lane, weight, destination and instance. -/
structure SendPair where
  pair : Nat
  lane : Nat
  weight : F32
  node : Nat
  inst : Nat
  deriving DecidableEq, Repr

/-- The pairs of the route records in a lantern; none where the placement table does not serve (R173). -/
def sendPairs (s : State) (t l m : Nat) (g : RGroup) (d : Bytes) : Option (List SendPair) :=
  let o := opndAt d 4
  let entries := (bitList 8 m).flatMap (fun lane => (List.range g.k).map (fun i => (lane, i)))
  if ¬ placementServes s g then none else
  entries.foldl (fun (acc : Option (List SendPair)) e =>
    let b := readSheet s t l o.arg (o.off + 64 * e.1 + 8 * e.2) 8
    if fld b 0 4 = 0xFFFFFFFF then acc
    else if fld b 0 4 ≥ g.experts ∨ fld d 26 2 ≥ g.layers then none
    else acc.bind (fun ps => (placementOf s g (fld d 26 2) (fld b 0 4)).map (fun r =>
      ps ++ [⟨8 * e.1 + e.2, e.1, fld b 4 4, r.1, r.2⟩]))) (some [])

/-- The records of a batch: pairs of one token lane to one node, in order of lane and first entry. -/
def sendGroups (ps : List SendPair) : List (List SendPair) :=
  (ps.foldl (fun (ks : List (Nat × Nat)) p => if ks.contains (p.lane, p.node) then ks else ks ++ [(p.lane, p.node)]) []).map
    (fun k => ps.filter (fun p => p.lane == k.1 && p.node == k.2))

/-- A lane's token vector as a record carries it: elements, scale and how many values saturated. -/
def sendValues (s : State) (t l lane : Nat) (d : Bytes) : Bytes × F32 × Nat :=
  let o := opndAt d 8
  let vs := (List.range (fld d 22 2)).map (fun e => leNat (readSheet s t l o.arg (o.off + 16 * e + 2 * lane) 2))
  if fld d 20 1 = 0 then (vs.flatMap (le 2), f32One, 0)
  else
    let b := toMx 3 false (vs.map decBf16)
    (b.elems.flatMap (le 1), enc32 (decE8m0 b.scale), b.sat)

/-- A dispatch record (R177). -/
def dispatchRecordOf (s : State) (d : Bytes) (deadline tag : Nat) (ps : List SendPair) (v : Bytes × F32 × Nat) : Bytes :=
  le 1 1 ++ le 1 (fld d 20 1) ++ le 1 ps.length ++ zeros 1 ++ le 2 (fld d 22 2) ++ le 2 (fld d 24 2) ++ le 8 deadline ++ le 4 tag ++
    le 2 s.fabric.node ++ le 2 (fld d 26 2) ++ le 4 v.2.1 ++ zeros 4 ++ fit 32 (ps.flatMap (fun p => le 1 p.pair ++ zeros 1 ++ le 2 p.inst)) ++ v.1

/-- The rows of a lantern rank's block of C. -/
def crbRows (d : Bytes) (r : Nat) : Nat × Nat := (r * fld d 24 2, min (fld d 22 2) ((r + 1) * fld d 24 2))

/-- One lantern's part of a new slot. -/
def newPart (d : Bytes) (ps : List SendPair) (l r : Nat) : SlotPart :=
  let (a, b) := crbRows d r
  if a < b ∧ ps ≠ [] then { lantern := l, state := .open_, pairs := ps.map (fun p => ⟨p.pair, BitVec.ofNat 32 p.weight, [(a, b)], 0⟩) }
  else { lantern := l, state := .complete, pairs := [] }

/-- C of a lantern is zeroed. -/
def zeroC (t l : Nat) (d : Bytes) (s : State) : State :=
  let o := opndAt d 12
  writeSheet t l o.arg o.off (zeros (32 * fld d 24 2)) s

/-- The slot a batch held before is free again. -/
def freeBatch (t old : Nat) (s : State) : State := if old ≠ 0 ∧ (combineAt s (old - 1)).task = t then freeSlot (old - 1) s else s

/-- A batch opens slot `k` for its pairs and its records leave; `s0` is the state before its old slot was freed. -/
def openBatch (t k : Nat) (d : Bytes) (ue : Ue) (ps : List SendPair) (s0 s : State) : State :=
  let x := taskAt s0 t
  let batch := fld d 17 1
  let l0 := x.lanterns.headD 0
  let gen := (combineAt s k).gen
  let dl := now s + fld d 28 4
  let c : CombineSlot := { state := .open_, gen := gen, part := x.part, task := t, batch := batch, deadline := dl, width := fld d 22 2
                           crb := fld d 24 2, c := BitVec.ofNat 32 (fld d 12 4), degrade := fld d 19 1 == 1
                           parts := x.lanterns.zipIdx.map (fun e => newPart d ps e.1 e.2) }
  let s := x.lanterns.foldl (fun s l => zeroC t l d s) (setCombine k c s)
  let s := modTask t (fun x => { x with batches := tset 0 x.batches batch (k + 1), cancelled := x.cancelled.filter (· ≠ batch) }) s
  let s := (sendGroups ps).zipIdx.foldl (fun s e =>
    let l := x.lanterns.getD (e.2 % x.lanterns.length) l0
    let p0 := e.1.headD ⟨0, 0, 0, 0, 0⟩
    let v := sendValues s0 t l p0.lane d
    sendRecord (lanternWest s l) (.dispatch k gen (e.1.map SendPair.pair)) p0.node 2 x.part
      (dispatchRecordOf s d dl (batchTag gen k) e.1 v) (countConv t l 0 v.2.2 s)) s
  driveFabric ue (settleSlot k s)

/-- The pairs of a DISPATCH, by the records in the task's first lantern. -/
def batchPairs (t : Nat) (d : Bytes) (ue : Ue) (s : State) : Option (List SendPair) :=
  let l0 := (taskAt s t).lanterns.headD 0
  sendPairs s t l0 (laneMask (wickOf s (lead t l0 ue)) d) (groupAt s (fld d 18 1)) d

/-- DISPATCH. -/
def doDispatch (t : Nat) (d : Bytes) (ue : Ue) (s : State) : WOut Unit :=
  let old := tget 0 (taskAt s t).batches (fld d 17 1)
  if old ≠ 0 ∧ (combineAt s (old - 1)).state = .open_ ∧ (combineAt s (old - 1)).task = t then .fails stProgramInvalid s
  else match batchPairs t d ue s with
    | none => .fails stBadArg s
    | some ps =>
      match openableSlot (freeBatch t old s) (taskAt s t).part with
      | none => .waits []
      | some k => .done () (openBatch t k d ue ps s (freeBatch t old s))

/-! ## EXPERT_SEND RETURN and CANCEL (R181, R185) -/

/-- Rows `a` to `b - 1` cut at CRB boundaries and into records of at most 2,032 rows; `fuel` bounds them. -/
def cutRows (crb : Nat) : Nat → Nat → Nat → List (Nat × Nat)
  | 0, _, _ => []
  | fuel + 1, a, b =>
    if a ≥ b then [] else
    let e := min b (min (a + 2032) ((a / crb + 1) * crb))
    (a, e) :: cutRows crb fuel e b

/-- An answer record (R181). -/
def answerRecordOf (lane : LaneInfo) (row0 : Nat) (vs : List Nat) : Bytes :=
  le 1 1 ++ zeros 1 ++ le 1 lane.pair ++ zeros 1 ++ le 4 lane.tag.toNat ++ le 4 row0 ++ le 2 vs.length ++ zeros 18 ++ vs.flatMap (le 2)

/-- The answers of one lantern for one lane. -/
def sendAnswers (t l m pi : Nat) (d : Bytes) (lane : LaneInfo) (s : State) : State :=
  let x := taskAt s t
  let rpl := fld d 8 2
  let a := rankOf x l * rpl
  let b := min (a + rpl) lane.width
  let o := opndAt d 4
  if ¬ laneOn m lane.lane then s else
  (cutRows (max 1 lane.crb) (b - a + 1) a b).foldl (fun s r =>
    let vs := (List.range (r.2 - r.1)).map (fun i =>
      bf16Of (dec32 (leNat (readSheet s t l o.arg (o.off + 32 * (r.1 - a + i) + 4 * lane.lane) 4))))
    sendRecord (lanternWest s l) (.answer pi) lane.origin 3 x.part (answerRecordOf lane r.1 vs) s) s

/-- RETURN in one lantern. -/
def doReturn (t l : Nat) (d : Bytes) (ue : Ue) (s : State) : WOut Unit :=
  if depsOf s t l ≠ [] then .waits [] else
  match (taskAt s t).purpose with
  | .command _ _ => .done () s
  | .pilot pi =>
    let m := laneMask (wickOf s (lead t l ue)) d
    .done () (driveFabric ue ((lanesOf s pi).foldl (fun s lane => sendAnswers t l m pi d lane s) s))

/-- CANCEL. -/
def doCancel (t : Nat) (d : Bytes) (s : State) : WOut Unit :=
  let batch := fld d 17 1
  let k := tget 0 (taskAt s t).batches batch
  if k = 0 then .done () s
  else .done () (modTask t (fun x => { x with batches := tset 0 x.batches batch 0, cancelled := batch :: x.cancelled })
    (if (combineAt s (k - 1)).task = t then freeSlot (k - 1) s else s))

/-! ## EXPERT_COMBINE (R184) -/

/-- The pairs still missing in the parts that expired. -/
def missingPairs (c : CombineSlot) : List PairState :=
  (c.parts.filter (fun p => p.state == .expired)).flatMap (fun p => p.pairs.filter (fun x => x.rows ≠ []))

/-- EXPERT_COMBINE of a batch. -/
def doCombine (t : Nat) (d : Bytes) (s : State) : WOut Unit :=
  let x := taskAt s t
  let batch := fld d 4 1
  let k := tget 0 x.batches batch
  let c := combineAt s (k - 1)
  if x.cancelled.contains batch then .fails stBatchCancelled s
  else if k = 0 ∨ c.task ≠ t then .fails stBadArg s
  else
    let gone (s : State) : State := freeSlot (k - 1) (modTask t (fun x => { x with batches := tset 0 x.batches batch 0 }) s)
    match c.state with
    | .open_ => .waits []
    | .free => .fails stBatchCancelled s
    | .complete => .done () (gone s)
    | .expired =>
      if c.parts.any (fun p => p.state = .open_) then .waits [] else
      let ms := missingPairs c
      if c.degrade then
        .done () (gone (modCounters x.part (fun y => { y with degraded := satTo 64 (y.degraded + ms.length) }) s))
      else .fails (((ms.find? (fun p => p.failed ≠ 0)).map (fun p => p.failed)).getD stExpertTimeout) (gone s)

end Sys2Proof.Machine
end

