-- ==== Sys2Proof/Machine/Curfew.lean ====
section
/-! DEFINITION. Curfew and dawn (R426 to R432), and the rewriting of trace headers (R414, R419). -/
namespace Sys2Proof.Machine

/-! ## The stop (R427, R430) -/

/-- A CURFEW record's bytes (R410). -/
def curfewRecord (s : State) (h phase : Nat) : Bytes :=
  traceBytes { type := 15, kind := kindTrace, inst := h, arg := le 1 phase ++ zeros 7 ++ le 8 s.curfew.t } (clock s (h == 0))

/-- A CURFEW record from the trace unit of each half. -/
def traceCurfewPhase (phase : Nat) (s : State) : State :=
  [0, 1].foldl (fun s h => traceEmit { type := 15, kind := kindTrace, inst := h, arg := le 1 phase ++ zeros 7 ++ le 8 s.curfew.t } s) s

/-- The stop marked in every RUNNING buffer (R430), and the buffers that trigger on it (R416). -/
def markStop (s : State) : State :=
  [0, 1].foldl (fun s h => (List.range 32).foldl (fun s k =>
    let s := if ((bufAt s k).half h).state = 1 then giveRecord k h (curfewRecord s h 1) 4 s else s
    if (bufAt s k).cond = 5 then fireTrigger k h 5 0 (clock s (h == 0)) s else s) s) s

/-- An island enters the list of those that stopped; the first stop puts the curfew in force. -/
def islandStops (i : Island) (s : State) : State :=
  onCurfew (fun c => { c with stopped := c.stopped ++ [i] })
    (if s.curfew.inForce then s else markStop (onCurfew (fun c => { c with state := 2, inForce := true }) s))

/-- The last island of East's tells West. -/
def tellStopped (s : State) : State := if halfStopped s false then seamSend false 4 (.curfew .stopped) s else s

/-- An island stops at T (R427). -/
def stopIsland (i : Island) (s : State) : State :=
  let c := s.curfew
  let west := (islandsOf s true).contains i
  if c.stopped.contains i ∨ ¬ (west ∨ (islandsOf s false).contains i) then s
  else if ¬ (c.inForce ∨ (c.state = 1 ∧ c.t ≤ clock s west)) ∨ ¬ (if west then c.armedW else c.armedE) then s
  else
    stoppedIfReady (if west then islandStops i s else tellStopped (islandStops i s))

/-- CURFEW_STOP (R427). -/
def execCurfewStop (i : Island) (s : State) : Host.Outcome State Fault Refusal := whenServing (stopIsland i) s

/-! ## Dawn (R431) -/

/-- A time of 0 stands for none. -/
def later (d t : Nat) : Nat := if t = 0 then 0 else t + d

/-- The DEADLINE of a dispatch record's bytes (R177) moved. -/
def moveRecord (d : Nat) (b : Bytes) : Bytes := if b.length < 16 then b else put b 8 (le 8 (fld b 8 8 + d))

/-- An absolute DEADLINE in a command: a WAIT's (R299). -/
def moveCommand (d : Nat) (c : Bytes) : Bytes := if cmdType c = 6 then put c 56 (le 8 (later d (fld c 56 8))) else c

/-- The deadlines of the front end. -/
def moveFrontEnd (d : Nat) (s : State) : State :=
  onFe (fun f => { f with
    waits := f.waits.map (fun w => { w with deadline := later d w.deadline })
    tasks := f.tasks.map (fun t => (t.1, { t.2 with deadline := later d t.2.deadline }))
    queues := f.queues.map (fun q => (q.1, { q.2 with
      fetched := q.2.fetched.map (moveCommand d)
      atDispatch := q.2.atDispatch.map (fun a => { a with cmd := moveCommand d a.cmd })
      inflight := q.2.inflight.map (fun c => if c.started then { c with deadline := later d c.deadline } else { c with cmd := moveCommand d c.cmd }) })) }) s

/-- The deadlines of the combine and arrival units and of the trim loop. -/
def moveExperts (d : Nat) (s : State) : State :=
  onExperts (fun e => { e with
    slots := e.slots.map (fun c => (c.1, { c.2 with deadline := later d c.2.deadline }))
    servers := e.servers.map (fun x => (x.1, { x.2 with slices := x.2.slices.map (fun c =>
      { c with window := later d c.window, lanes := c.lanes.map (fun l => { l with deadline := l.deadline + d }) }) }))
    records := e.records.map (fun r => if r.arrival then { r with bytes := moveRecord d r.bytes } else r)
    partials := e.partials.map (fun r => if (windowAt s r.window).kind = 2 then { r with bytes := moveRecord d r.bytes } else r)
    groups := e.groups.map (fun g => (g.1, { g.2 with periodEnd := later d g.2.periodEnd, computeAt := later d g.2.computeAt })) }) s

/-- The timers of a half's link engines; a dispatch record that waits to be sent has its DEADLINE moved. -/
def moveHalf (d : Nat) (h : LinkHalf) : LinkHalf :=
  { h with
    ops := h.ops.map (fun o => (o.1, { o.2 with
      sent := o.2.sent.map (· + d)
      data := match o.2.issuer with
        | .dispatch _ _ _ => if o.2.offset % 2 ^ 40 = 0 then moveRecord d o.2.data else o.2.data
        | _ => o.2.data }))
    backoffs := h.backoffs.map (fun b => (b.1, if b.2.active then { b.2 with until_ := b.2.until_ + d } else b.2))
    comb := h.comb.map (fun c => { c with last := c.last + d })
    acks := h.acks.map (fun a => { a with since := a.since + d })
    bulks := h.bulks.map (fun b => { b with since := b.since + d }) }

/-- Step 1: every deadline and timeout that Eonal holds moves by `d`. -/
def moveDeadlines (d : Nat) (s : State) : State :=
  let s := moveExperts d (moveFrontEnd d s)
  let s := onFabric (fun f => { f with west := moveHalf d f.west, east := moveHalf d f.east }) s
  let s := onPath (fun p => { p with lanterns := p.lanterns.map (fun l =>
    (l.1, { l.2 with quarantine := l.2.quarantine.map (fun q => { q with since := q.since + d }) })) }) s
  onBoxes (fun b => { b with waiting := b.waiting.map (fun w =>
    match w.cond with
    | .fence k g t dl => { w with cond := .fence k g t (later d dl) }
    | _ => w) }) s

/-- Whether a captured frame begins a dispatch record. -/
def beginsRecord (s : State) (port : Nat) (h : Bytes) : Bool :=
  let k := fOffset h / 2 ^ 40
  fOp h == opStore && (windowAt s k).kind == 2 && !s.experts.partials.any (fun x => x.port == port && x.src == fSrc h && x.shalf == fShalf h && x.window == k && x.next == fOffset h)

/-- A captured frame, verified when it was captured, is delivered. -/
def deliverCaptured (ue : Ue) (d : Nat) (c : Captured) (s : State) : State :=
  let h := c.frame.header
  let plain := if beginsRecord s c.port h then moveRecord d c.plain else c.plain
  if 1 ≤ fOp h ∧ fOp h ≤ 5 ∧ (fFlags h &&& flMcast) = 0 then
    answered (c.inWest s) h (acceptOp ue (c.inWest s) c.port h plain none s)
  else deliverFrame ue (c.inWest s) c.port h plain true s

/-- Step 3: each port's IN_FLIGHT and OUTSIDE frames in arrival order, then its POST_DAWN frames. -/
def deliverAll (ue : Ue) (d : Nat) (s : State) : State :=
  let cs := s.curfew.captured
  let s := onCurfew (fun c => { c with captured := [] }) s
  (List.range s.build.links).foldl (fun s p =>
    let mine := cs.filter (fun c => c.port == p)
    let s := (mine.filter (fun c => c.cls < 2)).foldl (fun s c => deliverCaptured ue d c s) s
    (mine.filter (fun c => c.cls == 2)).foldl (fun s c => deliverCaptured ue d c s) s) s

/-- The capture area is no longer Eonal's; the capture key is zero. -/
def leaveArea (st : Nat) (s : State) : State :=
  let s := areaHeader st s
  let a := s.curfew.area
  dropObjs [a] (onKeys (fun k => { k with captureKey := [] }) s)

/-- Step 4: the islands run, and the held fence writes go out in order. -/
def resumeIslands (ue : Ue) (s : State) : State :=
  let held := s.curfew.heldWrites
  let s := onCurfew (fun c => { c with inForce := false, stopped := [], eastStop := false, armedW := false, armedE := false
                                       blockedPorts := [], heldWrites := [], spillAt := 0 }) s
  held.foldl (fun s w => issueFenceWrite ue w s) s

/-- Dawn breaks (R431). The link engines send again from step 3 on, so that what is delivered can be answered. -/
def dawnBreaks (ue : Ue) (s : State) : State :=
  let c := s.curfew
  let d := c.dawn - c.t
  let s := moveDeadlines d s
  let s := onCurfew (fun c => { c with stopped := c.stopped.filter (fun i => i ≠ .link 0 ∧ i ≠ .link 1) }) s
  let s := deliverAll ue d s
  let s := resumeIslands ue s
  let s := onCurfew (fun c => { c with state := 0 }) s
  let s := traceCurfewPhase 2 (postOpenEvent 16 evCurfew (leaveArea 2 s))
  pumpHeld ue (settle ue s)

/-- DAWN_TIME (R431). -/
def execDawnTime (ue : Ue) (s : State) : Host.Outcome State Fault Refusal :=
  whenFused (fun s => if s.curfew.inForce ∧ s.curfew.dawn ≤ now s then dawnBreaks ue s else s) s

/-! ## Trace headers (R414, R419) -/

/-- The port of a STORE of a half's trace unit to a node, with the half: the account of R419. None without a route. -/
def obsPort (s : State) (h node : Nat) : Option Nat :=
  (routeTo s (h == 0) node).bind (fun e => (choosePort s e (rtMode e == 1) (rtVer e)).map (fun p => 32 * h + p))

/-- The node address of a piece for a remote buffer: buffer, half, offset, whether it is a header, bytes. -/
def remoteAddr (s : State) (r : Nat × Nat × Nat × Bool × Bytes) : Nat := (bufAt s r.1).offset + r.2.1 * (bufAt s r.1).subLen + r.2.2.1

/-- Whether a piece leaves now: its port has room in this period (R419), and no earlier piece of its sub-buffer stays. -/
def remoteGoes (s : State) (r : Nat × Nat × Nat × Bool × Bytes) : Bool :=
  !s.trace.remote.any (fun x => x.1 == r.1 && x.2.1 == r.2.1) &&
    (match obsPort s r.2.1 (remoteAddr s r / 2 ^ 48) with
     | some p => decide (tget 0 s.trace.spentPort p + r.2.2.2.2.length ≤ obsPortCap)
     | none => true)

/-- A piece leaves as STOREs of at most 4,096 B; a header's carries RELEASE. -/
def storeRemote (r : Nat × Nat × Nat × Bool × Bytes) (s : State) : State :=
  let b := bufAt s r.1
  let a := remoteAddr s r
  let s := match obsPort s r.2.1 (a / 2 ^ 48) with
    | some p => onTrace (fun t => { t with spentPort := tmod 0 t.spentPort p (· + r.2.2.2.2.length) }) s
    | none => s
  (chunks 4096 r.2.2.2.2).zipIdx.foldl (fun s p =>
    enqueueOp (r.2.1 = 0) { issuer := .trace r.2.1, op := opStore, flags := if r.2.2.2.1 then flRelease else 0, dst := a / 2 ^ 48
                            offset := (a + 4096 * p.2) % 2 ^ 48, len := p.1.length, spart := if b.owner.getD 16 < 16 then b.owner.getD 16 else 0xFF
                            data := p.1 } s) s

/-- What waits for a half's remote buffers leaves, as far as the cap lets it; the rest waits on. -/
def sendRemote (h : Nat) (s : State) : State :=
  let mine := s.trace.remote.filter (fun r => r.2.1 == h)
  let s := onTrace (fun t => { t with remote := t.remote.filter (fun r => r.2.1 ≠ h) }) s
  mine.foldl (fun s r => if remoteGoes s r then storeRemote r s else onTrace (fun t => { t with remote := t.remote ++ [r] }) s) s

/-- Whether a header is due to be written anew: its sub-buffer is RUNNING or TRIGGERED, and the cap has room for it (R414, R419). -/
def headerDue (s : State) (h k : Nat) : Bool :=
  let st := ((bufAt s k).half h).state
  (st == 1 || st == 2) && !capBlocks s k h 0 256

/-- The header of a sub-buffer is written anew where it is due; what waits for remote buffers leaves. -/
def rewriteHeader (h k : Nat) (s : State) : State :=
  if h > 1 ∨ k ≥ 32 then s else
  let s := if headerDue s h k then writeHeader k h s else s
  settle {} (driveFabric {} (sendRemote h s))

/-- TRACE_HEADER_REWRITE (R414). -/
def execTraceHeaderRewrite (half buf : Nat) (s : State) : Host.Outcome State Fault Refusal := whenServing (rewriteHeader half buf) s

end Sys2Proof.Machine
end

