-- ==== Sys2Proof/Machine/Dump.lean ====
section
/-! DEFINITION. The crash dump (R399 to R403): its area, its sections, where it is written. -/
namespace Sys2Proof.Machine

/-! ## The area (R399) -/

/-- FH_DUMP: whether it names an area, the preferred lantern, the home-window offset, the key ID. -/
def dumpValid (s : State) : Bool := s.faults.dumpReg.msb
def dumpLantern (s : State) : Nat := bits s.faults.dumpReg.toNat 59 56
def dumpOffset (s : State) : Nat := bits s.faults.dumpReg.toNat 47 21 * 2 ^ 21
def dumpKey (s : State) : Nat := s.faults.dumpReg.toNat % 4096

/-- Whether the area is a manager-owned HOME object on every lantern with at least 4 MiB in each. -/
def dumpAreaOk (s : State) : Bool :=
  s.parts.objects.any (fun e => e.2.state == .live && e.2.owner == 16 && e.2.placement == 1 && e.2.key == dumpKey s &&
    e.2.base == dumpOffset s && decide (e.2.length ≥ 2 ^ 22) &&
    (List.range s.build.lanterns).all (fun l => e.2.mask.toNat.testBit l))

/-! ## Sections (R401, R402) -/

/-- A section: header fields and data. `open_` counts bytes of data whose layout the spec leaves open; free values fill
them. -/
structure Section where
  type  : Nat
  kind  : Nat
  inst  : Nat
  flags : Nat := 0
  sub   : Nat := 0
  part  : Nat := 0xFF
  data  : Bytes := []
  open_ : Nat := 0
  deriving DecidableEq, Repr

/-- The sections with their open bytes filled, the first from the `n`-th free value on. -/
def fillOpen : Nat → List Section → List Section
  | _, [] => []
  | n, x :: xs => { x with data := x.data ++ (List.range x.open_).map (fun i => Sys2Proof.Config.unstated (n + i)) } :: fillOpen (n + x.open_) xs

/-- A section's bytes, its data padded to 16 B. -/
def Section.bytes (x : Section) : Bytes :=
  le 1 x.type ++ le 1 x.kind ++ le 1 x.inst ++ le 1 x.flags ++ le 2 x.sub ++ le 1 x.part ++ zeros 1 ++ le 4 x.data.length ++ zeros 4 ++
    fit (alignUp x.data.length 16) x.data

/-- The fault store as a section; its KIND and INSTANCE are open. -/
def storeSection (s : State) : Section :=
  let b := unstatedBytes 2 s
  { type := 1, kind := fld b 0 1, inst := fld b 1 1, data := (s.faults.records ++ s.faults.linkStore).flatMap FaultRec.bytes }

/-- The state of a unit. The spec names what is in it and gives it no layout: 64 free bytes stand for it. -/
def unitSection (kind inst : Nat) : Section := { type := 2, kind := kind, inst := inst, open_ := 64 }

/-- The 4 KiB header of a lantern buffer, whose layout is open. -/
def bufferSection (l : Nat) : Section := { type := 4, kind := kindLantern, inst := l, open_ := 4096 }

/-- Whether a partition's samples are withheld: its TDI is CONFIG_LOCKED, RUN or ERROR. -/
def redacted (s : State) (p : Nat) : Bool := p < 16 && (partAt s p).tdi != .configUnlocked

/-- The samples of the wicks that hold tasks in a lantern: the first 512 B of ACT and the last 512 B of ACC. -/
def wickSections (l : Nat) (s : State) : List Section :=
  s.fe.tasks.flatMap (fun e => if ¬ e.2.live then [] else (e.2.wicks.filter (fun k => k.1 / 256 == l && k.2.started)).map (fun k =>
    let red := redacted s e.2.part
    let prov := !(tget [] e.2.deps l).isEmpty
    { type := 3, kind := kindWick, inst := l, sub := k.2.phys, part := partCode e.2.part, flags := 2 * b2n prov + 4 * b2n red
      data := if red then [] else treads 0 k.2.act 0 512 ++ treads 0 k.2.acc 15872 512 }))

/-- The sections of a lantern. -/
def lanternSections (l : Nat) (s : State) : List Section := unitSection kindLantern l :: bufferSection l :: wickSections l s

/-- The last 64 instruction addresses that the Lamplighter fetched, where it could not be trusted to go on (R392); their layout is
open. -/
def fetchedSection (s : State) : List (List Section) :=
  match s.faults.cause with
  | some r => if r.cls = clsVigil ∨ r.cls = clsLlIntegrity then [[{ type := 2, kind := kindLamplighter, inst := 0, open_ := 512 }]] else []
  | none => []

/-- The units of the block in the order of R400, each with its sections. -/
def allUnits (s : State) : List (List Section) :=
  [[storeSection s], [unitSection kindFrontEnd 0], [unitSection kindFeAgent 0], [unitSection kindCopy 0]] ++
    (List.range s.build.lanterns).map (fun l => lanternSections l s) ++
    (List.range s.build.caps).map (fun c => [unitSection kindCapacity c]) ++
    (List.range s.build.links).map (fun p => [unitSection kindLink p]) ++
    [[unitSection kindRegulator 0], [unitSection kindTrace 0]] ++ fetchedSection s

/-- What a unit dump reads: the fault store and the resetting unit. -/
def degradedUnits (kind inst : Nat) (s : State) : List (List Section) :=
  [[storeSection s], if kind = kindLink then [unitSection kindLink inst] else lanternSections inst s]

/-- A unit that times out gives one section, flagged UNREADABLE, in place of its state (R400). -/
def unreadable (unit : List Section) : List Section :=
  unit.head?.toList.map (fun x => { type := 2, kind := x.kind, inst := x.inst, flags := 1 })

/-- The sections that the units give, from the `n`-th free value on. -/
def unitsRead (n : Nat) (units : List (List Section)) : List Section :=
  units.zipIdx.flatMap (fun u => if Sys2Proof.Config.unitTimesOut (n + u.2) then unreadable u.1 else u.1)

/-- The sections flagged UNREADABLE. -/
def unreadableCount (sections : List Section) : Nat := sections.countP (fun x => bit x.flags 0)

/-- The header of R402. -/
def dumpHeader (state l cls seq time len sections unread : Nat) : Bytes :=
  le 1 1 ++ le 1 state ++ le 1 l ++ le 1 cls ++ le 4 seq ++ le 8 time ++ le 4 len ++ le 4 sections ++ le 4 unread ++ le 1 1 ++ le 1 0 ++ le 2 0 ++ zeros 32

/-! ## Writing it (R399, R400) -/

/-- The lanterns to try: the preferred one, then the others in ascending order from it on, without those in reset. -/
def dumpLanterns (s : State) (without : Option Nat) : List Nat :=
  let n := s.build.lanterns
  ((List.range n).map (fun i => (dumpLantern s + i) % max 1 n)).filter (fun l => (lanternAt s l).ready && some l != without)

/-- The dump is written to the first lantern that takes it; answers that lantern. -/
def writeDump (ue : Ue) (text : Nat → Bytes) : List Nat → State → Option Nat × State
  | [], s => (none, s)
  | l :: ls, s =>
    let a := reqAddr (dumpKey s) (homeAddr s l (dumpOffset s))
    let (st, t) := memWrite { part := 16, own := true, master := 9, access := 2, kind := kindLantern, inst := l } ue a (text l) s
    if st = stOk then (some l, t) else writeDump ue text ls s

/-- Where a dump's cause stands in the store: its SEQ. -/
def causeSeq (s : State) (c : FaultRec) : Nat := ((s.faults.records.find? (fun r => r.err == c.err)).map (fun r => r.seq)).getD c.seq

/-- A dump is taken of some units, for a cause (none: a requested reset). One that lacks a unit is PARTIAL and leaves a record. -/
def takeDump (ue : Ue) (units : List (List Section)) (cause : Option FaultRec) (without : Option Nat) (s : State) : State :=
  let cls := (cause.map (fun r => r.cls)).getD 0
  let seq := (cause.map (causeSeq s)).getD 0
  let time := (cause.map (fun r => r.time)).getD (now s)
  if ¬ dumpValid s ∨ ¬ dumpAreaOk s then
    let s := onFaults (fun f => { f with dump := { state := 3, cls := cls, seq := seq, time := time }
                                         dumpReg := if dumpAreaOk s then f.dumpReg else f.dumpReg &&& 0x7FFFFFFFFFFFFFFF#64 }) s
    simpleFault clsDump kindLamplighter 0 s
  else
    let sections := unitsRead s.free units
    let lost := unreadableCount sections
    let st := if lost = 0 then 1 else 2
    let n := (sections.map (fun x => x.open_)).sum + units.length
    let body := (fillOpen (s.free + 2) sections).flatMap Section.bytes
    let len := 64 + body.length
    let (at_, s) := writeDump ue (fun l => dumpHeader st l cls seq time len sections.length lost ++ body) (dumpLanterns s without) (drawn (n + 2) s)
    match at_ with
    | some l =>
      let s := onParts (fun p => { p with dumpBytes := satTo 64 (p.dumpBytes + len) })
        (onFaults (fun f => { f with dump := { state := st, lantern := l, cls := cls, seq := seq, time := time, length := len
                                               address := BitVec.ofNat 64 (reqAddr (dumpKey s) (homeAddr s l (dumpOffset s))) } }) s)
      if lost = 0 then s else simpleFault clsDump kindLamplighter 0 s
    | none =>
      simpleFault clsDump kindLamplighter 0 (onFaults (fun f => { f with dump := { state := 4, cls := cls, seq := seq, time := time } }) s)

end Sys2Proof.Machine
end

