-- ==== Sys2Proof/Machine/Recovery.lean ====
section
/-! DEFINITION. Failed wicks and their spares (R139, R140), hangs (R391), the snuff of a lantern or a link port with its reset
(R383 to R389), the training of channels (R517). -/
namespace Sys2Proof.Machine

/-! ## Wicks (R139, R140) -/

/-- The logical wick that a physical one serves. -/
def logicalOf (s : State) (l phys : Nat) : Option Nat := (List.range s.build.wicks).find? (fun k => wickPhys s l k == phys)

/-- A spare of a lantern that serves no logical wick and has not failed. -/
def spareFree (s : State) (l : Nat) : Option Nat :=
  let x := lanternAt s l
  ((List.range s.build.spares).map (fun i => s.build.wicks + i)).find? (fun p => !x.failed.contains p && (logicalOf s l p).isNone)

/-- The tasks whose set holds a physical wick. -/
def wickHolders (s : State) (l phys : Nat) : List (Nat × Task) :=
  s.fe.tasks.filter (fun e => e.2.wicks.any (fun k => k.1 / 256 == l && k.2.phys == phys))

/-- The partition a withdrawn wick is taken from: its task's, else the lowest whose carve-outs the lantern can no longer
fill. -/
def loserOf (s : State) (l phys : Nat) : Option Nat :=
  match (wickHolders s l phys).head? with
  | some e => some e.2.part
  | none =>
    let ps := (owners s).filter (fun p => decide (wicksGranted s p l > 0))
    if (ps.map (fun p => wicksGranted s p l)).sum + (lanternAt s l).withdrawn.length ≤ s.build.wicks then none else ps.head?

/-- A failed wick's logical number goes to a spare, or is withdrawn. -/
def replaceWick (l phys logical : Nat) (s : State) : State :=
  match spareFree s l with
  | some sp =>
    let s := modLantern l (fun x => { x with wickMap := tset 0 x.wickMap logical (sp + 1), wickOf := x.wickOf ++ [(phys, logical + 1, sp + 1)] }) s
    let s := onFe (fun f => { f with tasks := f.tasks.map (fun e => (e.1, { e.2 with wicks := e.2.wicks.map (fun k =>
      if k.1 / 256 = l ∧ k.2.phys = phys then (k.1, { k.2 with phys := sp }) else k) })) }) s
    recordFault { cls := clsWickRemapped, kind := kindWick, inst := l, sub := phys, status := stDataPoison } s
  | none =>
    let who := loserOf s l phys
    let s := modLantern l (fun x => { x with withdrawn := x.withdrawn ++ [logical], wickOf := x.wickOf ++ [(phys, logical + 1, 0)] }) s
    let s := match who with
      | some p => modPart p (fun x => { x with wicksLost := tset 0 x.wicksLost l (tget 0 x.wicksLost l + 1) }) s
      | none => s
    postOpenEvent 16 evWickWithdrawn (recordFault { cls := clsWickWithdrawn, kind := kindWick, inst := l, sub := phys } s)

/-- A physical wick is marked failed: the task that runs on it fails. -/
def markWick (l phys : Nat) (s : State) : State :=
  if l ≥ s.build.lanterns ∨ phys ≥ s.build.wicks + s.build.spares ∨ (lanternAt s l).failed.contains phys then s else
  let s := modLantern l (fun x => { x with failed := x.failed ++ [phys] }) s
  let running := (wickHolders s l phys).filter (fun e => e.2.live && e.2.wicks.any (fun k => k.1 / 256 == l && k.2.phys == phys && k.2.started && !k.2.ended))
  let s := running.foldl (fun s e => freeBatches e.1 (failTask e.1 stDataPoison s)) s
  match logicalOf s l phys with
  | some k => replaceWick l phys k s
  | none => s

/-- A word turns into poison, which the wick's next read of it consumes: in the staging memory the product that the wick stands before
reads it, in ACT and ACC it stays until it is read or written whole (R44, R105). -/
def poisonWord (t l phys : Nat) (at_ : ScratchWord) (s : State) : State :=
  let put (sp n : Nat) : State := modTask t (fun x => { x with wicks := x.wicks.map (fun k =>
    if k.1 / 256 = l ∧ k.2.phys = phys then (k.1, { k.2 with poison := k.2.poison.filter (fun p => p ≠ (sp, n)) ++ [(sp, n)] }) else k) }) s
  match at_ with
  | .act n => put spAct n
  | .acc n => put spAcc n
  | .staging =>
    let x := taskAt s t
    if x.wicks.any (fun k => k.1 / 256 == l && k.2.phys == phys && !k.2.ended &&
        (((x.program[k.2.pc]?).map (fun d => fld d 1 1 == 0x10 || fld d 1 1 == 0x11)).getD false)) then freeBatches t (failTask t stDataPoison s)
    else s

/-- A corrected scratchpad error (R105): a Corrected fault. -/
def scratchCorrected (l phys : Nat) (s : State) : State :=
  if l ≥ s.build.lanterns ∨ phys ≥ s.build.wicks + s.build.spares then s else
  recordFault { cls := clsScratchCe, kind := kindWick, inst := l, sub := phys, status := stOk
                part := (((wickHolders s l phys).filter (fun e => e.2.live)).head?.map (fun e => e.2.part)).getD 255 } s

/-- An uncorrectable scratchpad error (R105): a Note, and the word is poison; the second within 24 h marks the wick. -/
def scratchError (l phys : Nat) (at_ : ScratchWord) (s : State) : State :=
  if l ≥ s.build.lanterns ∨ phys ≥ s.build.wicks + s.build.spares then s else
  let again := (lanternAt s l).scratchLog.any (fun e => e.1 == phys && decide (clock s (lanternWest s l) < e.2 + 86400000000000))
  let who := (wickHolders s l phys).filter (fun e => e.2.live)
  let s := recordFault { cls := clsScratchUe, kind := kindWick, inst := l, sub := phys, status := stDataPoison
                         part := (who.head?.map (fun e => e.2.part)).getD 255 } s
  let s := modLantern l (fun x => { x with scratchLog := x.scratchLog.filter (fun e => e.1 ≠ phys) ++ [(phys, clock s (lanternWest s l))] }) s
  let s := who.foldl (fun s e => poisonWord e.1 l phys at_ s) s
  if again then markWick l phys s else s

/-- WICK_FAILED (R139): a failed test marks the wick; an uncorrectable scratchpad error does at its second occurrence in 24 h. The same row
carries the corrected errors of R105 (notes/assumptions/84.md). -/
def execWickFailed (l phys : Nat) (cause : WickCause) (s : State) : Host.Outcome State Fault Refusal :=
  whenFused (recording (fun s => settle {} (match cause with
    | .scratchpad at_ => scratchError l phys at_ s
    | .corrected => scratchCorrected l phys s
    | _ => markWick l phys s))) s

/-- WICK_SELF_TEST: an idle wick's background self-test (R139). -/
def execWickSelfTest (l phys : Nat) (pass : Bool) (s : State) : Host.Outcome State Fault Refusal :=
  whenFused (recording (fun s =>
    if l ≥ s.build.lanterns ∨ phys ≥ s.build.wicks + s.build.spares ∨ (physUsed s l).contains phys then s else
    let s := modLantern l (fun x => { x with selfTests := tset 0 x.selfTests phys (clock s (lanternWest s l)) }) s
    if pass then s else settle {} (markWick l phys s))) s

/-! ## Hangs (R391) -/

/-- Whether a unit holds work. -/
def holdsWork (s : State) : HungUnit → Bool
  | .lantern l => s.fe.tasks.any (fun e => e.2.live && e.2.wicks.any (fun k => k.1 / 256 == l && k.2.started && !k.2.ended))
  | .frontEnd => s.fe.queues.any (fun e => decide (e.2.fetching > 0) || !e.2.fetched.isEmpty || e.2.atDispatch.isSome || !e.2.inflight.isEmpty)
  | .feAgent => s.fe.queues.any (fun e => decide (e.2.fetching > 0)) || s.fe.tasks.any (fun e => e.2.live && e.2.eastGo && !e.2.eastDone)
  | .copyEngine => decide (chunksFlying s > 0)

/-- UNIT_HUNG: a unit that holds work has reported no progress for 10 ms (R391). -/
def execUnitHung (u : HungUnit) (s : State) : Host.Outcome State Fault Refusal :=
  whenServing (fun s =>
    if ¬ holdsWork s u then s else
    settle {} (match u with
    | .lantern l => if l ≥ s.build.lanterns then s else recordFault { cls := clsUnitHung, kind := kindLantern, inst := l, status := stResetLost } s
    | .frontEnd => recordFault { cls := clsEngineHung, kind := kindFrontEnd, inst := 0, status := stResetLost } s
    | .feAgent => recordFault { cls := clsEngineHung, kind := kindFeAgent, inst := 0, status := stResetLost } s
    | .copyEngine => recordFault { cls := clsEngineHung, kind := kindCopy, inst := 0, status := stResetLost } s)) s

/-! ## The steps of a snuff (R388, R389) -/

/-- Step 1: West is fenced, East is told. -/
def beginFence (key domain inst : Nat) (s : State) : State :=
  seamSend true 3 (.words (snuffArg 1 domain inst) []) (modSnuff key (fun x => { x with fencedW := true }) s)

/-- Step 8: West is released, East is told. -/
def releaseFence (key domain inst : Nat) (s : State) : State :=
  seamSend true 3 (.words (snuffArg 3 domain inst) []) (modSnuff key (fun x => { fencedE := x.fencedE }) s)

/-- The end of steps 2 and 3: an East domain says QUIET. -/
def sayQuiet (east : Bool) (domain inst : Nat) (s : State) : State :=
  if east then seamSend false 3 (.words (snuffArg 2 domain inst) []) s else s

/-- The newest record of level 3 or above at a source: what a unit reset is for. -/
def unitCause (s : State) (lantern : Bool) (inst : Nat) : Option FaultRec :=
  (s.faults.records.filter (fun r => r.inst == inst && decide (r.severity ≥ 3) &&
    (if lantern then r.kind == kindLantern || r.kind == kindWick else r.kind == kindLink))).getLast?

/-- A unit dump, where FH_CTRL asks for one (R399). -/
def unitDump (ue : Ue) (lantern : Bool) (inst : Nat) (s : State) : State :=
  if ¬ s.faults.dumpOnUnit then s
  else takeDump ue (degradedUnits (if lantern then kindLantern else kindLink) inst s) (unitCause s lantern inst) (if lantern then some inst else none) s

/-! ## A lantern (R383 to R388) -/

/-- The live tasks whose set holds a lantern. -/
def tasksOn (s : State) (l : Nat) : List Nat := (s.fe.tasks.filter (fun e => e.2.live && e.2.lanterns.contains l)).map Prod.fst

/-- Whether a domain range has a byte in lantern `l`. -/
def rangeIn (s : State) (l a len : Nat) : Bool :=
  len > 0 && (((List.range (min (len / 4096 + 2) (s.build.lanterns + 1))).map (fun i => a + 4096 * i)).filter (fun x => x < a + len) ++ [a + len - 1]).any
    (fun x => match place s x with
      | some (.stacked k _) => k == l
      | _ => false)

/-- Whether a COPY or IMPORT command reads or writes lantern `l`. -/
def copyIn (s : State) (l : Nat) (c : Bytes) : Bool :=
  let n := if cmdType c = 2 then fld c 56 6 else fld c 58 2 * 2 ^ 20
  ((cmdType c == 2 || cmdType c == 3) && (!srcHost c && rangeIn s l (domainOf (fld c 40 8)) n)) ||
    ((cmdType c == 2 || cmdType c == 3) && (!dstHost c && rangeIn s l (domainOf (fld c 48 8)) n))

/-- Step 2: tasks with wicks in the lantern abort with RESET_LOST, pilots fail, copies that touch it end after the chunk under
way (R385). -/
def lanternAbort (l : Nat) (s : State) : State :=
  let s := (tasksOn s l).foldl (fun s t =>
    match (taskAt s t).purpose with
    | .command _ _ => freeBatches t (failTask t stResetLost s)
    | .pilot pi => failPilot pi stResetLost s) s
  let s := s.fe.pilots.foldl (fun s e => if (taskAt s e.2.task).lanterns.contains l then failPilot e.1 stResetLost s else s) s
  s.fe.queues.foldl (fun s e =>
    match e.2.inflight.find? (fun c => c.started && c.phase == .running && copyIn s l c.cmd) with
    | none => s
    | some c => modQueue e.1 (fun q =>
        ({ q with inflight := q.inflight.map (fun x => if copyIn s l x.cmd && x.started then x.kill stResetLost else x) } : Queue).stop stQueueStopped (c.serial + 1)) s) s

/-- Whether every response the lantern owes or awaits is in (step 3). -/
def lanternDrained (s : State) (l : Nat) : Bool :=
  !holdsWork s (.lantern l) && (portAt s l).all (fun w => w.phase == 2) &&
    s.fe.queues.all (fun e => e.2.inflight.all (fun c => c.flying == 0 || !copyIn s l c.cmd))

/-- Requests the drain did not complete are answered (R464). -/
def answerPort (l : Nat) (s : State) : State :=
  pumpPort {} l (setPort l ((portAt s l).map (fun w => if w.phase = 2 then w else
    { w with phase := 2, status := stDomainSnuffed, wdata := [], wbe := []
             data := if w.write then [] else poisonBytes (portBytes w.req)
             poison := if w.write then [] else List.replicate (w.req.len + 1) true })) s)

/-- The chunk of a rotation that was being swept in the lantern is repaired from a replica or marked poison (R387). -/
def repairChunk (ue : Ue) (l n : Nat) (s : State) : State :=
  match shareAt s n (.lantern l) with
  | none => s
  | some x =>
    if ¬ x.open_ then s else
    let page := x.watermark / 4096
    let s := modShare n (.lantern l) (fun x => { x with open_ := false }) s
    let k := (rotationAt s n).a
    if (repairEntry s (domainOfLocal s l (page * 4096))).isSome then
      pageRepair l page ue (if quarantined s l page then s
        else modLantern l (fun x => { x with quarantine := x.quarantine ++ [⟨page, clock s (lanternWest s l), s.faults.errs, [], isShared s k⟩] }) s)
    else addPoison l page k (BitVec.allOnes 64) s

/-- Sequences of pools whose mask holds the lantern are LOST (R164). -/
def loseSeqs (l : Nat) (s : State) : State :=
  onKv (fun x => { x with seqs := x.seqs.map (fun e =>
    if e.2.live ∧ e.2.state = .active ∧ (poolAt s e.2.pool).mask.toNat.testBit l then (e.1, { e.2 with state := .lost }) else e) }) s

/-- What a lantern's tickets were wanted for is told that they are gone: verdicts, staged trace records. -/
def loseTickets (l : Nat) (s : State) : State :=
  let s := (lanternAt s l).tickets.foldl (fun s e => traceTicket l e.1 false s) s
  let s := onPath (fun p => { p with caps := p.caps.map (fun c => (c.1, { c.2 with verdicts := c.2.verdicts.map (fun v =>
    match v.target with
    | .ticket k _ => if k = l then { v with target := .ticket l goneTicket } else v
    | _ => v) })) }) s
  onFabric (fun f => { f with verdicts := f.verdicts.map (fun v => { v with tickets := v.tickets.filter (fun t => t.1 ≠ l) }) }) s

/-- Exchange records to and from the lantern are dropped; its incarnation rises, and the counters that depend on it begin
again (R108, R385). -/
def loseExchanges (l : Nat) (s : State) : State :=
  let of_ (k : Nat) : Bool := k / 256 == l || k % 256 == l
  let s := onExperts (fun e => { e with exchTx := e.exchTx.filter (fun x => !of_ x.1), exchRx := e.exchRx.filter (fun x => x.1 / 256 ≠ l)
                                        exchPart := e.exchPart.filter (fun x => !of_ x.1) }) s
  let s := onExperts (fun e => { e with
    records := e.records.filter (fun r => !r.under.any (fun x => of_ x.1))
    servers := e.servers.map (fun x => (x.1, { x.2 with slices := x.2.slices.map (fun c => { c with lanes := c.lanes.map (fun y =>
      if y.under.any (fun x => of_ x.1) then { y with lost := true } else y) }) })) }) s
  onFe (fun f => { f with
    tasks := f.tasks.map (fun t => (t.1, { t.2 with exch := t.2.exch.filter (fun x => !of_ x.1) }))
    queues := f.queues.map (fun q => (q.1, { q.2 with inflight := q.2.inflight.map (fun c =>
      if c.exch.any (fun x => of_ x.1) then { c with exch := c.exch.filter (fun x => !of_ x.1), result := stResetLost } else c) })) }) s

/-- Wicks and sheets of the lantern's tasks are cleared. -/
def clearWicks (l : Nat) (s : State) : State :=
  onFe (fun f => { f with tasks := f.tasks.map (fun t => (t.1, { t.2 with
    wicks := t.2.wicks.map (fun k => if k.1 / 256 = l then (k.1, { phys := k.2.phys, ended := true }) else k)
    sheets := t.2.sheets.filter (fun x => x.1 / 8 ≠ l), deps := terase t.2.deps l })) }) s

/-- Steps 4 to 6: account, dump, reset (R384, R385); the tables that the flash keeps are loaded from it, or, where a record could not be
written yet, put back as Stolaikor holds them (R73, R139); the stack retrains. -/
def lanternReset (ue : Ue) (l : Nat) (failedWicks : List Nat) (s : State) : State :=
  let s := answerPort l (loseSeqs l s)
  let s := unitDump ue true l s
  let s := (List.range 8).foldl (fun s n => repairChunk ue l n s) s
  let s := syncRecords (loseExchanges l (loseTickets l (clearWicks l s)))
  let s := modLantern l (fun x =>
    { sparesUsed := x.sparesUsed, bypassSeen := x.bypassSeen, remap := x.remap, poison := x.poison, ueLog := x.ueLog, wickMap := x.wickMap
      failed := x.failed, wickOf := x.wickOf, withdrawn := x.withdrawn, scratchLog := x.scratchLog, incarnation := x.incarnation + 1 }) s
  let s := if recordsDue s = [] then loadRecords [l] s else s
  let s := failedWicks.foldl (fun s p => markWick l p s) s
  let s := if s.curfew.inForce then onCurfew (fun c => { c with incomplete := true }) s else s
  let s := if s.seam.paired then loadChecked 1025 s else s
  modSnuff l (fun x => { x with cleared := true, draining := false, keyMessage := lastKeyMessage s }) (emit (.retrain l) s)

/-- One move of a lantern's snuff: fence; abort; then account, dump and reset; then restore and release. -/
def lanternSnuff (l : Nat) (failedWicks : List Nat) (ue : Ue) (s : State) : State :=
  let x := snuffAt s l
  if l ≥ s.build.lanterns ∨ ¬ x.due then s
  else if (lanternAt s l).incarnation ≥ 65535 then modSnuff l (fun y => { fencedE := y.fencedE }) (dueBlockReset 1 (unitCause s true l) true s)
  else if ¬ x.fencedW then beginFence l 1 l s
  else if ¬ x.fencedE then s
  else if x.cleared then
    if (lanternAt s l).trained.length < 64 ∨ (s.seam.paired ∧ ¬ eastHeard s x.keyMessage) then s
    else pumpHeld {} (releaseFence l 1 l (modLantern l (fun y => { y with ready := true }) (restoreStore l s)))
  else if ¬ x.draining then settle ue (modSnuff l (fun y => { y with draining := true, since := now s }) (lanternAbort l s))
  else if lanternDrained s l ∨ x.timedOut then settle ue (lanternReset ue l failedWicks (sayQuiet (!lanternWest s l) 1 l s))
  else s

/-- LANTERN_SNUFF (R388). -/
def execLanternSnuff (l : Nat) (failedWicks : List Nat) (ue : Ue) (s : State) : Host.Outcome State Fault Refusal :=
  whenFused (recording (lanternSnuff l failedWicks ue)) s

/-! ## A link port (R388, R223) -/

/-- One move of a link port's snuff: fence; drain; then account, dump, reset and release. The session is renewed by R215 once
the link trains again. -/
def linkSnuff (p : Nat) (s : State) : State :=
  let k := 100 + p
  let x := snuffAt s k
  if p ≥ s.build.links ∨ ¬ x.due then s
  else if ¬ x.fencedW then beginFence k 2 p s
  else if ¬ x.fencedE then s
  else if ¬ x.draining then modSnuff k (fun y => { y with draining := true, since := now s }) s
  else if x.timedOut ∨ (s.fabric.west.ops ++ s.fabric.east.ops).all (fun e => !(e.2.used && e.2.sent.isSome && e.2.port == p)) then
    let s := resetPort p (unitDump {} false p (sayQuiet (!linkWest s p) 2 p s))
    settle {} (driveFabric {} (releaseFence k 2 p s))
  else s

/-- LINK_PORT_SNUFF (R388). -/
def execLinkPortSnuff (p : Nat) (s : State) : Host.Outcome State Fault Refusal := whenServing (linkSnuff p) s

/-- SNUFF_DRAIN_TIMEOUT: a drain ends after 100 µs (R388). -/
def execSnuffDrainTimeout (d : SnuffDomain) (s : State) : Host.Outcome State Fault Refusal :=
  whenServing (fun s =>
    let k := match d with
      | .lantern l => l
      | .linkPort p => 100 + p
      | .block => 200
    let x := snuffAt s k
    if x.draining ∧ now s ≥ x.since + 100000 then setSnuff k { x with timedOut := true } s else s) s

/-! ## Training (R469, R470, R517) -/

/-- A channel trains or has trained; a lantern whose 64 channels have trained accepts requests, unless its snuff still holds it. -/
def channelTrained (u : MemUnit) (channel : Nat) (level : Bool) (s : State) : State :=
  match u with
  | .lantern l =>
    if l ≥ s.build.lanterns ∨ channel ≥ 64 then s
    else if level then modLantern l (fun x => { x with trained := x.trained.filter (· ≠ channel) }) s
    else
      let s := modLantern l (fun x => { x with trained := x.trained.filter (· ≠ channel) ++ [channel] }) s
      if (lanternAt s l).trained.length = 64 ∧ ¬ (snuffAt s l).cleared then modLantern l (fun x => { x with ready := true }) s else s
  | .capacity c => if c ≥ s.build.caps then s else modCap c (fun x => { x with trained := !level }) s

/-- CHANNEL_TRAINING (R517). -/
def execChannelTraining (u : MemUnit) (channel : Nat) (level : Bool) (s : State) : Host.Outcome State Fault Refusal :=
  whenServing (channelTrained u channel level) s

end Sys2Proof.Machine
end

