-- ==== Sys2Proof/Machine/Boot.lean ====
section
/-! DEFINITION. The boot after a power-on and in a block reset (R319 to R321): the boot ROM's stages, Stolaikor's stages up to pairing,
and those after it. -/
namespace Sys2Proof.Machine

/-! ## Stages 0x01 to 0x05: the boot ROM -/

/-- Whether the boot under way follows a power-on. -/
def coldBoot (s : State) : Bool := !s.faults.inBlockReset

/-- A stage begins. -/
def toStage (n : Nat) (s : State) : State := onLl (fun l => { l with stage := n }) s

/-- Stage 0x02: the vote of R438, the copies that differ, the transition that is open, whether the UDS is withheld. -/
def bootLifecycle (s : State) : State :=
  let st := voteCode (otpRow s 0) (otpRow s 1) (otpRow s 2)
  let differs (c : Nat) : Nat := b2n (decide (st = 0xFF ∨ otpRow s c ≠ lcCode st))
  let s := onTrust (fun t => { t with shadow := [st, st, st] }) (toStage 2 s)
  noteIntent (onLc (fun l => { l with mismatch := BitVec.ofNat 3 (differs 0 + 2 * differs 1 + 4 * differs 2)
                                      udsWithheld := decide (st ≠ 1 ∧ st ≠ 2) }) s)

/-- Candidates of stage 0x03 with their slots: trial, preferred, other; only a slot marked VALID is one. -/
def bootCandidates (s : State) : List Nat :=
  let p := bootPreferred s % 2
  let all := (if bootTrial s = 1 then [0] else if bootTrial s = 2 then [1] else []) ++ [p, 1 - p]
  all.filter (fun k => slotStateOf s k == 1)

/-- The accepted image: its slot, whether it is a trial, whether an earlier candidate was rejected (R318, R319, R349). -/
def bootChoice (s : State) : Option (Nat × Bool × Bool) :=
  let cs := bootCandidates s
  match cs.find? (imageOk s) with
  | none => none
  | some k => some (k, bootTrial s = k + 1, cs.head? ≠ some k)

/-- The trial mark is cleared (R349). -/
def clearTrial (s : State) : State := if bootTrial s = 0 then s else rewriteBoot (fun b => put b 2 [0#8]) s

/-- The trial image that the block reset found uncommitted leaves the other preferred (R349). -/
def dropTrial (s : State) : State :=
  if ¬ s.ll.trial ∨ bootPreferred s = 1 - s.ll.image then s else rewriteBoot (fun b => put b 1 (le 1 (1 - s.ll.image))) s

/-- The UDS as the boot ROM has it (R434): zeros in Test, the fused one in Production; none where it is withheld. -/
def bootUds (s : State) : Option Bytes :=
  if s.lc.udsWithheld then none
  else if shadowState s = 1 then some (zeros 32) else if shadowState s = 2 then some (otpBytes s 6 8) else none

/-- A P-384 private key from 56 B of key material by extra random bits (R231). -/
def scalarOf (b : Bytes) : Nat := beNat b % (p384N - 1) + 1

/-- What an Alias certificate says, in one string: the key, the digest, the SVN, the life-cycle code, the open debug categories. -/
def AliasCert.contents (c : AliasCert) : Bytes := c.pub ++ c.digest ++ le 4 c.svn ++ le 1 c.lc ++ [c.debug]

/-- The Alias certificate under a DeviceID key (R229 step 5). -/
def aliasCertOf (dev : Nat) (pub digest : Bytes) (svn lc : Nat) (mask : Byte) : AliasCert :=
  let c : AliasCert := ⟨pub, digest, svn, lc, mask, []⟩
  let tbs := Sys2Proof.Config.certTbs c.contents
  { c with sig := ecdsaSign dev (scalarOf ((List.range 56).map (Sys2Proof.Config.certNonce tbs))) (sha384 tbs) }

/-- The keys of the chain below a UDS, with the digest of the image and the open debug categories (R231). -/
def diceKeys (uds digest : Bytes) (mask : Byte) (s : State) : State :=
  let cdi0 := hkdf (romBytes 0 48) uds (ascii "EONAL-CDI-0") 48
  let cdi1 := hkdf (digest ++ le 4 s.ll.svn ++ le 1 (shadowState s) ++ [mask]) cdi0 (ascii "EONAL-CDI-1") 48
  let dev := scalarOf (hkdf [] cdi0 (ascii "EONAL-DEVID-1") 56)
  let priv := scalarOf (hkdf [] cdi1 (ascii "EONAL-ALIAS-1") 56)
  let seed := if s.build.mldsa then hkdf [] cdi1 (ascii "EONAL-ALIAS-PQ-1") 32 else []
  onLl (fun l => { l with cdi1 := cdi1, deviceIdPub := publicKey dev, recordKey := hkdf [] cdi0 (ascii "EONAL-RECORD-1") 32
                          aliasPriv := priv, aliasPub := publicKey priv, aliasPqSeed := seed
                          aliasPqPub := if s.build.mldsa then (List.range 1952).map (Sys2Proof.Config.mldsaPub seed) else []
                          aliasCert := some (aliasCertOf dev (publicKey priv) digest s.ll.svn (shadowState s) mask) }) s

/-- The image that runs and its DICE chain, none where the UDS is withheld (R229, R231). -/
def diceChain (slot : Nat) (mask : Byte) (s : State) : State :=
  let h := imageHeader s slot
  let digest := sha384 (h ++ imageBody s slot)
  let s := onLl (fun l => { l with image := slot, imageDigest := digest, svn := fld h 4 4, relMajor := fld h 16 2, relMinor := fld h 18 2
                                   relPatch := fld h 20 4, protoMax := fld h 26 1 }) s
  match bootUds s with
  | none => onLl (fun l => { l with cdi1 := [], deviceIdPub := [], recordKey := [], aliasPriv := 0, aliasPub := [],
                                     aliasPqSeed := [], aliasPqPub := [], aliasCert := none }) s
  | some uds => diceKeys uds digest mask s

/-- Stage 0x05: the debug mask opens (R447, R448), the DICE chain is derived (R229, R231). -/
def bootDice (slot : Nat) (s : State) : State :=
  let old := s.trust.debugNow
  let new := s.trust.pendingMask
  let s := if ¬ coldBoot s ∧ shadowState s = 2 ∧ (old ^^^ new) &&& 0x17#8 ≠ 0 then keepFuses wipeKeys s else s
  diceChain slot new (onTrust (fun t => { t with debugNow := new, debugEver := t.debugEver ||| new }) (toStage 5 s))

/-! ## Stages 0x10 to 0x12: Stolaikor up to pairing -/

/-- Stage 0x10: vigil is armed with a seed (R322). -/
def bootFwStart (s : State) : State :=
  let v := unstatedBytes 4 s
  let s := drawn 4 (toStage 0x10 s)
  onTrust (fun t => { t with vigilArmed := true, vigilValue := BitVec.ofNat 32 (leNat v), vigilLast := now s, vigilKicks := 0, vigilMaxUs := 0 }) s

/-- A copy of the code that lacks bits of it and holds none outside it receives them (R438). -/
def completeCode (s : State) : State :=
  let code := lcCode (shadowState s)
  if shadowState s ≠ 1 ∧ shadowState s ≠ 2 then s else
  (List.range 3).foldl (fun s c => if otpRow s c ||| code = code then burnRow c code s else s) s

/-- Whether stage 0x11 would burn a row or write flash: a transition to resume, a code copy to complete. -/
def burnsPending (s : State) : Bool :=
  s.lc.intent ≠ 0 || ((shadowState s == 1 || shadowState s == 2) && s.lc.mismatch ≠ 0)

/-- The root secret (R230): drawn where none is valid, unless access is End of life's. -/
def bootRoot (s : State) : State :=
  if s.trust.rootValid then (if coldBoot s then onTrust (fun t => { t with rootFresh := false }) s else s)
  else if lcState s = 3 then s
  else
    let (b, s) := drbg 32 s
    onTrust (fun t => { t with rootSecret := b, rootValid := true, rootFresh := true }) s

/-- An internal key of Stolaikor's own, drawn where the slot is empty. -/
def drawIfEmpty (k : Nat) (s : State) : State := if (slotAt s k).state = .empty then drawInternal k s else s

/-- The firmware key (R231), drawn where the slot is empty. -/
def drawFirmware (s : State) : State :=
  if (slotAt s 0).state ≠ .empty then s else
  let (b, s) := drbg 32 s
  putSlot 0 { key := b, cls := .firmware, state := .active, owner := 17, engines := 3#8, uses := uncounted } s

/-- The sealed state at power-on: the management secret and the lock-out count (R237, R258, R509). -/
def restoreSealed (s : State) : State :=
  match readSealed s with
  | none => s
  | some b =>
    let s := onLl (fun l => { l with mgmtFails := fld b 1 4 }) s
    if fld b 0 1 = 0 then s
    else putSlot 1031 { key := sub b 12 32, cls := .management, state := .active, owner := 17, engines := 16#8, flags := b.getD 11 0, uses := fld b 5 6 } s

/-- The digest seeds of the partitions: drawn anew with EXPIRE_AT_RESET or where empty (R237). -/
def bootSeeds (s : State) : State :=
  (List.range 16).foldl (fun s p =>
    let v := slotAt s (1032 + p)
    if partExists s p ∧ (v.state = .empty ∨ v.flags.toNat.testBit 0) then drawSeed p v.flags s else s) s

/-- The key slots of a boot (R231, R237, R439). -/
def bootKeys (s : State) : State :=
  if shadowState s = 0xFF then s else
  let cold := coldBoot s
  let s := drawIfEmpty 1026 (drawFirmware s)
  let s := bootSeeds (drawInternal 1025 (drawInternal 1024 s))
  let s := if cold then restoreSealed s else s
  let (b, s) := drbg 56 s
  onLl (fun l => { l with importPriv := scalarOf b, importPub := publicKey (scalarOf b) }) s

/-- Stage 0x12: each half draws its key pair and nonce and sends them (R17). -/
def startPairing (s : State) : State :=
  let (b, s) := drbg 72 (toStage 0x12 s)
  let e := entropyBytes 72 s
  let s := drawn 72 s
  let wk := scalarOf (b.take 56)
  let ek := scalarOf (e.take 56)
  let s := onSeam (fun x => { x with westPriv := wk, westPub := publicKey wk, westNonce := b.drop 56
                                     eastPriv := ek, eastPub := publicKey ek, eastNonce := e.drop 56 }) s
  let s := seamSend true 1 (.words 0 (wordsOf (s.seam.westPub ++ s.seam.westNonce))) s
  seamSend false 1 (.words 0 (wordsOf (s.seam.eastPub ++ s.seam.eastNonce))) s

/-- A failed health test of stage 0x11 (R232, R319): the DRBG does not run, the fault hub records it, the boot ends HALTED. -/
def entropyFails (s : State) : State :=
  haltBoot 3 stEntropyFail (keepFuses (simpleFault clsEntropy kindLamplighter 0) (onLl (fun l => { l with drbgRunning := false }) s))

/-- Stage 0x11. A power event holds it where it would burn or write flash (R499); an open transition runs from here, and the boot goes
no further (R443). -/
def bootEntropy (inp : BootIn) (s : State) : State :=
  let s := toStage 0x11 s
  if ¬ inp.healthOk then entropyFails s
  else if s.trust.dusk ∧ burnsPending s then onLl (fun l => { l with boot := some inp }) s
  else
    let s := completeCode (onLl (fun l => { l with drbgRunning := true, drbgRequests := 0 }) s)
    if s.lc.intent ≠ 0 then
      lcAdvance (onLc (fun l => { l with ops := lcSteps l.intent l.debugHash, opOn := false }) (onLl (fun l => { l with boot := none }) s))
    else
      let s := keepFuses (fun s => bootKeys (bootRoot s)) s
      let s := if inp.slotKatOk then s
        else keepFuses (recordFault { cls := clsKeyStoreIntegrity, kind := kindKeyStore, inst := 0, status := stKeySlotBad }) s
      keepFuses startPairing (onLl (fun l => { l with boot := some inp }) s)

/-- Stages 0x04 to 0x11 with an image chosen. -/
def bootImage (inp : BootIn) (s : State) : State :=
  let s := onLl (fun l => { l with fallback := l.trial, trial := false }) (dropTrial s)
  match bootChoice s with
  | none => haltBoot 2 stOk (toStage 4 s)
  | some (slot, trial, fell) =>
    let s := clearTrial s
    let s := onLl (fun l => { l with trial := trial, fallback := (l.fallback && !trial) || fell }) s
    bootEntropy inp (bootFwStart (bootDice slot s))

/-- Stage 0x03. Where the boot record is to be rewritten a power event holds it (R499). -/
def bootSelect (inp : BootIn) (s : State) : State :=
  let s := toStage 3 s
  if ¬ inp.flashOk then haltBoot 2 stOk s
  else if s.trust.dusk ∧ (bootTrial s ≠ 0 ∨ s.ll.trial) then onLl (fun l => { l with boot := some inp }) s
  else bootImage inp s

/-- The boot begins (R319). -/
def bootFrom (inp : BootIn) (s : State) : State :=
  let s := onLl (fun l => { l with stage := 1, reason := 0, code := 0, ready := false, halted := false, capRefused := 0, boot := none }) s
  if ¬ inp.selfTest then haltBoot 1 stOk s
  else
    let s := toStage 2 s
    if ¬ inp.otpOk then haltBoot 1 stOk s else bootSelect inp (bootLifecycle s)

/-- A boot that a power event held goes on (R499). -/
def resumeBoot (s : State) : State :=
  match s.ll.boot with
  | none => s
  | some inp => if s.ll.stage = 3 then bootImage inp s else if s.ll.stage = 0x11 then bootEntropy inp s else s

/-! ## Stages 0x13 to 0x1F: after pairing -/

/-- Build parameters as East reports them (R1, R3). -/
def buildList (b : Build) : List Nat := [b.lanterns, b.wicks, b.spares, b.links, b.caps, b.parts, b2n b.mldsa, b.capMin, b.capMax]

/-- Block version 1.0.0. -/
def blockVersion : Nat := 0x01000000

/-- Stage 0x14: a record that fails under the record key is ignored and the manager hears of it, one event for each; the sound ones give
the lanterns their tables; failed wicks of the self-test are marked (R73, R139, R320). -/
def bootRecords (inp : BootIn) (s : State) : State :=
  let s := toStage 0x14 s
  let bad := (allEntries s).filter (fun b => !recordSound s b)
  let s := loadRecords (List.range s.build.lanterns) s
  let s := bad.foldl (fun s _ => postOpenEvent 16 evRecordRejected s) s
  syncRecords (keepFuses (fun s => inp.failedWicks.foldl (fun s w => markWick w.1 w.2 s) s) s)

/-- Where a port's region-control header stands (R48). -/
def headerKey (c : Nat) : Nat := capKey c 0x3FC0000000

/-- Stage 0x15 after a power-on: the header; the metadata of memory that kept nothing is zero (R50). -/
def formatCap (c : Nat) (s : State) : State :=
  onMem (fun m => { m with capacity := twrites 0 (tclear m.capacity (metaAddr 0 + capKey c 0) (headerKey c)) (headerKey c) ([1#8] ++ le 1 c ++ zeros 62) }) s

/-- Stage 0x15 in a block reset: a port whose header names another FORMAT is refused (R49). -/
def checkCap (c : Nat) (s : State) : State :=
  if tget 0 s.mem.capacity (headerKey c) = 1 then s
  else onLl (fun l => { l with capRefused := l.capRefused ||| BitVec.ofNat 8 (2 ^ c), reason := 6, code := stVersion })
    (modCap c (fun x => { x with refused := true }) s)

/-- Stage 0x15. -/
def bootCapacity (s : State) : State :=
  let s := toStage 0x15 s
  (List.range s.build.caps).foldl (fun s c => if coldBoot s then formatCap c s else checkCap c s) s

/-- After a block reset the sessions of the PEER ports that run are renewed (R217). -/
def renewSessions (s : State) : State :=
  if coldBoot s then s else
  (List.range s.build.links).foldl (fun s p => if roleOf s p = 0 ∧ (linkAt s p).state = .up then beginRenewal p s else s) s

/-- Stage 0x1F: the mailboxes are served, the zeroise-all signal falls (R517), the reset is over. -/
def bootReady (s : State) : State :=
  let s := renewSessions s
  let vigil := bits s.faults.lastReset.toNat 63 56 = 3
  let s := onLl (fun l => { l with stage := 0x1F, ready := true, boot := none
                                   reason := if l.reason = 0 ∧ vigil ∧ s.faults.inBlockReset then 7 else l.reason }) s
  let s := onFaults (fun f => { f with inBlockReset := false }) (onIde (fun i => { i with zeroiseAll := false }) s)
  settle {} (seamFlush s)

/-- The debug categories that are open (R434, R447, R448, R515): NOW in Production; in every other state all of them, once the boot has
decided it. -/
def openCategories (s : State) : Byte :=
  if lcState s ≠ 2 ∧ s.ll.stage ≥ 5 ∧ s.ll.reason ≠ 1 then 0x1F else s.trust.debugNow

/-- The boot goes on once the seam is paired. East learns the open debug categories (R515). -/
def continueBoot (s : State) : State :=
  match s.ll.boot with
  | none => s
  | some inp =>
    if s.ll.stage ≠ 0x12 ∨ ¬ s.seam.paired then s else
    let s := onJtag (fun d => { d with eastNow := openCategories s }) (toStage 0x13 s)
    if inp.eastVersion ≠ blockVersion ∨ inp.eastBuild ≠ buildList s.build then haltBoot 5 stVersion s
    else bootReady (toStage 0x17 (bootCapacity (bootRecords inp (onLl (fun l => { l with paired := true }) s))))

/-- SEAM_SESSION (R17). -/
def execSeamSession (m : SeamMsg) (s : State) : Host.Outcome State Fault Refusal :=
  whenFused (fun s => continueBoot (seamTake 1 m (takeSession m) s)) s

end Sys2Proof.Machine
end

