-- ==== Sys2Proof/Machine/Regulation.lean ====
section
/-! DEFINITION. Regulation: derated bandwidth and its factors (R351 to R363), the outstanding windows (R360, R361) and
the power cap (R364 to R366), with the commands of their periods. -/
namespace Sys2Proof.Machine

/-! ## Resources (R351, R370) -/

/-- RESOURCE of R363 of an index of R370: 0 lantern, 1 capacity port, 2 link port. -/
def resKind (r : Nat) : Nat := if r < 16 then 0 else if r < 40 then 2 else 1

/-- The lantern or port of an index of R370. -/
def resIndex (r : Nat) : Nat := if r < 16 then r else if r < 40 then r - 16 else r - 40

/-- The index of R370 of a kind's instance. -/
def resOf (kind i : Nat) : Nat := if kind = 0 then i else if kind = 2 then 16 + i else 40 + i

/-- How many resources of a kind the build has. -/
def resCount (s : State) (kind : Nat) : Nat :=
  if kind = 0 then s.build.lanterns else if kind = 2 then s.build.links else s.build.caps

/-- Whether the build has the resource. -/
def resExists (s : State) (r : Nat) : Bool := r < 48 && resIndex r < resCount s (resKind r)

/-- Planned derating in 0.1 % (RG_PLAN). -/
def planOf (s : State) (kind : Nat) : Nat :=
  let p := s.reg.plan.toNat
  if kind = 0 then bits p 9 0 else if kind = 2 then bits p 29 20 else bits p 19 10

/-- Nominal bandwidth in MB/s. -/
def nominalMb (kind : Nat) : Nat := if kind = 0 then 4096000 else if kind = 2 then 128000 else 273000

/-- Cycles of 100 µs over the resource's channels (R351). -/
def fullCycles (kind : Nat) : Nat := if kind = 0 then 64 * 200000 else if kind = 2 then 125000 else 100000

/-- Ready cycles reported for a resource, each channel's held at the cycles there are. -/
def readyCycles (a : AvailIn) (r : Nat) : Nat :=
  let i := resIndex r
  if resKind r = 0 then (((a.lanterns.getD i []).take 64).map (fun x => min x 200000)).foldl (· + ·) 0
  else if resKind r = 2 then min (a.links.getD i 0) 125000
  else min (a.capacity.getD i 0) 100000

/-- Whether a resource is measured by the West regulator (R8). -/
def resWest (s : State) (r : Nat) : Bool :=
  if resKind r = 0 then lanternWest s (resIndex r) else if resKind r = 2 then linkWest s (resIndex r) else capWest s (resIndex r)

/-- Whether a resource is in reset: its snuff has begun and is not released, or it is a lantern whose stack retrains. -/
def resInReset (s : State) (r : Nat) : Bool :=
  let i := resIndex r
  if resKind r = 0 then !(lanternAt s i).ready || (snuffAt s i).fencedW || (snuffAt s i).fencedE
  else if resKind r = 2 then portFenced s i
  else false

/-! ## Reservations (R353, R354) -/

/-- An owner's share of a kind of resource, in units. -/
def bwShare (s : State) (p kind : Nat) : Nat :=
  if partExists s p then pdef s p (if kind = 0 then 26 else if kind = 2 then 30 else 28) 2 else 0

/-- The sum of a 16-entry byte table of an owner's definition over the build's lanterns. -/
def wickSum (s : State) (p off : Nat) : Nat := ((List.range s.build.lanterns).map (fun l => pdef s p (off + l) 1)).foldl (· + ·) 0

/-- The real-time part of an owner's share of a resource, in units (R354); the manager's whole share is RESERVED (R353). -/
def rtUnits (s : State) (p r : Nat) : Nat :=
  let kind := resKind r
  let w := if kind = 0 then pdef s p (64 + resIndex r) 1 else wickSum s p 64
  let rt := if kind = 0 then pdef s p (80 + resIndex r) 1 else wickSum s p 80
  if p = 16 ∨ w = 0 then 0 else bwShare s p kind * rt / w

/-- The REALTIME units of a resource over all owners. -/
def rtSum (s : State) (r : Nat) : Nat := ((owners s).map (fun p => rtUnits s p r)).foldl (· + ·) 0

/-- The RESERVED units of a resource over all owners. -/
def normalSum (s : State) (r : Nat) : Nat :=
  ((owners s).map (fun p => bwShare s p (resKind r) - rtUnits s p r)).foldl (· + ·) 0

/-- Bandwidth of units and of ready cycles on one scale: a unit is nominal × plan ÷ 10^6, M nominal × ready ÷ full. -/
def unitScale (s : State) (kind : Nat) : Nat := planOf s kind * fullCycles kind

/-- The factors of R362 for M, I, RT and N on one scale, rounded down to 1/1024; a reservation is never raised above
what was reserved. F_NORMAL first. -/
def factorsOf (m i rt n : Nat) : Nat × Nat :=
  if m ≥ i + rt then (if n = 0 then 1024 else min 1024 (1024 * (m - i - rt) / n), 1024)
  else (0, min 1024 (1024 * (m - i) / rt))

/-! ## Evaluation (R352, R362, R363) -/

/-- ARG of a DERATED event. -/
def deratedArg (kind index state fn frt avail : Nat) : Bytes :=
  le 1 kind ++ le 1 index ++ le 1 state ++ zeros 1 ++ le 2 fn ++ le 2 frt ++ le 2 avail ++ zeros 6

/-- A DERATED event of a resource to the manager and the partitions that hold a share, unless one went out within 1 ms. -/
def deratedEvent (r state : Nat) (s : State) : State :=
  let x := resourceAt s r
  let kind := resKind r
  match x.lastEvent with
  | some t =>
    if clock s (resWest s r) < t + 1000000 then s else
    (owners s).foldl (fun s p => if p = 16 ∨ bwShare s p kind > 0 then
      postEvent p evDerated (deratedArg kind (resIndex r) state x.fNormal x.fRt x.avail) s else s)
      (modResource r (fun x => { x with lastEvent := some (clock s (resWest s r)) }) s)
  | none =>
    (owners s).foldl (fun s p => if p = 16 ∨ bwShare s p kind > 0 then
      postEvent p evDerated (deratedArg kind (resIndex r) state x.fNormal x.fRt x.avail) s else s)
      (modResource r (fun x => { x with lastEvent := some (clock s (resWest s r)) }) s)

/-- A REGULATE record of a resource and STATE (R410): at each evaluation in DERATED, and as it is left. -/
def traceRegulate (r state : Nat) (s : State) : State :=
  let x := resourceAt s r
  traceEmit { type := 8, kind := kindRegulator, part := 0xFF
              arg := le 1 (resKind r) ++ le 1 (resIndex r) ++ le 1 state ++ zeros 1 ++ le 2 x.fNormal ++ le 2 x.fRt ++ le 2 x.avail ++ le 2 s.reg.throttle } s

/-- A resource with measured ready cycles is evaluated. -/
def evaluateReady (r ready : Nat) (s : State) : State :=
  let kind := resKind r
  let full := fullCycles kind
  let u := unitScale s kind
  let m := ready * 1000000
  let i := 10 * u
  let rt := rtSum s r * u
  let n := normalSum s r * u
  let x := resourceAt s r
  let low : Bool := m < i + rt + n
  let derated := x.derated || low
  let f := if derated then factorsOf m i rt n else (1024, 1024)
  let high : Bool := 100 * m ≥ 102 * (i + rt + n)
  let y : Resource := { x with avail := ready * 1000 / full, measured := ready, inReset := false, derated := derated, bgShed := derated
                               fNormal := f.1, fRt := f.2
                               since := if derated && high then some (x.since.getD (clock s (resWest s r))) else none }
  let s := if derated then traceRegulate r 1 (setResource r y s) else setResource r y s
  if low && !x.derated then deratedEvent r 1 s else s

/-- A resource is evaluated; in reset it has no measured value. -/
def evaluate (a : AvailIn) (r : Nat) (s : State) : State :=
  if ¬ resExists s r then s
  else if resInReset s r then modResource r (fun x => { x with inReset := true, measured := 0, avail := 0, since := none }) s
  else evaluateReady r (readyCycles a r) s

/-- REGULATOR_EVALUATION: every 10 µs (R352). -/
def execRegulatorEvaluation (a : AvailIn) (s : State) : Host.Outcome State Fault Refusal :=
  whenServing (fun s =>
    if now s < s.reg.lastEval + 10000 then s else
    (List.range 48).foldl (fun s r => evaluate a r s) (onReg (fun g => { g with lastEval := now s }) s)) s

/-- DERATED_EXIT: M has stood at or above 1.02 × the reservations for 1 ms (R363). -/
def execDeratedExit (r : Nat) (s : State) : Host.Outcome State Fault Refusal :=
  whenServing (fun s =>
    let x := resourceAt s r
    match x.since with
    | some t =>
      if x.derated ∧ ¬ x.inReset ∧ clock s (resWest s r) ≥ t + 1000000 then
        deratedEvent r 0 (traceRegulate r 0
          (setResource r { x with derated := false, bgShed := false, fNormal := 1024, fRt := 1024, since := none } s))
      else s
    | none => s) s

/-! ## What a query reads (R361, R369) -/

/-- The effective reservation of an owner on a resource in 1/1024 units of share (R362), 0 while the resource is in reset. -/
def effective1024 (s : State) (p r : Nat) : Nat :=
  let x := resourceAt s r
  let rt := rtUnits s p r
  if x.inReset then 0 else rt * x.fRt + (bwShare s p (resKind r) - rt) * x.fNormal

/-- The effective reservation in MB/s, rounded down. -/
def effectiveMbps (s : State) (p r : Nat) : Nat :=
  effective1024 s p r * nominalMb (resKind r) * planOf s (resKind r) / (1024 * 1000000)

/-- C_p of R361; 0 for link ports. -/
def guaranteed (s : State) (p r : Nat) : Nat :=
  let w := if resKind r = 0 then (lanternAt s (resIndex r)).window else (capAt s (resIndex r)).window
  if resKind r = 2 then 0 else max 16 (w * effective1024 s p r / (1024 * 1000))

/-! ## Windows (R360) -/

/-- W after a step: fill levels summing to `sum` over `n` channels, requests waited, floor, ceiling and step. -/
def nextWindow (w sum n : Nat) (waited : Bool) (lo hi step : Nat) : Nat :=
  if sum ≥ 12 * n then max lo (w - w / 8) else if sum < 8 * n ∧ waited then min hi (w + step) else w

/-- WINDOW_ADJUST: a lantern or a capacity engine takes the mean fill level and adjusts W (R360). -/
def execWindowAdjust (u : MemUnit) (levels : List Nat) (waited : Bool) (s : State) : Host.Outcome State Fault Refusal :=
  whenServing (fun s =>
    let sum := (levels.map (fun x => min x 15)).foldl (· + ·) 0
    let n := levels.length
    if n = 0 then s else
    match u with
    | .lantern l =>
      if l ≥ s.build.lanterns then s else
      modLantern l (fun x => { x with window := nextWindow x.window sum n waited 1024 8192 64, qlevel := sum / n }) s
    | .capacity c =>
      if c ≥ s.build.caps then s else
      modCap c (fun x => { x with window := nextWindow x.window sum n waited 64 1024 8, qlevel := sum / n }) s) s

/-! ## Power cap (R364 to R366) -/

/-- A setting goes to East's units in a MAILBOX message (R21); the block's one copy is both halves'. -/
def sendSetting (id value : Nat) (s : State) : State := seamSend true 7 (.mailbox (.setting id value)) s

/-- round(128 × (cap − p) ÷ cap) with p = sum ÷ n; which way a half rounds is open: a free bit decides. -/
def capStep (cap sum n : Nat) (up : Bool) : Int :=
  let num : Int := 256 * ((cap * n : Nat) - (sum : Int)) + (cap * n : Nat)
  let den : Int := 2 * (cap * n : Nat)
  let q := num / den
  if num % den = 0 ∧ ¬ up then q - 1 else q

/-- A signed number held between two bounds. -/
def clampInt (lo hi v : Int) : Int := max lo (min hi v)

/-- A DERATED event of the power cap, to the manager; the factor fields, which have no meaning there, are free. -/
def powerEvent (state : Nat) (s : State) : State :=
  let a := unstatedBytes 4 s
  let b := le 1 3 ++ le 1 0 ++ le 1 state ++ zeros 1 ++ a ++ le 2 s.reg.throttle
  postEvent 16 evDerated (b ++ zeros 6) (traceEmit { type := 8, kind := kindRegulator, part := 0xFF, arg := b ++ le 2 s.reg.throttle } (drawn 4 s))

/-- R366: the cap is unmet once T has stood at 8 with P above the cap for 10 ms, until P falls to the cap or below. -/
def watchCap (sum n : Nat) (s : State) : State :=
  let g := s.reg
  let above : Bool := g.cap ≠ 0 && sum > g.cap * n
  let at8 := above && g.throttle == 8
  let s := onReg (fun g => { g with overSince := if at8 then some (g.overSince.getD (now s)) else none }) s
  if g.unmetNow then
    if above then s else powerEvent 0 (onReg (fun g => { g with unmetNow := false }) s)
  else
    match s.reg.overSince with
    | some t => if now s ≥ t + 10000000 then powerEvent 2 (onReg (fun g => { g with unmetNow := true, unmet := true }) s) else s
    | none => s

/-- The last ten estimates with the newest. -/
def estimatesWith (s : State) (estimate : Nat) : List Nat := (s.reg.estimates ++ [estimate]).drop ((s.reg.estimates.length + 1) - 10)

/-- T after a step: 8 in a power event (R498), 64 without a cap, otherwise moved toward it by at most 8 (R365). -/
def nextThrottle (s : State) (estimate : Nat) : Nat :=
  let es := estimatesWith s estimate
  let up := ((unstatedBytes 1 s).headD 0).getLsbD 0
  if s.trust.dusk then 8 else if s.reg.cap = 0 then 64 else
    (clampInt 8 64 ((s.reg.throttle : Int) + clampInt (-8) 8 (capStep s.reg.cap (es.foldl (· + ·) 0) es.length up))).toNat

/-- The step taken: estimates, their mean and T; the bit that decides a half has been drawn. -/
def throttleSet (estimate : Nat) (s : State) : State :=
  let es := estimatesWith s estimate
  let t := nextThrottle s estimate
  onReg (fun g => { g with estimates := es, pEst := es.foldl (· + ·) 0 / es.length, throttle := t, lastPower := now s }) (drawn 1 s)

/-- A new T goes to East. -/
def tellThrottle (old : Nat) (s : State) : State := if s.reg.throttle = old then s else sendSetting 0 s.reg.throttle s

/-- One step of the cap, with the newest estimate (R365). -/
def capStepped (estimate : Nat) (s : State) : State :=
  let es := estimatesWith s estimate
  watchCap (es.foldl (· + ·) 0) es.length (tellThrottle s.reg.throttle (throttleSet estimate s))

/-- POWER_CAP_STEP: every 100 µs (R365). -/
def execPowerCapStep (estimate : Nat) (s : State) : Host.Outcome State Fault Refusal :=
  whenServing (fun s => if now s < s.reg.lastPower + 100000 then s else capStepped estimate s) s

end Sys2Proof.Machine
end

