-- ==== Sys2Proof/Machine/Power.lean ====
section
/-! DEFINITION. Power (R489 to R499, R517), tamper (R240, R493, R494), the Terminal state (R380), the Lamplighter's own faults (R316,
R322, R232), the scrubs (R235), the checks of the life-cycle code (R440), the bus release of the flash (R510). -/
namespace Sys2Proof.Machine

/-! ## PWR_OK (R490 to R492, R517) -/

/-- The trust island after the core's power has gone: what R448 ties to core power is clear, the pins of the core side read 0. -/
def Trust.unpowered (t : Trust) : Trust :=
  { t with pwrOk := false, isolated := true, safe := false, dawn := false, dusk := false, debugNow := 0, debugEver := 0, shadow := [0, 0, 0]
           vigilArmed := false, vigilValue := 0, vigilLast := 0, vigilKicks := 0, vigilMaxUs := 0 }

/-- The core without power: the trust island, the fuses and the flash keep what they hold. -/
def coreLost (s : State) : State :=
  { State.reset with
    pending := s.pending
    free := s.free
    build := s.build
    trust := s.trust.unpowered
    lc := { otp := s.lc.otp, debugHash := s.lc.debugHash }
    flash := { bytes := s.flash.bytes }
    out := s.out }

/-- PWR_OK falls; before the safe point the trust island marks it (R491, R499). -/
def powerFall (s : State) : State :=
  if ¬ s.trust.pwrOk then s
  else coreLost (onTrust (fun t => { t with unsafeLast := t.unsafeLast || !t.safe }) s)

/-- PWR_OK_FALL (R490). -/
def execPwrOkFall (s : State) : Host.Outcome State Fault Refusal := step1 powerFall s

/-- A wrong canary (R492, R494): the battery-backed values are lost, VBAT_LOST is latched. -/
def vbatLost (s : State) : State :=
  onTrust (fun t => { t with rootSecret := [], rootValid := false, rootFresh := false, tamperEn := 0x3F00#16, cause := 0x2000#16, count := 0
                             tamperTime := 0, rtc := 0, rtcPhase := 0, duskCount := 0, unsafeLast := false, sealedGen := 0, pendingMask := 0
                             debugNow := 0, debugEver := 0, domainId := [], highestEpoch := 0, epochFloor := 0 }) s

/-- PWR_OK rises: canary, isolation, the Link domain's reset with its time at 0, the boot (R492, R501, R517). -/
def powerOn (vbatKept : Bool) (inp : BootIn) (s : State) : State :=
  if s.trust.pwrOk then s else
  let s := if vbatKept then s else vbatLost s
  let s := onTrust (fun t => { t with pwrOk := true, isolated := false, dawn := true, epochFloor := t.highestEpoch }) (coreLost s)
  let s := if vbatKept then s else keepFuses (simpleFault clsVbatLost kindTrust 0) s
  bootFrom inp s

/-- POWER_ON (R517). -/
def execPowerOn (vbatKept : Bool) (inp : BootIn) (s : State) : Host.Outcome State Fault Refusal := step1 (powerOn vbatKept inp) s

/-! ## Power events (R497 to R499) -/

/-- The safe point: metadata written back and no row under way (R498). -/
def reachSafe (s : State) : State :=
  if s.trust.dusk ∧ ¬ s.lc.opOn then onTrust (fun t => { t with safe := true }) s else s

/-- Every capacity engine writes its metadata back and then writes through. -/
def writeThrough (s : State) : State :=
  (List.range s.build.caps).foldl (fun s c => modCap c (fun x => { x with through := true }) (flushMeta c s)) s

/-- Every capacity engine caches metadata again. -/
def writeCached (s : State) : State := (List.range s.build.caps).foldl (fun s c => modCap c (fun x => { x with through := false }) s) s

/-- A power event begins (R498). Dispatch, burns and flash commands are held by the units that read `dusk`. -/
def duskFalls (s : State) : State :=
  if ¬ s.trust.pwrOk ∨ s.trust.dusk then s else
  let s := onTrust (fun t => { t with dusk := true, dawn := false, duskCount := satTo 16 (t.duskCount + 1) }) s
  if s.faults.terminal then s else
  reachSafe (writeThrough (sendSetting 0 8 (onReg (fun g => { g with throttle := 8 }) s)))

/-- DUSK (R498). -/
def execDusk (s : State) : Host.Outcome State Fault Refusal := step1 (inCore duskFalls) s

/-- A power event ends with PWR_OK high (R499). -/
def duskEnds (s : State) : State :=
  if ¬ s.trust.pwrOk ∨ ¬ s.trust.dusk then s else
  let s := onTrust (fun t => { t with dusk := false, dawn := true, safe := false }) s
  if s.faults.terminal then s else
  settle {} (resumeBoot (lcAdvance (keepFuses writeCached s)))

/-- POWER_EVENT_END (R499). -/
def execPowerEventEnd (s : State) : Host.Outcome State Fault Refusal := step1 duskEnds s

/-! ## The Terminal state (R240, R380) -/

/-- The Terminal state: keys, mirror, seam keys, the Lamplighter's private memory and the replay tables are zero, the zeroise-all signal
is driven, the Lamplighter is halted; every effect that asks for a running block stops with `terminal`. -/
def enterTerminal (s : State) : State :=
  if s.faults.terminal then s else
  let s := zeroiseKeys s
  let s := onFabric (fun f => { f with west := { f.west with replay := [] }, east := { f.east with replay := [] } }) s
  let s := onLl (fun l => { l with cdi1 := [], recordKey := [], aliasPriv := 0, aliasPqSeed := [], importPriv := 0, mgmtKey := [], mgmtActive := false, mgmtNonce := []
                                   mgmtNonceOn := false, spdmBuffer := [], spdmReply := [], heldReport := [], halted := true }) s
  let s := onSeam (fun x => { x with sessionKey := [], eastKey := [], westPriv := 0, eastPriv := 0, zero := true }) s
  onFaults (fun f => { f with terminal := true, terminalDue := false }) (onIde (fun _ => {}) s)

/-- TERMINAL_FAULT (R380). -/
def execTerminalFault (s : State) : Host.Outcome State Fault Refusal :=
  whenFused (fun s => if s.faults.terminalDue then enterTerminal s else s) s

/-! ## Tamper (R240, R493, R494) -/

/-- The causes that can fire: bit 10 only with the core powered, bits 10 and 12 only once armed and not masked by CLOCK_OVERRIDE. -/
def tamperMask (s : State) : BitVec 16 :=
  let armed := s.trust.pwrOk && decide (now s ≥ 100000) && !(openCategories s).getLsbD 4
  0x0BFF#16 ||| (if armed then 0x0400#16 else 0) ||| (if armed || !s.trust.pwrOk then 0x1000#16 else 0)

/-- A tamper event: the enabled causes that fire together are one. The low byte is the level of the filtered inputs. -/
def tamper (causes : BitVec 16) (s : State) : State :=
  let s := onTrust (fun t => { t with inputs := causes.setWidth 8 }) s
  let eff := causes &&& s.trust.tamperEn &&& tamperMask s &&& 0x1FFF#16
  if eff = 0 then s else
  let s := onTrust (fun t => { t with rootSecret := [], rootValid := false, cause := t.cause ||| eff, count := satTo 16 (t.count + 1), tamperTime := t.rtc }) s
  if running s then enterTerminal (simpleFault clsTamper kindTrust 0 s) else s

/-- TAMPER_EVENT (R494). -/
def execTamperEvent (causes : BitVec 16) (s : State) : Host.Outcome State Fault Refusal := step1 (keepFuses (tamper causes)) s

/-! ## Vigil (R322, R323) -/

/-- The value the next kick carries. -/
def nextKick (v : Word32) : Word32 := v * 1664525#32 + 1013904223#32

/-- A vigil fault: Block-fatal; the watchdog rests until the next boot arms it. -/
def vigilFails (s : State) : State := simpleFault clsVigil kindTrust 0 (onTrust (fun t => { t with vigilArmed := false }) s)

/-- A kick. -/
def vigilKick (v : Word32) (s : State) : State :=
  let t := s.trust
  if ¬ t.vigilArmed then s
  else if v ≠ nextKick t.vigilValue ∨ (t.vigilKicks ≠ 0 ∧ now s < t.vigilLast + 50000) then vigilFails s
  else onTrust (fun t => { t with vigilValue := v, vigilKicks := t.vigilKicks + 1, vigilLast := now s
                                  vigilMaxUs := max t.vigilMaxUs (satTo 16 ((now s - t.vigilLast) / 1000)) }) s

/-- VIGIL_KICK (R322). -/
def execVigilKick (value : Word32) (s : State) : Host.Outcome State Fault Refusal := whenServing (vigilKick value) s

/-- VIGIL_FAULT: 2 ms have passed without a kick (R322). -/
def execVigilFault (s : State) : Host.Outcome State Fault Refusal :=
  whenServing (fun s => if s.trust.vigilArmed ∧ now s ≥ s.trust.vigilLast + 2000000 then vigilFails s else s) s

/-! ## The Lamplighter's own faults (R232, R316) -/

/-- A Lamplighter-integrity fault: the sequencer stops at once. -/
def integrityFails (s : State) : State :=
  simpleFault clsLlIntegrity kindLamplighter 0 (onLl (fun l => { l with halted := true, ready := false }) s)

/-- LL_INTEGRITY_FAULT (R316). -/
def execLlIntegrityFault (s : State) : Host.Outcome State Fault Refusal := whenServing integrityFails s

/-- The Corrected faults of a scrub. -/
def scrubCorrected (n : Nat) (s : State) : State := (List.range n).foldl (fun s _ => simpleFault clsLlCe kindLamplighter 0 s) s

/-- Every word of the Lamplighter's memory is read; an armed injection adds a corrected, or an uncorrectable, word. -/
def sramScrubbed (corrected : Nat) (uncorrectable : Bool) (s : State) : State :=
  let a := injectCheck clsLlCe kindLamplighter 0 0 0 s
  let b := injectCheck clsLlIntegrity kindLamplighter 0 0 0 a.2
  let t := scrubCorrected (corrected + b2n a.1) b.2
  if b.1 ∨ uncorrectable then integrityFails t else t

/-- SRAM_SCRUB (R316): corrected words are Corrected faults, an uncorrectable one stops the sequencer. -/
def execSramScrub (corrected : Nat) (uncorrectable : Bool) (s : State) : Host.Outcome State Fault Refusal :=
  whenServing (sramScrubbed corrected uncorrectable) s

/-- The scrub of one slot. -/
def scrubSlot (upset : List Nat) (k : Nat) (s : State) : State :=
  if (slotAt s k).state = .bad then s
  else if upset.contains k then slotFails k false s else checkSlot k s

/-- KEY_SLOT_SCRUB (R235): every slot's tag is checked; a slot whose bits have flipped fails. -/
def execKeySlotScrub (upset : List Nat) (s : State) : Host.Outcome State Fault Refusal :=
  whenServing (fun s => settle {} ((s.keys.slots.map Prod.fst).foldl (fun s k => scrubSlot upset k s) s)) s

/-- ENTROPY_FAILURE (R232): the DRBG stops. -/
def execEntropyFailure (s : State) : Host.Outcome State Fault Refusal :=
  whenServing (fun s => simpleFault clsEntropy kindLamplighter 0 (onLl (fun l => { l with drbgRunning := false }) s)) s

/-! ## The life-cycle code while the block runs (R440) -/

/-- Whether a transition is under way. -/
def inTransition (s : State) : Bool := s.lc.intent ≠ 0 || s.lc.ops ≠ []

/-- The code is corrupt. -/
def lcCorrupt (s : State) : State := if inTransition s then s else simpleFault clsLcCorrupt kindTrust 0 s

/-- LC_REREAD: the CODE rows as they read now against the shadow. -/
def execLcReread (row0 row1 row2 : Word32) (s : State) : Host.Outcome State Fault Refusal :=
  whenServing (fun s => if voteCode row0 row1 row2 = shadowState s then s else lcCorrupt s) s

/-- LC_SHADOW_MISMATCH: the shadow registers disagree. -/
def execLcShadowMismatch (s : State) : Host.Outcome State Fault Refusal := whenServing lcCorrupt s

/-! ## The flash bus (R510) -/

/-- FLASH_EXT_REQUEST: honoured outside Production, and in Production while the boot ROM waits without an image. -/
def execFlashExtRequest (s : State) : Host.Outcome State Fault Refusal :=
  whenFused (fun s =>
    if lcState s ≠ 2 ∨ (s.ll.stage = 0xFF ∧ s.ll.reason = 2) then onFlash (fun f => { f with extAck := true }) s else s) s

/-- FLASH_EXT_N_RISE: Eonal takes the bus back. -/
def execFlashExtNRise (s : State) : Host.Outcome State Fault Refusal := whenFused (onFlash (fun f => { f with extAck := false })) s

end Sys2Proof.Machine
end

