-- ==== Sys2Proof/Machine/Mailbox.lean ====
section
/-! DEFINITION. How Stolaikor takes a mailbox request (R324, R326, R329 to R338): when one starts, the checks before the operation's
own, the answer; GET_VERSION and NEGOTIATE (R330, R331). -/
namespace Sys2Proof.Machine

/-! ## Starting and answering -/

/-- A request as its operation has it. -/
structure Call where
  mb   : Nat
  slot : Nat
  req  : Bytes
  ue   : Ue

/-- What an operation gives: a reply, a wait with the payload it will reply with, nothing yet, or a reply it has sent itself. -/
inductive Answer where
  | done (status : Nat) (payload : Bytes)
  | wait (c : WaitCond) (payload : Bytes)
  | later
  | kept
  deriving DecidableEq, Repr

/-- Whether the request in a slot may be started as this operation. -/
def startable (s : State) (op sub : Nat) (r : MbReq) : Bool :=
  let q := mbRequest s r.mb r.slot
  decide (r.mb < 18) && isNext s r.mb r.slot && boxServed s r.mb && reqOp q == op && subOf q == sub && !heldBack s r.mb q

/-- Stolaikor serves a request: the checks of R329, then the operation (R335). -/
def serve (op sub : Nat) (f : Call → State → Answer × State) (r : MbReq) (s : State) : State :=
  if ¬ startable s op sub r then s else
  let c : Call := ⟨r.mb, r.slot, mbRequest s r.mb r.slot, r.ue⟩
  let st := prologue s r.mb r.slot
  let t := markStarted r.mb r.slot s
  if st ≠ stOk then settle r.ue (reply r.mb r.slot st [] t) else
  let (a, t) := f c t
  match a with
  | .done st p => settle r.ue (reply r.mb r.slot st p t)
  | .wait w p => settle r.ue (holdRequest r.mb r.slot w p t)
  | .later => s
  | .kept => settle r.ue t

/-- The owner a request acts for: a partition, or the manager. -/
abbrev Call.owner (c : Call) : Nat := c.mb

/-- A request refused by a status, changing nothing. -/
def refuse (st : Nat) (s : State) : Answer × State := (.done st [], s)

/-- A request carried out with a reply payload. -/
def accept (p : Bytes) (s : State) : Answer × State := (.done stOk p, s)

/-! ## Image references (R342) -/

/-- An image copied under the requester's rights: a status and the bytes. The length and the digest are checked first. -/
def readImage (c : Call) (off : Nat) (lenOk : Nat → Bool) (s : State) : Nat × Bytes × State :=
  let a := arg c.req off 8
  let n := arg c.req (off + 8) 4
  if ¬ lenOk n then (stBadArg, [], s) else
  let (r, s) := memRead { part := c.owner, kind := kindFrontEnd, access := 1, master := 7 } c.ue a n s
  if r.status ≠ stOk then (r.status, [], s)
  else if sha384 r.data ≠ argBytes c.req (off + 16) 48 then (stIntegrityFail, [], s)
  else (stOk, r.data, s)

/-- Whether reading an image must wait for a sweep. -/
def imageWaits (s : State) (c : Call) (off : Nat) : Bool := rangeWaits s false (arg c.req off 8) (min (arg c.req (off + 8) 4) (2 ^ 22))

/-! ## GET_VERSION and NEGOTIATE (R330, R331) -/

/-- GET_VERSION lists every version from 1.0 to 1.PROTO_MAX. -/
def getVersion (_ : Call) (s : State) : Answer × State :=
  accept (le 1 (s.ll.protoMax + 1) ++ (List.range (s.ll.protoMax + 1)).flatMap (fun m => [1#8, BitVec.ofNat 8 m])) s

/-- NEGOTIATE. -/
def negotiate (c : Call) (s : State) : Answer × State :=
  let major := arg c.req 0 1
  let minor := arg c.req 1 1
  if major ≠ 1 ∨ minor > s.ll.protoMax then refuse stVersion s
  else if (pendingSlots s c.mb).any (fun e => e.1 ≠ c.slot) then refuse stBusy s
  else
    let s := modBox c.mb (fun b => { b with major := major, minor := minor }) s
    accept (le 1 major ++ le 1 minor ++ le 1 4 ++ le 1 (b2n s.build.mldsa + 2 * b2n s.ll.mgmtActive) ++ le 4 s.ll.svn ++
      le 2 s.ll.relMajor ++ le 2 s.ll.relMinor ++ le 4 s.ll.relPatch) s

/-- GET_VERSION (R330). -/
def execGetVersion (r : MbReq) (s : State) : Host.Outcome State Fault Refusal := whenServing (serve 0x0001 0 getVersion r) s

/-- NEGOTIATE (R331). -/
def execNegotiate (r : MbReq) (s : State) : Host.Outcome State Fault Refusal := whenServing (serve 0x0002 0 negotiate r) s

end Sys2Proof.Machine
end

