-- ==== Sys2Proof/Machine/ObjectOps.lean ====
section
/-! DEFINITION. Memory objects and fences by mailbox: OBJECT_CREATE and OBJECT_FREE (R270 to R276, R51), FENCE_CREATE, FENCE_FREE,
FENCE_SIGNAL, FENCE_QUERY and FENCE_WAIT (R277 to R285, R339). -/
namespace Sys2Proof.Machine

/-! ## Writing whole ranges (R51, R272) -/

/-- A capacity line initialised under a key, or under the key it stands for inside a rotation's range (R67): written with the counter
after the one its metadata holds, which may make the key ID due (R53); a line whose counter is at its maximum is not written (R51). The
flag says whether it was written. -/
def initLine (r : Req) (ue : Ue) (k a : Nat) (s : State) : Bool × State :=
  match place s a with
  | some (.capacity c pa) =>
    let (m, _, s) := loadMeta r ue c pa (reqAddr k a) s
    let e := m.at pa
    let n := effectiveKey s k (.capacity c pa)
    if e.counter ≥ maxCounter then (false, s)
    else
      let s := sealLine c pa a n (e.counter + 1) (zeros 256) s
      (true, if e.counter + 1 = 2 ^ 47 then markDue n 0 s else s)
  | _ => (true, s)

/-- The lines of a capacity range initialised in ascending order up to the first that cannot be; `n` counts the lines left. -/
def initLines (r : Req) (ue : Ue) (k : Nat) : Nat → Nat → State → Bool × State
  | 0, _, s => (true, s)
  | n + 1, a, s =>
    let (ok, s) := initLine r ue k a s
    if ok then initLines r ue k n (a + 256) s else (false, s)

/-- Zero plaintext over the sectors of a stacked range; `n` counts the sectors left. -/
def zeroSectors (r : Req) (ue : Ue) (k : Nat) : Nat → Nat → State → State
  | 0, _, s => s
  | n + 1, a, s => zeroSectors r ue k n (a + 64) (memWrite r ue (reqAddr k a) (zeros 64) s).2

/-! ## OBJECT_CREATE (R271, R272) -/

/-- Fields of an object request. -/
def oqPlace (r : Bytes) : Nat := arg r 1 1
def oqZero (r : Bytes) : Bool := bit (arg r 2 1) 0
def oqAdopt (r : Bytes) : Bool := bit (arg r 2 1) 1
def oqAt (r : Bytes) : Bool := bit (arg r 2 1) 2
def oqMask (r : Bytes) : Nat := if oqPlace r = 1 then arg r 4 2 else 0
def oqKey (r : Bytes) : Nat := arg r 6 2
def oqLength (r : Bytes) : Nat := arg r 16 8
def oqOffset (r : Bytes) : Nat := arg r 24 8

/-- An owner's carve-out for a placement, start and length: domain addresses, or offsets into the home window (R260). -/
def carveout (s : State) (p pl : Nat) : Nat × Nat :=
  if pl = 0 then (pdef s p 32 4 * mib2, pdef s p 36 4 * mib2)
  else if pl = 1 then (pdef s p 40 4 * mib2, pdef s p 44 4 * mib2)
  else (capBase + pdef s p 48 4 * mib2, pdef s p 52 4 * mib2)

/-- The storage of an owner's objects that a new object of a placement and mask may not take, as base and length. -/
def takenBy (s : State) (p pl mask : Nat) : List (Nat × Nat) :=
  (s.parts.objects.filter (fun e => e.2.state ≠ .free && e.2.owner == p && e.2.placement == pl &&
    (pl ≠ 1 || (e.2.mask.toNat &&& mask) ≠ 0))).map (fun e => (e.2.base, e.2.length))

/-- Whether a range is free of a list of ranges. -/
def rangeFree (taken : List (Nat × Nat)) (a n : Nat) : Bool := taken.all (fun t => a + n ≤ t.1 || t.1 + t.2 ≤ a)

/-- The lowest of some candidates. -/
def lowest : List Nat → Option Nat
  | [] => none
  | x :: xs => some (xs.foldl min x)

/-- The lowest free range of a carve-out that fits. -/
def lowestFit (lo len n : Nat) (taken : List (Nat × Nat)) : Option Nat :=
  lowest ((lo :: taken.map (fun t => t.1 + t.2)).filter (fun a => decide (lo ≤ a ∧ a + n ≤ lo + len) && rangeFree taken a n))

/-- Whether a key ID may name a new object: a MEMORY slot the caller owns, ACTIVE or ROTATE_TO (R271). -/
def objKeyOk (s : State) (p k : Nat) : Bool :=
  let v := slotAt s k
  0 < k && k < 0x400 && v.cls == .memory && v.owner == p && (v.state == .active || v.state == .rotateTo)

/-- The refusals of R272 that are BAD_ARG. -/
def objFieldsOk (s : State) (p : Nat) (r : Bytes) : Bool :=
  let n := oqLength r
  let c := carveout s p (oqPlace r)
  oqPlace r ≤ 2 && !(oqZero r && oqAdopt r) && n ≠ 0 && n % mib2 == 0 && ctxOk s p (arg r 8 2) && objKeyOk s p (oqKey r) &&
    (oqPlace r ≠ 1 || (oqMask r ≠ 0 && decide (oqMask r < 2 ^ s.build.lanterns) && c.2 ≠ 0)) &&
    (!oqAt r || (oqOffset r % mib2 == 0 && decide (oqOffset r + n ≤ c.2)))

/-- How many object slots an owner holds. -/
def objsHeld (s : State) (p : Nat) : Nat := (s.parts.objects.filter (fun e => e.2.state ≠ .free && e.2.owner == p)).length

/-- The lowest FREE object slot. -/
def freeObjSlot (s : State) : Option Nat := tfind {} s.parts.objects 4096 (fun o => o.state == .free)

/-- Where a new object goes, or the BUSY of R272. -/
def objPlace (s : State) (p : Nat) (r : Bytes) : Option Nat :=
  let c := carveout s p (oqPlace r)
  let taken := takenBy s p (oqPlace r) (oqMask r)
  if oqAt r then (if rangeFree taken (c.1 + oqOffset r) (oqLength r) then some (c.1 + oqOffset r) else none)
  else lowestFit c.1 c.2 (oqLength r) taken

/-- The domain addresses at which an object's parts begin. -/
def objStarts (s : State) (pl mask base : Nat) : List Nat := if pl = 1 then (maskLanterns s mask).map (fun l => homeAddr s l base) else [base]

/-- Whether a creation writes the object's contents. -/
def oqFills (r : Bytes) : Bool := !oqAdopt r && (oqZero r || oqPlace r == 2)

/-- The fill's requests: made by the copy-and-cipher engine for the owner; the tier's bit of ENGINES is needed (R36). -/
def fillReq (p : Nat) : Req := { part := p, kind := kindCopy, master := 3, access := 2 }

/-- The fill of a new object: a status. -/
def fillObject (ue : Ue) (p : Nat) (r : Bytes) (base : Nat) (s : State) : Nat × State :=
  if ¬ oqFills r then (stOk, s) else
  let starts := objStarts s (oqPlace r) (oqMask r) base
  let a := reqAddr (oqKey r) (starts.headD 0)
  let c := checkReq s (fillReq p) a true
  if c.status ≠ stOk then (c.status, recordDenied (fillReq p) a c s)
  else if oqPlace r = 2 then
    let (ok, s) := initLines (fillReq p) ue (oqKey r) (oqLength r / 256) base s
    (if ok then stOk else stCounterExhausted, s)
  else (stOk, starts.foldl (fun s x => zeroSectors (fillReq p) ue (oqKey r) (oqLength r / 64) x s) s)

/-- Whether a fill must wait for a sweep or a quarantine. -/
def fillWaits (s : State) (r : Bytes) (base : Nat) : Bool :=
  oqFills r && (objStarts s (oqPlace r) (oqMask r) base).any (fun x => rangeWaits s true (reqAddr (oqKey r) x) (oqLength r))

/-- A new object takes its slot; its context is charged (R268). -/
def installObj (k p : Nat) (r : Bytes) (base : Nat) (s : State) : State :=
  let ctx := arg r 8 2
  let n := if oqPlace r = 1 then popcount (oqMask r) else 1
  let s := modObj k (fun o => { gen := o.gen, state := .live, owner := p, placement := oqPlace r, mask := BitVec.ofNat 16 (oqMask r), key := oqKey r
                                ctx := ctx, length := oqLength r, base := base }) s
  charge ctx (fun c => { c with objectBytes := satTo 64 (c.objectBytes + n * oqLength r), objects := satTo 32 (c.objects + 1) }) s

/-- OBJECT_CREATE. -/
def objectCreate (c : Call) (s : State) : Answer × State :=
  let p := c.owner
  let r := c.req
  if arg r 0 1 ≠ 1 then refuse stVersion s
  else if ¬ objFieldsOk s p r then refuse stBadArg s
  else if objsHeld s p ≥ pdef s p 16 2 then refuse stBusy s
  else match objPlace s p r, freeObjSlot s with
    | some base, some k =>
      if fillWaits s r base then (.later, s) else
      let (st, s) := fillObject c.ue p r base s
      if st ≠ stOk then refuse st s
      else
        let s := installObj k p r base s
        accept (created (objHandleOf s k) base) s
    | _, _ => refuse stBusy s

/-- OBJECT_CREATE (R271). -/
def execObjectCreate (r : MbReq) (s : State) : Host.Outcome State Fault Refusal := whenServing (serve 0x0110 0 objectCreate r) s

/-! ## OBJECT_FREE (R275) -/

/-- The slot number that stands for no object. -/
def noObj : Nat := 4096

/-- A free stops the trace buffers in the object and drops their references (R418). -/
def stopBuffersIn (k : Nat) (s : State) : State :=
  (s.trace.bufs.filter (fun e => e.2.owner ≠ none && !e.2.remote && e.2.obj == k)).foldl (fun s e =>
    dropObjs [k] (modBuf e.1 (fun b => { b with obj := noObj }) (stopSub e.1 1 3 (stopSub e.1 0 3 s)))) s

/-- OBJECT_FREE. -/
def objectFree (c : Call) (s : State) : Answer × State :=
  match objHandle s c.owner (arg c.req 0 4) with
  | .error e => refuse e s
  | .ok k => if (objAt s k).bindings ≠ 0 then refuse stBusy s else accept [] (freeObj k (stopBuffersIn k s))

/-- OBJECT_FREE (R275). -/
def execObjectFree (r : MbReq) (s : State) : Host.Outcome State Fault Refusal := whenServing (serve 0x0111 0 objectFree r) s

/-! ## Fences -/

/-- Whether the front end can write words now; through a curfew it holds them (R427). -/
def wordsOpen (s : State) : Bool := !s.curfew.stopped.contains .frontEnd

/-- How many fence slots an owner holds. -/
def fencesHeld (s : State) (p : Nat) : Nat := (s.parts.fences.filter (fun e => e.2.state ≠ .free && e.2.owner == p)).length

/-- Where a new fence's word lies: on the host, or in a LIVE object of the owner (R277). -/
def wordPlace (s : State) (p : Nat) (r : Bytes) : Except Nat (Option Nat) :=
  let w := arg r 8 8
  if bit (arg r 23 1) 0 then (if arg r 16 4 ≠ 0 ∨ arg r 22 1 > 63 then .error stBadArg else .ok none)
  else if arg r 22 1 ≠ 0xFF then .error stBadArg
  else match objHandle s p (arg r 16 4) with
    | .error e => .error e
    | .ok k => if insideObj s k w 8 ∧ w / 2 ^ 60 = 0 then .ok (some k) else .error stBadArg

/-- FENCE_CREATE. -/
def fenceCreate (c : Call) (s : State) : Answer × State :=
  let p := c.owner
  let r := c.req
  let w := arg r 8 8
  if w % 8 ≠ 0 ∨ ¬ ctxOk s p (arg r 20 2) then refuse stBadArg s
  else if arg r 0 8 ≥ 2 ^ 63 then refuse stFenceRange s
  else match wordPlace s p r with
    | .error e => refuse e s
    | .ok o =>
      if fencesHeld s p ≥ pdef s p 18 2 then refuse stBusy s
      else match tfind {} s.parts.fences 2048 (fun f => f.state == .free) with
        | none => refuse stBusy s
        | some k =>
          if ¬ wordsOpen s ∨ (o.isSome ∧ rangeWaits s true w 8) then (.later, s) else
          let s := modFence k (fun f => { gen := f.gen, state := .active, owner := p, value := BitVec.ofNat 64 (arg r 0 8), host := o.isNone
                                          word := if o.isNone then w else domainOf w, obj := o.getD 0
                                          hostQ := if o.isNone then arg r 22 1 else 0xFF, ctx := arg r 20 2 }) s
          let s := match o with
            | some k => bindObj k s
            | none => s
          let s := writeFenceWord c.ue k s
          accept (created (fenceHandleOf s k) 0) s

/-- FENCE_CREATE (R277). -/
def execFenceCreate (r : MbReq) (s : State) : Host.Outcome State Fault Refusal := whenServing (serve 0x0118 0 fenceCreate r) s

/-- Whether a write of a fence's word must wait. -/
def wordWaits (s : State) (k : Nat) : Bool :=
  let f := fenceAt s k
  !wordsOpen s || (!f.host && rangeWaits s true (fenceWordAddr s f) 8)

/-- FENCE_FREE. -/
def fenceFree (c : Call) (s : State) : Answer × State :=
  match fenceHandle s c.owner (arg c.req 0 4) with
  | .error e => refuse e s
  | .ok k => if wordWaits s k then (.later, s) else accept [] (freeFence c.ue k s)

/-- FENCE_FREE (R281). -/
def execFenceFree (r : MbReq) (s : State) : Host.Outcome State Fault Refusal := whenServing (serve 0x0119 0 fenceFree r) s

/-- FENCE_SIGNAL (R279). -/
def fenceSignal (c : Call) (s : State) : Answer × State :=
  match fenceHandle s c.owner (arg c.req 0 4) with
  | .error e => refuse e s
  | .ok k =>
    if arg c.req 8 8 ≥ 2 ^ 63 then refuse stFenceRange s
    else
      let s := fenceEvent c.ue k (.signal (arg c.req 8 8)) s
      accept (fencePayload s k) s

/-- FENCE_SIGNAL (R279). -/
def execFenceSignal (r : MbReq) (s : State) : Host.Outcome State Fault Refusal := whenServing (serve 0x011A 0 fenceSignal r) s

/-- FENCE_QUERY (R278). -/
def fenceQuery (c : Call) (s : State) : Answer × State :=
  match fenceHandle s c.owner (arg c.req 0 4) with
  | .error e => refuse e s
  | .ok k => accept (fencePayload s k) s

/-- FENCE_QUERY (R278). -/
def execFenceQuery (r : MbReq) (s : State) : Host.Outcome State Fault Refusal := whenServing (serve 0x011B 0 fenceQuery r) s

/-- FENCE_WAIT: one whose condition already holds ends at once; one whose deadline has passed times out (R282, R283). -/
def fenceWait (c : Call) (s : State) : Answer × State :=
  let t := arg c.req 8 8
  let d := arg c.req 16 8
  match fenceHandle s c.owner (arg c.req 0 4) with
  | .error e => refuse e s
  | .ok k =>
    if t ≥ 2 ^ 63 then refuse stFenceRange s
    else if d = 0 ∨ d > now s + 10000000000 then refuse stBadArg s
    else match waitOutcome s false k (fenceAt s k).gen (BitVec.ofNat 64 t) 0 with
      | some st => (.done st (fencePayload s k), s)
      | none => (.wait (.fence k (fenceAt s k).gen (BitVec.ofNat 64 t) d) [], s)

/-- FENCE_WAIT (R282). -/
def execFenceWait (r : MbReq) (s : State) : Host.Outcome State Fault Refusal := whenServing (serve 0x011C 0 fenceWait r) s

end Sys2Proof.Machine
end

