-- ==== Sys2Proof/Machine/PartitionOps.lean ====
section
/-! DEFINITION. Settings (R340, R37), partitions (R260 to R266, R353, R355), PASID entries (R267) and contexts (R268) by mailbox. -/
namespace Sys2Proof.Machine

/-! ## Settings (R340) -/

/-- Whether a setting exists with this INDEX. -/
def settingKnown (s : State) (id index : Nat) : Bool :=
  if id = 0x0014 then index < s.build.links
  else index == 0 && (id == 0x0001 || id == 0x0010 || id == 0x0011 || id == 0x0012 || id == 0x0013 || id == 0x0020)

/-- A setting's value. -/
def settingOf (s : State) (id index : Nat) : Nat :=
  let b := s.boxes
  if id = 0x0001 then b.homeGib else if id = 0x0010 then b.fabricTimeout else if id = 0x0011 then b.destUnits else if id = 0x0012 then b.lineCap
  else if id = 0x0013 then b.hotThresh else if id = 0x0014 then tget 0 b.portRole index else b.reportTtl

/-- Least and greatest value of a setting. -/
def settingRange (id : Nat) : Nat × Nat :=
  if id = 0x0001 then (0, 48) else if id = 0x0010 then (10, 1000000) else if id = 0x0011 then (4, 1024) else if id = 0x0012 then (64, 8192)
  else if id = 0x0013 then (16, 65535) else if id = 0x0014 then (0, 2) else (10, 3600)

/-- Whether a setting may change now: HOME_GIB with no memory key slot installed (R37), PORT_ROLE with the port DOWN or FAILED. -/
def settingOpen (s : State) (id index : Nat) : Bool :=
  if id = 0x0001 then s.keys.slots.all (fun e => !(decide (0 < e.1 ∧ e.1 < 0x400) && e.2.state ≠ .empty))
  else if id = 0x0014 then (linkAt s index).state == .down || (linkAt s index).state == .failed
  else true

/-- A setting takes a value; East's units are told (R13, R21). -/
def putSetting (id index v : Nat) (s : State) : State :=
  let s := onBoxes (fun b =>
    if id = 0x0001 then { b with homeGib := v } else if id = 0x0010 then { b with fabricTimeout := v } else if id = 0x0011 then { b with destUnits := v }
    else if id = 0x0012 then { b with lineCap := v } else if id = 0x0013 then { b with hotThresh := v }
    else if id = 0x0014 then { b with portRole := tset 0 b.portRole index v } else { b with reportTtl := v }) s
  if id = 0x0020 then s else sendSetting (id + 2 ^ 16 * index) v s

/-- SETTING_GET. -/
def settingGet (c : Call) (s : State) : Answer × State :=
  let id := arg c.req 0 2
  let i := arg c.req 2 2
  if settingKnown s id i then accept (le 8 (settingOf s id i)) s else refuse stBadArg s

/-- SETTING_GET (R340). -/
def execSettingGet (r : MbReq) (s : State) : Host.Outcome State Fault Refusal := whenServing (serve 0x0010 0 settingGet r) s

/-- SETTING_SET. -/
def settingSet (c : Call) (s : State) : Answer × State :=
  let id := arg c.req 0 2
  let i := arg c.req 2 2
  let v := arg c.req 8 8
  if ¬ settingKnown s id i ∨ v < (settingRange id).1 ∨ v > (settingRange id).2 then refuse stBadArg s
  else if ¬ settingOpen s id i then refuse stBusy s
  else accept (le 8 v) (putSetting id i v s)

/-- SETTING_SET (R340). -/
def execSettingSet (r : MbReq) (s : State) : Host.Outcome State Fault Refusal := whenServing (serve 0x0011 0 settingSet r) s

/-! ## PARTITION_CREATE (R260, R261, R355) -/

/-- A field of a partition request. -/
def pq (r : Bytes) (off n : Nat) : Nat := arg r off n

/-- Whether two ranges of numbers overlap; an empty one overlaps nothing. -/
def rangesMeet (a n b m : Nat) : Bool := n ≠ 0 && m ≠ 0 && decide (a < b + m) && decide (b < a + n)

/-- Whether a range of the request at two offsets meets the same range of an existing owner. -/
def meetsOwner (s : State) (r : Bytes) (p base bn len ln : Nat) : Bool := rangesMeet (pq r base bn) (pq r len ln) (pdef s p base bn) (pdef s p len ln)

/-- Units of 2 MiB in a GiB. -/
def unitsPerGib : Nat := 512

/-- The ranges of the fields (R260) and each carve-out inside its tier (R261). -/
def partFieldsOk (s : State) (r : Bytes) : Bool :=
  pq r 4 1 ≤ 64 && pq r 5 1 ≤ pq r 4 1 && pq r 6 1 ≤ 64 && pq r 7 1 ≤ 4 &&
  (1 ≤ pq r 8 2 && pq r 8 2 ≤ 0x3FF && decide (pq r 8 2 + pq r 10 2 ≤ 0x400)) &&
  (1 ≤ pq r 14 2 && decide (pq r 12 2 ≤ 4095 ∧ pq r 12 2 + pq r 14 2 ≤ 4096)) &&
  (pq r 36 4 == 0 || decide ((pq r 32 4 + pq r 36 4) * mib2 ≤ windowEnd s)) &&
  (pq r 44 4 == 0 || decide (pq r 40 4 + pq r 44 4 ≤ homeGib s * unitsPerGib)) &&
  (pq r 52 4 == 0 || decide (pq r 48 4 + pq r 52 4 ≤ s.build.caps * 240 * unitsPerGib)) &&
  (List.range s.build.lanterns).all (fun l => pq r (64 + l) 1 ≤ 192 && pq r (80 + l) 1 ≤ pq r (64 + l) 1)

/-- Whether the request's carve-outs, key IDs or context tags meet those of an existing owner. -/
def partMeets (s : State) (r : Bytes) : Bool :=
  (owners s).any (fun p => meetsOwner s r p 32 4 36 4 || meetsOwner s r p 40 4 44 4 || meetsOwner s r p 48 4 52 4 || meetsOwner s r p 8 2 10 2 ||
    meetsOwner s r p 12 2 14 2)

/-- A field summed over the existing owners. -/
def ownersSum (s : State) (off n : Nat) : Nat := ((owners s).map (fun p => pdef s p off n)).sum

/-- The counts of a request with the block's totals, as offset, size, total (R286, R261). -/
def blockTotals : List (Nat × Nat × Nat) :=
  [(4, 1, 256), (5, 1, 16), (6, 1, 64), (7, 1, 64), (10, 2, 1023), (14, 2, 4096), (16, 2, 4096), (18, 2, 2048), (20, 2, 4096), (22, 2, 1024), (24, 2, 1024),
   (56, 2, 3072)]

/-- The refusals of R261 that are BUSY: totals, active wicks less those withdrawn. -/
def partBusy (s : State) (r : Bytes) : Bool :=
  blockTotals.any (fun t => decide (pq r t.1 t.2.1 + ownersSum s t.1 t.2.1 > t.2.2)) ||
    (List.range s.build.lanterns).any (fun l => decide (pq r (64 + l) 1 + ownersSum s (64 + l) 1 + (lanternAt s l).withdrawn.length > s.build.wicks))

/-- The admission of bandwidth (R355), on every kind of resource the build has: BW_STACKED, BW_CAPACITY, BW_LINK. -/
def shareOk (s : State) (r : Bytes) (off count : Nat) : Bool := count == 0 || decide (10 + pq r off 2 + ownersSum s off 2 ≤ 900)
def partAdmitted (s : State) (r : Bytes) : Bool := shareOk s r 26 s.build.lanterns && shareOk s r 28 s.build.caps && shareOk s r 30 s.build.links

/-- A line of a new capacity carve-out: written under Stolaikor's key ID with its counter advanced, or left LOST with a COUNTER_END fault
where the counter is at its maximum (R51). -/
def carveLine (ue : Ue) (p a : Nat) (s : State) : State :=
  let q : Req := { part := p, own := true, master := 7, access := 2, kind := kindCapacity }
  let (ok, s) := initLine q ue 0 a s
  if ok then s else
  match place s a with
  | some (.capacity c pa) =>
    let (m, _, s) := loadMeta q ue c pa a s
    counterEndFault { q with inst := c } c a (cacheLine c { m with entries := m.entries.set (pa / 256 % 4) lostEntry, dirty := true } s)
  | _ => s

/-- Every line of a capacity carve-out. -/
def initCarveout (ue : Ue) (p : Nat) (s : State) : State :=
  let c := carveout s p 2
  (List.range (c.2 / 256)).foldl (fun s i => carveLine ue p (c.1 + 256 * i) s) s

/-- The life-cycle state permits partitions, key slots and domains (R434). -/
def lcPermits (s : State) : Bool := lcState s == 1 || lcState s == 2

/-- PARTITION_CREATE. -/
def partitionCreate (c : Call) (s : State) : Answer × State :=
  let r := c.req
  let part := pq r 1 1
  let p := ownerIndex part
  if ¬ lcPermits s then refuse stLcDenied s
  else if pq r 0 1 ≠ 1 then refuse stVersion s
  else if part ≠ 0xFE ∧ part ≥ s.build.parts then refuse stBadArg s
  else if partExists s p then refuse stBadArg s
  else if p ≠ 16 ∧ ¬ partExists s 16 then refuse stNotPermitted s
  else if ¬ partFieldsOk s r ∨ partMeets s r then refuse stBadArg s
  else if partBusy s r then refuse stBusy s
  else if ¬ partAdmitted s r then refuse stReservationDenied s
  else if p < 16 ∧ ¬ s.ll.drbgRunning then refuse stEntropyFail s
  else
    let s := setPart p { state := .active, definition := argBytes r 0 240 } s
    let s := initCarveout c.ue p s
    let s := if p < 16 then drawSeed p 0 s else s
    accept (created part 0) s

/-- PARTITION_CREATE (R260). -/
def execPartitionCreate (r : MbReq) (s : State) : Host.Outcome State Fault Refusal := whenServing (serve 0x0100 0 partitionCreate r) s

/-! ## PARTITION_RESET and PARTITION_DESTROY (R253, R264, R265, R336) -/

/-- Requests of a partition's mailbox that Stolaikor has not started reply RESET_LOST. -/
def loseUnstarted (p : Nat) (s : State) : State :=
  (pendingSlots s p).foldl (fun s e => if e.2.started then s else reply p e.1 stResetLost [] s) s

/-- A reset or destruction begins: the partition leaves ACTIVE or HALTED, its TDI goes to ERROR from CONFIG_LOCKED and RUN. -/
def beginPartReset (p : Nat) (destroy : Bool) (s : State) : State :=
  loseUnstarted p (modPart p (fun x => { x with state := if destroy then .destroying else .resetting }) (tdiError p s))

/-- Whether a partition can be reset or destroyed now. -/
def partSettled (s : State) (p : Nat) : Bool := (partAt s p).state == .active || (partAt s p).state == .halted

/-- PARTITION_RESET. -/
def partitionReset (c : Call) (s : State) : Answer × State :=
  let n := arg c.req 0 1
  let p := if c.mb < 16 then c.mb else n
  if (c.mb < 16 ∧ n ≠ 0xFF) ∨ (c.mb = 16 ∧ n > 15) ∨ ¬ partExists s p then refuse stBadArg s
  else if ¬ partSettled s p then refuse stBusy s
  else (.wait (.partQuiet p false) [], beginPartReset p false s)

/-- PARTITION_RESET (R265). -/
def execPartitionReset (r : MbReq) (s : State) : Host.Outcome State Fault Refusal := whenServing (serve 0x0102 0 partitionReset r) s

/-- PARTITION_DESTROY. A destroy of a locked interface puts it into ERROR and stops its queues; STOP must come first (R253). -/
def partitionDestroy (c : Call) (s : State) : Answer × State :=
  let p := arg c.req 0 1
  if p > 15 ∨ ¬ partExists s p then refuse stBadArg s
  else if (partAt s p).tdi ≠ .configUnlocked then
    refuse stInterfaceLocked (if partLocked s p then stopOwner p (tdiError p s) else s)
  else if ¬ partSettled s p then refuse stBusy s
  else (.wait (.partQuiet p true) [], beginPartReset p true s)

/-- PARTITION_DESTROY (R264). -/
def execPartitionDestroy (r : MbReq) (s : State) : Host.Outcome State Fault Refusal := whenServing (serve 0x0101 0 partitionDestroy r) s

/-! ## PASID entries (R267) -/

/-- Whether the manager may change a partition's grants, queue set and PASID bindings (R253, R262). -/
def partOpen (s : State) (p : Nat) : Bool := (partAt s p).tdi == .configUnlocked

/-- Whether a queue holds nothing. -/
def queueEmpty (q : Queue) : Bool :=
  q.state == .absent || (q.head == q.tail && q.fetching == 0 && q.fetched.isEmpty && q.atDispatch.isNone && q.inflight.isEmpty)

/-- The queues of a partition that a mask names. -/
def maskQueues (s : State) (p : Nat) (m : Nat) : List Queue :=
  (s.fe.queues.filter (fun e => e.2.state ≠ .absent && e.2.part == p && m.testBit e.2.q)).map Prod.snd

/-- The entries of a partition. -/
def entriesOf (s : State) (p : Nat) : List PasidEntry := (s.parts.pasids.filter (fun e => e.2.bound && e.2.part == p)).map Prod.snd

/-- The refusals of a bind that are BAD_ARG: the partition or a named queue is not there, a queue would be in two entries, two entries
would have one PASID. -/
def bindOk (s : State) (p pasid m : Nat) : Bool :=
  p < 16 && partExists s p && (bitList 64 m).all (fun q => (queueNamed s p q).isSome) &&
    (entriesOf s p).all (fun e => e.pasid ≠ pasid && (e.mask.toNat &&& m) == 0)

/-- PASID_BIND. -/
def pasidBind (c : Call) (s : State) : Answer × State :=
  let r := c.req
  let p := arg r 1 1
  let m := arg r 8 8
  let pasid := arg r 4 4 % 2 ^ 20
  if arg r 0 1 ≠ 1 then refuse stVersion s
  else if ¬ bindOk s p pasid m then refuse stBadArg s
  else if ¬ partOpen s p then refuse stInterfaceLocked s
  else if (entriesOf s p).length ≥ pdef s p 24 2 ∨ (maskQueues s p m).any (fun q => !queueEmpty q) then refuse stBusy s
  else match tfind {} s.parts.pasids 1024 (fun e => !e.bound) with
    | none => refuse stBusy s
    | some k => accept (created k 0) (setPasid k { bound := true, part := p, pasid := pasid, mask := BitVec.ofNat 64 m } s)

/-- PASID_BIND (R267). -/
def execPasidBind (r : MbReq) (s : State) : Host.Outcome State Fault Refusal := whenServing (serve 0x0103 0 pasidBind r) s

/-- PASID_UNBIND. -/
def pasidUnbind (c : Call) (s : State) : Answer × State :=
  let k := arg c.req 0 2
  let e := pasidAt s k
  if k ≥ 1024 ∨ ¬ e.bound then refuse stBadArg s
  else if ¬ partOpen s e.part then refuse stInterfaceLocked s
  else if (maskQueues s e.part e.mask.toNat).any (fun q => !queueEmpty q) then refuse stBusy s
  else accept [] (setPasid k {} s)

/-- PASID_UNBIND (R267). -/
def execPasidUnbind (r : MbReq) (s : State) : Host.Outcome State Fault Refusal := whenServing (serve 0x0104 0 pasidUnbind r) s

/-! ## CONTEXT_QUERY (R268) -/

/-- Whether a mailbox may query a context tag: its own partition's, or any owner's for the manager (R343). -/
def mayQuery (s : State) (p ctx : Nat) : Bool := if p = 16 then (owners s).any (fun o => ctxOk s o ctx) else ctxOk s p ctx

/-- CONTEXT_QUERY: with CLEAR the counters are zeroed in the same step. -/
def contextQuery (c : Call) (s : State) : Answer × State :=
  let ctx := arg c.req 0 2
  if ¬ mayQuery s c.owner ctx then refuse stBadArg s
  else accept (contextRecord s ctx) (if bit (arg c.req 2 1) 0 then setContext ctx {} s else s)

/-- CONTEXT_QUERY (R268). -/
def execContextQuery (r : MbReq) (s : State) : Host.Outcome State Fault Refusal := whenServing (serve 0x0105 0 contextQuery r) s

end Sys2Proof.Machine
end

