-- ==== Sys2Proof/Machine/QueueOps.lean ====
section
/-! DEFINITION. Queues (R287, R303, R306, R307), pilots (R308, R312), pools and sequences (R142, R143, R146 to R148, R344) by mailbox. -/
namespace Sys2Proof.Machine

/-! ## Queues -/

/-- How many queues of an owner exist, and how many real-time ones. -/
def queuesHeld (s : State) (p : Nat) : Nat := (queuesOf s p).length
def rtQueues (s : State) (f : Queue → Bool) : Nat := (s.fe.queues.filter (fun e => e.2.state ≠ .absent && e.2.realtime && f e.2)).length

/-- The ranges of a queue request (R287). -/
def queueFieldsOk (r : Bytes) : Bool :=
  arg r 1 1 ≤ 63 && arg r 2 1 ≤ 1 && 6 ≤ arg r 3 1 && arg r 3 1 ≤ 16 && arg r 4 1 ≤ 1 && arg r 8 8 % 4096 == 0 && arg r 24 8 % 8 == 0

/-- The object of a ring that lies in an object: wholly inside it, under its key ID (R287, R308). -/
def ringObjOf (s : State) (p h addr len : Nat) : Except Nat Nat :=
  match objHandle s p h with
  | .error e => .error e
  | .ok k => if insideObj s k addr len ∧ addr / 2 ^ 60 = 0 then .ok k else .error stBadArg

/-- The object a queue's ring binds: none for a HOST ring. -/
def queueRingObj (s : State) (p : Nat) (r : Bytes) : Except Nat (Option Nat) :=
  if arg r 4 1 = 0 then .ok none else
  match ringObjOf s p (arg r 16 4) (arg r 8 8) (64 * 2 ^ arg r 3 1) with
  | .error e => .error e
  | .ok k => .ok (some k)

/-- QUEUE_CREATE. -/
def queueCreate (c : Call) (s : State) : Answer × State :=
  let p := c.owner
  let r := c.req
  let rt : Bool := arg r 2 1 == 1
  if arg r 0 1 ≠ 1 then refuse stVersion s
  else if ¬ queueFieldsOk r ∨ (queueNamed s p (arg r 1 1)).isSome then refuse stBadArg s
  else match queueRingObj s p r with
    | .error e => refuse e s
    | .ok o =>
      if queuesHeld s p ≥ pdef s p 4 1 ∨ (rt ∧ (rtQueues s (fun q => q.part == p) ≥ pdef s p 5 1 ∨ rtQueues s (fun _ => true) ≥ 16)) then refuse stBusy s
      else match tfind {} s.fe.queues 256 (fun q => q.state == .absent) with
        | none => refuse stBusy s
        | some qi =>
          let q : Queue := { state := .active, part := p, q := arg r 1 1, realtime := rt, log2 := arg r 3 1, device := o.isSome
                             ring := BitVec.ofNat 64 (arg r 8 8), ringObj := o.getD 0, cmirror := BitVec.ofNat 64 (arg r 24 8) }
          let s := setQueue qi q s
          let s := onFe (fun f => { f with completions := tset 0 f.completions (completionKey q) 0 }) s
          let s := match o with
            | some k => bindObj k s
            | none => s
          accept (created (arg r 1 1) 0) s

/-- QUEUE_CREATE (R287). -/
def execQueueCreate (r : MbReq) (s : State) : Host.Outcome State Fault Refusal := whenServing (serve 0x0120 0 queueCreate r) s

/-- QUEUE_DESTROY. -/
def queueDestroy (c : Call) (s : State) : Answer × State :=
  match queueNamed s c.owner (arg c.req 0 1) with
  | none => refuse stBadArg s
  | some qi =>
    if (queueAt s qi).state = .destroying then refuse stBusy s
    else (.wait (.queueQuiet qi) [], destroyQueue qi stQueueDestroyed (bit (arg c.req 1 1) 0) s)

/-- QUEUE_DESTROY (R307). -/
def execQueueDestroy (r : MbReq) (s : State) : Host.Outcome State Fault Refusal := whenServing (serve 0x0121 0 queueDestroy r) s

/-- Whether every command of a STOPPED queue has retired or ended. -/
def queueDrained (q : Queue) : Bool := q.inflight.isEmpty && q.discarded.isEmpty && q.undispatched.isEmpty && q.fetchError == 0

/-- QUEUE_RESUME. -/
def queueResume (c : Call) (s : State) : Answer × State :=
  match queueNamed s c.owner (arg c.req 0 1) with
  | none => refuse stBadArg s
  | some qi =>
    let q := queueAt s qi
    if q.state ≠ .stopped ∨ ¬ queueDrained q then refuse stBusy s
    else accept [] (setCompletion qi 0 (setQueue qi { q with state := .active, head := q.tail, sampled := q.tail, rung := false, fetching := 0 } s))

/-- QUEUE_RESUME (R303). -/
def execQueueResume (r : MbReq) (s : State) : Host.Outcome State Fault Refusal := whenServing (serve 0x0122 0 queueResume r) s

/-! ## Pilots -/

/-- What a PILOT_START asks for, as a TASK would (R308). -/
def pilotAsk (p pi : Nat) (r : Bytes) : TaskAsk :=
  { part := p, ctx := arg r 4 2, realtime := false, deadline := 0, prog := arg r 8 8, argsAddr := arg r 16 8, mask := arg r 2 2, w := arg r 1 1
    xobj := arg r 7 1, purpose := .pilot pi, pilot := true }

/-- The ranges of a pilot request and the alignment of its program and block (R296, R308). -/
def pilotFieldsOk (s : State) (p : Nat) (r : Bytes) : Bool :=
  arg r 0 1 ≤ 63 && 4 ≤ arg r 6 1 && arg r 6 1 ≤ 12 && arg r 7 1 ≤ 28 && arg r 8 8 % 64 == 0 && arg r 16 8 % 64 == 0 && ctxOk s p (arg r 4 2) &&
    (pilotNamed s p (arg r 0 1)).isNone

/-- The checks of a PILOT_START before its program: the ring's object, or a status. -/
def pilotRingObj (s : State) (p : Nat) (r : Bytes) : Except Nat Nat :=
  if ¬ pilotFieldsOk s p r then .error stBadArg else
  match fenceHandle s p (arg r 24 4) with
  | .error e => .error e
  | .ok _ =>
    match ringObjOf s p (arg r 28 4) (arg r 40 8) (64 * 2 ^ arg r 6 1) with
    | .error e => .error e
    | .ok k => if arg r 32 8 ≥ 2 ^ 63 then .error stFenceRange else .ok k

/-- A pilot's program passed its checks: it takes its wicks and sheets and stands WAITING. -/
def installPilot (c : Call) (pi ring : Nat) (a : TaskAsk) (f : Fetched) (objs : List Nat) (s : State) : Answer × State :=
  let r := c.req
  let t := prepareTask a f s
  let s := setPilot pi { state := .waiting, part := c.owner, n := arg r 0 1, ctx := arg r 4 2, fence := arg r 24 4, v0 := arg r 32 8
                         ring := BitVec.ofNat 64 (arg r 40 8), ringObj := ring, log2 := arg r 6 1, task := t.1, objs := objs } (allotTask a t.1 t.2)
  accept (created (arg r 0 1) 0) (holdObjs objs (bindObj ring s))

/-- A PILOT_START whose program has been fetched: the checks of a TASK's program; until its wicks, sheets and tables are there the request
waits as it was. -/
def pilotChecked (c : Call) (pi ring : Nat) (a : TaskAsk) (s : State) (x : Fetched × State) : Answer × State :=
  match resolveObjs x.2 c.owner x.1.objs with
  | .error e => refuse e x.2
  | .ok objs =>
    if taskStatus x.2 a x.1 ≠ stOk then refuse (taskStatus x.2 a x.1) x.2
    else if ¬ resourcesFree x.2 a (sheetUnits x.1.header).sum [] ∨
        (progPins x.2 (progOf a x.1 (maskLanterns x.2 a.mask).length)).any (fun k => tableLoading x.2 k.1 k.2) then (.later, s)
    else installPilot c pi ring a x.1 objs x.2

/-- A PILOT_START with its number fetches its program. -/
def pilotFetch (c : Call) (pi ring : Nat) (s : State) : Answer × State :=
  let a := pilotAsk c.owner pi c.req
  if rangeWaits s false a.prog 64 ∨ rangeWaits s false a.argsAddr 368 then (.later, s)
  else if ¬ setOk s c.owner a.mask a.w then refuse stBadArg s
  else pilotChecked c pi ring a s (fetchProgram c.ue a s)

/-- PILOT_START: the program is checked as a TASK's; it waits for its wicks and sheets. -/
def pilotStart (c : Call) (s : State) : Answer × State :=
  match pilotRingObj s c.owner c.req with
  | .error e => refuse e s
  | .ok ring =>
    if (pilotsOf s c.owner).length ≥ pdef s c.owner 6 1 then refuse stBusy s
    else match tfind {} s.fe.pilots 64 (fun x => x.state == .absent) with
      | none => refuse stBusy s
      | some pi => pilotFetch c pi ring s

/-- PILOT_START (R308). -/
def execPilotStart (r : MbReq) (s : State) : Host.Outcome State Fault Refusal := whenServing (serve 0x0128 0 pilotStart r) s

/-- PILOT_STOP. -/
def pilotStop (c : Call) (s : State) : Answer × State :=
  match pilotNamed s c.owner (arg c.req 0 1) with
  | none => refuse stBadArg s
  | some pi =>
    if (pilotAt s pi).state = .stopping then refuse stBusy s
    else (.wait (.pilotQuiet pi) [], stopPilot pi stQueueDestroyed (bit (arg c.req 1 1) 0) s)

/-- PILOT_STOP (R312). -/
def execPilotStop (r : MbReq) (s : State) : Host.Outcome State Fault Refusal := whenServing (serve 0x0129 0 pilotStop r) s

/-! ## Pools -/

/-- The pool a request describes (R344). -/
def poolOf (p obj : Nat) (base : Nat) (r : Bytes) : Pool :=
  { live := true, part := p, elemFmt := arg r 1 1, layers := arg r 2 2, heads := arg r 4 1, mask := BitVec.ofNat 16 (arg r 6 2), maxTokens := arg r 8 4
    seqSlots := arg r 12 2, key := arg r 14 2, frames := arg r 16 4, obj := obj, base := base }

/-- The limits of R142. -/
def poolFieldsOk (s : State) (p : Nat) (r : Bytes) : Bool :=
  (arg r 1 1 == 0 || arg r 1 1 == 2 || arg r 1 1 == 3) && 1 ≤ arg r 2 2 && arg r 2 2 ≤ 256 && 1 ≤ arg r 4 1 && arg r 4 1 ≤ 16 &&
    arg r 6 2 ≠ 0 && decide (arg r 6 2 < 2 ^ s.build.lanterns) && 64 ≤ arg r 8 4 && arg r 8 4 ≤ 1048576 && arg r 8 4 % 64 == 0 &&
    1 ≤ arg r 12 2 && arg r 12 2 ≤ 4096 && 1 ≤ arg r 16 4 && arg r 24 8 % 4096 == 0 && objKeyOk s p (arg r 14 2)

/-- The pool a request asks for, in an object that holds its share in every lantern (R143). -/
def poolAsked (s : State) (p : Nat) (r : Bytes) : Except Nat Pool :=
  if ¬ poolFieldsOk s p r then .error stBadArg else
  match objHandle s p (arg r 20 4) with
  | .error e => .error e
  | .ok k =>
    let o := objAt s k
    let pool := poolOf p k (o.base + arg r 24 8) r
    if o.placement ≠ 1 ∨ (arg r 6 2 &&& o.mask.toNat) ≠ arg r 6 2 ∨ arg r 24 8 + pool.shareBytes (poolLanterns s pool).length > o.length then .error stBadArg
    else .ok pool

/-- The pool header of R143. -/
def poolHeader (s : State) (p : Pool) : Bytes :=
  fit 64 (le 1 1 ++ le 1 p.elemFmt ++ le 2 p.layers ++ le 1 p.heads ++ zeros 1 ++ le 2 p.mask.toNat ++ le 4 p.maxTokens ++ le 2 p.seqSlots ++ le 2 p.key ++
    le 4 p.frames ++ le 4 (p.mapBytes (poolLanterns s p).length) ++ le 8 p.frameBytes)

/-- POOL_CREATE: the header goes into every lantern's share. -/
def poolCreate (c : Call) (s : State) : Answer × State :=
  let p := c.owner
  if arg c.req 0 1 ≠ 1 then refuse stVersion s
  else match poolAsked s p c.req with
    | .error e => refuse e s
    | .ok pool =>
      if (s.kv.pools.filter (fun e => e.2.live && e.2.part == p)).length ≥ min 4 (pdef s p 7 1) then refuse stBusy s
      else match tfind {} s.kv.pools 64 (fun x => !x.live) with
        | none => refuse stBusy s
        | some k =>
          if (poolLanterns s pool).any (fun l => rangeWaits s true (poolAddr s pool l 0) 64) then (.later, s) else
          let s := bindObj pool.obj (setPool k pool s)
          let s := (poolLanterns s pool).foldl (fun s l => poolWrite c.ue pool l (poolAddr s pool l 0) (poolHeader s pool) s) s
          accept (created k 0) s

/-- POOL_CREATE (R142). -/
def execPoolCreate (r : MbReq) (s : State) : Host.Outcome State Fault Refusal := whenServing (serve 0x0130 0 poolCreate r) s

/-- Whether an owner has a pool of this index that is not going. -/
def poolHere (s : State) (p k : Nat) : Bool := k < 64 && (poolAt s k).live && (poolAt s k).part == p && !(poolAt s k).closing

/-- POOL_DESTROY. -/
def poolDestroy (c : Call) (s : State) : Answer × State :=
  let k := arg c.req 0 1
  if ¬ poolHere s c.owner k then refuse stBadArg s else (.wait (.poolQuiet k) [], closePool k s)

/-- POOL_DESTROY (R344). -/
def execPoolDestroy (r : MbReq) (s : State) : Host.Outcome State Fault Refusal := whenServing (serve 0x0131 0 poolDestroy r) s

/-! ## Sequences -/

/-- How many sequences an owner holds. -/
def seqsHeld (s : State) (p : Nat) : Nat := (s.kv.seqs.filter (fun e => e.2.live && e.2.part == p)).length

/-- The lowest free slot of a pool. -/
def freePoolSlot (s : State) (k : Nat) : Option Nat :=
  let used := (s.kv.seqs.filter (fun e => e.2.live && e.2.pool == k)).map (fun e => e.2.slot)
  (List.range (poolAt s k).seqSlots).find? (fun i => !used.contains i)

/-- The handle of a sequence. -/
def seqHandle (s : State) (k : Nat) : Nat := (seqAt s k).gen * 65536 + k

/-- Whether the pages a new sequence takes lie where writes must wait. -/
def framesWait (s : State) (k : Nat) (l0 : Nat) : Bool :=
  let q := seqAt s k
  let p := poolAt s q.pool
  (List.range ((l0 + 63) / 64)).any (fun page => rangeWaits s true (mapAddr s p q page) 4) ||
    (if l0 = 0 then false else (poolLanterns s p).any (fun l =>
      (List.range p.frames).any (fun f => !(tget [] p.used l).contains f && rangeWaits s true (frameAddr s p l f 0) (64 * p.layers))))

/-- SEQUENCE_CREATE. -/
def sequenceCreate (c : Call) (s : State) : Answer × State :=
  let p := c.owner
  let k := arg c.req 0 1
  let l0 := arg c.req 4 4
  if ¬ poolHere s p k ∨ l0 > (poolAt s k).maxTokens - 64 then refuse stBadArg s
  else if seqsHeld s p ≥ pdef s p 20 2 then refuse stBusy s
  else match tfind {} s.kv.seqs 4096 (fun q => !q.live), freePoolSlot s k with
    | some n, some slot =>
      let start := slot % max 1 (poolLanterns s (poolAt s k)).length
      let t := modSeq n (fun q => { live := true, gen := q.gen, part := p, pool := k, slot := slot, start := start, c := l0 }) s
      if framesWait t n l0 then (.later, s)
      else match allotFrames c.ue n (List.range ((l0 + 63) / 64)) t with
        | none => refuse stKvPoolEmpty s
        | some t => accept (created (seqHandle t n) 0) t
    | _, _ => refuse stBusy s

/-- SEQUENCE_CREATE (R147). -/
def execSequenceCreate (r : MbReq) (s : State) : Host.Outcome State Fault Refusal := whenServing (serve 0x0132 0 sequenceCreate r) s

/-- The number of a sequence handle, or the status it fails with (R148, R344); its reserved bits [15:12] are ignored (R5).
DESIGN CHOICE (notes/assumptions/79.md): the handle a REVOKED sequence had answers OBJECT_REVOKED, as R148 has it at dispatch;
a descriptor with STATE 1 is read through the slot's next generation. -/
def seqHandleStatus (s : State) (p h : Nat) : Except Nat Nat :=
  let q := seqAt s (h % 4096)
  if h / 65536 = 0 then .error stBadArg
  else if q.live ∧ q.part ≠ p then .error stBadArg
  else if q.gen ≠ h / 65536 then .error stObjectRevoked
  else if ¬ q.live then .error stBadArg
  else .ok (h % 4096)

/-- SEQUENCE_DESTROY. -/
def sequenceDestroy (c : Call) (s : State) : Answer × State :=
  match seqHandleStatus s c.owner (arg c.req 0 4) with
  | .error e => refuse e s
  | .ok k => if (seqAt s k).state = .revoked then refuse stObjectRevoked s else accept [] (revokeSeq k s)

/-- SEQUENCE_DESTROY (R148). -/
def execSequenceDestroy (r : MbReq) (s : State) : Host.Outcome State Fault Refusal := whenServing (serve 0x0133 0 sequenceDestroy r) s

/-- STATE code of a descriptor (R146). -/
def SeqState.code : SeqState → Nat
  | .active => 0 | .revoked => 1 | .lost => 2

/-- The sequence descriptor of R146. -/
def seqDescriptor (s : State) (k : Nat) : Bytes :=
  let q := seqAt s k
  fit 64 (le 1 1 ++ le 1 q.pool ++ le 1 q.start ++ le 1 q.d ++ le 4 (seqHandle s k) ++ le 4 q.c ++ le 4 q.e ++ le 4 q.pages.length ++
    le 1 q.state.code ++ zeros 1 ++ le 2 q.slot)

/-- SEQUENCE_QUERY. -/
def sequenceQuery (c : Call) (s : State) : Answer × State :=
  match seqHandleStatus s c.owner (arg c.req 0 4) with
  | .error e => refuse e s
  | .ok k => accept (seqDescriptor s k) s

/-- SEQUENCE_QUERY (R146). -/
def execSequenceQuery (r : MbReq) (s : State) : Host.Outcome State Fault Refusal := whenServing (serve 0x0134 0 sequenceQuery r) s

end Sys2Proof.Machine
end

