-- ==== Sys2Proof/Machine/KeyOps.lean ====
section
/-! DEFINITION. Keys by mailbox: KEY_GENERATE, KEY_IMPORT, KEY_CLEAR, KEY_GRANT, KEY_UNGRANT, KEY_SET_ROTATION_TARGET, KEY_ROTATE,
KEY_CONFIRM (R236 to R239, R243, R244, R346); the domain (R245 to R248). -/
namespace Sys2Proof.Machine

/-! ## Answers -/

/-- A change of key slots is answered once East holds it (R19). -/
def afterEast (s : State) : Answer × State := if s.seam.paired then (.wait (.eastKeys (lastKeyMessage s)) [], s) else accept [] s

/-! ## KEY_GENERATE (R238) -/

/-- A slot filled and sent to East. -/
def fillSlot (k : Nat) (v : KeySlot) (s : State) : State := loadEast k (putSlot k v s)

/-- A new MEMORY slot's key is drawn. -/
def generateMemory (c : Call) (s : State) : Answer × State :=
  let k := arg c.req 0 2
  let (b, s) := drbg 32 s
  afterEast (fillSlot k { key := b, cls := .memory, state := .active, owner := c.owner, engines := BitVec.ofNat 8 (arg c.req 3 1 % 64),
                          flags := BitVec.ofNat 8 (arg c.req 4 1 % 2), uses := arg c.req 8 6 } s)

/-- KEY_GENERATE. -/
def keyGenerate (c : Call) (s : State) : Answer × State :=
  let k := arg c.req 0 2
  let cls := arg c.req 2 1
  if ¬ lcPermits s then refuse stLcDenied s
  else if cls = 2 then
    if ¬ inPool s c.owner k ∨ (slotAt s k).state ≠ .empty then refuse stBadArg s
    else if ¬ s.ll.drbgRunning then refuse stEntropyFail s
    else generateMemory c s
  else if cls = 8 ∧ c.owner < 16 then
    if ¬ s.ll.drbgRunning then refuse stEntropyFail s
    else afterEast (drawSeed c.owner (BitVec.ofNat 8 (arg c.req 4 1 % 2)) s)
  else refuse stBadArg s

/-- KEY_GENERATE (R238). -/
def execKeyGenerate (r : MbReq) (s : State) : Host.Outcome State Fault Refusal := whenServing (serve 0x0200 0 keyGenerate r) s

/-! ## KEY_IMPORT (R243, R244) -/

/-- Fields of an envelope. -/
def envKind (e : Bytes) : Nat := fld e 1 1
def envEpoch (e : Bytes) : Nat := fld e 4 4
def envUses (e : Bytes) : Nat := fld e 8 6
def envFlags (e : Bytes) : Byte := BitVec.ofNat 8 (fld e 2 1)

/-- Step 1 of R244. -/
def envForm (e : Bytes) : Nat :=
  if fld e 0 1 ≠ 1 then stVersion
  else if ¬ (1 ≤ envKind e ∧ envKind e ≤ 4) ∨ fld e 2 1 ≥ 2 ∨ fld e 3 1 ≠ 0 ∨ (envKind e ≠ 1 ∧ envEpoch e ≠ 0) ∨ fld e 14 2 ≠ 0 then stBadArg
  else stOk

/-- Step 2: the report is one the device remembers (R242). -/
def envReport (s : State) (e : Bytes) : Bool :=
  s.ll.digests.any (fun d => d.digest == sub e 32 48 && decide (now s < d.time + s.boxes.reportTtl * 1000000000))

/-- The wrapped key (R243). -/
def envOpen (s : State) (e : Bytes) : Option Bytes :=
  (ecdh s.ll.importPriv (sub e 80 96)).bind (fun z =>
    gcmOpen (hkdf (sub e 32 48) z (ascii "EONAL-WRAP-1" ++ le 1 (envKind e) ++ le 4 (envEpoch e)) 32) (zeros 12) (e.take 176) (sub e 176 32) (sub e 208 16))

/-- Step 4: the domain the secret belongs to. -/
def envDomain (s : State) (e : Bytes) : Bool :=
  (decide (s.fabric.domState ≠ 0) && sub e 16 16 == fit 16 s.fabric.domId) || (envKind e ≠ 1 && sub e 16 16 == zeros 16)

/-- An epoch the device may take (R246, R247): above the current one, above every epoch it held in this domain before it was powered on. -/
def epochOk (s : State) (e : Bytes) : Bool :=
  (s.fabric.domState == 1 || (s.fabric.domState == 2 && decide (envEpoch e > s.fabric.epoch))) &&
    !(sub e 16 16 == fit 16 s.trust.domainId && s.trust.domainId ≠ [] && decide (envEpoch e ≤ s.trust.epochFloor))

/-- Step 5: the target suits the KIND. -/
def envTarget (s : State) (c : Call) (k : Nat) (e : Bytes) : Bool :=
  if envKind e = 2 then c.owner ≤ 16 && inPool s c.owner k && (slotAt s k).state == .empty
  else if envKind e = 4 then c.owner < 16
  else if envKind e = 3 then (c.mb == 16 || c.mb == 17) && ((slotAt s 1031).state == .empty || (c.mb == 17 && s.ll.mgmtActive))
  else c.mb == 16 && epochOk s e

/-- The checks of R244 in order, and the key of an envelope that passes them. -/
def importCheck (s : State) (c : Call) (k : Nat) (e : Bytes) : Nat × Bytes :=
  if envForm e ≠ stOk then (envForm e, [])
  else if ¬ envReport s e then (stAttestRequired, [])
  else match envOpen s e with
    | none => (stIntegrityFail, [])
    | some key => if envDomain s e ∧ envTarget s c k e then (stOk, key) else (stBadArg, [])

/-- The sealed key of an epoch (R212). -/
def sealOf (domainKey : Bytes) (epoch : Nat) : Bytes := hkdf [] domainKey (ascii "EONAL-SEAL-1" ++ le 4 epoch) 32

/-- The entries of both replay tables move from the current epoch to the previous one (R213). -/
def shiftReplay (s : State) : State :=
  let f (h : LinkHalf) : LinkHalf := { h with replay := tmap {} h.replay (fun _ r => { cur := 0, prev := r.cur }) }
  onFabric (fun x => { x with west := f x.west, east := f x.east }) s

/-- A slot's content moves to another slot. -/
def moveSlot (a b : Nat) (s : State) : State := if (slotAt s a).state = .empty then s else fillSlot b { slotAt s a with tag := [] } s

/-- A domain key is installed (R245 step 4, R246 step 1). -/
def installDomain (key : Bytes) (e : Bytes) (s : State) : Answer × State :=
  let f := s.fabric
  let d := envEpoch e
  let v : KeySlot := { key := key, cls := .domain, state := .active, owner := 17, flags := envFlags e, uses := envUses e }
  let s := moveSlot 1029 1030 (moveSlot 1027 1028 s)
  let s := fillSlot 1029 { v with key := sealOf key d, cls := .internal, uses := uncounted } (fillSlot 1027 v s)
  let s := onFabric (fun x => { x with domState := 2, epoch := d, sendEpoch := if f.domState = 2 then f.sendEpoch else d
                                       prevEpoch := f.epoch, havePrev := f.haveCur, haveCur := true }) (shiftReplay s)
  let s := onTrust (fun t => if t.domainId = f.domId then { t with highestEpoch := max t.highestEpoch d }
                             else { t with domainId := f.domId, highestEpoch := d, epochFloor := 0 }) s
  afterEast s

/-- A key that passed the checks goes where its KIND says. -/
def installKey (c : Call) (k : Nat) (e key : Bytes) (s : State) : Answer × State :=
  let v : KeySlot := { key := key, state := .active, flags := envFlags e, uses := envUses e }
  if envKind e = 2 then afterEast (fillSlot k { v with cls := .model, owner := c.owner, engines := 8#8 } s)
  else if envKind e = 4 then afterEast (fillSlot (1032 + c.owner) { v with cls := .digest, owner := c.owner } s)
  else if envKind e = 3 then afterEast (writeSealed (fillSlot 1031 { v with cls := .management, owner := 17, engines := 16#8 } s))
  else installDomain key e s

/-- KEY_IMPORT. The management mailbox imports a MANAGEMENT secret only (R256). -/
def keyImport (c : Call) (s : State) : Answer × State :=
  let k := arg c.req 0 2
  let e := argBytes c.req 8 224
  if c.mb = 17 ∧ envKind e ≠ 3 then refuse stNotPermitted s
  else if ¬ lcPermits s then refuse stLcDenied s
  else
    let r := importCheck s c k e
    if r.1 ≠ stOk then refuse r.1 s
    else if envKind e = 3 ∧ (s.flash.extAck ∨ s.trust.dusk) then (.later, s)
    else installKey c k e r.2 s

/-- KEY_IMPORT (R244). -/
def execKeyImport (r : MbReq) (s : State) : Host.Outcome State Fault Refusal := whenFused (serve 0x0201 0 keyImport r) s

/-! ## KEY_CLEAR, KEY_GRANT, KEY_UNGRANT (R238) -/

/-- Whether a slot lies in a pool the caller may clear. -/
def clearable (s : State) (p k : Nat) : Bool := inPool s p k || (p == 16 && (owners s).any (fun o => inPool s o k))

/-- Whether a slot is spent: EXPIRED, RETIRED, EXHAUSTED or BAD. -/
def KeySlot.spent (v : KeySlot) : Bool := v.state == .expired || v.state == .retired || v.state == .exhausted || v.state == .bad

/-- Whether a KEY_CLEAR of a slot has not yet replied. -/
def clearing (s : State) (k : Nat) : Bool :=
  s.boxes.waiting.any (fun w => reqOp (mbRequest s w.mb w.slot) == 0x0202 && arg (mbRequest s w.mb w.slot) 0 2 == k)

/-- KEY_CLEAR. A slot granted to a partition whose configuration is frozen is not cleared (R253, R262). -/
def keyClear (c : Call) (s : State) : Answer × State :=
  let k := arg c.req 0 2
  let v := slotAt s k
  if ¬ clearable s c.owner k then refuse stBadArg s
  else if clearing s k then refuse stBusy s
  else if v.state = .empty then accept [] s
  else if v.owner ≠ c.owner ∧ ¬ v.spent then refuse stNotPermitted s
  else if rotating s k then refuse stBusy s
  else if s.keys.grants.any (fun g => g.slot == k && !partOpen s g.part) then refuse stInterfaceLocked s
  else
    let s := closeGrants k (fun _ => true) (modSlot k (fun v => { v with draining := true }) s)
    (.wait (.keyDrain k) [], onPath (fun p => { p with due := tset {} p.due k {} }) s)

/-- KEY_CLEAR (R238). -/
def execKeyClear (r : MbReq) (s : State) : Host.Outcome State Fault Refusal := whenServing (serve 0x0202 0 keyClear r) s

/-- Whether a slot may be granted: a MEMORY slot that the manager owns. -/
def grantable (s : State) (k : Nat) : Bool := 0 < k && k < 0x400 && (slotAt s k).cls == .memory && (slotAt s k).owner == 16 && !(slotAt s k).draining

/-- KEY_GRANT; a grant that stands takes the new mode. -/
def keyGrant (c : Call) (s : State) : Answer × State :=
  let k := arg c.req 0 2
  let p := arg c.req 2 1
  if ¬ grantable s k ∨ p > 15 ∨ ¬ partExists s p ∨ arg c.req 3 1 > 1 then refuse stBadArg s
  else if ¬ partOpen s p then refuse stInterfaceLocked s
  else accept [] (onKeys (fun x => { x with grants := x.grants ++ [⟨k, p, arg c.req 3 1 == 1, false⟩] }) (endGrants k (fun g => g.part == p) s))

/-- KEY_GRANT (R238). -/
def execKeyGrant (r : MbReq) (s : State) : Host.Outcome State Fault Refusal := whenServing (serve 0x0203 0 keyGrant r) s

/-- KEY_UNGRANT: it replies when what the partition was admitted to has completed. -/
def keyUngrant (c : Call) (s : State) : Answer × State :=
  let k := arg c.req 0 2
  let p := arg c.req 2 1
  if ¬ grantable s k ∨ p > 15 ∨ ¬ partExists s p then refuse stBadArg s
  else if ¬ s.keys.grants.any (fun g => g.slot == k && g.part == p) then accept [] s
  else if ¬ partOpen s p then refuse stInterfaceLocked s
  else (.wait (.grantDrain k p) [], closeGrants k (fun g => g.part == p) s)

/-- KEY_UNGRANT (R238). -/
def execKeyUngrant (r : MbReq) (s : State) : Host.Outcome State Fault Refusal := whenServing (serve 0x0204 0 keyUngrant r) s

/-! ## Rotation (R65, R70, R238, R239) -/

/-- Whether a slot is an ACTIVE MEMORY slot that the caller may name: its own, or any owner's for the manager. -/
def rotatable (s : State) (p k : Nat) : Bool :=
  0 < k && k < 0x400 && (slotAt s k).cls == .memory && (slotAt s k).state == .active && !(slotAt s k).draining && ((slotAt s k).owner == p || p == 16)

/-- Whether a slot has written the capacity tier. -/
def KeySlot.capUsed (v : KeySlot) : Bool := v.flags.toNat.testBit 1

/-- KEY_SET_ROTATION_TARGET: B serves its owner's rotations. -/
def keySetTarget (c : Call) (s : State) : Answer × State :=
  let b := arg c.req 0 2
  if ¬ rotatable s c.owner b ∨ (slotAt s b).capUsed then refuse stBadArg s
  else accept [] (onKeys (fun x => { x with targets := tset 0xFFFF x.targets (slotAt s b).owner b }) s)

/-- KEY_SET_ROTATION_TARGET (R238). -/
def execKeySetRotationTarget (r : MbReq) (s : State) : Host.Outcome State Fault Refusal := whenServing (serve 0x0205 0 keySetTarget r) s

/-- Whether a rotation's range reaches the capacity tier. -/
def reachesCap (s : State) (a base len : Nat) : Bool :=
  if len = 0 then (keyRanges s a).any (fun r => r.2 > capBase) else base + len > capBase

/-- The refusals of KEY_ROTATE. -/
def rotateOk (s : State) (p a b share base len : Nat) : Bool :=
  a ≠ b && rotatable s p a && rotatable s p b && (slotAt s a).owner == (slotAt s b).owner && share ≤ 25 && base % mib2 == 0 && len % mib2 == 0 &&
    !(reachesCap s a base len && (slotAt s b).capUsed)

/-- KEY_ROTATE: it replies when every unit has opened its sweep. -/
def keyRotate (c : Call) (s : State) : Answer × State :=
  let r := c.req
  let a := arg r 0 2
  let b := arg r 2 2
  let o := (slotAt s a).owner
  if rotating s a ∨ rotating s b then refuse stBusy s
  else if ¬ rotateOk s c.owner a b (arg r 4 1) (arg r 8 8) (arg r 16 8) then refuse stBadArg s
  else match freeRotation s with
    | none => refuse stBusy s
    | some n =>
      let s := startRotation n a b (arg r 8 8) (arg r 16 8) (if arg r 4 1 = 0 then 2 else arg r 4 1) s
      let s := if tget 0xFFFF s.keys.targets o = b then onKeys (fun x => { x with targets := terase x.targets o }) s else s
      (.wait (.sweepOpen n) (created n 0), s)

/-- KEY_ROTATE (R238). -/
def execKeyRotate (r : MbReq) (s : State) : Host.Outcome State Fault Refusal := whenServing (serve 0x0206 0 keyRotate r) s

/-- KEY_CONFIRM: A retires (R70). -/
def keyConfirm (c : Call) (s : State) : Answer × State :=
  let a := arg c.req 0 2
  let v := slotAt s a
  if ¬ (0 < a ∧ a < 0x400) ∨ v.state ≠ .aliased ∨ (v.owner ≠ c.owner ∧ c.owner ≠ 16) then refuse stBadArg s
  else match s.path.rotations.find? (fun e => e.2.active && e.2.a == a) with
    | none => refuse stBadArg s
    | some e => (.wait (.retireDrain e.1) [], s)

/-- KEY_CONFIRM (R70). -/
def execKeyConfirm (r : MbReq) (s : State) : Host.Outcome State Fault Refusal := whenServing (serve 0x0207 0 keyConfirm r) s

/-! ## The domain (R245 to R248) -/

/-- Whether a length is a trust list's (R342). -/
def trustLen (n : Nat) : Bool := (List.range 8).any (fun i => n == 16 + 48 * (i + 1))

/-- DOMAIN_PREPARE. -/
def domainPrepare (c : Call) (s : State) : Answer × State :=
  if ¬ lcPermits s then refuse stLcDenied s
  else if s.fabric.domState ≠ 0 then refuse stBusy s
  else if arg c.req 16 2 ≥ 16384 then refuse stBadArg s
  else if imageWaits s c 32 then (.later, s)
  else
    let (st, b, s) := readImage c 32 trustLen s
    if st ≠ stOk then refuse st s
    else if fld b 0 1 ≠ 1 then refuse stVersion s
    else if b.length ≠ 16 + 48 * fld b 1 1 then refuse stBadArg s
    else accept [] (onFabric (fun f => { f with domState := 1, domId := argBytes c.req 0 16, node := arg c.req 16 2, trust := chunks 48 (b.drop 16) }) s)

/-- DOMAIN_PREPARE (R245). -/
def execDomainPrepare (r : MbReq) (s : State) : Host.Outcome State Fault Refusal := whenServing (serve 0x0300 0 domainPrepare r) s

/-- DOMAIN_ACTIVATE. -/
def domainActivate (c : Call) (s : State) : Answer × State :=
  if s.fabric.domState ≠ 2 ∨ arg c.req 0 4 ≠ s.fabric.epoch then refuse stBadArg s
  else accept [] (onFabric (fun f => { f with sendEpoch := f.epoch }) s)

/-- DOMAIN_ACTIVATE (R246). -/
def execDomainActivate (r : MbReq) (s : State) : Host.Outcome State Fault Refusal := whenServing (serve 0x0301 0 domainActivate r) s

/-- DOMAIN_RETIRE_PREVIOUS. -/
def domainRetire (_ : Call) (s : State) : Answer × State :=
  afterEast (onFabric (fun f => { f with havePrev := false }) (wipeSlot 1030 (wipeSlot 1028 s)))

/-- DOMAIN_RETIRE_PREVIOUS (R246). -/
def execDomainRetirePrevious (r : MbReq) (s : State) : Host.Outcome State Fault Refusal := whenServing (serve 0x0302 0 domainRetire r) s

/-- Every outstanding operation of a half fails with a status. -/
def failAllOps (west : Bool) (st : Nat) (s : State) : State :=
  (halfOf s west).ops.foldl (fun s e => if e.2.used then finishOp {} west e.1 st [] s else s) s

/-- A PEER port's session is closed with END_SESSION and the port set FAILED. -/
def closePort (p : Nat) (s : State) : State :=
  let l := linkAt s p
  if roleOf s p ≠ 0 ∨ l.state = .down then s else
  let s := if l.session ≠ 0 then emit (.spdm p 9) s else s
  modLink p (fun l => { l with state := .failed, failedAt := now s, session := 0, rxSession := 0, newSession := 0, master := [], transcript := [], txKey := []
                               txNext := [], rxKey := [], rxNext := [], renewing := false }) s

/-- DOMAIN_LEAVE (R248). -/
def domainLeave (_ : Call) (s : State) : Answer × State :=
  let s := failAllOps false stFabricDenied (failAllOps true stFabricDenied s)
  let s := (List.range s.build.links).foldl (fun s p => closePort p s) s
  let s := [1027, 1028, 1029, 1030].foldl (fun s k => wipeSlot k s) s
  let s := onFabric (fun f => { f with domState := 0, trust := [], epoch := 0, sendEpoch := 0, prevEpoch := 0, havePrev := false, haveCur := false
                                       west := { f.west with replay := [], owed := [] }, east := { f.east with replay := [], owed := [] } }) s
  afterEast s

/-- DOMAIN_LEAVE (R248). -/
def execDomainLeave (r : MbReq) (s : State) : Host.Outcome State Fault Refusal := whenServing (serve 0x0303 0 domainLeave r) s

end Sys2Proof.Machine
end

