-- ==== Sys2Proof/Machine/ReportOps.lean ====
section
/-! DEFINITION. The attestation report (R241, R242, R347), SPDM messages by mailbox (R252, R345), the management session (R256 to
R258, R347). -/
namespace Sys2Proof.Machine

/-! ## The report (R241, R242) -/

/-- One TLV: type, value length, value padded to a multiple of 4 B. -/
def tlv (ty : Nat) (v : Bytes) : Bytes := le 2 ty ++ le 2 v.length ++ v ++ zeros ((4 - v.length % 4) % 4)

/-- The length of a DER element, its tag and length included. -/
def derLen (b : Bytes) : Nat :=
  let n := fld b 1 1
  if n < 0x80 then 2 + n else 2 + (n - 0x80) + beNat (sub b 2 (n - 0x80))

/-- The certificates of the certificate area, in its order (R508): `n` DER elements one after another. -/
def derSplit : Nat → Bytes → List Bytes
  | 0, _ => []
  | n + 1, b => b.take (derLen b) :: derSplit n (b.drop (derLen b))

/-- The certificates in the flash; none where the area is erased or malformed (R508). -/
def areaCerts (s : State) : List Bytes :=
  let h := flashRead s 0x010000 16
  if fld h 0 1 ≠ 1 ∨ fld h 1 1 = 0 ∨ fld h 1 1 > 4 ∨ fld h 4 4 > 0xFFF0 then [] else derSplit (fld h 1 1) (flashRead s 0x010010 (fld h 4 4))

/-- The chain that SPDM serves for slot 0: the area's certificates in reverse order, then the Alias certificate (R508). -/
def slotChain (s : State) : Bytes :=
  (areaCerts s).reverse.flatten ++ ((s.ll.aliasCert.map (fun c => Sys2Proof.Config.certDer c.contents c.sig)).getD [])

/-- IDENTITY. -/
def tlvIdentity (s : State) : Bytes :=
  let b := s.build
  tlv 0x0001 ([1#8, 0#8, 0#8, 0#8] ++ le 1 b.lanterns ++ le 1 b.wicks ++ le 1 b.spares ++ le 1 b.links ++ le 1 b.caps ++ le 1 b.parts ++ le 1 (b2n b.mldsa) ++
    romBytes 240 16 ++ sha384 (slotChain s))

/-- What a report says of a table: kind, index, owner (0xFE the manager, who owns the built-in entries by R83), the digest. -/
def tableLine (s : State) (kind i : Nat) : Bytes :=
  if kind = 0 ∧ i < 12 then [0#8] ++ le 1 i ++ [0xFE#8] ++ sha384 (fmtBytes (builtinFmt i))
  else le 1 kind ++ le 1 i ++ le 1 (ownerByte (tableAt s kind i).owner) ++ fit 48 (tableAt s kind i).digest

/-- Whether the scope shows a table. -/
def tableShown (s : State) (all : Bool) (p kind i : Nat) : Bool := if all then (kind == 0 && i < 12) || (tableAt s kind i).loaded else tableUsable s p kind i

/-- TABLES. -/
def tlvTables (s : State) (all : Bool) (p : Nat) : Bytes :=
  tlv 0x0004 ((List.range 4).flatMap (fun kind => ((List.range (tableCount kind)).filter (tableShown s all p kind)).flatMap (tableLine s kind)))

/-- A partition's 24 B of PARTITIONS. The rule names the values and their order, not the width of each (DESIGN CHOICE,
notes/assumptions/86.md): number 1 B, TDISP state 1 B, wicks in the lantern where it has most 2 B, the bytes of its carve-outs in the stacked
and in the capacity tier 8 B each, key-ID count 2 B, share of stacked bandwidth 2 B. -/
def partEntry (s : State) (p : Nat) : Bytes :=
  le 1 p ++ le 1 (partAt s p).tdi.code ++ le 2 (((List.range s.build.lanterns).map (fun l => pdef s p (64 + l) 1)).foldl max 0) ++
    le 8 (mib2 * (pdef s p 36 4 + s.build.lanterns * pdef s p 44 4)) ++ le 8 (mib2 * pdef s p 52 4) ++ le 2 (pdef s p 10 2) ++ le 2 (pdef s p 26 2)

/-- PARTITIONS. -/
def tlvPartitions (s : State) : Bytes := tlv 0x0007 (((List.range 16).filter (partExists s)).flatMap (partEntry s))

/-- How many bytes of a report's body the spec lays down nowhere: the trust list's digest where no list is loaded. -/
def openTrust (s : State) : Nat := if s.fabric.trust = [] then 48 else 0

/-- SHA-384 of the trust list. -/
def trustDigest (s : State) (open_ : Bytes) : Bytes :=
  if s.fabric.trust = [] then open_ else sha384 ([1#8] ++ le 1 s.fabric.trust.length ++ zeros 14 ++ s.fabric.trust.flatten)

/-- The header and the TLVs before the signatures, for a report of `len` bytes. -/
def reportBody (s : State) (all : Bool) (p requester : Nat) (nonce : Bytes) (len flags seq : Nat) (open_ : Bytes) : Bytes :=
  [1#8, 0#8] ++ le 2 len ++ le 2 flags ++ zeros 2 ++ le 8 seq ++ tlvIdentity s ++ tlv 0x0002 (romBytes 0 48) ++
  tlv 0x0003 (fit 48 s.ll.imageDigest ++ le 4 s.ll.svn ++ le 1 s.ll.image) ++ tlvTables s all p ++
  tlv 0x0005 (le 1 (lcState s) ++ le 2 (svnCount s) ++ le 8 (fuseSummary s)) ++
  tlv 0x0006 (le 4 s.trust.debugNow.toNat ++ le 4 s.trust.debugEver.toNat) ++ tlvPartitions s ++
  tlv 0x0008 (le 1 s.fabric.domState ++ fit 16 s.fabric.domId ++ le 2 s.fabric.node ++ le 4 s.fabric.epoch ++ trustDigest s open_) ++
  tlv 0x0009 nonce ++ tlv 0x000A (fit 96 s.ll.importPub) ++ tlv 0x000B (le 1 (b2n s.trust.rootFresh) ++ le 2 s.trust.cause.toNat) ++
  tlv 0x000C (le 8 (now s)) ++ tlv 0x000D (le 1 requester)

/-- A whole report, signatures included, and the state after its random bytes were drawn: the nonce of the ECDSA signature, and the
bytes the spec lays down nowhere. -/
def makeReport (all : Bool) (p requester : Nat) (nonce : Bytes) (pq : Bool) (s : State) : Bytes × State :=
  let pq := pq && s.build.mldsa
  let n := openTrust s
  let open_ := unstatedBytes n s
  let s0 := s
  let (k, s) := drbg 56 (drawn n s)
  let seq := s.ll.reportSeq + 1
  let flags := b2n all + 2 * b2n pq
  let size := (reportBody s0 all p requester nonce 0 flags seq open_).length + 100 + (if pq then 3316 else 0)
  let b := reportBody s0 all p requester nonce size flags seq open_
  let sig := ecdsaSign s.ll.aliasPriv (scalarOf k) (sha384 b)
  let sig2 : Bytes := if pq then tlv 0x8002 ((List.range 3309).map (Sys2Proof.Config.mldsaSig s.ll.aliasPqSeed b)) else []
  (b ++ tlv 0x8001 sig ++ sig2, s)

/-- A report is issued: counted, and its digest remembered among the 16 most recent. -/
def issueReport (r : Bytes) (s : State) : State :=
  onLl (fun l => { l with reportSeq := l.reportSeq + 1, digests := (l.digests ++ [(⟨sha384 r, now s⟩ : ReportDigest)]).drop (l.digests.length + 1 - 16) }) s

/-- A report's write into the requester's buffer. -/
def putReport (c : Call) (m : Bytes × State) : Nat × State :=
  memWrite { part := c.owner, kind := kindFrontEnd, access := 2, master := 7 } c.ue (arg c.req 32 8) m.1 m.2

/-- A made report goes to the requester's buffer; `s` is the state before it was made. -/
def deliverReport (c : Call) (s : State) (m : Bytes × State) : Answer × State :=
  if m.1.length > arg c.req 40 4 then refuse stBadArg s
  else if rangeWaits s true (arg c.req 32 8) m.1.length then (.later, s)
  else if (putReport c m).1 ≠ stOk then refuse (putReport c m).1 (putReport c m).2
  else
    let t := issueReport m.1 (putReport c m).2
    accept (le 4 m.1.length ++ zeros 4 ++ le 8 t.ll.reportSeq ++ sha384 m.1) t

/-- The report a partition or the manager asks for. -/
def askedReport (c : Call) (s : State) : Bytes × State :=
  makeReport (c.mb == 16 && bit (arg c.req 44 1) 1) c.owner (if c.mb = 16 then 0xFE else c.mb) (argBytes c.req 0 32) (bit (arg c.req 44 1) 0) s

/-- REPORT_GET into a buffer of a partition or the manager. -/
def reportToBuffer (c : Call) (s : State) : Answer × State := deliverReport c s (askedReport c s)

/-- A piece of the held report. -/
def reportPiece (off : Nat) (s : State) : Answer × State :=
  let r := s.ll.heldReport
  accept (le 4 r.length ++ le 4 off ++ sub r off (min 232 (r.length - off))) s

/-- A made report is held for its pieces. -/
def holdReport (nonce : Bytes) (m : Bytes × State) : State :=
  onLl (fun l => { l with heldReport := m.1, heldNonce := nonce }) (issueReport m.1 m.2)

/-- REPORT_GET through the management mailbox. -/
def reportPieces (c : Call) (s : State) : Answer × State :=
  let off := arg c.req 32 4
  let nonce := argBytes c.req 0 32
  if off = 0 then
    if ¬ s.ll.drbgRunning then refuse stEntropyFail s
    else reportPiece 0 (holdReport nonce (makeReport true 16 0xFD nonce (bit (arg c.req 36 1) 0) s))
  else if s.ll.heldReport = [] ∨ nonce ≠ s.ll.heldNonce ∨ off ≥ s.ll.heldReport.length then refuse stBadArg s
  else reportPiece off s

/-- REPORT_GET. -/
def reportGet (c : Call) (s : State) : Answer × State :=
  if ¬ lcPermits s then refuse stLcDenied s
  else if c.mb = 17 then reportPieces c s
  else if ¬ s.ll.drbgRunning then refuse stEntropyFail s
  else reportToBuffer c s

/-- REPORT_GET (R241). -/
def execReportGet (r : MbReq) (s : State) : Host.Outcome State Fault Refusal := whenServing (serve 0x0208 0 reportGet r) s

/-- REPORT_DIGEST_EXPIRY (R242): digests older than REPORT_TTL are forgotten. -/
def execReportDigestExpiry (s : State) : Host.Outcome State Fault Refusal :=
  whenServing (fun s => onLl (fun l => { l with digests := l.digests.filter (fun d => decide (now s < d.time + s.boxes.reportTtl * 1000000000)) }) s) s

/-! ## SPDM messages (R252, R345) -/

/-- A piece in the form of R345. -/
def spdmPiece (len flags off : Nat) (b : Bytes) : Bytes := le 2 len ++ le 1 flags ++ zeros 1 ++ le 4 off ++ b

/-- A piece of the reply the manager collects. -/
def spdmCollect (off : Nat) (s : State) : Answer × State :=
  let m := s.ll.spdmReply
  if off ≥ m.length then refuse stBadArg s
  else
    let b := sub m off (min 232 (m.length - off))
    accept (spdmPiece m.length (if off + b.length = m.length then 2 else 0) off b) s

/-- A whole message is in: the responder's reply is that of DMTF SPDM, whose bytes and length the spec leaves to it. -/
def spdmMade (s : State) : State :=
  let n := max 1 (leNat (unstatedBytes 2 s))
  onLl (fun l => { l with spdmBuffer := [], spdmReply := unstatedBytes n (drawn 2 s) }) (drawn n (drawn 2 s))

/-- The reply's first piece answers the last piece of the message. -/
def spdmAnswer (s : State) : Answer × State := spdmCollect 0 (spdmMade s)

/-- SPDM_MESSAGE: a piece in ascending OFFSET, the last acted upon; or, with FLAGS 0 and LENGTH 0, a piece of the reply. -/
def spdmMessage (c : Call) (s : State) : Answer × State :=
  let len := arg c.req 0 2
  let fl := arg c.req 2 1
  let off := arg c.req 4 4
  let b := argBytes c.req 8 (reqLen c.req - 8)
  if len = 0 ∧ fl = 0 then spdmCollect off s
  else if b = [] ∨ (off ≠ 0 ∧ off ≠ s.ll.spdmBuffer.length) ∨ off + b.length > len ∨ (bit fl 1 ∧ off + b.length ≠ len) then refuse stBadArg s
  else
    let s := onLl (fun l => { l with spdmBuffer := l.spdmBuffer.take off ++ b }) s
    if bit fl 1 then spdmAnswer s else accept (spdmPiece 0 0 0 []) s

/-- SPDM_MESSAGE (R252). -/
def execSpdmMessage (r : MbReq) (s : State) : Host.Outcome State Fault Refusal := whenServing (serve 0x0209 0 spdmMessage r) s

/-! ## The management session (R256 to R258) -/

/-- MGMT_CHALLENGE. -/
def mgmtChallenge (_ : Call) (s : State) : Answer × State :=
  if ¬ s.ll.drbgRunning then refuse stEntropyFail s else
  let (b, s) := drbg 32 s
  accept b (onLl (fun l => { l with mgmtNonce := b, mgmtNonceAt := now s, mgmtNonceOn := true }) s)

/-- MGMT_CHALLENGE (R257). -/
def execMgmtChallenge (r : MbReq) (s : State) : Host.Outcome State Fault Refusal := whenServing (serve 0x0700 0 mgmtChallenge r) s

/-- Whether the device nonce is valid. -/
def nonceLive (s : State) : Bool := s.ll.mgmtNonceOn && decide (now s < s.ll.mgmtNonceAt + 10000000000)

/-- How long a count of consecutive failures locks MGMT_AUTH out, in ns (R258). -/
def lockTime (fails : Nat) : Nat := if fails < 3 then 0 else min 1024 (2 ^ min 10 (fails - 3)) * 1000000000

/-- A failed MGMT_AUTH. -/
def authFails (s : State) : Answer × State :=
  let n := s.ll.mgmtFails + 1
  refuse stAuthFailed (writeSealed (onLl (fun l => { l with mgmtFails := n, mgmtLockEnd := now s + lockTime n }) s))

/-- A session ends (R257). -/
def endSession (s : State) : State :=
  onLl (fun l => { l with mgmtActive := false, mgmtKey := [], mgmtRx := 0, mgmtTx := 0, mgmtStart := 0, heldReport := [], heldNonce := [] }) s

/-- A MGMT_AUTH that matches: the session before it ends, the reply goes out under the secret, the new session begins. -/
def openSession (c : Call) (secret nb nd : Bytes) (s : State) : State :=
  let s := writeSealed (onLl (fun l => { l with mgmtFails := 0, mgmtLockEnd := 0 }) (endSession s))
  let s := reply c.mb c.slot stOk (hmac secret (ascii "EONAL-MGMT-1" ++ nb ++ nd)) s
  onLl (fun l => { l with mgmtActive := true, mgmtKey := hkdf (nd ++ nb) secret (ascii "EONAL-MGMT-S-1") 32, mgmtStart := now s }) s

/-- The reply's HMAC is a second use of the secret. -/
def authPasses (c : Call) (secret nb : Bytes) (s : State) : Answer × State :=
  let x := useSlot 1031 s
  if x.1 ≠ stOk then refuse x.1 x.2 else (.kept, openSession c secret nb s.ll.mgmtNonce x.2)

/-- The HMAC a MGMT_AUTH must carry. -/
def authMac (s : State) (c : Call) : Bytes :=
  hmac (slotAt s 1031).key (ascii "EONAL-MGMT-1" ++ s.ll.mgmtNonce ++ argBytes c.req 0 32 ++ le 1 (tget {} (boxAt s c.mb).slots c.slot).mctpEid)

/-- The check of a MGMT_AUTH, the secret's first use counted. -/
def authAnswer (c : Call) (x : Nat × State) : Answer × State :=
  if x.1 ≠ stOk then refuse x.1 x.2
  else if authMac x.2 c = argBytes c.req 32 48 then authPasses c (slotAt x.2 1031).key (argBytes c.req 0 32) x.2 else authFails x.2

/-- MGMT_AUTH. -/
def mgmtAuth (c : Call) (s : State) : Answer × State :=
  if now s < s.ll.mgmtLockEnd then refuse stAuthFailed s
  else if s.flash.extAck ∨ s.trust.dusk then (.later, s)
  else if ¬ nonceLive s then authFails s
  else authAnswer c (useSlot 1031 s)

/-- MGMT_AUTH (R257). -/
def execMgmtAuth (r : MbReq) (s : State) : Host.Outcome State Fault Refusal := whenFused (serve 0x0701 0 mgmtAuth r) s

/-- MGMT_END: the reply is the session's last message. -/
def mgmtEnd (c : Call) (s : State) : Answer × State := (.kept, endSession (reply c.mb c.slot stOk [] s))

/-- MGMT_END (R257). -/
def execMgmtEnd (r : MbReq) (s : State) : Host.Outcome State Fault Refusal := whenServing (serve 0x0702 0 mgmtEnd r) s

/-- MGMT_SESSION_EXPIRY (R257): a session ends 3,600 s after it opened. -/
def execMgmtSessionExpiry (s : State) : Host.Outcome State Fault Refusal :=
  whenServing (fun s => if s.ll.mgmtActive ∧ now s ≥ s.ll.mgmtStart + 3600000000000 then endSession s else s) s

end Sys2Proof.Machine
end

