-- ==== Sys2Proof/Machine/TableOps.lean ====
section
/-! DEFINITION. Tables, routing groups and expert servers by mailbox: TABLE_LOAD, TABLE_UNLOAD, TABLE_GRANT and TABLE_UNGRANT (R85 to R88,
R173, R341), RGROUP_CREATE and RGROUP_DESTROY (R165, R166, R187), SERVER_START and SERVER_STOP (R178, R344). -/
namespace Sys2Proof.Machine

/-! ## Loading an image into both halves (R85, R21) -/

/-- Stolaikor's copy of an image is made, East is told to fetch it, and the request waits for East's reply. -/
def loadImage (kind index count : Nat) (img : Bytes) (s : State) : Answer × State :=
  let t := s.seam.tickets + 1
  let a := leNat (unstatedBytes 8 s)
  let s := onSeam (fun x => { x with tickets := t }) (drawn 8 s)
  let s := onLl (fun l => { l with images := tset (0, []) l.images t (kind, img) }) s
  (.wait (.eastFetch t kind index count) [], seamSend true 7 (.mailbox (.fetch t kind index a img.length (sha384 img))) s)

/-- Indices a table request may name: a built-in format entry is none (R341). -/
def tableIndexOk (kind i : Nat) : Bool := kind < 4 && decide (i < tableCount kind) && (kind ≠ 0 || 12 ≤ i)

/-- Whether a length is one that an image of this kind and index can have (R341, R342), known before the image is read. -/
def tableLength (kind i n : Nat) : Bool :=
  match kind with
  | 0 => n == 32
  | 1 => decide (528 ≤ n) && (n - 16) % 512 == 0 && decide (i + (n - 16) / 512 ≤ 256)
  | 2 => n == 3104
  | _ => decide (64 ≤ n ∧ n ≤ 2 ^ 22) && n % 16 == 0

/-- How many indices an image of a length fills. -/
def tableSpan (kind n : Nat) : Nat := if kind = 1 then (n - 16) / 512 else 1

/-- Whether Eonal accepts a placement image (R172, R341). -/
def placementValid (img : Bytes) : Bool :=
  img.length == 64 + 16 * (fld img 2 2 * fld img 4 2) &&
    (List.range (fld img 2 2 * fld img 4 2)).all (fun i => decide (1 ≤ fld img (64 + 16 * i) 1 ∧ fld img (64 + 16 * i) 1 ≤ 3))

/-- Whether Eonal accepts an image for an index. -/
def tableValid (kind i : Nat) (img : Bytes) : Bool :=
  match kind with
  | 0 => fmtValid img
  | 1 => codebookValid img i
  | 2 => curveValid img
  | _ => placementValid img

/-- Targets of a request. -/
def targets (i n : Nat) : List Nat := (List.range n).map (fun j => i + j)

/-- Whether a table is loaded and another party's. -/
def othersTable (s : State) (p kind i : Nat) : Bool := (tableAt s kind i).loaded && (tableAt s kind i).owner ≠ p

/-- TABLE_LOAD. -/
def tableLoad (c : Call) (s : State) : Answer × State :=
  let kind := arg c.req 0 1
  let i := arg c.req 1 1
  let len := arg c.req 4 4
  let a := arg c.req 8 8
  if ¬ tableIndexOk kind i ∨ ¬ tableLength kind i len then refuse stBadArg s
  else if (targets i (tableSpan kind len)).any (othersTable s c.owner kind) then refuse stNotPermitted s
  else if (targets i (tableSpan kind len)).any (pinned s kind) then refuse stBusy s
  else if (targets i (tableSpan kind len)).any (tableLoading s kind) then (.later, s)
  else if rangeWaits s false a len then (.later, s)
  else
    let (r, s) := memRead { part := c.owner, kind := kindFrontEnd, access := 1, master := 7 } c.ue a len s
    if r.status ≠ stOk then refuse r.status s
    else if sha384 r.data ≠ argBytes c.req 16 48 then refuse stIntegrityFail s
    else if fld r.data 0 1 ≠ 1 then refuse stVersion s
    else if ¬ tableValid kind i r.data then refuse stBadArg s
    else loadImage kind i (tableSpan kind len) r.data s

/-- TABLE_LOAD (R85). -/
def execTableLoad (r : MbReq) (s : State) : Host.Outcome State Fault Refusal := whenServing (serve 0x0400 0 tableLoad r) s

/-! ## Unloading and granting (R86, R88) -/

/-- How many indices an unload or a grant names: a range of codebooks, one of any other kind (R345). -/
def namedSpan (r : Bytes) : Nat := arg r 4 2

/-- Whether an unload or a grant names indices that exist. -/
def namedOk (r : Bytes) : Bool :=
  tableIndexOk (arg r 0 1) (arg r 1 1) && 1 ≤ namedSpan r && (arg r 0 1 == 1 || namedSpan r == 1) && decide (arg r 1 1 + namedSpan r ≤ tableCount (arg r 0 1))

/-- TABLE_UNLOAD: the reply comes once East's lanterns have zeroised their entries too. A table granted to a partition whose configuration is
frozen is not unloaded (R253, R262). -/
def tableUnload (c : Call) (s : State) : Answer × State :=
  let kind := arg c.req 0 1
  let is := (targets (arg c.req 1 1) (namedSpan c.req)).filter (fun i => (tableAt s kind i).loaded)
  if ¬ namedOk c.req then refuse stBadArg s
  else if c.owner ≠ 16 ∧ is.any (othersTable s c.owner kind) then refuse stNotPermitted s
  else if (targets (arg c.req 1 1) (namedSpan c.req)).any (pinned s kind) then refuse stBusy s
  else if (targets (arg c.req 1 1) (namedSpan c.req)).any (tableLoading s kind) then (.later, s)
  else if is.any (fun i => (tableAt s kind i).grants.any (fun p => !partOpen s p)) then refuse stInterfaceLocked s
  else if is = [] then accept [] s
  else
    let x := dropEast kind (arg c.req 1 1) (namedSpan c.req) (is.foldl (fun s i => unloadWest kind i s) s)
    (.wait (.eastDrop x.1 kind (arg c.req 1 1) (namedSpan c.req)) [], x.2)

/-- TABLE_UNLOAD (R88). -/
def execTableUnload (r : MbReq) (s : State) : Host.Outcome State Fault Refusal := whenServing (serve 0x0401 0 tableUnload r) s

/-- A grant or its end: only loaded tables of the manager. -/
def tableGrants (f : Nat → List Nat → List Nat) (c : Call) (s : State) : Answer × State :=
  let kind := arg c.req 0 1
  let p := arg c.req 2 1
  let is := targets (arg c.req 1 1) (namedSpan c.req)
  if ¬ namedOk c.req ∨ p ≥ 16 ∨ ¬ partExists s p ∨ is.any (fun i => !(tableAt s kind i).loaded || (tableAt s kind i).owner ≠ 16) then refuse stBadArg s
  else if ¬ partOpen s p then refuse stInterfaceLocked s
  else accept [] (is.foldl (fun s i => setTable kind i { tableAt s kind i with grants := f p (tableAt s kind i).grants } s) s)

/-- TABLE_GRANT (R86). -/
def execTableGrant (r : MbReq) (s : State) : Host.Outcome State Fault Refusal :=
  whenServing (serve 0x0402 0 (tableGrants (fun p g => if g.contains p then g else g ++ [p])) r) s

/-- TABLE_UNGRANT (R86). -/
def execTableUngrant (r : MbReq) (s : State) : Host.Outcome State Fault Refusal :=
  whenServing (serve 0x0403 0 (tableGrants (fun p g => g.filter (· ≠ p))) r) s

/-! ## Routing groups (R165, R166, R344) -/

/-- Whether a BINARY32 pattern lies from 0 to 1. -/
def unitF32 (x : Nat) : Bool := decide (x ≤ 0x3F800000) || x == 0x80000000

/-- The group a request describes; its members are read later. -/
def groupOfReq (p obj now : Nat) (r : Bytes) : RGroup :=
  { live := true, owner := p, experts := arg r 4 2, layers := arg r 6 2, k := arg r 2 1, placement := arg r 1 1, obj := obj, key := arg r 36 2
    offset := arg r 40 8, leader := arg r 28 2, periodUs := arg r 8 4, gain := BitVec.ofNat 32 (arg r 12 4), clamp := BitVec.ofNat 32 (arg r 16 4)
    decay := BitVec.ofNat 32 (arg r 20 4), waitUs := arg r 24 4, periodEnd := now + 1000 * arg r 8 4 }

/-- The limits of R165. -/
def groupFieldsOk (s : State) (p : Nat) (r : Bytes) : Bool :=
  arg r 0 1 < 16 && !(groupAt s (arg r 0 1)).live && arg r 1 1 < 8 && 1 ≤ arg r 2 1 && arg r 2 1 ≤ 8 && 2 ≤ arg r 4 2 && arg r 4 2 ≤ 8192 &&
    1 ≤ arg r 6 2 && arg r 6 2 ≤ 256 && 100 ≤ arg r 8 4 && arg r 8 4 ≤ 1000000 && unitF32 (arg r 12 4) && 0 < arg r 16 4 &&
    decide (arg r 16 4 ≤ 0x42800000) && unitF32 (arg r 20 4) && 10 ≤ arg r 24 4 && arg r 24 4 ≤ 10000 && arg r 28 2 < 16384 && objKeyOk s p (arg r 36 2)

/-- Bytes of a group's share of REGION (R166). -/
def RGroup.regionBytes (g : RGroup) : Nat := g.loadOff (g.layers * g.experts)

/-- Whether a group's REGION lies in its object, in every lantern. -/
def regionFits (s : State) (g : RGroup) : Bool :=
  let o := objAt s g.obj
  o.placement == 1 && o.mask.toNat == 2 ^ s.build.lanterns - 1 && g.offset % 64 == 0 && decide (g.offset + g.regionBytes ≤ o.length)

/-- An empty bias block of a group (R187). -/
def biasBlock (k : Nat) (g : RGroup) : Bytes :=
  fit (64 + 4 * (g.layers * g.experts)) ([1#8] ++ le 1 k ++ le 2 g.layers ++ le 2 g.experts)

/-- One lantern's share of a new REGION: both bias copies zero with EPOCH 0, the counters zero. -/
def clearRegion (ue : Ue) (k : Nat) (g : RGroup) (l : Nat) (s : State) : State :=
  let w (off : Nat) (b : Bytes) (s : State) : State := (memWrite (regionReq g l) ue (regionAddr s g l off) b s).2
  w (g.loadOff 0) (zeros (4 * (g.layers * g.experts))) (w (g.biasOff 1) (biasBlock k g) (w (g.biasOff 0) (biasBlock k g) s))

/-- The lanterns of the build. -/
def allLanterns (s : State) : List Nat := List.range s.build.lanterns

/-- RGROUP_CREATE. -/
def rgroupCreate (c : Call) (s : State) : Answer × State :=
  let p := c.owner
  let r := c.req
  if ¬ groupFieldsOk s p r then refuse stBadArg s
  else match objHandle s p (arg r 32 4) with
    | .error e => refuse e s
    | .ok o =>
      let g := groupOfReq p o (now s) r
      if ¬ regionFits s g then refuse stBadArg s
      else if imageWaits s c 48 ∨ (allLanterns s).any (fun l => rangeWaits s true (regionAddr s g l 0) g.regionBytes) then (.later, s)
      else
        let (st, img, s) := readImage c 48 (fun n => decide (2 ≤ n ∧ n ≤ 32768) && n % 2 == 0) s
        let ms := (chunks 2 img).map leNat
        if st ≠ stOk then refuse st s
        else if ¬ ms.contains g.leader ∨ ms.any (fun m => decide (m ≥ 16384)) then refuse stBadArg s
        else
          let k := arg r 0 1
          let s := bindObj o (setGroup k { g with members := ms } s)
          accept (created k 0) ((allLanterns s).foldl (fun s l => clearRegion c.ue k g l s) s)

/-- RGROUP_CREATE (R165). -/
def execRgroupCreate (r : MbReq) (s : State) : Host.Outcome State Fault Refusal := whenServing (serve 0x0410 0 rgroupCreate r) s

/-- RGROUP_DESTROY. -/
def rgroupDestroy (c : Call) (s : State) : Answer × State :=
  let k := arg c.req 0 1
  if k ≥ 16 ∨ ¬ (groupAt s k).live ∨ (groupAt s k).owner ≠ c.owner then refuse stBadArg s
  else accept [] (dropGroup k s)

/-- RGROUP_DESTROY (R344). -/
def execRgroupDestroy (r : MbReq) (s : State) : Host.Outcome State Fault Refusal := whenServing (serve 0x0411 0 rgroupDestroy r) s

/-! ## Expert servers (R178, R344) -/

/-- The caller's pilots that a SERVER_START names; none where one does not exist. -/
def serverPilots (s : State) (p : Nat) (r : Bytes) : Option (List Nat) :=
  (List.range (arg r 1 1)).foldr (fun i acc => acc.bind (fun ps => (pilotNamed s p (arg r (4 + i) 1)).map (fun k => k :: ps))) (some [])

/-- Bytes of a sheet of a pilot's program. -/
def pilotSheet (s : State) (pi n : Nat) : Nat := 256 * (taskAt s (pilotAt s pi).task).sheetUnits.getD n 0

/-- Whether a pilot serves some server already. -/
def inServer (s : State) (pi : Nat) : Bool := s.experts.servers.any (fun e => e.2.live && e.2.slices.any (fun c => c.pilot == pi))

/-- The checks of SERVER_START before its instance table is read. -/
def serverOk (s : State) (r : Bytes) (ps : List Nat) : Bool :=
  let o := opndOf (arg r 8 4)
  o.space == spSheet && decide (arg r 16 4 ≤ 10000) && noDup ps && ps.all (fun k => !inServer s k &&
    decide (o.off < pilotSheet s k o.arg ∧ arg r 12 4 + 4 ≤ pilotSheet s k o.arg))

/-- SERVER_START. -/
def serverStart (c : Call) (s : State) : Answer × State :=
  let r := c.req
  let k := arg r 0 1
  if k ≥ 16 ∨ (serverAt s k).live ∨ arg r 1 1 = 0 ∨ arg r 1 1 > 4 then refuse stBadArg s
  else match serverPilots s c.owner r with
    | none => refuse stBadArg s
    | some ps =>
      if ¬ serverOk s r ps then refuse stBadArg s
      else if imageWaits s c 32 then (.later, s)
      else
        let (st, img, s) := readImage c 32 (fun n => decide (16 ≤ n ∧ n ≤ 262144) && n % 16 == 0) s
        if st ≠ stOk then refuse st s
        else accept (created k 0) (setServer k
          { live := true, part := c.owner, slices := ps.map (fun pi => ({ pilot := pi } : Slice)), inRef := BitVec.ofNat 32 (arg r 8 4), cnt := arg r 12 4
            gatherNs := arg r 16 4, instances := (chunks 16 img).map (fun b => BitVec.ofNat 64 (fld b 0 8)) } s)

/-- SERVER_START (R178). -/
def execServerStart (r : MbReq) (s : State) : Host.Outcome State Fault Refusal := whenServing (serve 0x0418 0 serverStart r) s

/-- A server's slices stop: batches not posted are dropped, the pilots stop by R312. -/
def stopServer (k : Nat) (drain : Bool) (s : State) : State :=
  let x := serverAt s k
  let s := setServer k { x with closing := true, drain := drain
                                slices := x.slices.map (fun c => if c.posted then c else { pilot := c.pilot }) } s
  x.slices.foldl (fun s c => stopPilot c.pilot stQueueDestroyed drain s) s

/-- SERVER_STOP. -/
def serverStop (c : Call) (s : State) : Answer × State :=
  let k := arg c.req 0 1
  if k ≥ 16 ∨ ¬ (serverAt s k).live ∨ (serverAt s k).part ≠ c.owner then refuse stBadArg s
  else if (serverAt s k).closing then refuse stBusy s
  else (.wait (.serverQuiet k) [], stopServer k (bit (arg c.req 1 1) 0) s)

/-- SERVER_STOP (R344). -/
def execServerStop (r : MbReq) (s : State) : Host.Outcome State Fault Refusal := whenServing (serve 0x0419 0 serverStop r) s

end Sys2Proof.Machine
end

