-- ==== Sys2Proof/Machine/WindowOps.lean ====
section
/-! DEFINITION. The fabric by mailbox: WINDOW_CREATE, WINDOW_DESTROY and REGION_OWNER_SET (R202, R203), ROUTE_LOAD (R190, R191) and
GROUP_TABLE_LOAD (R201), laid out in R345. -/
namespace Sys2Proof.Machine

/-! ## Windows (R202, R203) -/

/-- The window a request asks for. -/
def askedWindow (r : Bytes) : Window := { entry := argBytes r 8 32, obj := 0 }

/-- Whether the window is OWNED, and how many region-owner entries it uses. -/
def Window.owned (w : Window) : Bool := bit w.perm 5
def Window.regions (w : Window) : Nat := w.length / mib2

/-- The limits of R202 on an entry's fields by its KIND. -/
def windowFieldsOk (w : Window) : Bool :=
  match w.kind with
  | 1 => w.base % mib2 == 0 && decide (w.base + w.length ≤ 2 ^ 48) && decide (mib2 ≤ w.length ∧ w.length ≤ 2 ^ 40) && w.length % mib2 == 0 && decide (w.key < 1024)
  | 2 => decide (w.base < 16) && w.length == mib2
  | 3 => w.base == 0 && w.length == mib2
  | 4 => decide (w.base < 256) && w.length == mib2
  | _ => false

/-- Whether two OWNED windows share region-owner entries. -/
def regionsMeet (v w : Window) : Bool := v.owned && w.owned && rangesMeet v.ownBase v.regions w.ownBase w.regions

/-- The refusals of R203. -/
def windowRegionsOk (s : State) (w : Window) : Bool :=
  !w.owned || (decide (w.ownBase + w.regions ≤ 65536) && s.fabric.windows.all (fun e => e.2.kind == 0 || !regionsMeet e.2 w))

/-- The object that holds a MEMORY window, by its handle: LIVE, and holding the window's range. -/
def windowObj (s : State) (w : Window) (h : Nat) : Except Nat Nat :=
  if w.kind ≠ 1 then (if h = 0 then .ok 0 else .error stBadArg)
  else match objHandle s w.part h with
    | .error e => .error e
    | .ok k => if insideObj s k (reqAddr (objAt s k).key w.base) w.length then .ok k else .error stBadArg

/-- The lowest unused window. -/
def freeWindow (s : State) : Option Nat := tfind {} s.fabric.windows 256 (fun w => w.kind == 0)

/-- A window takes its number: its region entries accept no node, its object is bound. -/
def installWindow (k : Nat) (w : Window) (s : State) : State :=
  let s := if w.owned then onFabric (fun f => { f with owners := tclear f.owners w.ownBase (w.ownBase + w.regions) }) s else s
  let s := setWindow k w s
  if w.kind = 1 then bindObj w.obj s else s

/-- Whether a caller may act on a window of `p`: its own, or any for the manager (R202). -/
def mayWindow (caller p : Nat) : Bool := caller == p || caller == 16

/-- Whether the manager would change a partition whose interface is locked (R253). -/
def lockedFor (s : State) (caller p : Nat) : Bool := caller == 16 && p < 16 && !partOpen s p

/-- WINDOW_CREATE. -/
def windowCreate (c : Call) (s : State) : Answer × State :=
  let w := askedWindow c.req
  let n := arg c.req 0 1
  if fld w.entry 0 1 ≠ 1 then refuse stVersion s
  else if w.part > 16 ∨ (w.part = 16 ∧ fld w.entry 3 1 ≠ 0xFF) ∨ (w.peer > 15 ∧ w.peer ≠ 0xFF) ∨ ¬ windowFieldsOk w ∨ ¬ windowRegionsOk s w then refuse stBadArg s
  else if ¬ mayWindow c.owner w.part then refuse stNotPermitted s
  else if ¬ partExists s w.part then refuse stBadArg s
  else if lockedFor s c.owner w.part then refuse stInterfaceLocked s
  else if n ≠ 0xFF ∧ (windowAt s n).kind ≠ 0 then refuse stBadArg s
  else match windowObj s w (arg c.req 40 4), (if n = 0xFF then freeWindow s else some n) with
    | .error e, _ => refuse e s
    | .ok _, none => refuse stBusy s
    | .ok o, some k => accept (created k 0) (installWindow k { w with obj := o } s)

/-- WINDOW_CREATE (R202). -/
def execWindowCreate (r : MbReq) (s : State) : Host.Outcome State Fault Refusal := whenServing (serve 0x0310 0 windowCreate r) s

/-- WINDOW_DESTROY. -/
def windowDestroy (c : Call) (s : State) : Answer × State :=
  let k := arg c.req 0 1
  let w := windowAt s k
  if w.kind = 0 then refuse stBadArg s
  else if ¬ mayWindow c.owner w.part then refuse stNotPermitted s
  else if lockedFor s c.owner w.part then refuse stInterfaceLocked s
  else accept [] (dropWindow k s)

/-- WINDOW_DESTROY (R202). -/
def execWindowDestroy (r : MbReq) (s : State) : Host.Outcome State Fault Refusal := whenServing (serve 0x0311 0 windowDestroy r) s

/-- Whether an operation on a window has been accepted and not yet applied. -/
def windowInbound (s : State) (k : Nat) : Bool := (s.fabric.west.inbound ++ s.fabric.east.inbound).any (fun i => fOffset i.header / 2 ^ 40 == k)

/-- REGION_OWNER_SET: made once every operation accepted before it has completed. -/
def regionOwnerSet (c : Call) (s : State) : Answer × State :=
  let k := arg c.req 0 1
  let w := windowAt s k
  let a := arg c.req 4 4
  let n := arg c.req 8 4
  let o := arg c.req 12 2
  if w.kind = 0 ∨ ¬ w.owned then refuse stBadArg s
  else if w.part ≠ c.owner then refuse stNotPermitted s
  else if a + n > w.regions ∨ (o ≥ 16384 ∧ o ≠ 0xFFFF ∧ o ≠ 0xFFFE) then refuse stBadArg s
  else if windowInbound s k then (.later, s)
  else accept [] (onFabric (fun f => { f with owners := (List.range n).foldl (fun t i => tset 0xFFFE t (w.ownBase + a + i) o) f.owners }) s)

/-- REGION_OWNER_SET (R203). -/
def execRegionOwnerSet (r : MbReq) (s : State) : Host.Outcome State Fault Refusal := whenServing (serve 0x0312 0 regionOwnerSet r) s

/-! ## Routing and group tables (R190, R191, R201) -/

/-- Whether a link port is a PEER port of the build. -/
def peerPort (s : State) (p : Nat) : Bool := decide (p < s.build.links) && roleOf s p == 0

/-- Whether Eonal accepts a routing entry (R191). -/
def routeEntryOk (s : State) (e : RouteEntry) : Bool :=
  !rtValid e || (decide (rtPort e < s.build.links) && (!rtAlt e || decide (rtAltPort e < s.build.links)) &&
    (rtMode e ≠ 1 || (peerPort s (rtPort e) && (!rtAlt e || peerPort s (rtAltPort e)))))

/-- Whether Eonal accepts a routing-table image. -/
def routesOk (s : State) (img : Bytes) : Bool := (routesOf img).all (fun e => routeEntryOk s e.2)

/-- Whether Eonal accepts a group entry: its ports are PEER ports of the build. -/
def groupEntryOk (s : State) (e : Bytes) : Bool :=
  !grValid e || ((grUp e == 0xFE || peerPort s (grUp e)) && (bitList 32 (grPorts e)).all (peerPort s))

/-- A load of a table of both halves: its length, its digest, its version and its entries are checked before East is told. -/
def loadBoth (kind len : Nat) (version : Bytes → Bool) (ok : State → Bytes → Bool) (c : Call) (s : State) : Answer × State :=
  if imageWaits s c 0 then (.later, s) else
  let (st, img, s) := readImage c 0 (fun n => n == len) s
  if st ≠ stOk then refuse st s
  else if fld img 0 1 ≠ 1 ∨ ¬ version img then refuse stVersion s
  else if ¬ ok s img then refuse stBadArg s
  else loadImage kind 0 0 img s

/-- ROUTE_LOAD (R190). -/
def execRouteLoad (r : MbReq) (s : State) : Host.Outcome State Fault Refusal :=
  whenServing (serve 0x0318 0 (loadBoth fetchRoutes 131136 (fun _ => true) routesOk) r) s

/-- Whether every valid entry of a group-table image carries VER 1. -/
def groupVersions (img : Bytes) : Bool := (groupsOf img).all (fun e => !grValid e.2 || fld e.2 0 1 == 1)

/-- GROUP_TABLE_LOAD (R201). -/
def execGroupTableLoad (r : MbReq) (s : State) : Host.Outcome State Fault Refusal :=
  whenServing (serve 0x0319 0 (loadBoth fetchGroups 8256 groupVersions (fun s img => (groupsOf img).all (fun e => groupEntryOk s e.2))) r) s

end Sys2Proof.Machine
end

