-- ==== Sys2Proof/Machine/Flags.lean ====
section
/-! DEFINITION. Every register of the window as its fields make it (R293, R321 to R325, R370, R404, R420, R421, R432, R450, R488, R516,
R520 to R528), LINK_STATUS (R345) and REGISTER_READ (R518 to R522). -/
namespace Sys2Proof.Machine

/-- A register as its fields: each its highest and lowest bit and its value, cut to its width. -/
def regOf (fields : List (Nat × Nat × Nat)) : Nat := (fields.map (fun f => f.2.2 % 2 ^ (f.1 + 1 - f.2.1) * 2 ^ f.2.1)).sum

/-! ## Identity (R524, R525) -/

/-- MG_BLOCK_VERSION. -/
def regBlockVersion (s : State) : Nat := regOf [(63, 48, 0x0E01), (47, 40, 1), (0, 0, b2n s.ll.paired)]

/-- MG_BUILD. -/
def regBuild (s : State) : Nat :=
  let b := s.build
  regOf [(63, 56, b2n b.mldsa), (47, 40, b.parts), (39, 32, b.caps), (31, 24, b.links), (23, 16, b.spares), (15, 8, b.wicks), (7, 0, b.lanterns)]

/-- Codes of PT_SELF (R264). -/
def PartState.code : PartState → Nat
  | .absent => 0
  | .active => 1
  | .halted => 2
  | .resetting => 3
  | .destroying => 4

/-- PT_SELF. -/
def regSelf (s : State) (p : Nat) : Nat := regOf [(23, 16, (partAt s p).tdi.code), (15, 8, (partAt s p).state.code), (7, 0, p)]

/-- The identity block from an offset on. -/
def regIdentity (s : State) (off : Nat) : Nat :=
  match off with
  | 0x00 => regBlockVersion s
  | 0x08 => regBuild s
  | 0x10 => now s
  | _ => 0

/-! ## Mailboxes (R325) -/

/-- SLOT_STATE of a slot. -/
def SlotState.code : SlotState → Nat
  | .free => 0
  | .pending => 1
  | .done => 2

/-- PT_MB_STATUS. -/
def regMbStatus (s : State) (mb : Nat) : Nat :=
  let b := boxAt s mb
  let st (k : Nat) : Nat := (tget {} b.slots k).state.code
  regOf [(63, 48, s.ll.epoch.toNat), (47, 40, b.major), (39, 32, b.minor), (8, 8, b2n (unread b ≠ 0)), (7, 6, st 3), (5, 4, st 2), (3, 2, st 1), (1, 0, st 0)]

/-- A mailbox's 4 KiB from an offset on; SUBMIT and RELEASE read as zero. -/
def regMailbox (s : State) (mb off : Nat) : Nat :=
  let b := boxAt s mb
  if off < 0x400 then leNat (treads 0 b.reqBytes off 8)
  else if off < 0x800 then leNat (treads 0 b.rspBytes (off - 0x400) 8)
  else if off = 0x808 then regMbStatus s mb
  else if off = 0x818 then regOf [(1, 1, b2n b.evIrq), (0, 0, b2n b.rspIrq)]
  else if off = 0x820 then regOf [(47, 32, b.lost), (31, 16, b.write.toNat), (15, 0, b.read.toNat)]
  else if 0xC00 ≤ off ∧ off < 0xE00 then leNat (treads 0 b.events (off - 0xC00) 8)
  else 0

/-! ## The Lamplighter (R321 to R323) -/

/-- LL_BOOT_STATUS, LL_FW_INFO, LL_VIGIL. -/
def regLamplighter (s : State) (off : Nat) : Nat :=
  let l := s.ll
  match off with
  | 0x00 => regOf [(63, 56, l.stage), (55, 48, l.reason), (47, 32, l.code), (31, 24, l.capRefused.toNat), (15, 15, b2n l.trial), (14, 14, b2n l.fallback),
      (8, 8, l.image), (0, 0, b2n l.ready)]
  | 0x08 => regOf [(63, 32, l.svn), (31, 24, l.protoMax), (23, 16, l.relMajor), (15, 8, l.relMinor), (7, 0, l.relPatch)]
  | 0x10 => regOf [(47, 32, s.trust.vigilMaxUs), (31, 0, s.trust.vigilKicks.toNat)]
  | _ => 0

/-! ## The fault hub (R404) -/

/-- The records that stand unacknowledged at level 2 or above. -/
def openRecords (s : State) : List FaultRec := (s.faults.records ++ s.faults.linkStore).filter (fun r => r.severity ≥ 2 && !r.acked)

/-- FH_SUMMARY. -/
def regSummary (s : State) : Nat :=
  let n := (openRecords s).length
  regOf [(63, 61, highestLevel s), (60, 60, b2n (n ≠ 0)), (59, 59, b2n s.faults.terminal), (55, 40, min n 0xFFFF), (39, 8, s.faults.seq), (7, 0, s.faults.lost)]

/-- The fault-hub page. -/
def regFaultHub (s : State) (off : Nat) : Nat :=
  let f := s.faults
  if off = 0x000 then regSummary s
  else if off = 0x008 then regOf [(1, 1, b2n f.dumpOnUnit), (0, 0, b2n f.injectEn)]
  else if off = 0x010 then f.lastReset.toNat
  else if off = 0x018 then f.lastTime
  else if off = 0x020 then f.dumpReg.toNat
  else if 0x100 ≤ off ∧ off < 0x300 then
    let c := (off - 0x100) / 8
    regOf [(63, 32, tget 0 f.classCnt c), (8, 8, b2n (classDefault c).2), (2, 0, programmedLevel s c)]
  else if 0x800 ≤ off ∧ off < 0x900 then
    let n := (off - 0x800) / 16
    (if off % 16 = 0 then tget 0 f.repairLo n else tget 0 f.repairHi n).toNat
  else 0

/-- The records that name a partition, oldest first. -/
def recordsOf (s : State) (p : Nat) : List FaultRec := (s.faults.linkStore ++ s.faults.records).filter (fun r => r.part == partCode p)

/-- PT_FAULT_STATUS and PT_FAULT_REC. -/
def regPartFaults (s : State) (p off : Nat) : Nat :=
  let rs := recordsOf s p
  if off = 0x3000 then
    regOf [(63, 48, min 0xFFFF (rs.filter (fun r => r.severity == 2 && !r.acked)).length), (47, 16, (rs.getLast?.map FaultRec.seq).getD 0),
      (0, 0, b2n ((partAt s p).state == .halted))]
  else if 0x3040 ≤ off ∧ off < 0x3080 then
    match rs.find? (fun r => !r.acked), rs.getLast? with
    | some r, _ => fld r.bytes (off - 0x3040) 8
    | none, some r => fld r.bytes (off - 0x3040) 8
    | none, none => 0
  else 0

/-! ## The regulator (R370) -/

/-- RG_RESOURCE. -/
def regResource (s : State) (i : Nat) : Nat :=
  if ¬ resExists s i then 0 else
  let r := tget {} s.reg.resources i
  let j := resIndex i
  let w : Nat × Nat := match resKind i with
    | 0 => ((lanternAt s j).window, (lanternAt s j).qlevel)
    | 1 => ((capAt s j).window, (capAt s j).qlevel)
    | _ => (0, 0)
  regOf [(63, 50, w.1), (49, 46, w.2), (45, 35, r.fNormal), (34, 24, r.fRt), (21, 12, r.avail), (2, 2, b2n r.bgShed), (1, 1, b2n r.derated),
    (0, 0, b2n (r.inReset || resInReset s i))]

/-- The regulator page. -/
def regRegulator (s : State) (off : Nat) : Nat :=
  let r := s.reg
  if off < 0x180 then regResource s (off / 8)
  else if off = 0x400 then r.plan.toNat
  else if off = 0x408 then
    regOf [(59, 48, r.pEst / 100), (43, 32, r.cap / 100), (14, 8, r.throttle), (1, 1, b2n r.unmet), (0, 0, b2n (r.throttle < 64))]
  else if off = 0x410 then r.ctrl.toNat
  else if 0x500 ≤ off ∧ off < 0x588 then regOf [(63, 32, tget 0 r.missed ((off - 0x500) / 8)), (31, 0, tget 0 r.urgent ((off - 0x500) / 8))]
  else 0

/-! ## The trust island (R450, R516) -/

/-- TI_LC_STATUS. -/
def regLifeCycle (s : State) : Nat :=
  let revoked := ((List.range 4).filter (fwRevoked s)).map (fun k => 2 ^ k)
  regOf [(63, 56, shadowState s), (55, 48, s.lc.intent), (47, 40, s.trust.debugNow.toNat), (39, 32, s.trust.debugEver.toNat), (31, 16, svnCount s),
    (15, 8, revoked.sum), (7, 5, s.lc.mismatch.toNat), (4, 4, b2n s.lc.udsWithheld), (3, 3, b2n (debugAuthSet s)), (2, 2, b2n (debugAuthRevoked s)),
    (1, 1, b2n (s.lc.ops ≠ []))]

/-- The trust-island page. -/
def regTrust (s : State) (off : Nat) : Nat :=
  let t := s.trust
  match off with
  | 0x00 => regLifeCycle s
  | 0x08 => regOf [(63, 48, t.cause.toNat), (47, 40, t.inputs.toNat), (31, 16, t.count), (0, 0, b2n t.rootFresh)]
  | 0x10 => t.tamperTime.toNat
  | 0x18 => t.tamperEn.toNat
  | 0x20 => t.rtc.toNat
  | 0x28 => regOf [(47, 32, t.duskCount), (3, 3, b2n t.unsafeLast), (2, 2, b2n t.safe), (1, 1, b2n t.dawn), (0, 0, b2n t.dusk)]
  | _ => 0

/-! ## The front end (R290, R293, R527) -/

/-- State codes of R306. -/
def QueueState.code : QueueState → Nat
  | .absent => 0
  | .active => 1
  | .stopped => 2
  | .destroying => 3

/-- FE_QUEUE. -/
def regQueue (s : State) (i : Nat) : Nat :=
  let q := queueAt s i
  if q.state = .absent then regOf [(63, 56, 0xFF)]
  else regOf [(63, 56, ownerByte q.part), (55, 48, q.q), (47, 45, q.state.code), (44, 44, b2n q.realtime), (43, 43, b2n q.rung), (42, 42, b2n q.idle),
    (15, 0, min 0xFFFF q.inflight.length)]

/-- PT_DOORBELL of an owner's queue number. -/
def regDoorbell (s : State) (p q : Nat) : Nat :=
  match queueNamed s p q with
  | none => 0
  | some k => (queueAt s k).head.toNat * 2 ^ 32 + (queueAt s k).tail.toNat

/-- PT_COMPLETION of an owner's queue number. -/
def regCompletion (s : State) (p q : Nat) : Nat := (tget 0 s.fe.completions (64 * p + q)).toNat

/-! ## Counters (R420, R421) -/

/-- PT_COUNTER, BAD_DOORBELL and DROPPED_ITEMS. -/
def regCounter (s : State) (p off : Nat) : Nat :=
  let c := countersAt s p
  if off < 0x4050 then
    ([c.retired, c.failed, c.missed, c.stale, c.malformed, c.expired, c.degraded, c.shortRoute, c.noRoute, c.traceLost].getD ((off - 0x4000) / 8) 0)
  else if 0x4100 ≤ off ∧ off < 0x4300 then tget 0 c.doorbell ((off - 0x4100) / 8)
  else if 0x4300 ≤ off ∧ off < 0x4500 then tget 0 c.dropped ((off - 0x4300) / 8)
  else 0

/-! ## Partition pages (R526) -/

/-- The page of partition `p`; while it is ABSENT it reads as zero but for PT_SELF (R324, R525). -/
def regPartition (s : State) (p off : Nat) : Nat :=
  if off = 0x5018 ∧ p < s.build.parts then regSelf s p
  else if ¬ partExists s p then 0
  else if off < 0x1000 then regMailbox s p off
  else if off < 0x1200 then regDoorbell s p ((off - 0x1000) / 8)
  else if 0x2000 ≤ off ∧ off < 0x2200 then regCompletion s p ((off - 0x2000) / 8)
  else if 0x3000 ≤ off ∧ off < 0x4000 then regPartFaults s p off
  else if 0x4000 ≤ off ∧ off < 0x5000 then regCounter s p off
  else if 0x5000 ≤ off ∧ off < 0x5018 then regIdentity s (off - 0x5000)
  else 0

/-! ## Lantern pages (R73, R488) -/

/-- The share of a rotation that a lantern holds. -/
def sweepOf (s : State) (n l : Nat) : Option SweepUnit := (rotationAt s n).units.find? (fun u => u.unit == .lantern l)

/-- LN_CIPHER_STATUS. -/
def regCipher (s : State) (l : Nat) : Nat :=
  let x := lanternAt s l
  let sweeping := (List.range 8).any (fun n => (rotationAt s n).active && ((sweepOf s n l).map SweepUnit.open_).getD false)
  regOf [(39, 32, 5 - x.sparesUsed), (31, 24, min 255 (heldBytes s l / 1024)), (23, 16, min 255 x.tickets.length),
    (15, 8, (x.remap.filter (fun e => e.2.valid)).length), (2, 2, b2n sweeping), (1, 1, b2n x.bypassSeen), (0, 0, b2n x.ready)]

/-- LN_SWEEP_WM. -/
def regSweep (s : State) (n l : Nat) : Nat :=
  let r := rotationAt s n
  match sweepOf s n l with
  | none => 0
  | some u =>
    if ¬ r.active ∧ ¬ r.aliased then 0
    else regOf [(63, 63, b2n !u.done), (62, 62, b2n u.done), (47, 36, r.a), (35, 0, u.watermark / 4096 * 4096)]

/-- The traffic generator of a channel. -/
def tgenAt (s : State) (l c : Nat) : Tgen := tget {} (lanternAt s l).tgens c

/-- LN_TGEN_CTRL to LN_TGEN_ERR. -/
def regTgen (s : State) (l off : Nat) : Nat :=
  let t := tgenAt s l (off / 0x20)
  match off % 0x20 with
  | 0x00 => t.ctrl.toNat
  | 0x08 => t.range.toNat
  | 0x10 => regOf [(63, 32, t.errors), (31, 16, t.ue), (1, 1, b2n t.done), (0, 0, b2n t.running)]
  | 0x18 => regOf [(63, 63, b2n t.errValid), (29, 6, t.errAddr / 64)]
  | _ => 0

/-- The page of lantern `l`. -/
def regLantern (s : State) (l off : Nat) : Nat :=
  if l ≥ s.build.lanterns then 0
  else if off = 0 then regCipher s l
  else if 0x100 ≤ off ∧ off < 0x180 ∧ off % 16 = 0 then regSweep s ((off - 0x100) / 16) l
  else if 0x800 ≤ off ∧ off < 0xA00 then
    let e := tget {} (lanternAt s l).remap ((off - 0x800) / 8)
    regOf [(63, 63, b2n e.valid), (29, 24, e.spare), (23, 0, e.page)]
  else if 0x1000 ≤ off ∧ off < 0x1800 then regTgen s l (off - 0x1000)
  else 0

/-! ## Link pages (R216, R225) -/

/-- STATE of LK_STATUS. -/
def LinkState.code : LinkState → Nat
  | .down => 0
  | .trained => 1
  | .handshake => 2
  | .up => 3
  | .failed => 4

/-- LK_STATUS. -/
def regLink (s : State) (p : Nat) : Nat :=
  let l := linkAt s p
  regOf [(63, 48, l.peer), (47, 44, l.major), (43, 40, l.minor), (39, 32, l.txGen), (9, 8, roleOf s p), (7, 5, l.state.code), (4, 4, b2n l.rollDeferred),
    (3, 3, b2n l.tagFail), (0, 0, b2n (l.state == .up))]

/-- LK_TIME_OFFSET. -/
def regOffset (s : State) (p : Nat) : Nat :=
  let l := linkAt s p
  regOf [(47, 40, l.bound), (39, 0, (l.offset % (2 ^ 40 : Nat)).toNat)]

/-- LK_HOTLINE of a half. -/
def regHotLine (s : State) (west : Bool) : Nat :=
  let h := (halfOf s west).hot
  regOf [(63, 63, b2n h.valid), (62, 48, h.count), (47, 6, h.line)]

/-- The page of link port `p`. -/
def regLinkPage (s : State) (p off : Nat) : Nat :=
  if p ≥ s.build.links then 0
  else match off with
    | 0x000 => regLink s p
    | 0x008 => regOffset s p
    | 0x100 => if p = lowPort s (linkWest s p) then regHotLine s (linkWest s p) else 0
    | _ => 0

/-! ## The trace page (R421, R432) -/

/-- TR_STATUS of a half. -/
def regTrace (s : State) (h : Nat) : Nat :=
  regOf [(63, 48, fifoBytes (if h = 0 then s.trace.fifoW else s.trace.fifoE) / 1024), (47, 16, if h = 0 then s.trace.lostW else s.trace.lostE),
    (5, 0, (s.trace.bufs.filter (fun b => b.2.owner.isSome && (b.2.half h).state ≠ 0)).length)]

/-- The byte totals of an owner. -/
def regTotal (s : State) (p i : Nat) : Nat :=
  let t := totalsAt s p
  [t.stacked, t.capacity, t.fabricOut, t.fabricIn, t.sweep, t.observation].getD i 0

/-- The trace page. -/
def regTracePage (s : State) (off : Nat) : Nat :=
  let c := s.curfew
  if off = 0x00 ∨ off = 0x08 then regTrace s (off / 8)
  else if off = 0x10 then regOf [(63, 48, s.time.root), (47, 40, s.time.parent), (39, 32, s.time.bound), (2, 0, s.time.state)]
  else if off = 0x20 then regOf [(63, 32, min (2 ^ 32 - 1) c.outside), (31, 8, min (2 ^ 24 - 1) c.inFlight), (3, 3, b2n c.incomplete), (2, 0, c.state)]
  else if off = 0x28 then c.t
  else if off = 0x30 then c.dawn
  else if 0x1000 ≤ off ∧ off < 0x1440 then regTotal s ((off - 0x1000) / 0x40) (off % 0x40 / 8)
  else if 0x1800 ≤ off ∧ off < 0x1818 then [s.parts.repairBytes, s.parts.dumpBytes, s.parts.captureBytes].getD ((off - 0x1800) / 8) 0
  else 0

/-! ## The window (R518, R522) -/

/-- Whether a window offset is served in the present state. -/
def regServed (s : State) (off : Nat) : Bool :=
  let page := (pageOf off).map Prod.snd
  let always : Bool := decide (off < 0x1000 ∨ (0x2000 ≤ off ∧ off < 0x4000) ∨ (0x5000 ≤ off ∧ off < 0x6000)) ||
    (page.map (fun o => decide (0x5000 ≤ o ∧ o < 0x5020))).getD false
  if s.faults.terminal then always
  else if s.faults.inBlockReset then always || decide (0x300000 ≤ off ∧ off < 0x360000)
  else true

/-- The 64 bits at a naturally aligned window offset. -/
def regValue (s : State) (off : Nat) : Nat :=
  if off < 0x1000 then regIdentity s off
  else if off < 0x2000 then regMailbox s 16 (off - 0x1000)
  else if off < 0x3000 then regLamplighter s (off - 0x2000)
  else if off < 0x4000 then regFaultHub s (off - 0x3000)
  else if off < 0x5000 then regRegulator s (off - 0x4000)
  else if off < 0x6000 then regTrust s (off - 0x5000)
  else if off < 0x6800 then regQueue s ((off - 0x6000) / 8)
  else if off < 0x100000 then 0
  else if off < 0x200000 then regPartition s (off / 0x10000 - 16) (off % 0x10000)
  else if off < 0x300000 then regLantern s (off / 0x10000 - 32) (off % 0x10000)
  else if off < 0x360000 then regLinkPage s (off / 0x4000 - 192) (off % 0x4000)
  else if 0x400000 ≤ off ∧ off < 0x410000 then regTracePage s (off - 0x400000)
  else 0

/-! ## REGISTER_READ (R477, R478, R520, R521) -/

/-- Whether the access rules allow an access (R521). -/
def regAdmits (s : State) (a : RegAccess) (write : Bool) : Bool :=
  match pageOf a.offset with
  | some (p, off) => pageAdmits s a p off write
  | none => a.func == 16

/-- What a read returns: a 4 B read the addressed half, in the lanes of its address. -/
def regRead (s : State) (a : RegAccess) : Nat :=
  let v := if regServed s a.offset then regValue s (a.offset / 8 * 8) else 0
  if a.size8 then v else if a.offset % 8 = 0 then v % 2 ^ 32 else v / 2 ^ 32 * 2 ^ 32

/-- Whether a refused access is counted: one to a partition page, by a function that exists, while the page is served (R478, R521,
R522). -/
def countsRefusal (s : State) (a : RegAccess) : Bool := decide (a.func ≤ 16) && !s.faults.inBlockReset && !s.faults.terminal

/-- A refused access to a partition page is counted. -/
def refuseReg (a : RegAccess) (s : State) : State :=
  match pageOf a.offset with
  | some (p, _) => if countsRefusal s a ∧ p < s.build.parts then countDoorbell p 0 s else s
  | none => s

/-- A read at the host register port. -/
def registerRead (a : RegAccess) (s : State) : State :=
  if a.offset ≥ 0x4000000 ∨ a.offset % (if a.size8 then 8 else 4) ≠ 0 then s
  else if a.func > 16 ∨ ¬ regAdmits s a false then emit (.regData 0) (refuseReg a s)
  else emit (.regData (BitVec.ofNat 64 (regRead s a))) s

/-- REGISTER_READ (R521): served in a powered block, after a Terminal fault too. -/
def execRegisterRead (a : RegAccess) (s : State) : Host.Outcome State Fault Refusal := step1 (inCore (fun s => if s.trust.pwrOk then registerRead a s else s)) s

/-! ## LINK_STATUS (R345) -/

/-- LINK_STATUS. -/
def linkStatus (c : Call) (s : State) : Answer × State :=
  let p := arg c.req 0 1
  let l := linkAt s p
  if p ≥ s.build.links then refuse stBadArg s
  else accept (le 8 (regLink s p) ++ le 8 (regOffset s p) ++ le 1 l.failStep ++ zeros 1 ++ le 2 l.failStatus ++ le 4 l.session.toNat ++ zeros 8) s

/-- LINK_STATUS (R345). -/
def execLinkStatus (r : MbReq) (s : State) : Host.Outcome State Fault Refusal := whenServing (serve 0x031A 0 linkStatus r) s

end Sys2Proof.Machine
end

