-- ==== Sys2Proof/Machine/FaultOps.lean ====
section
/-! DEFINITION. Power, sensors, reservations, faults, injection, dumps and the requested block reset by mailbox (R364, R367 to R369, R379,
R381, R382, R403 to R405). -/
namespace Sys2Proof.Machine

/-! ## Power, sensors, reservations (R364, R367 to R369) -/

/-- The payload of POWER_CAP_GET. -/
def capPayload (s : State) : Bytes :=
  le 4 s.reg.cap ++ le 4 s.build.capMin ++ le 4 s.build.capMax ++ le 4 s.reg.pEst ++ le 1 s.reg.throttle ++ le 1 (b2n s.reg.unmet) ++ zeros 6

/-- POWER_CAP_SET. -/
def powerCapSet (c : Call) (s : State) : Answer × State :=
  let v := arg c.req 0 4
  if v ≠ 0 ∧ (v < s.build.capMin ∨ v > s.build.capMax) then refuse stBadArg s
  else
    let s := onReg (fun g => { g with cap := v }) s
    accept (capPayload s) s

/-- POWER_CAP_SET (R364). -/
def execPowerCapSet (r : MbReq) (s : State) : Host.Outcome State Fault Refusal := whenServing (serve 0x0500 0 powerCapSet r) s

/-- POWER_CAP_GET. -/
def powerCapGet (_ : Call) (s : State) : Answer × State := accept (capPayload s) s

/-- POWER_CAP_GET (R367). -/
def execPowerCapGet (r : MbReq) (s : State) : Host.Outcome State Fault Refusal := whenServing (serve 0x0501 0 powerCapGet r) s

/-- AVAIL of a resource of a kind; 0 beyond the build. -/
def availOf (s : State) (kind i : Nat) : Nat := if i < resCount s kind then (resourceAt s (resOf kind i)).avail else 0

/-- SENSOR_READ, with the temperatures of the lanterns' sensors in 0.1 °C. -/
def sensorRead (temps : List Int) (_ : Call) (s : State) : Answer × State :=
  let temp (l : Nat) : Nat := if l < s.build.lanterns then (temps.getD l 0 % (65536 : Nat)).toNat else 0
  accept (le 1 1 ++ zeros 3 ++ le 4 s.reg.pEst ++ le 4 s.reg.cap ++ le 1 s.reg.throttle ++ zeros 3 ++
    (List.range 16).flatMap (fun l => le 2 (availOf s 0 l) ++ le 2 (temp l)) ++ (List.range 8).flatMap (fun i => le 2 (availOf s 1 i)) ++
    (List.range 24).flatMap (fun i => le 2 (availOf s 2 i))) s

/-- SENSOR_READ (R368). -/
def execSensorRead (r : MbReq) (temps : List Int) (s : State) : Host.Outcome State Fault Refusal := whenServing (serve 0x0502 0 (sensorRead temps) r) s

/-- The owner a RESERVATION_QUERY names, or its refusal. -/
def queriedOwner (s : State) (c : Call) : Except Nat Nat :=
  let n := arg c.req 0 1
  if c.mb < 16 then (if n = c.mb ∨ n = 0xFF then .ok c.mb else .error stNotPermitted)
  else if (n < 16 ∨ n = 0xFE) ∧ partExists s (ownerIndex n) then .ok (ownerIndex n) else .error stBadArg

/-- RESERVATION_QUERY. -/
def reservationQuery (c : Call) (s : State) : Answer × State :=
  let kind := arg c.req 1 1
  let i := arg c.req 2 1
  match queriedOwner s c with
  | .error e => refuse e s
  | .ok p =>
    if kind > 2 ∨ i ≥ resCount s kind then refuse stBadArg s else
    let r := resOf kind i
    let x := resourceAt s r
    accept (le 1 1 ++ le 1 (b2n x.derated + 2 * b2n x.bgShed + 4 * b2n (x.inReset || resInReset s r)) ++ le 2 (bwShare s p kind) ++ le 2 (rtUnits s p r) ++
      le 2 x.fNormal ++ le 2 x.fRt ++ le 2 x.avail ++ le 4 (effectiveMbps s p r) ++ le 4 (tget 0 s.reg.missedRes r) ++ le 4 (guaranteed s p r) ++ zeros 8) s

/-- RESERVATION_QUERY (R369). -/
def execReservationQuery (r : MbReq) (s : State) : Host.Outcome State Fault Refusal := whenServing (serve 0x0503 0 reservationQuery r) s

/-! ## Fault records (R379, R404) -/

/-- A record into its place by SEQ, after those of the same SEQ. -/
def insertBySeq (r : FaultRec) : List FaultRec → List FaultRec
  | [] => [r]
  | x :: xs => if r.seq < x.seq then r :: x :: xs else x :: insertBySeq r xs

/-- The records held, in ascending SEQ. -/
def storedRecords (s : State) : List FaultRec := (s.faults.linkStore ++ s.faults.records).foldl (fun xs r => insertBySeq r xs) []

/-- Whether a mailbox may read a record: a partition only those that name it. -/
def readable (mb : Nat) (r : FaultRec) : Bool := mb == 16 || r.part == partCode mb

/-- FAULT_READ: up to MAX records from START on that the filter lets through. -/
def faultRead (c : Call) (s : State) : Answer × State :=
  let start := arg c.req 0 4
  let n := arg c.req 4 1
  let fl := arg c.req 5 1
  if n = 0 ∨ n > 3 then refuse stBadArg s else
  let rs := ((storedRecords s).filter (fun r => readable c.mb r && start ≤ r.seq && (!bit fl 0 || !r.acked) && (!bit fl 1 || r.severity ≥ 2))).take n
  let next := (rs.getLast?.map (fun r => (r.seq + 1) % 2 ^ 32)).getD start
  accept (le 4 next ++ le 1 rs.length ++ zeros 3 ++ rs.flatMap FaultRec.bytes) s

/-- FAULT_READ (R404). -/
def execFaultRead (r : MbReq) (s : State) : Host.Outcome State Fault Refusal := whenServing (serve 0x0508 0 faultRead r) s

/-- Whether a mailbox may acknowledge a record (R379, R404). -/
def mayAck (mb : Nat) (r : FaultRec) : Bool := r.severity ≠ 5 && (mb == 16 || (r.part == partCode mb && r.severity ≤ 2))

/-- Records acknowledged: their counts since the last acknowledgement begin anew. -/
def ackRecords (p : FaultRec → Bool) (s : State) : State :=
  let hit (r : FaultRec) : Bool := p r && !r.acked
  let f (r : FaultRec) : FaultRec := if hit r then { r with flags := r.flags ||| 8#8 } else r
  let keys := ((s.faults.records ++ s.faults.linkStore).filter hit).map (fun r => sourceKey r.cls r.kind r.inst)
  onFaults (fun x => { x with records := x.records.map f, linkStore := x.linkStore.map f
                              since := keys.foldl (fun t k => tset 0 t k 0) x.since }) s

/-- FAULT_ACK. -/
def faultAck (c : Call) (s : State) : Answer × State :=
  match (storedRecords s).find? (fun r => r.seq == arg c.req 0 4) with
  | none => refuse stBadArg s
  | some r => if ¬ mayAck c.mb r then refuse stNotPermitted s else accept [] (ackRecords (fun x => x.origin == r.origin && mayAck c.mb x) s)

/-- FAULT_ACK (R404). -/
def execFaultAck (r : MbReq) (s : State) : Host.Outcome State Fault Refusal := whenServing (serve 0x0509 0 faultAck r) s

/-- FAULT_SUMMARY. -/
def faultSummary (_ : Call) (s : State) : Answer × State :=
  accept (le 8 (regSummary s) ++ (List.range 6).flatMap (fun l => le 4 (tget 0 s.faults.levelCnt l)) ++ le 8 s.faults.lastReset.toNat ++ le 8 s.faults.lastTime) s

/-- FAULT_SUMMARY (R404). -/
def execFaultSummary (r : MbReq) (s : State) : Host.Outcome State Fault Refusal := whenServing (serve 0x050A 0 faultSummary r) s

/-! ## INJECT (R381, R382) -/

/-- Whether a source of a kind and instance exists. -/
def sourceExists (s : State) (kind inst : Nat) : Bool :=
  if kind = kindLantern ∨ kind = kindWick then decide (inst < s.build.lanterns)
  else if kind = kindCapacity then decide (inst < s.build.caps)
  else if kind = kindLink then decide (inst < s.build.links)
  else if kind = kindSeam then decide (inst < 2)
  else inst == 0

/-- The source raises a class once. A vigil fault disarms the watchdog; a tamper event zeroises the root secret (R240). -/
def signalFault (i : Injection) (s : State) : State :=
  let s := if i.cls = clsVigil then onTrust (fun t => { t with vigilArmed := false }) s
    else if i.cls = clsTamper then onTrust (fun t => { t with rootSecret := [], rootValid := false }) s
    else if i.cls = clsEntropy then onLl (fun l => { l with drbgRunning := false }) s
    else s
  recordFault { cls := i.cls, kind := i.kind, inst := i.inst, sub := if i.sub = 0xFFFF then 0 else i.sub, status := classStatus i.cls, addr := i.addr.toNat
                injected := true } s

/-- INJECT. -/
def inject (c : Call) (s : State) : Answer × State :=
  let r := c.req
  let i : Injection := { cls := arg r 0 1, kind := arg r 1 1, inst := arg r 2 1, mode := arg r 3 1, sub := arg r 4 2, count := arg r 6 2
                         addr := BitVec.ofNat 64 (arg r 8 8) }
  if ¬ s.faults.injectEn then refuse stNotPermitted s
  else if lcState s = 0 ∨ ((i.kind = kindKeyStore ∨ i.kind = kindKeyMirror ∨ i.kind = kindTrust ∨ i.cls = clsLcCorrupt) ∧ lcState s ≠ 1) then refuse stLcDenied s
  else if i.cls = 0 ∨ ¬ (classKinds i.cls).contains i.kind ∨ ¬ sourceExists s i.kind i.inst ∨ i.mode > 1 ∨ i.count = 0 then refuse stBadArg s
  else if i.mode = 1 then accept [] (signalFault i s)
  else accept [] (onFaults (fun f => { f with inject := f.inject ++ [i] }) s)

/-- INJECT (R381). -/
def execInject (r : MbReq) (s : State) : Host.Outcome State Fault Refusal := whenServing (serve 0x050B 0 inject r) s

/-! ## DUMP_READ and BLOCK_RESET (R403, R405) -/

/-- DUMP_READ. -/
def dumpRead (_ : Call) (s : State) : Answer × State :=
  let d := s.faults.dump
  accept (le 1 1 ++ le 1 d.state ++ le 1 d.lantern ++ le 1 d.cls ++ le 4 d.seq ++ le 8 d.time ++ le 8 d.address.toNat ++ le 4 d.length ++ zeros 4) s

/-- DUMP_READ (R403). -/
def execDumpRead (r : MbReq) (s : State) : Host.Outcome State Fault Refusal := whenServing (serve 0x0510 0 dumpRead r) s

/-- BLOCK_RESET: the sequencer is due once the reply is out. -/
def blockReset (c : Call) (s : State) : Answer × State := accept [] (dueBlockReset 2 none (bit (arg c.req 0 1) 0) s)

/-- BLOCK_RESET (R405). -/
def execBlockReset (r : MbReq) (s : State) : Host.Outcome State Fault Refusal := whenServing (serve 0x0511 0 blockReset r) s

end Sys2Proof.Machine
end

