-- ==== Sys2Proof/Machine/TraceOps.lean ====
section
/-! DEFINITION. Trace buffers and tensor watches by mailbox: the eight operations of TRACE_CONFIG (R413 to R418, R422, R425). -/
namespace Sys2Proof.Machine

/-! ## What a request may name -/

/-- How many buffers and watches an owner holds. -/
def bufsHeld (s : State) (p : Nat) : Nat := s.trace.bufs.countP (fun e => e.2.owner == some p)
def watchesHeld (s : State) (p : Nat) : Nat := s.trace.watches.countP (fun e => e.2.on && e.2.owner == p)

/-- Whether a requester may name a buffer: its own, or a free one within its quota; the manager may name any. -/
def mayBuf (s : State) (p k : Nat) : Bool :=
  p == 16 || (bufAt s k).owner == some p || ((bufAt s k).owner == none && decide (bufsHeld s p < 2))

/-- Whether a requester may name a watch. -/
def mayWatch (s : State) (p k : Nat) : Bool :=
  let w := watchAt s k
  p == 16 || (w.on && w.owner == p) || (!w.on && decide (watchesHeld s p < 4))

/-- A free buffer that is configured belongs to its requester; it names no object. -/
def claimBuf (k p : Nat) (s : State) : State :=
  modBuf k (fun b => if b.owner = none then { b with owner := some p, obj := noObj } else b) s

/-- Whether a buffer is enabled: a half is not OFF. -/
def bufEnabled (s : State) (k : Nat) : Bool := (bufAt s k).west.state ≠ 0 || (bufAt s k).east.state ≠ 0

/-! ## BUFFER -/

/-- Fields of a BUFFER request that fail with BAD_ARG. -/
def bufFieldsOk (r : Bytes) : Bool :=
  let n := arg r 16 4
  arg r 2 1 ≤ 2 && decide (131072 ≤ n ∧ n ≤ 2 ^ 30) && n % 65536 == 0 &&
    (arg r 2 1 ≠ 2 || (arg r 20 4 % 4096 == 0 && decide (arg r 20 4 ≤ n / 4)))

/-- The object of a local buffer: LIVE, in the stacked tier, with the range inside; none for a remote one. -/
def bufPlace (s : State) (p : Nat) (r : Bytes) : Except Nat (Option Nat) :=
  if arg r 4 4 = 0 then .ok none
  else match objHandle s p (arg r 4 4) with
    | .error e => .error e
    | .ok k =>
      if (objAt s k).placement = 2 ∨ arg r 8 8 + arg r 16 4 > (objAt s k).length then .error stBadArg else .ok (some k)

/-- A half of a buffer begins: West at once, East by a TRACE message. -/
def controlBoth (k subop : Nat) (s : State) : State := seamSend true 8 (.trace (.control k subop)) (controlSub k 0 subop s)

/-- BUFFER enables a buffer as RUNNING; its sources and trigger stay as they were set. -/
def traceBuffer (c : Call) (s : State) : Answer × State :=
  let p := c.owner
  let r := c.req
  let k := arg r 1 1
  if k ≥ 32 ∨ ¬ bufFieldsOk r then refuse stBadArg s
  else if ¬ mayBuf s p k then refuse stNotPermitted s
  else if bufEnabled s k then refuse stBusy s
  else match bufPlace s p r with
    | .error e => refuse e s
    | .ok o =>
      let s := modBuf k (fun b => { b with owner := some p, policy := arg r 2 1, obj := o.getD noObj, remote := o.isNone, offset := arg r 8 8
                                           length := arg r 16 4, post := if arg r 2 1 = 2 then arg r 20 4 else 0, fired := false }) s
      let s := match o with
        | some i => holdObjs [i] s
        | none => s
      accept [] (controlBoth k 0 s)

/-- TRACE_CONFIG BUFFER (R425). -/
def execTraceConfigBuffer (r : MbReq) (s : State) : Host.Outcome State Fault Refusal := whenServing (serve 0x0518 0 traceBuffer r) s

/-! ## SOURCES -/

/-- SOURCES. -/
def traceSources (c : Call) (s : State) : Answer × State :=
  let p := c.owner
  let r := c.req
  let k := arg r 1 1
  if k ≥ 32 ∨ arg r 16 4 = 0 ∨ arg r 16 4 > 65536 then refuse stBadArg s
  else if ¬ mayBuf s p k then refuse stNotPermitted s
  else if arg r 20 4 ≠ 0xFFFF ∧ ¬ ctxOk s ((bufAt s k).owner.getD p) (arg r 20 4) then refuse stBadArg s
  else accept [] (modBuf k (fun b => { b with types := arg r 4 4, maskW := BitVec.ofNat 64 (arg r 8 8), maskE := BitVec.ofNat 64 (arg r 24 8)
                                              sample := arg r 16 4, ctx := arg r 20 4 }) (claimBuf k p s))

/-- TRACE_CONFIG SOURCES (R411, R425). -/
def execTraceConfigSources (r : MbReq) (s : State) : Host.Outcome State Fault Refusal := whenServing (serve 0x0518 1 traceSources r) s

/-! ## TRIGGER -/

/-- Whether a partition may name a condition (R416): one that concerns itself. -/
def condConcerns (s : State) (p cond argv : Nat) : Bool :=
  match cond with
  | 3 => partTypes.contains (argv % 256)
  | 4 => (watchAt s argv).on && (watchAt s argv).owner == p
  | 5 => false
  | _ => true

/-- TRIGGER. -/
def traceTrigger (c : Call) (s : State) : Answer × State :=
  let p := c.owner
  let r := c.req
  let k := arg r 1 1
  let cond := arg r 2 1
  if k ≥ 32 ∨ cond > 6 ∨ (cond = 4 ∧ arg r 4 4 ≥ 32) then refuse stBadArg s
  else if ¬ mayBuf s p k ∨ (p < 16 ∧ ¬ condConcerns s p cond (arg r 4 4)) then refuse stNotPermitted s
  else accept [] (modBuf k (fun b => { b with cond := cond, arg := arg r 4 4 }) (claimBuf k p s))

/-- TRACE_CONFIG TRIGGER (R416, R425). -/
def execTraceConfigTrigger (r : MbReq) (s : State) : Host.Outcome State Fault Refusal := whenServing (serve 0x0518 2 traceTrigger r) s

/-! ## WATCH -/

/-- WATCH. -/
def traceWatch (c : Call) (s : State) : Answer × State :=
  let p := c.owner
  let r := c.req
  let k := arg r 1 1
  let n := arg r 8 4
  if k ≥ 32 ∨ arg r 2 1 > 1 then refuse stBadArg s
  else if ¬ mayWatch s p k then refuse stNotPermitted s
  else if arg r 2 1 = 0 then accept [] (setWatch k {} s)
  else if arg r 3 1 ≥ 32 ∨ n = 0 ∨ n > 65536 ∨ ¬ ctxOk s p (arg r 4 2) then refuse stBadArg s
  else if (bufAt s (arg r 3 1)).owner ≠ some p then refuse stNotPermitted s
  else accept [] (setWatch k { on := true, owner := p, ctx := arg r 4 2, desc := arg r 6 2, every := n, buf := arg r 3 1 } s)

/-- TRACE_CONFIG WATCH (R422, R425). -/
def execTraceConfigWatch (r : MbReq) (s : State) : Host.Outcome State Fault Refusal := whenServing (serve 0x0518 3 traceWatch r) s

/-! ## FIRE, STOP, REARM, DISABLE -/

/-- What the further operations ask first: a buffer the requester may name, and, but for DISABLE, one that is enabled. -/
def onEnabled (c : Call) (off : Bool) (f : Nat → State → Answer × State) (s : State) : Answer × State :=
  let k := arg c.req 1 1
  if k ≥ 32 then refuse stBadArg s
  else if ¬ mayBuf s c.owner k then refuse stNotPermitted s
  else if ¬ off ∧ ¬ bufEnabled s k then refuse stBadArg s
  else f k s

/-- FIRE: a MANUAL trigger, found in West. -/
def traceFire (c : Call) (s : State) : Answer × State := onEnabled c false (fun k s => accept [] (controlSub k 0 4 s)) s

/-- TRACE_CONFIG FIRE (R425). -/
def execTraceConfigFire (r : MbReq) (s : State) : Host.Outcome State Fault Refusal := whenServing (serve 0x0518 4 traceFire r) s

/-- STOP. -/
def traceStop (c : Call) (s : State) : Answer × State := onEnabled c false (fun k s => accept [] (controlBoth k 5 s)) s

/-- TRACE_CONFIG STOP (R425). -/
def execTraceConfigStop (r : MbReq) (s : State) : Host.Outcome State Fault Refusal := whenServing (serve 0x0518 5 traceStop r) s

/-- REARM: a buffer whose object has been freed has nothing to write into. -/
def traceRearm (c : Call) (s : State) : Answer × State :=
  onEnabled c false (fun k s =>
    if ¬ (bufAt s k).remote ∧ (bufAt s k).obj = noObj then refuse stBadArg s else accept [] (controlBoth k 6 s)) s

/-- TRACE_CONFIG REARM (R425). -/
def execTraceConfigRearm (r : MbReq) (s : State) : Host.Outcome State Fault Refusal := whenServing (serve 0x0518 6 traceRearm r) s

/-- DISABLE: the buffer is OFF and free; watches that name it go with it. -/
def traceDisable (c : Call) (s : State) : Answer × State :=
  onEnabled c true (fun k s =>
    accept [] (seamSend true 8 (.trace (.control k 7)) (dropBuffer k
      (onTrace (fun t => { t with watches := t.watches.filter (fun w => w.2.buf ≠ k) }) s)))) s

/-- TRACE_CONFIG DISABLE (R425). -/
def execTraceConfigDisable (r : MbReq) (s : State) : Host.Outcome State Fault Refusal := whenServing (serve 0x0518 7 traceDisable r) s

end Sys2Proof.Machine
end

