-- ==== Sys2Proof/Machine/CurfewOps.lean ====
section
/-! DEFINITION. Curfew by mailbox: CURFEW_SCHEDULE, its CANCEL, and DAWN (R426, R431). -/
namespace Sys2Proof.Machine

/-- The capture area a request names: a LIVE object of the manager of at least 64 MiB in the stacked tier. -/
def areaOf (s : State) (h : Nat) : Option Nat :=
  match objHandle s 16 h with
  | .ok k => if (objAt s k).placement ≠ 2 ∧ (objAt s k).length ≥ 2 ^ 26 then some k else none
  | .error _ => none

/-- Whether a curfew is scheduled or in force. -/
def curfewBusy (s : State) : Bool := s.curfew.inForce || (1 ≤ s.curfew.state && s.curfew.state ≤ 4)

/-- A curfew is armed in West and carried to East: its capture key is drawn, its area taken and given a header (R426, R429). -/
def armCurfew (t dawn area : Nat) (s : State) : State :=
  let (key, s) := drbg 32 s
  let s := holdObjs [area] (onKeys (fun k => { k with captureKey := key }) s)
  let s := onCurfew (fun _ => { state := 1, t := t, dawn := dawn, maxDawn := dawn, area := area, armedW := true }) s
  traceCurfewPhase 0 (areaHeader 0 (seamSend true 4 (.curfew (.arm t dawn)) s))

/-- CURFEW_SCHEDULE. -/
def curfewSchedule (c : Call) (s : State) : Answer × State :=
  let r := c.req
  let ms := arg r 4 4
  let t := arg r 8 8
  match areaOf s (arg r 16 4) with
  | none => refuse stBadArg s
  | some k =>
    if t < now s + 100000 ∨ ms = 0 ∨ ms > 60000 then refuse stBadArg s
    else if curfewBusy s then refuse stBusy s
    else (.wait .curfewArmed [], armCurfew t (t + ms * 1000000) k s)

/-- CURFEW_SCHEDULE (R426). -/
def execCurfewSchedule (r : MbReq) (s : State) : Host.Outcome State Fault Refusal := whenServing (serve 0x0519 0 curfewSchedule r) s

/-- CANCEL: until 20 µs before T. -/
def curfewCancel (_ : Call) (s : State) : Answer × State :=
  let c := s.curfew
  if ¬ curfewBusy s then refuse stBadArg s
  else if c.state ≠ 1 ∨ now s + 20000 > c.t then refuse stBusy s
  else
    let s := dropObjs [c.area] (onKeys (fun k => { k with captureKey := [] }) (onCurfew (fun _ => {}) s))
    accept [] (seamSend true 4 (.curfew .cancel) s)

/-- CURFEW_SCHEDULE with CANCEL (R426). -/
def execCurfewCancel (r : MbReq) (s : State) : Host.Outcome State Fault Refusal := whenServing (serve 0x0519 1 curfewCancel r) s

/-- DAWN. -/
def dawnSet (c : Call) (s : State) : Answer × State :=
  let t := arg c.req 8 8
  if ¬ s.curfew.inForce then refuse stBusy s
  else if t < now s + 100000 ∨ t ≥ s.curfew.maxDawn then refuse stBadArg s
  else
    let s := onCurfew (fun x => { x with dawn := t, state := if x.state = 3 then 4 else x.state }) s
    accept [] (seamSend true 4 (.curfew (.dawn t)) s)

/-- DAWN (R431). -/
def execDawn (r : MbReq) (s : State) : Host.Outcome State Fault Refusal := whenServing (serve 0x051A 0 dawnSet r) s

end Sys2Proof.Machine
end

