-- ==== Sys2Proof/Machine/LifeOps.lean ====
section
/-! DEFINITION. Life cycle, debug authorisation and firmware by mailbox: LC_TRANSITION (R441, R442), DEBUG_UNLOCK (R444 to R446), FW_STAGE,
FW_ACTIVATE, FW_COMMIT, FW_STATUS (R348 to R350, R449). -/
namespace Sys2Proof.Machine

/-- Whether the flash takes no command of Stolaikor's now: a power event holds it, or the bus is given away (R498, R510). -/
def flashHeld (s : State) : Bool := s.trust.dusk || s.flash.extAck

/-! ## Tokens (R444, R446) -/

/-- Whether the challenge nonce is live: 60 s, one use. -/
def challengeLive (s : State) : Bool := s.lc.nonceLive && decide (now s ≤ s.lc.nonceTime + 60000000000)

/-- The debug-authority key of the flash record (R508), none where the record is absent. -/
def debugKey (s : State) : Option Bytes :=
  let b := flashRead s 0x020000 128
  if fld b 0 1 = 1 ∧ sub b 1 31 = zeros 31 then some (sub b 32 96) else none

/-- Whether a token is accepted for a purpose and categories. -/
def tokenOk (s : State) (purpose cats : Nat) (t : Bytes) : Bool :=
  fld t 0 1 == 1 && fld t 1 1 == purpose && fld t 2 1 == cats && sub t 3 5 == zeros 5 && sub t 8 16 == romBytes 240 16 &&
    challengeLive s && sub t 24 32 == s.lc.nonce && sub t 56 8 == zeros 8 && !debugAuthRevoked s &&
    (match debugKey s with
      | some k => sha384 k == otpBytes s 16 12 && ecdsaVerify k (sha384 (t.take 64)) (sub t 64 96)
      | none => false)

/-- A token serves one request: the nonce is used. -/
def useChallenge (s : State) : State := onLc (fun l => { l with nonceLive := false }) s

/-! ## LC_TRANSITION (R441, R442) -/

/-- The targets a state allows (R434). -/
def targetAllowed (st target : Nat) : Bool :=
  (st == 0 && (target == 1 || target == 3)) || (st == 1 && (target == 2 || target == 3)) || (st == 2 && target == 3)

/-- An accepted transition begins with the burn of its intent row; the request is answered at its end. -/
def beginTransition (c : Call) (target : Nat) (hash : Bytes) (s : State) : State :=
  lcAdvance (onLc (fun l => { l with req := some (c.mb, c.slot), debugHash := hash, opOn := false
                                     ops := .burn (2 + target) 0xFFFFFFFF#32 :: lcSteps target hash }) s)

/-- LC_TRANSITION. -/
def lcTransition (c : Call) (s : State) : Answer × State :=
  let r := c.req
  let target := arg r 0 1
  let st := shadowState s
  if target = 0 ∨ target > 3 then refuse stBadArg s
  else if ¬ targetAllowed st target then refuse stLcDenied s
  else if s.lc.intent ≠ 0 ∨ s.lc.ops.any (fun o => o == .done true) then refuse stLcInProgress s
  else if s.lc.ops ≠ [] then refuse stBusy s
  else if target = 2 ∧ argBytes r 8 48 = zeros 48 then refuse stBadArg s
  else if st = 2 ∧ s.flash.extAck then (.later, s)
  else if st = 2 ∧ ¬ tokenOk s 2 0 (argBytes r 56 160) then refuse stLcDenied (useChallenge s)
  else
    let s := if st = 2 then useChallenge s else s
    (.kept, beginTransition c target (if target = 2 then argBytes r 8 48 else []) s)

/-- LC_TRANSITION (R441). -/
def execLcTransition (r : MbReq) (s : State) : Host.Outcome State Fault Refusal := whenRunning (serve 0x0520 0 lcTransition r) s

/-! ## DEBUG_UNLOCK (R446) -/

/-- CHALLENGE. -/
def debugChallenge (_ : Call) (s : State) : Answer × State :=
  if ¬ s.ll.drbgRunning then refuse stEntropyFail s
  else
    let (n, s) := drbg 32 s
    accept n (onLc (fun l => { l with nonce := n, nonceTime := now s, nonceLive := true }) s)

/-- DEBUG_UNLOCK CHALLENGE (R446). -/
def execDebugUnlockChallenge (r : MbReq) (s : State) : Host.Outcome State Fault Refusal := whenRunning (serve 0x0521 0 debugChallenge r) s

/-- An unlock accepted: the pending mask, and a block reset (R405, R446). -/
def acceptUnlock (cats : Nat) (s : State) : Answer × State :=
  accept [] (dueBlockReset 2 none false (onTrust (fun t => { t with pendingMask := BitVec.ofNat 8 (cats % 32) }) s))

/-- UNLOCK: in Production by token, unless it relocks; elsewhere without one. -/
def debugUnlock (c : Call) (s : State) : Answer × State :=
  let r := c.req
  let cats := arg r 1 1
  let t := argBytes r 8 160
  if lcState s ≠ 2 ∨ cats = 0 then (if t = zeros 160 then acceptUnlock cats s else refuse stBadArg s)
  else if s.flash.extAck then (.later, s)
  else if tokenOk s 1 cats t then acceptUnlock cats (useChallenge s) else refuse stLcDenied (useChallenge s)

/-- DEBUG_UNLOCK UNLOCK (R446). -/
def execDebugUnlockUnlock (r : MbReq) (s : State) : Host.Outcome State Fault Refusal := whenRunning (serve 0x0521 1 debugUnlock r) s

/-! ## FW_STAGE (R348) -/

/-- The slot that does not run. -/
def otherSlot (s : State) : Nat := 1 - s.ll.image

/-- The state of a slot in the boot record. -/
def markSlotState (slot st : Nat) (s : State) : State := rewriteBoot (fun b => put b (3 + slot) (le 1 st)) s

/-- Bytes programmed without an erase: a bit once 0 stays 0. -/
def flashProgram (a : Nat) (d : Bytes) (s : State) : State :=
  flashWrite a ((d.zip (flashRead s a d.length)).map (fun x => x.1 &&& x.2)) s

/-- A stage begins: the slot is marked STAGING and erased. -/
def beginStage (mb : Nat) (s : State) : State :=
  let k := otherSlot s
  flashErase (slotBase k) 0x100000 (markSlotState k 3 (onLl (fun l => { l with fwStage := { active := true, slot := k, written := 0, mailbox := mb } }) s))

/-- Bytes of the image go to the slot. -/
def stageBytes (off : Nat) (d : Bytes) (s : State) : State :=
  onLl (fun l => { l with fwStage := { l.fwStage with written := l.fwStage.written + d.length } })
    (flashProgram (slotBase s.ll.fwStage.slot + off) d s)

/-- The end of a stage: the image is verified by R318 and its state recorded. -/
def endStage (s : State) : Answer × State :=
  let k := s.ll.fwStage.slot
  let ok := imageOk s k
  let s := markSlotState k (if ok then 1 else 2) (onLl (fun l => { l with fwStage := { l.fwStage with active := false } }) s)
  if ok then accept [] s else refuse stImageRejected s

/-- The manager's form: the image in memory. -/
def stageImage (c : Call) (s : State) : Answer × State :=
  if imageWaits s c 0 then (.later, s) else
  let (st, b, s) := readImage c 0 (fun n => decide (0 < n ∧ n ≤ 0x100000)) s
  if st ≠ stOk then refuse st s else endStage (stageBytes 0 b (beginStage c.mb s))

/-- The management form: one piece. -/
def stagePiece (c : Call) (s : State) : Answer × State :=
  let off := arg c.req 0 4
  let v := arg c.req 4 2
  let n := v % 2 ^ 15
  if n = 0 ∨ n > 192 ∨ 8 + n ≠ reqLen c.req ∨ off + n > 0x100000 then refuse stBadArg s
  else if off ≠ 0 ∧ ¬ s.ll.fwStage.active then refuse stBadArg s
  else
    let s := stageBytes off (argBytes c.req 8 n) (if off = 0 then beginStage c.mb s else s)
    if v ≥ 2 ^ 15 then endStage s else accept [] s

/-- FW_STAGE. A stage in progress is the management mailbox's: the manager's form begins and ends in one request. -/
def fwStageOp (c : Call) (s : State) : Answer × State :=
  if s.ll.fwStage.active ∧ (c.mb ≠ 17 ∨ arg c.req 0 4 = 0) then refuse stBusy s
  else if flashHeld s then (.later, s)
  else if c.mb = 17 then stagePiece c s else stageImage c s

/-- FW_STAGE (R348). -/
def execFwStage (r : MbReq) (s : State) : Host.Outcome State Fault Refusal := whenFused (serve 0x0600 0 fwStageOp r) s

/-! ## FW_ACTIVATE, FW_COMMIT (R349, R449) -/

/-- FW_ACTIVATE. -/
def fwActivate (_ : Call) (s : State) : Answer × State :=
  let k := otherSlot s
  if slotStateOf s k = 2 then refuse stImageRejected s
  else if slotStateOf s k ≠ 1 then refuse stBadArg s
  else if flashHeld s then (.later, s)
  else accept [] (dueBlockReset 4 none false (rewriteBoot (fun b => put b 2 (le 1 (k + 1))) s))

/-- FW_ACTIVATE (R349). -/
def execFwActivate (r : MbReq) (s : State) : Host.Outcome State Fault Refusal := whenFused (serve 0x0601 0 fwActivate r) s

/-- The bits of SVN row `i` from the fuse count up to an SVN. -/
def svnBits (s : State) (svn i : Nat) : Nat :=
  ((List.range 32).map (fun j => if svnCount s ≤ 32 * i + j ∧ 32 * i + j < min svn 512 then 2 ^ j else 0)).sum

/-- The burns of a commit (R449): each row once. -/
def commitBurns (s : State) (flags : Nat) : List LcOp :=
  let key := fld (imageHeader s s.ll.image) 2 1
  (if bit flags 0 then ((List.range 16).filter (fun i => svnBits s s.ll.svn i ≠ 0)).map (fun i =>
    .burn (29 + i) (BitVec.ofNat 32 (svnBits s s.ll.svn i))) else []) ++
  (if bit flags 1 ∧ key > 0 then [.burn 15 (BitVec.ofNat 32 (2 ^ (8 * key) - 1))] else [])

/-- FW_COMMIT. -/
def fwCommit (c : Call) (s : State) : Answer × State :=
  let flags := arg c.req 0 1 % 4
  if ¬ s.ll.trial ∨ s.lc.ops ≠ [] then refuse stBusy s
  else if flags ≠ 0 ∧ ¬ lcPermits s then refuse stLcDenied s
  else if flashHeld s then (.later, s)
  else
    let burns := commitBurns s flags
    let s := onLl (fun l => { l with trial := false }) (rewriteBoot (fun b => put b 1 (le 1 s.ll.image)) s)
    (.kept, lcAdvance (onLc (fun l => { l with req := some (c.mb, c.slot), opOn := false, ops := burns ++ [.done false] }) s))

/-- FW_COMMIT (R349). -/
def execFwCommit (r : MbReq) (s : State) : Host.Outcome State Fault Refusal := whenRunning (serve 0x0602 0 fwCommit r) s

/-! ## FW_STATUS (R350) -/

/-- One slot's entry: its state, TRIAL in bit 0 and PREFERRED in bit 1, and from a VALID image its SVN, release and PROTO_MAX. -/
def slotEntry (s : State) (k : Nat) : Bytes :=
  let h := imageHeader s k
  le 1 (slotStateOf s k) ++ le 1 (b2n (decide (bootTrial s = k + 1)) + 2 * b2n (decide (bootPreferred s = k))) ++
    (if slotStateOf s k = 1 then sub h 4 4 ++ sub h 16 8 ++ sub h 26 1 else zeros 13)

/-- FW_STATUS. -/
def fwStatus (_ : Call) (s : State) : Answer × State :=
  if flashHeld s then (.later, s)
  else accept (slotEntry s 0 ++ slotEntry s 1 ++ le 4 (if s.ll.fwStage.active then s.ll.fwStage.written else 0)) s

/-- FW_STATUS (R350). -/
def execFwStatus (r : MbReq) (s : State) : Host.Outcome State Fault Refusal := whenServing (serve 0x0603 0 fwStatus r) s

end Sys2Proof.Machine
end

