-- ==== Sys2Proof/Machine/BlockReset.lean ====
section
/-! DEFINITION. The block reset as the fault hub's sequencer carries it out (R336, R384, R390, R405): requests that destroy are completed,
commands are accounted for, the dump is taken, the Block and Lantern domains are cleared, the Lamplighter boots. -/
namespace Sys2Proof.Machine

/-! ## Requests (R336) -/

/-- The operations that a block reset completes and that leave more than what it clears itself; the others of R336's list name
things that it clears. -/
def completed (op : Nat) : Option (Call → State → Answer × State) :=
  if op = 0x0101 then some partitionDestroy
  else if op = 0x0104 then some pasidUnbind
  else if op = 0x0121 then some queueDestroy
  else if op = 0x0202 then some keyClear
  else if op = 0x0204 then some keyUngrant
  else if op = 0x0303 then some domainLeave
  else none

/-- A request of that kind that has not been started is carried out, unanswered. -/
def completeRequest (ue : Ue) (mb slot : Nat) (s : State) : State :=
  let q := mbRequest s mb slot
  if (tget {} (boxAt s mb).slots slot).started ∨ prologue s mb slot ≠ stOk then s
  else match completed (reqOp q) with
    | none => s
    | some f =>
      match f ⟨mb, slot, q, ue⟩ s with
      | (.wait w p, t) => holdRequest mb slot w p t
      | (_, t) => t

/-- Every such request, mailbox by mailbox in order of submission. -/
def completeRequests (ue : Ue) (s : State) : State :=
  (List.range 18).foldl (fun s mb => (List.range 4).foldl (fun s _ =>
    match (pendingSlots s mb).find? (fun e => isNext s mb e.1) with
    | none => s
    | some e => modBox mb (fun b => { b with slots := tmod {} b.slots e.1 (fun x => { x with started := true }) }) (completeRequest ue mb e.1 s)) s) s

/-- The slots in which an abandoned KEY_GENERATE or KEY_IMPORT has placed a key. -/
def abandonedSlots (mb : Nat) (q : Bytes) : List Nat :=
  if reqOp q = 0x0200 then [if arg q 2 1 = 8 then 1032 + mb else arg q 0 2]
  else if reqOp q = 0x0201 then
    match arg q 9 1 with
    | 1 => [1027, 1029]
    | 2 => [arg q 0 2]
    | 3 => [1031]
    | _ => [1032 + mb]
  else []

/-- An abandoned request's keys are zero and their slots EMPTY; a domain without its key has none current; an emptied management
secret is sealed as such. -/
def abandonKeys (mb : Nat) (q : Bytes) (s : State) : State :=
  let ks := abandonedSlots mb q
  let s := ks.foldl (fun s k => wipeSlot k s) s
  let s := if ks.contains 1027 then onFabric (fun f => { f with haveCur := false }) s else s
  if ks.contains 1031 then writeSealed s else s

/-- The end of a waiting request: what it clears is cleared, what it placed is gone. -/
def endWaiting (w : Waiting) (s : State) : State :=
  match w.cond with
  | .keyDrain k => wipeSlot k (endGrants k (fun _ => true) s)
  | .grantDrain k p => endGrants k (fun g => g.part == p) s
  | .retireDrain n => retireKey n s
  | .eastKeys _ => abandonKeys w.mb (mbRequest s w.mb w.slot) s
  | .partQuiet p false | .partKeys p false | .partGone p false _ =>
    if w.mb ≠ 18 then s
    else redrawSeed p (modPart p (fun x => { x with tdi := .configUnlocked, nonce := [], stream := none }) (wipeOwned p s))
  | _ => s

/-- An FW_STAGE that had not ended leaves its slot INVALID. -/
def abandonStage (s : State) : State := if s.ll.fwStage.active then markSlotState s.ll.fwStage.slot 2 s else s

/-! ## Commands (R306, R388 step 4) -/

/-- The status a command takes: its own failure's, the one an earlier failure gave it, else RESET_LOST. -/
def lostStatus (c : InFlight) : Nat :=
  if c.killed ≠ 0 then c.killed
  else match c.phase with
    | .ended e => if e ≠ 0 then e else stResetLost
    | .running => stResetLost

/-- A queue ends its commands and is empty again, its register 0; one being destroyed is gone (R306). -/
def resetQueue (ue : Ue) (qi : Nat) (s : State) : State :=
  let q := queueAt s qi
  if q.state = .absent then s
  else if q.state = .destroying then flushDestroyed ue qi s
  else
    let xs := q.inflight.map (fun c => (lostStatus c, some c, c.cmd)) ++ q.discarded.map (fun d => (d.1, none, d.2)) ++
      q.undispatched.map (fun c => (stResetLost, none, c))
    let s := flushErrors ue qi xs s
    setQueue qi { state := .active, part := q.part, q := q.q, realtime := q.realtime, log2 := q.log2, device := q.device, ring := q.ring
                  ringObj := q.ringObj, cmirror := q.cmirror, head := q.tail, tail := q.tail, sampled := q.tail }
      (onFe (fun f => { f with completions := tset 0 f.completions (completionKey q) 0 }) s)

/-- A pilot ends; its fence takes the error word, unless it stood FAILED and has taken one. -/
def resetPilot (ue : Ue) (pi : Nat) (s : State) : State :=
  let p := pilotAt s pi
  if p.state = .absent ∨ (p.state = .failed ∧ p.owed = 0) then s
  else fenceByHandle ue p.part p.fence (.error (if p.owed = 0 then stResetLost else p.owed)) s

/-- The partitions that a reset or a destruction is under way for. -/
def resettingParts (s : State) : List Nat :=
  (s.parts.parts.filter (fun e => e.2.state == .resetting || e.2.state == .destroying)).map Prod.fst

/-- Every command is accounted for; the queues and pilots of a partition whose reset or destruction is under way end as that has them end,
and its steps are completed (R264, R265). -/
def accountAll (ue : Ue) (s : State) : State :=
  let ps := resettingParts s
  let s := ps.foldl (fun s p => beginReset p s) s
  let s := (s.fe.queues.map Prod.fst).foldl (fun s k => resetQueue ue k s) s
  let s := (s.fe.pilots.map Prod.fst).foldl (fun s k => resetPilot ue k s) s
  ps.foldl (fun s p => finishReset ue p s) s

/-! ## Memory, ports, curfew -/

/-- What stands outside memory is written back: combining lines, metadata lines (R56, R390). -/
def writeBackAll (ue : Ue) (s : State) : State :=
  let s := (s.fabric.west.comb ++ s.fabric.east.comb).foldl (fun s c => writeBackLine ue c.line s) s
  (List.range s.build.caps).foldl (fun s c => flushMeta c s) s

/-- Requests that wait at the ports are answered; chunks being swept are repaired or closed (R387). -/
def quietPorts (ue : Ue) (s : State) : State :=
  let s := (List.range 17).foldl (fun s p => answerPort p s) s
  (List.range 8).foldl (fun s n =>
    let s := (List.range s.build.lanterns).foldl (fun s l => repairChunk ue l n s) s
    (List.range s.build.caps).foldl (fun s c => modShare n (.capacity c) (fun x => { x with open_ := false }) s) s) s

/-- A curfew ends ABORTED (R432): header and record say so, held fence writes go out; the captured frames stay for the end of
the reset. -/
def abortCurfew (ue : Ue) (s : State) : State :=
  if ¬ curfewBusy s then s else
  let held := s.curfew.heldWrites
  let s := areaHeader 3 (traceCurfewPhase 3 s)
  let s := onCurfew (fun c => { state := 5, t := c.t, dawn := c.dawn, area := c.area, captured := c.captured, inFlight := c.inFlight
                                outside := c.outside, postDawn := c.postDawn, incomplete := c.incomplete }) s
  held.foldl (fun s w => issueFenceWrite ue w s) s

/-! ## Clearing (R266, R384) -/

/-- A lantern is cleared, with the tables that stage 0x14 loads again from the flash (R73, R139); its stack retrains. -/
def clearLantern (l : Nat) (s : State) : State :=
  emit (.retrain l) (modLantern l (fun x =>
    { sparesUsed := x.sparesUsed, ueLog := x.ueLog, scratchLog := x.scratchLog }) s)

/-- The memory path: rotations go on. -/
def clearPath (s : State) : State :=
  let s := (List.range s.build.lanterns).foldl (fun s l => clearLantern l s) s
  onPath (fun p => { p with ports := [], caps := tmap {} p.caps (fun _ c => { trained := c.trained, through := c.through }) }) s

/-- The objects that hold the DEVICE rings of queues, once for each (R266). -/
def ringObjs (s : State) : List Nat := (s.fe.queues.filter (fun e => e.2.state ≠ .absent && e.2.device)).map (fun e => e.2.ringObj)

/-- Partitions keep their definitions; a HALTED one is ACTIVE again, a reset under way is over; TDIs in service fail (R253, R264). -/
def resetPart (p : Partition) : Partition :=
  { p with state := if p.state = .halted ∨ p.state = .resetting then .active else p.state
           tdi := if p.tdi = .configLocked ∨ p.tdi = .run then .error else p.tdi }

/-- Partitions, objects, fences and counters (R264, R266, R276, R281, R420, R421). -/
def clearParts (s : State) : State :=
  let rings := ringObjs s
  let s := ((s.parts.parts.filter (fun e => e.2.state == .destroying)).map Prod.fst).foldl (fun s p => finishDestroy p s) s
  onParts (fun x =>
    { parts := tmap {} x.parts (fun _ p => resetPart p), pasids := x.pasids
      objects := tmap {} x.objects (fun k o =>
        if o.state = .free then o
        else if o.state = .live ∧ rings.contains k then { o with inflight := 0, bindings := rings.count k }
        else { gen := nextGen o.gen })
      fences := ((List.range 2048).map (fun k => (k, ({ gen := nextGen (tget {} x.fences k).gen } : FenceSlot)))).filter (fun e => e.2 ≠ {}) }) s

/-- The front end, KV pools and sequences, experts, tables (R83, R164, R185, R188, R306, R313). -/
def clearWork (s : State) : State :=
  let s := onFe (fun f => { queues := f.queues, nextTask := f.nextTask, completions := f.completions }) s
  let s := onKv (fun k => { seqs := tmap {} k.seqs (fun _ q => { gen := if q.live ∧ q.state ≠ .revoked then nextGen q.gen else q.gen }) }) s
  let s := onExperts (fun e => { slots := tmap {} e.slots (fun _ c => { gen := if c.state = .open_ then (c.gen + 1) % 4096 else c.gen }) }) s
  onTables (fun _ => {}) s

/-- The outstanding-operation table of a half is empty, every generation one on (R218). -/
def clearOps (t : Tab OutOp) : Tab OutOp :=
  ((List.range 4096).map (fun k => (k, ({ gen := ((tget {} t k).gen + 1) % 8 } : OutOp)))).filter (fun e => e.2 ≠ {})

/-- A half's link engines: routes, groups, replay entries, stamps, what they forward, the inbound store and the credit that responses still
out will return stay (R218, R220). -/
def clearHalf (h : LinkHalf) : LinkHalf :=
  { routes := h.routes, groups := h.groups, replay := h.replay, ops := clearOps h.ops, owed := h.owed ++ h.ops.filterMap owedOf, inbound := h.inbound, refusing := h.refusing, order := h.order, stampTime := h.stampTime
    stampSeq := h.stampSeq, acks := h.acks, bulks := h.bulks, late := h.late, sealedFail := h.sealedFail, replayDrop := h.replayDrop }

/-- A port under bring-up begins again; an UP one runs on under its keys, its session secrets gone (R217). -/
def clearLink (t : Nat) (l : Link) : Link :=
  let l := { l with master := [], rootOk := false, transcript := [], renewing := false }
  if l.state = .handshake then { l with state := .failed, failStep := l.step, failStatus := stResetLost, failedAt := t } else l

/-- The fabric (R204, R217, R218). -/
def clearFabric (s : State) : State :=
  onFabric (fun f => { f with windows := [], owners := [], mcasts := [], verdicts := [], west := clearHalf f.west, east := clearHalf f.east
                              links := tmap {} f.links (fun _ l => clearLink (now s) l) }) s

/-- Key slots (R237), the East mirror (R20), the counters of the paths whose keys are drawn anew (R10, R108). -/
def clearKeys (s : State) : State :=
  let s := ((s.keys.slots.map Prod.fst).filter (fun k => decide (k < 1024))).foldl (fun s k => expireSlot k s) s
  onKeys (fun k => { k with mirror := [], dispatchTx := 0, dispatchRx := 0, reportTx := 0, reportRx := 0, captureKey := [] }) s

/-- The fault store: unacknowledged records of level 4 stay in the Link-domain store (R374); arming goes (R381); programmed levels,
repair entries and class counts stay; a fence of a link port's snuff begins again. -/
def clearFaults (s : State) : State :=
  onFaults (fun f =>
    { linkStore := ((f.linkStore ++ f.records).filter (fun r => r.severity == 4 && !r.acked)).take 16
      errs := f.errs, classCnt := f.classCnt, levelCnt := f.levelCnt, levels := f.levels, injectEn := f.injectEn
      repairLo := f.repairLo, repairHi := f.repairHi, dump := f.dump, lastReset := f.lastReset, lastTime := f.lastTime
      snuffs := tmap {} (f.snuffs.filter (fun e => decide (e.1 ≥ 100 ∧ e.1 < 200))) (fun _ x => { due := x.due })
      terminalDue := f.terminalDue, terminal := f.terminal, inBlockReset := true }) s

/-- The mailboxes: every slot FREE, un-negotiated, no events (R325, R332, R336); the management port's addresses are gone (R511);
settings stay (R340). -/
def clearBoxes (s : State) : State :=
  onBoxes (fun b => { homeGib := b.homeGib, fabricTimeout := b.fabricTimeout, destUnits := b.destUnits, lineCap := b.lineCap
                      hotThresh := b.hotThresh, portRole := b.portRole, reportTtl := b.reportTtl, mctpDrops := b.mctpDrops }) s

/-- The Lamplighter and the fuse controller; EPOCH rises (R323, R257). -/
def clearLamp (s : State) : State :=
  let s := onLl (fun l => { trial := l.trial, fallback := l.fallback, image := l.image, epoch := l.epoch + 1, mgmtFails := l.mgmtFails
                            mgmtLockEnd := l.mgmtLockEnd, mgmtDiscards := l.mgmtDiscards, slotFailLog := l.slotFailLog }) s
  let s := onLc (fun l => { l with ops := [], opOn := false, req := none, nonceLive := false }) s
  onJtag (fun d => { irW := d.irW, irE := d.irE, deniedW := d.deniedW, deniedE := d.deniedE }) s

/-- The records that waited at the endpoints of MESSAGEs are gone. -/
def emptyInbox (s : State) : State := { s with inbox := [] }

/-- Everything of the Block and Lantern domains. -/
def clearBlock (s : State) : State :=
  let s := keepFuses (fun s => clearFaults (clearKeys (clearFabric (clearPath (clearWork (clearParts s)))))) s
  let s := clearLamp s
  let s := onReg (fun r => { plan := r.plan, ctrl := r.ctrl, cap := r.cap }) s
  let s := onTrace (fun _ => {}) (onSeam (fun _ => {}) s)
  emptyInbox (onIde (fun _ => {}) (clearBoxes s))

/-! ## The sequence (R390) -/

/-- FH_LAST_RESET: the type, and for a fault its cause. -/
def lastResetValue (s : State) (type : Nat) : Word64 :=
  let c := match s.faults.cause with
    | some r => if type = 1 ∨ type = 3 then r.cls * 2 ^ 48 + r.kind * 2 ^ 40 + r.inst * 2 ^ 32 + causeSeq s r else 0
    | none => 0
  BitVec.ofNat 64 (type * 2 ^ 56 + c)

/-- The dump pass, of every unit. A dump that failed or lacks a unit leaves its record in the new store. -/
def resetDump (ue : Ue) (s : State) : State := if s.faults.blockDump then takeDump ue (allUnits s) s.faults.cause none s else s

/-- Both bias copies and the counters of every routing group are cleared (R188). -/
def clearRegions (ue : Ue) (s : State) : State :=
  (List.range 16).foldl (fun s k => if (groupAt s k).live then (allLanterns s).foldl (fun s l => clearRegion ue k (groupAt s k) l s) s else s) s

/-- What ends before the block is reset: requests, a curfew, a stage; what stands goes to memory and is accounted. -/
def quietBlock (inp : BootIn) (s : State) : State :=
  let s := abandonStage (abortCurfew inp.ue (completeRequests inp.ue s))
  let s := s.faults.eastBuf.foldl (fun s r => storeRecord r s) s
  syncRecords (quietPorts inp.ue (writeBackAll inp.ue (clearRegions inp.ue (accountAll inp.ue s))))

/-- The dump, and the end of the requests that waited for the reset. -/
def dumpAndEnd (inp : BootIn) (s : State) : State :=
  let s := resetDump inp.ue s
  s.boxes.waiting.foldl (fun s w => endWaiting w s) s

/-- The reset itself, with the record of its type and of a dump that failed; then the frames that waited for it are delivered. -/
def clearAndRecord (inp : BootIn) (v : Word64) (dumped : Bool) (s : State) : State :=
  let s := clearBlock s
  let s := onFaults (fun f => { f with lastReset := v, lastTime := now s }) s
  let s := if dumped ∧ s.faults.dump.state ≥ 2 then keepFuses (simpleFault clsDump kindLamplighter 0) s else s
  keepFuses (deliverAll inp.ue 0) s

/-- A block reset that is due, up to the boot. -/
def blockReset_ (inp : BootIn) (type : Nat) (s : State) : State :=
  let q := keepFuses (quietBlock inp) s
  bootFrom inp (clearAndRecord inp (lastResetValue q type) s.faults.blockDump (keepFuses (dumpAndEnd inp) q))

/-- BLOCK_RESET_SEQUENCE (R390). -/
def execBlockResetSequence (inp : BootIn) (s : State) : Host.Outcome State Fault Refusal :=
  whenRunning (fun s => match s.faults.blockDue with
    | none => s
    | some t => blockReset_ inp t s) s

end Sys2Proof.Machine
end

