-- ==== Sys2Proof/Machine/TgenOps.lean ====
section
/-! DEFINITION. The traffic generators (R485 to R488): their patterns, the 256 B unit, start and stop. -/
namespace Sys2Proof.Machine

/-- MODE, PATTERN, RATE, KEY_ID, SEED of LN_TGEN_CTRL; FIRST and LAST of LN_TGEN_RANGE. -/
def Tgen.mode (t : Tgen) : Nat := bits t.ctrl.toNat 4 2
def Tgen.pattern (t : Tgen) : Nat := bits t.ctrl.toNat 10 8
def Tgen.rate (t : Tgen) : Nat := bits t.ctrl.toNat 19 16
def Tgen.key (t : Tgen) : Nat := bits t.ctrl.toNat 31 20
def Tgen.seed (t : Tgen) : Nat := bits t.ctrl.toNat 63 32
def Tgen.first (t : Tgen) : Nat := bits t.range.toNat 21 0
def Tgen.last (t : Tgen) : Nat := bits t.range.toNat 53 32

/-- Puts a generator back. -/
def modTgen (l c : Nat) (f : Tgen → Tgen) (s : State) : State :=
  modLantern l (fun x => { x with tgens := tmod {} x.tgens c f }) s

/-! ## Patterns (R487) -/

/-- One output of x^31 + x^28 + 1 and the register after it. -/
def prbsNext (x : BitVec 31) : Bool × BitVec 31 :=
  let b := x.getLsbD 30 ^^ x.getLsbD 27
  (b, (x <<< 1) ||| (if b then 1 else 0))

/-- `n` successive outputs as a number, the first the least significant (DESIGN CHOICE), and the register after them. -/
def prbsBits : Nat → BitVec 31 → Nat × BitVec 31
  | 0, x => (0, x)
  | n + 1, x =>
    let (b, y) := prbsNext x
    let (v, z) := prbsBits n y
    (b2n b + 2 * v, z)

/-- `n` PRBS31 words and the register after them. -/
def prbsWords : Nat → BitVec 31 → List Nat × BitVec 31
  | 0, x => ([], x)
  | n + 1, x =>
    let (v, y) := prbsBits 64 x
    let (vs, z) := prbsWords n y
    (v :: vs, z)

/-- The 8 B word at a channel-local address under a pattern other than PRBS31. -/
def patternWord (pattern addr : Nat) : Nat :=
  match pattern with
  | 1 => addr
  | 2 => 2 ^ (addr / 8 % 64)
  | 4 => 2 ^ 64 - 1
  | _ => 0

/-- The pattern's bytes of a 256 B unit, and the PRBS31 register after it. -/
def unitPattern (t : Tgen) (unit : Nat) : Bytes × BitVec 31 :=
  let (ws, x) := prbsWords 32 t.prbs
  if t.pattern = 0 then (ws.flatMap (le 8), x)
  else ((List.range 32).flatMap (fun i => le 8 (patternWord t.pattern (256 * unit + 8 * i))), t.prbs)

/-! ## Units -/

/-- The lantern-local address of a channel-local address in the data range: the inverse of R38. -/
def localOfChannel (c a : Nat) : Nat := a / 256 * 2 ^ 14 + c * 256 + a % 256

/-- The XTS key pair and the block number a sector takes under a memory key ID (R486). -/
def tgenSecret (s : State) (l c k a : Nat) : (Bytes × Bytes) × Nat :=
  let la := localOfChannel c a
  let k' := effectiveKey s k (.stacked l la)
  (xtsKeys k' (slotKey s (lanternWest s l) k'), domainOfLocal s l la / 64)

/-- A sector written at a channel-local address, past decode, remap and carve-outs; bypassed or ciphered (R486). -/
def tgenWrite (l c k a : Nat) (d : Bytes) (s : State) : State :=
  let x := tgenSecret s l c k a
  let v := if k = 0xFFF then d else xtsEncrypt x.1.1 x.1.2 x.2 d
  let s := { s with mem := { s.mem with stacked := twrites 0 s.mem.stacked (stackKey l c a) v } }
  let la := localOfChannel c a
  let s := dropEntries l (fun e => e.addr == x.2 * 64) s
  if a < 0x30000000 ∧ (remapOf s l (la / 4096)).isNone then clearPoison l la s else s

/-- A sector read at a channel-local address. -/
def tgenRead (s : State) (l c k a : Nat) : Bytes :=
  let v := treads 0 s.mem.stacked (stackKey l c a) 64
  let x := tgenSecret s l c k a
  if k = 0xFFF then v else xtsDecrypt x.1.1 x.1.2 x.2 v

/-- A sector that mismatched is counted, the first latched (R488). -/
def tgenMismatch (l c a : Nat) (s : State) : State :=
  modTgen l c (fun t => { t with errors := satTo 32 (t.errors + 1), errAddr := if t.errValid then t.errAddr else a, errValid := true }) s

/-- A sector that comes back flagged is counted, the first latched (R487, R488). -/
def tgenFlagged (l c a : Nat) (s : State) : State :=
  modTgen l c (fun t => { t with ue := satTo 16 (t.ue + 1), errAddr := if t.errValid then t.errAddr else a, errValid := true }) s

/-- One sector that a generator reads: whether it is flagged is a free value; READ_ONLY compares nothing. -/
def tgenCheck (l c a : Nat) (t : Tgen) (d : Bytes) (s : State) : State :=
  let flagged := Sys2Proof.Config.channelFlag s.free
  let s := drawn 1 s
  if flagged then tgenFlagged l c a s
  else if t.mode = 4 ∨ tgenRead s l c t.key a = d then s
  else tgenMismatch l c a s

/-- One 256 B unit of a running generator's range. -/
def tgenUnit (l c : Nat) (s : State) : State :=
  let t := tgenAt s l c
  let (d, x) := unitPattern t t.unit
  let sector (i : Nat) : Nat := 256 * t.unit + 64 * i
  let s := if t.key = 0xFFF then modLantern l (fun y => { y with bypassSeen := true }) s else s
  let s := if t.mode = 1 ∨ t.mode = 3 then (List.range 4).foldl (fun s i => tgenWrite l c t.key (sector i) (sub d (64 * i) 64) s) s else s
  let s := if t.mode = 1 then s else (List.range 4).foldl (fun s i => tgenCheck l c (sector i) t (sub d (64 * i) 64) s) s
  modTgen l c (fun t => { t with prbs := x, unit := t.unit + 1, credit := 0, done := decide (t.unit ≥ t.last)
                                 running := decide (t.unit < t.last) && !t.stopping, stopping := t.stopping && decide (t.unit < t.last) }) s

/-- What a unit costs of the channel: 8 beats of 32 B for each pass over it. -/
def Tgen.cost (t : Tgen) : Nat := if t.mode = 3 then 128 else 64

/-- One nanosecond of a generator: RATE + 1 sixteenths of two channel cycles while the channel is trained. -/
def tgenTick (l c : Nat) (s : State) : State :=
  let t := tgenAt s l c
  if ¬ t.running ∨ ¬ (lanternAt s l).trained.contains c then s
  else if t.credit + t.rate + 1 ≥ t.cost then tgenUnit l c s
  else modTgen l c (fun t => { t with credit := t.credit + t.rate + 1 }) s

/-- One nanosecond of every generator. -/
def tgensTick (s : State) : State :=
  (List.range s.build.lanterns).foldl (fun s l => ((lanternAt s l).tgens.map Prod.fst).foldl (fun s c => tgenTick l c s) s) s

/-! ## Start and stop (R485 to R488) -/

/-- Whether a start is taken: Test state, not running, a mode and pattern that are no reserved one, a range in order and in its place, a
key ID of R486. -/
def tgenMayStart (s : State) (t : Tgen) : Bool :=
  let k := slotAt s t.key
  lcState s == 1 && !t.running && decide (1 ≤ t.mode ∧ t.mode ≤ 4) && decide (t.pattern ≤ 4) && decide (t.first ≤ t.last) &&
    (if t.key = 0xFFF then decide (t.last ≤ 0x30000F)
     else decide (t.last < 0x300000 ∧ 0 < t.key ∧ t.key < 0x400) && k.cls == .memory && k.owner == 16 && slotStatus k == stOk)

/-- START. -/
def tgenStart (l c : Nat) (s : State) : State :=
  if ¬ tgenMayStart s (tgenAt s l c) then s else
  modTgen l c (fun t => { t with running := true, done := false, stopping := false, unit := t.first, errors := 0, ue := 0, credit := 0
                                 prbs := BitVec.ofNat 31 (if t.seed = 0 then 1 else t.seed) }) s

/-- STOP. -/
def tgenStop (l c : Nat) (s : State) : State :=
  modTgen l c (fun t => if t.running then { t with stopping := true } else t) s

end Sys2Proof.Machine
end

