-- ==== Sys2Proof/Machine/Registers.lean ====
section
/-! DEFINITION. Writes at the host register port (R477, R478, R520 to R523): which bits a write changes, every writable register of the
window, and the rows PT_MB_RELEASE, PT_MB_EVENT_PTR, LN_TGEN_START, LN_TGEN_STOP and REGISTER_WRITE. -/
namespace Sys2Proof.Machine

/-! ## What a write covers (R477, R520) -/

/-- The bits of its register that an access covers. -/
def coverOf (a : RegAccess) : Word64 :=
  if a.size8 then 0xFFFFFFFFFFFFFFFF#64 else if a.offset % 8 = 0 then 0x00000000FFFFFFFF#64 else 0xFFFFFFFF00000000#64

/-- A register of RW fields after the write; its other bits stand. -/
def rwOf (a : RegAccess) (fields old : Word64) : Word64 := (old &&& ~~~((coverOf a) &&& fields)) ||| (a.data &&& (coverOf a) &&& fields)

/-- Whether the write writes 1 to a W1C or WO bit. -/
def setsBit (a : RegAccess) (i : Nat) : Bool := (a.data &&& (coverOf a)).getLsbD i

/-- The register's offset. -/
def registerBase (a : RegAccess) : Nat := a.offset / 8 * 8

/-- The bytes an access writes. -/
def laneBytes (a : RegAccess) : Bytes :=
  let d := le 8 a.data.toNat
  if a.size8 then d else sub d (a.offset % 8) 4

/-! ## Mailboxes (R325 to R327) -/

/-- A slot is submitted: FREE becomes PENDING, with the request as it stands; a slot that is not FREE ignores it. A request of no
defined operation is answered once its mailbox is served. -/
def mbSubmit (mb slot : Nat) (s : State) : State :=
  let b := boxAt s mb
  if (tget {} b.slots slot).state ≠ .free then s else
  answerReserved mb
    (setBox mb { b with order := b.order + 1
                        slots := tset {} b.slots slot { state := .pending, request := treads 0 b.reqBytes (256 * slot) 256, order := b.order } } s)

/-- DONE slots named are FREE again. -/
def mbRelease (mb : Nat) (slots : BitVec 4) (s : State) : State :=
  modBox mb (fun b => { b with slots := (List.range 4).foldl (fun t k =>
    if slots.getLsbD k ∧ (tget {} t k).state = .done then tset {} t k {} else t) b.slots }) s

/-- READ moves on; a value that would pass WRITE is ignored. -/
def mbRead (mb : Nat) (v : BitVec 16) (s : State) : State :=
  modBox mb (fun b => if (v - b.read).toNat ≤ unread b then { b with read := v } else b) s

/-- A write to a mailbox's 4 KiB. -/
def writeMailbox (a : RegAccess) (mb off : Nat) (s : State) : State :=
  let slot := off / 256
  let reg := off / 8 * 8
  if off < 0x400 then
    (if (tget {} (boxAt s mb).slots slot).state = .free then
      modBox mb (fun b => { b with reqBytes := twrites 0 b.reqBytes off (laneBytes a) }) s else s)
  else if reg = 0x800 ∧ (coverOf a).getLsbD 0 then settle {} (mbSubmit mb (a.data.toNat % 4) s)
  else if reg = 0x810 ∧ (coverOf a).getLsbD 0 then mbRelease mb (a.data.setWidth 4) s
  else if reg = 0x818 ∧ (coverOf a).getLsbD 0 then modBox mb (fun b => { b with evIrq := setsBit a 1, rspIrq := setsBit a 0 }) s
  else if reg = 0x820 ∧ (coverOf a).getLsbD 0 then mbRead mb (a.data.setWidth 16) s
  else s

/-! ## The fault hub (R377, R395, R405) -/

/-- RW fields of FH_DUMP, FH_REPAIR_LO and FH_REPAIR_HI. -/
def dumpFields : Word64 := 0x8F00FFFFFFE00FFF#64
def repairLoFields : Word64 := 0x8FFFFFFFFFE00000#64
def repairHiFields : Word64 := 0x0FFFFFFFFFE0FFFF#64

/-- Whether a repair entry holds: both key IDs ACTIVE MEMORY slots of one owner, both regions in their tier (R395). -/
def repairOk (s : State) (lo hi : Nat) : Bool :=
  let k := slotAt s (bits lo 59 48)
  let r := slotAt s (bits hi 59 48)
  let memory (x : Nat) : Bool := decide (0 < x ∧ x < 0x400)
  let n := hi % 2 ^ 16 * mib2
  memory (bits lo 59 48) && memory (bits hi 59 48) && k.cls == .memory && r.cls == .memory && k.state == .active && r.state == .active && k.owner == r.owner &&
    decide (0 < n ∧ bits lo 47 21 * mib2 + n ≤ 2 ^ 30 * (48 * s.build.lanterns) ∧ capBase ≤ bits hi 47 21 * mib2 ∧
      bits hi 47 21 * mib2 + n ≤ capBase + 2 ^ 30 * (240 * s.build.caps))

/-- A write to FH_REPAIR; an entry whose VALID it sets is checked. -/
def writeRepair (a : RegAccess) (n : Nat) (high : Bool) (s : State) : State :=
  let lo := tget 0 s.faults.repairLo n
  let hi := tget 0 s.faults.repairHi n
  if high then onFaults (fun f => { f with repairHi := tset 0 f.repairHi n (rwOf a repairHiFields hi) }) s
  else
    let v := rwOf a repairLoFields lo
    let v := if setsBit a 63 ∧ ¬ repairOk s v.toNat hi.toNat then v &&& 0x7FFFFFFFFFFFFFFF#64 else v
    onFaults (fun f => { f with repairLo := tset 0 f.repairLo n v }) s

/-- A write to FH_SEVERITY: level 5 and the reserved levels, and locked classes, ignore it. -/
def writeSeverity (a : RegAccess) (c : Nat) (s : State) : State :=
  let v := a.data.toNat % 8
  if (classDefault c).2 ∨ v > 4 ∨ ¬ (coverOf a).getLsbD 0 then s
  else onFaults (fun f => { f with levels := tset 0 f.levels c (v + 1) }) s

/-- A write to the fault-hub page. -/
def writeFaultHub (a : RegAccess) (off : Nat) (s : State) : State :=
  if off = 0x008 then
    (if (coverOf a).getLsbD 0 then onFaults (fun f => { f with dumpOnUnit := setsBit a 1, injectEn := setsBit a 0 }) s else s)
  else if off = 0x020 then onFaults (fun f => { f with dumpReg := rwOf a dumpFields f.dumpReg }) s
  else if 0x100 ≤ off ∧ off < 0x300 then writeSeverity a ((off - 0x100) / 8) s
  else if 0x800 ≤ off ∧ off < 0x900 then writeRepair a ((off - 0x800) / 16) (off % 16 = 8) s
  else s

/-! ## The regulator (R356, R370) -/

/-- A write to the regulator page. -/
def writeRegulator (a : RegAccess) (off : Nat) (s : State) : State :=
  if off = 0x400 then
    (if owners s = [] then onReg (fun r => { r with plan := rwOf a 0x000000003FFFFFFF#64 r.plan }) s else s)
  else if off = 0x408 then (if setsBit a 1 then onReg (fun r => { r with unmet := false }) s else s)
  else if off = 0x410 then
    (if (rwOf a 0x000000000000FFFF#64 s.reg.ctrl).toNat < 100 then s else onReg (fun r => { r with ctrl := rwOf a 0x000000000000FFFF#64 r.ctrl }) s)
  else s

/-! ## The trust island (R495, R516) -/

/-- A write to the trust-island page. In Production a set tamper enable stays set (R495). -/
def writeTrust (a : RegAccess) (off : Nat) (s : State) : State :=
  match off with
  | 0x08 => onTrust (fun t => { t with cause := t.cause &&& ~~~((a.data &&& (coverOf a)) >>> 48).setWidth 16 }) s
  | 0x18 =>
    onTrust (fun t =>
      let v : BitVec 16 := (rwOf a 0x000000000000FFFF#64 (t.tamperEn.setWidth 64)).setWidth 16
      { t with tamperEn := (if lcState s = 2 then v ||| t.tamperEn else v) ||| 0x2000#16 }) s
  | 0x20 => onTrust (fun t => { t with rtc := (rwOf a 0x0000FFFFFFFFFFFF#64 (t.rtc.setWidth 64)).setWidth 48 }) s
  | 0x28 => if setsBit a 3 then onTrust (fun t => { t with unsafeLast := false }) s else s
  | _ => s

/-! ## Lantern and link pages (R73, R216, R225, R488) -/

/-- RW fields of LN_TGEN_CTRL and LN_TGEN_RANGE. -/
def tgenCtrlFields : Word64 := 0xFFFFFFFFFFFF071C#64
def tgenRangeFields : Word64 := 0x003FFFFF003FFFFF#64

/-- A write to LN_TGEN_CTRL: outside Test it is ignored (R485). -/
def writeTgenCtrl (a : RegAccess) (l c : Nat) (s : State) : State :=
  if lcState s ≠ 1 then s else
  let s := modTgen l c (fun t => { t with ctrl := rwOf a tgenCtrlFields t.ctrl }) s
  let s := if setsBit a 0 then tgenStart l c s else s
  if setsBit a 1 then tgenStop l c s else s

/-- A write to the page of a lantern that the build has. -/
def writeLantern (a : RegAccess) (l off : Nat) (s : State) : State :=
  let c := (off - 0x1000) / 0x20
  if l ≥ s.build.lanterns then s
  else if off = 0 then (if setsBit a 1 then modLantern l (fun x => { x with bypassSeen := false }) s else s)
  else if 0x1000 ≤ off ∧ off < 0x1800 then
    match off % 0x20 with
    | 0x00 => writeTgenCtrl a l c s
    | 0x08 => modTgen l c (fun t => { t with range := rwOf a tgenRangeFields t.range }) s
    | 0x18 => if setsBit a 63 then modTgen l c (fun t => { t with errValid := false }) s else s
    | _ => s
  else s

/-- A write to a link page. -/
def writeLinkPage (a : RegAccess) (p off : Nat) (s : State) : State :=
  let w := linkWest s p
  if p ≥ s.build.links then s
  else if off = 0 then (if setsBit a 3 then modLink p (fun l => { l with tagFail := false }) s else s)
  else if off = 0x100 ∧ p = lowPort s w ∧ setsBit a 63 then onHalf w (fun h => { h with hot := { h.hot with valid := false } }) s
  else s

/-! ## The window -/

/-- A write to a partition page: the page of an ABSENT partition ignores it (R324). -/
def writePartition (a : RegAccess) (p off : Nat) (s : State) : State :=
  if ¬ partExists s p then s
  else if off < 0x1000 then writeMailbox a p off s
  else if off < 0x1200 then doorbell a s
  else s

/-- A write that the access rules allow, to an offset that is served. -/
def writeWindow (a : RegAccess) (s : State) : State :=
  let off := (registerBase a)
  if 0x1000 ≤ off ∧ off < 0x2000 then writeMailbox a 16 (a.offset - 0x1000) s
  else if 0x3000 ≤ off ∧ off < 0x4000 then writeFaultHub a (off - 0x3000) s
  else if 0x4000 ≤ off ∧ off < 0x5000 then writeRegulator a (off - 0x4000) s
  else if 0x5000 ≤ off ∧ off < 0x6000 then writeTrust a (off - 0x5000) s
  else if 0x100000 ≤ off ∧ off < 0x200000 then writePartition a (off / 0x10000 - 16) (a.offset % 0x10000) s
  else if 0x200000 ≤ off ∧ off < 0x300000 then writeLantern a (off / 0x10000 - 32) (off % 0x10000) s
  else if 0x300000 ≤ off ∧ off < 0x360000 then writeLinkPage a (off / 0x4000 - 192) (off % 0x4000) s
  else s

/-- Whether an access is well formed: inside the window and naturally aligned (R477, R518). -/
def formedAccess (a : RegAccess) : Bool := decide (a.offset < 0x4000000 ∧ a.offset % (if a.size8 then 8 else 4) = 0)

/-- A write at the host register port (R478, R520 to R522). -/
def regWrite (a : RegAccess) (s : State) : State :=
  if ¬ s.trust.pwrOk ∨ ¬ (formedAccess a) then s
  else if a.func > 16 ∨ ¬ regAdmits s a true then refuseReg a s
  else if ¬ regServed s a.offset then s
  else writeWindow a s

/-- The offset of an access within its mailbox, where it lies in one. -/
def mailboxOffset (a : RegAccess) : Option Nat :=
  if 0x1000 ≤ a.offset ∧ a.offset < 0x2000 then some (a.offset - 0x1000)
  else if 0x100000 ≤ a.offset ∧ a.offset < 0x200000 ∧ a.offset % 0x10000 < 0x1000 then some (a.offset % 0x10000)
  else none

/-- Whether an access goes to some LN_TGEN_CTRL. -/
def isTgenCtrl (a : RegAccess) : Bool :=
  let off := (registerBase a) % 0x10000
  decide (0x200000 ≤ a.offset ∧ a.offset < 0x300000 ∧ 0x1000 ≤ off ∧ off < 0x1800 ∧ off % 0x20 = 0)

/-! ## The rows -/

/-- PT_MB_RELEASE (R325, R326). -/
def execPtMbRelease (a : RegAccess) (s : State) : Host.Outcome State Fault Refusal :=
  step1 (inCore (fun s => if (mailboxOffset a).map (· / 8) = some (0x810 / 8) then regWrite a s else s)) s

/-- PT_MB_EVENT_PTR (R327). -/
def execPtMbEventPtr (a : RegAccess) (s : State) : Host.Outcome State Fault Refusal :=
  step1 (inCore (fun s => if (mailboxOffset a).map (· / 8) = some (0x820 / 8) then regWrite a s else s)) s

/-- LN_TGEN_START (R485 to R488). -/
def execLnTgenStart (a : RegAccess) (s : State) : Host.Outcome State Fault Refusal :=
  step1 (inCore (fun s => if (isTgenCtrl a) ∧ setsBit a 0 then regWrite a s else s)) s

/-- LN_TGEN_STOP (R488). -/
def execLnTgenStop (a : RegAccess) (s : State) : Host.Outcome State Fault Refusal :=
  step1 (inCore (fun s => if (isTgenCtrl a) ∧ setsBit a 1 then regWrite a s else s)) s

/-- REGISTER_WRITE (R520). -/
def execRegisterWrite (a : RegAccess) (s : State) : Host.Outcome State Fault Refusal := step1 (inCore (regWrite a)) s

end Sys2Proof.Machine
end

