-- ==== Sys2Proof/Machine/Debug.lean ====
section
/-! DEFINITION. The test access ports (R514, R515): JTAG_INSTRUCTION and DEBUG_ACCESS. -/
namespace Sys2Proof.Machine

/-! ## Instructions -/

/-- The category of R445 that an instruction of a half needs; none for one without, or one that is not defined there. -/
def irCategory (half : Nat) (ir : Byte) : Option Nat :=
  if ir = 0x10 then (if half = 0 then some 1 else none)
  else if ir = 0x11 then some 2
  else if ir = 0x12 then some 3
  else if ir = 0x13 then some 4
  else if ir = 0x20 ∨ ir = 0x21 then some 0
  else none

/-- Whether a category is open to a half; East knows only what it was told after pairing (R515). -/
def categoryOpen (s : State) (half c : Nat) : Bool := (if half = 0 then openCategories s else s.jtag.eastNow).getLsbD c

/-- The instruction register of a half, its DENIED count, the result it holds. -/
def irOf (s : State) (half : Nat) : Byte := if half = 0 then s.jtag.irW else s.jtag.irE
def deniedOf (s : State) (half : Nat) : Nat := if half = 0 then s.jtag.deniedW else s.jtag.deniedE
def resultOf (s : State) (half : Nat) : DebugResult := if half = 0 then s.jtag.resultW else s.jtag.resultE

/-- A result left for capture. -/
def setResult (half : Nat) (r : DebugResult) (s : State) : State :=
  onJtag (fun d => if half = 0 then { d with resultW := r } else { d with resultE := r }) s

/-- IDCODE of a half. -/
def idcode (s : State) (half : Nat) : Nat :=
  1 * 2 ^ 28 + (0xE000 + half * 2 ^ 8 + s.build.lanterns) * 2 ^ 12 + s.build.jtagMfg % 2 ^ 11 * 2 + 1

/-- DBG_STATUS of a half. -/
def dbgStatus (s : State) (half : Nat) : Nat :=
  regLifeCycle s / 2 ^ 32 * 2 ^ 32 + s.ll.stage % 256 * 2 ^ 24 + deniedOf s half % 2 ^ 16

/-- What DEBUG_ACCESS captures. -/
def captureOf (r : DebugResult) : Nat := b2n r.done * 2 ^ 95 + b2n r.error * 2 ^ 94 + r.data.toNat

/-- The loopback bits of a half's link ports. -/
def loopbackBits (s : State) (half : Nat) : Nat :=
  let n := westOf s.build.links
  ((List.range 16).map (fun i =>
    let p := if half = 0 then i else n + i
    b2n ((linkAt s p).loopback && (half == 1 || decide (i < n))) * 2 ^ i)).sum

/-- What the data register of the loaded instruction captures; registers whose content the spec leaves to the licensee give free
values. -/
def captureDr (half : Nat) (s : State) : State :=
  let ir := irOf s half
  let out (v : Nat) (s : State) : State := emit (.jtag half v) s
  if ir = 0x01 then out (idcode s half) s
  else if ir = 0x02 then out (dbgStatus s half) s
  else if ir = 0x10 ∨ ir = 0x11 then out (captureOf (resultOf s half)) s
  else if ir = 0x12 then out (loopbackBits s half) s
  else if ir = 0x13 ∨ ir = 0x20 then out (leNat (unstatedBytes 4 s)) (drawn 4 s)
  else if ir = 0x21 then out (leNat (unstatedBytes 8 s)) (drawn 8 s)
  else out 0 s

/-- Whether a half defines an instruction value. -/
def irDefined (half : Nat) (ir : Byte) : Bool := ir == 0x01 || ir == 0x02 || (irCategory half ir).isSome

/-- An instruction is loaded; what it captures goes out. -/
def loadIr (half : Nat) (ir : Byte) (s : State) : State :=
  let denied : Bool := match irCategory half ir with
    | some c => !categoryOpen s half c
    | none => false
  let v : Byte := if denied || !irDefined half ir then 0xFF else ir
  let s := onJtag (fun d => if half = 0 then { d with irW := v, deniedW := satTo 16 (d.deniedW + b2n denied) }
    else { d with irE := v, deniedE := satTo 16 (d.deniedE + b2n denied) }) s
  captureDr half s

/-- JTAG_INSTRUCTION (R514, R515). -/
def execJtagInstruction (half : Nat) (ir : Byte) (s : State) : Host.Outcome State Fault Refusal :=
  step1 (keepFuses (fun s => if s.trust.pwrOk ∧ half < 2 then loadIr half ir s else s)) s

/-! ## The Lamplighter (R315, R514) -/

/-- A DEBUG_ACCESS update under LL_DBG. Key working memory and key paths are out of reach. -/
def llAccess (op addr : Nat) (data : Word64) (s : State) : DebugResult × State :=
  if op = 0 then ({ done := true }, onJtag (fun d => { d with llHalted := true }) s)
  else if op = 1 then
    let s := onJtag (fun d => { d with llHalted := false, llMem := [] }) s
    ({ done := true }, if running s then settle {} s else s)
  else if op = 2 then ({ done := true }, onJtag (fun d => { d with llMem := [] }) s)
  else if op > 4 ∨ Sys2Proof.Config.keyMemory addr then ({ done := true, error := true }, s)
  else if op = 4 then
    ({ done := true }, if s.jtag.llHalted then onJtag (fun d => { d with llMem := (addr, data) :: d.llMem.filter (fun e => e.1 ≠ addr) }) s else s)
  else match s.jtag.llMem.find? (fun e => e.1 == addr) with
    | some e => ({ done := true, data := e.2 }, s)
    | none => ({ done := true, data := BitVec.ofNat 64 (leNat (unstatedBytes 8 s)) }, drawn 8 s)

/-! ## Wicks (R514) -/

/-- The wick of a task that has a physical wick of a lantern. -/
def wickOn (s : State) (l phys : Nat) : Option Wk :=
  (s.fe.tasks.flatMap (fun t => (t.2.wicks.filter (fun k => k.1 / 256 == l && k.2.phys == phys && !k.2.ended)).map (fun k => (⟨t.1, l, k.1 % 256, {}⟩ : Wk)))).head?

/-- The place of a wick that an address names; none past its end. -/
def debugOpnd (s : State) (w : Wk) (addr : Nat) : Option Opnd :=
  let (space, off) := Sys2Proof.Config.debugPlace (addr % 256)
  let size := if space < 2 then 16384 else 256 * ((taskAt s w.t).sheetUnits.getD (space - 2) 0)
  if off + 8 > size then none
  else some { space := if space = 0 then spAct else if space = 1 then spAcc else spSheet, arg := space - 2, off := off }

/-- The lantern that an address of WICK_DBG names at a half, and the physical wick. -/
def debugLantern (s : State) (half addr : Nat) : Nat := if half = 0 then bits addr 23 16 else firstEast s + bits addr 23 16
def debugPhys (s : State) (half addr : Nat) : Nat := wickPhys s (debugLantern s half addr) (bits addr 15 8)

/-- Whether an address and operation of WICK_DBG name no wick of the half. -/
def debugNoWick (s : State) (half op addr : Nat) : Bool :=
  decide (debugLantern s half addr ≥ s.build.lanterns ∨ lanternWest s (debugLantern s half addr) ≠ (half == 0) ∨
    bits addr 15 8 ≥ s.build.wicks ∨ op > 4)

/-- A wick is held, with `step` at its next descriptor only, or released. -/
def holdWick (l phys : Nat) (step : Option Nat) (s : State) : State :=
  onJtag (fun d => { d with wickHalt := ⟨l, phys, step⟩ :: d.wickHalt.filter (fun h => ¬ (h.l = l ∧ h.phys = phys)) }) s
def freeWick (l phys : Nat) (s : State) : State :=
  onJtag (fun d => { d with wickHalt := d.wickHalt.filter (fun h => ¬ (h.l = l ∧ h.phys = phys)) }) s

/-- A read or a write of a wick's scratchpad, accumulators or sheets. -/
def wickPeek (w : Wk) (op addr : Nat) (data : Word64) (s : State) : DebugResult × State :=
  match debugOpnd s w addr with
  | none => ({ done := true, error := true }, s)
  | some o =>
    if op = 4 then ({ done := true }, putLocal w o 0 (le 8 data.toNat) s)
    else ({ done := true, data := BitVec.ofNat 64 (leNat (getLocal s w o 0 8)) }, s)

/-- A step, a read or a write of a physical wick, with the wick of a task that holds it where there is one. -/
def wickTouch (l phys op addr : Nat) (data : Word64) (held : Option Wk) (s : State) : DebugResult × State :=
  match held with
  | none => if op = 3 then ({ done := true, data := BitVec.ofNat 64 (leNat (unstatedBytes 8 s)) }, drawn 8 s) else ({ done := true }, s)
  | some w => if op = 2 then ({ done := true }, holdWick l phys (some (descsEnded (wickOf s w))) s) else wickPeek w op addr data s

/-- A DEBUG_ACCESS update under WICK_DBG. -/
def wickAccess (half op addr : Nat) (data : Word64) (s : State) : DebugResult × State :=
  if debugNoWick s half op addr then ({ done := true, error := true }, s)
  else if op = 0 then ({ done := true }, holdWick (debugLantern s half addr) (debugPhys s half addr) none s)
  else if op = 1 then ({ done := true }, freeWick (debugLantern s half addr) (debugPhys s half addr) s)
  else wickTouch (debugLantern s half addr) (debugPhys s half addr) op addr data
    (wickOn s (debugLantern s half addr) (debugPhys s half addr)) s

/-- Port `i` of a half, where the build has it. -/
def halfPort (s : State) (half i : Nat) : Option Nat :=
  let n := westOf s.build.links
  let p := if half = 0 then i else n + i
  if p < s.build.links ∧ (half = 1 ∨ i < n) then some p else none

/-- LINK_LB: bit p sets loopback on link port p of the half, a port in DOWN or FAILED (R445, R514); a 0 ends it. -/
def setLoopback (half bits_ : Nat) (s : State) : State :=
  (List.range 16).foldl (fun s i => match halfPort s half i with
    | none => s
    | some p =>
      let free_ : Bool := (linkAt s p).state == .down || (linkAt s p).state == .failed
      modLink p (fun l => { l with loopback := bits_.testBit i && (free_ || l.loopback) }) s) s

/-- A scan of the data register: what it captures goes out, the update takes place. Under LINK_LB the data register is 16 bits of
loopback. Under another instruction, or one whose category is closed, the scan has no effect. -/
def debugScan (half : Nat) (dr : BitVec 96) (s : State) : State :=
  let ir := irOf s half
  let op := bits dr.toNat 95 88
  let addr := bits dr.toNat 87 64
  let data : Word64 := dr.setWidth 64
  let open_ : Bool := (irCategory half ir).any (fun c => categoryOpen s half c)
  if ¬ open_ then s
  else if ir = 0x12 then setLoopback half (dr.toNat % 2 ^ 16) (emit (.jtag half (loopbackBits s half)) s)
  else if ir ≠ 0x10 ∧ ir ≠ 0x11 then s
  else
    let s := emit (.jtag half (captureOf (resultOf s half))) s
    let done := if ir = 0x10 then llAccess op addr data s else wickAccess half op addr data s
    setResult half done.1 done.2

/-- DEBUG_ACCESS (R514). -/
def execDebugAccess (half : Nat) (dr : BitVec 96) (s : State) : Host.Outcome State Fault Refusal :=
  step1 (keepFuses (fun s => if s.trust.pwrOk ∧ half < 2 then debugScan half dr s else s)) s

end Sys2Proof.Machine
end

