-- ==== Sys2Proof/Machine/WickRows.lean ====
section
/-! DEFINITION. The rows of descriptors, one wick at a time (R119 to R137, R151 to R163, R167 to R185): a wick takes the
descriptor it stands before; barriers and shared operations take effect as the last wick comes. -/
namespace Sys2Proof.Machine

/-- What the wicks met at a descriptor do together. -/
def meetingAct (ws : List Wk) (d : Bytes) (s : State) : WOut Unit :=
  let w := ws.headD ⟨0, 0, 0, {}⟩
  match fld d 1 1 with
  | 0x1A => .done () (doNorm ws d s)
  | 0x1C => .done () (doReduce ws d s)
  | 0x1D => .done () (doDigest ws w.l d s)
  | 0x20 => doAttend ws w.l d s
  | 0x28 => if setBusy s w.t ∧ (taskAt s w.t).lanterns.length > 1 then .waits [] else doTopk w.t d w.ue s
  | _ =>
    match fld d 16 1 with
    | 0 => if setBusy s w.t then .waits [] else doDispatch w.t d w.ue s
    | 1 => doReturn w.t w.l d w.ue s
    | _ => doCancel w.t d s

/-- A meeting takes place where everyone who can come has come. -/
def holdMeeting (w : Wk) (set : Bool) (s : State) : WOut Unit :=
  let x := taskAt s w.t
  match gathered s w.t w.ue set (if set then x.lanterns else [w.l]) with
  | none => .done () s
  | some (ws, pc) =>
    (meetingAct ws (x.program.getD pc []) s).andThen fun _ s2 => .done () (ws.foldl (fun t v => endDesc v s t) s2)

/-- A wick's read waits to inherit tickets (R59): they stand as wanted until the wick goes on. -/
def noteWanted (w : Wk) (ks : List Nat) (s : State) : State :=
  if tget [] (taskAt s w.t).wanted w.l = ks then s else modTask w.t (fun x => { x with wanted := tset [] x.wanted w.l ks }) s

/-- The element rows of a vector operation that wick `w` reads: whole tiles or units of its share in QUANTISE (R133). -/
def sourceRows (s : State) (w : Wk) (d : Bytes) : Nat × Nat :=
  let n := vecN d
  if fld d 1 1 ≠ 0x1B then wickShare s w n else
  let u := if fld d 21 1 = 0 then (fmtIn s w.l (fld d 22 1)).tileWeights else 4
  let x := wickShare s w ((n + u - 1) / u)
  (min n (x.1 * u), min n (x.2 * u))

/-- The bytes of sheets and scratchpads that a descriptor's wick reads as operands, but for those that readOp and readSure fetch: operand,
offset, length. -/
def localReads (s : State) (w : Wk) (d : Bytes) : List (Opnd × Nat × Nat) :=
  let e := sourceRows s w d
  let rows (at_ ty : Nat) : Opnd × Nat × Nat := (opndAt d at_, e.1 * rowBytes ty, (e.2 - e.1) * rowBytes ty)
  match fld d 1 1 with
  | 0x02 => [(opndAt d 8, 0, 4)]
  | 0x03 => if fld d 5 1 = 1 then [(opndAt d 8, 0, 4)] else if fld d 5 1 = 2 then [(opndAt d 8, 0, 32)] else []
  | 0x10 => [(opndAt d 8, 0, 16 * fld d 24 2)]
  | 0x11 => [(opndAt d 8, 0, 16 * fld d 28 2)]
  | 0x18 => rows 8 (typeA d) :: (if elemB (fld d 21 1) then [rows 12 (typeB d)] else [])
  | 0x1A => [rows 8 (typeA d), rows 12 (typeB d)]
  | 0x19 | 0x1B | 0x1C | 0x1D => [rows 8 (typeA d)]
  | _ => []

/-- Whether a descriptor consumes a scratchpad word of the wick that is poison (R105). What several wicks reduce together is read as each
of them comes to it. -/
def readsPoison (s : State) (w : Wk) (d : Bytes) : Bool :=
  !(wickOf s w).poison.isEmpty && (localReads s w d).any (fun r => poisoned s w r.1 r.2.1 r.2.2)

/-- A wick ready before a descriptor of its row's operation takes it: skipped by predication, or by `go`, which moves the wick on
or leaves it waiting. Then meetings that have become complete take place. A wait leaves everything as it was, but for the
tickets it is noted to want, or for what has been sent. -/
def wickTurn (mine : Bytes → Bool) (w : Wk) (go : Bytes → State → WOut Unit) (s : State) : State :=
  if ¬ wickReady s w then s else
  match wickDesc s w with
  | none => s
  | some d =>
    if ¬ mine d then s else
    let r := if skipped (wickOf s w) d then WOut.done () (endDesc w s s) else if readsPoison s w d then .fails stDataPoison s else go d s
    match (r.andThen fun _ s => holdMeeting w false s).andThen fun _ s => holdMeeting w true s with
    | .waits ks => noteWanted w ks s
    | .stays s' => settle w.ue (noteWanted w [] s')
    | .fails st s' => settle w.ue (failTask w.t st s')
    | .done _ s' => settle w.ue (noteWanted w [] s')

/-- A descriptor one wick carries out by itself. -/
def alone (w : Wk) (f : Bytes → State → WOut Unit) (d : Bytes) (s : State) : WOut Unit :=
  (f d s).andThen fun _ s' => .done () (endDesc w s s')

/-- Whether a descriptor is of an operation, and of a subop at a byte. -/
def isOp (op : Nat) (d : Bytes) : Bool := fld d 1 1 == op
def isSub (op at_ sub : Nat) (d : Bytes) : Bool := fld d 1 1 == op && fld d at_ 1 == sub

/-- The frame of a row: no error flags on its reads. -/
def wickRow (op : Nat) (r : WickRef) (go : Wk → Bytes → State → WOut Unit) (s : State) : Host.Outcome State Fault Refusal :=
  whenServing (wickTurn (isOp op) (wkOf r {}) (go (wkOf r {}))) s

/-- The frame of a row with the error flags of its reads. -/
def wickRowUe (op : Nat) (r : WickRef) (ue : Ue) (go : Wk → Bytes → State → WOut Unit) (s : State) : Host.Outcome State Fault Refusal :=
  whenServing (wickTurn (isOp op) (wkOf r ue) (go (wkOf r ue))) s

/-! ## Control -/

/-- A wick of an aborting task stops at its boundary. -/
def abortTurn (w : Wk) (s : State) : State :=
  let x := taskAt s w.t
  if x.live ∧ x.aborting ∧ x.lanterns.contains w.l ∧ w.r < x.w ∧ ¬ islandStopped s (.wicks w.l) then
    settle {} (stopWick w (abortCommit w.t ((wickDesc s w).getD []) w.ue s))
  else s

/-- WICK_ABORT (R119). -/
def execWickAbort (w : WickRef) (s : State) : Host.Outcome State Fault Refusal := whenServing (abortTurn (wkOf w {})) s

/-- A wick's program ends: at an END descriptor, or after its last one (R120). -/
def endTurn (w : Wk) (s : State) : State :=
  if ¬ wickReady s w then s else
  let go : Bool := match wickDesc s w with
    | none => true
    | some d => fld d 1 1 == 1
  if ¬ go then s
  else if ((wickDesc s w).map (skipped (wickOf s w))).getD false then settle {} (endDesc w s s)
  else
    match ((endProgram w (endDesc w s s)).andThen fun _ s => holdMeeting w false s).andThen fun _ s => holdMeeting w true s with
    | .waits ks => noteWanted w ks s
    | .stays s' => settle {} (noteWanted w [] s')
    | .fails st s' => settle {} (failTask w.t st s')
    | .done _ s' => settle {} (noteWanted w [] s')

/-- END (R120). -/
def execEndOp (w : WickRef) (s : State) : Host.Outcome State Fault Refusal := whenServing (endTurn (wkOf w {})) s

/-- LOOP of a wick. -/
def doLoop (w : Wk) (d : Bytes) (s : State) : WOut Unit :=
  .done () (endDescBy (enterLoop (taskAt s w.t).program d (loopTimes s w d)) w s s)

/-- LOOP (R121). -/
def execLoop (w : WickRef) (s : State) : Host.Outcome State Fault Refusal := wickRow 0x02 w doLoop s

/-- PRED of a wick. -/
def doPred (w : Wk) (d : Bytes) (s : State) : WOut Unit :=
  .done () (modWick w (fun k => { k with masks := k.masks.set (fld d 4 1) (predValue s w d) }) s)

/-- PRED (R122). -/
def execPred (w : WickRef) (s : State) : Host.Outcome State Fault Refusal := wickRow 0x03 w (fun w => alone w (doPred w)) s

/-- BARRIER of a wick. -/
def doBarrier (w : Wk) (d : Bytes) (s : State) : WOut Unit :=
  let set := fld d 4 1 == 1
  arrive w (barrierOf d) set (set && !(taskAt s w.t).exch.isEmpty) (fun s => .done () s) s

/-- BARRIER (R123). -/
def execBarrier (w : WickRef) (s : State) : Host.Outcome State Fault Refusal := wickRow 0x04 w doBarrier s

/-! ## Data movement -/

/-- MOVE (R136). -/
def execMove (w : WickRef) (ue : Ue) (s : State) : Host.Outcome State Fault Refusal := wickRowUe 0x08 w ue (fun w => alone w (doMove w)) s

/-- GATHER (R137). -/
def execGather (w : WickRef) (ue : Ue) (s : State) : Host.Outcome State Fault Refusal := wickRowUe 0x09 w ue (fun w => alone w (doGather w)) s

/-- SCATTER (R137). -/
def execScatter (w : WickRef) (ue : Ue) (s : State) : Host.Outcome State Fault Refusal := wickRowUe 0x0A w ue (fun w => alone w (doScatter w)) s

/-! ## Products -/

/-- GEMV (R126). -/
def execGemv (w : WickRef) (ue : Ue) (s : State) : Host.Outcome State Fault Refusal := wickRowUe 0x10 w ue (fun w => alone w (doGemv w)) s

/-- GEMV_SPARSE (R129). -/
def execGemvSparse (w : WickRef) (ue : Ue) (s : State) : Host.Outcome State Fault Refusal := wickRowUe 0x11 w ue (fun w => alone w (doSparse w)) s

/-! ## Vector operations -/

/-- ELEMWISE (R133). -/
def execElemwise (w : WickRef) (s : State) : Host.Outcome State Fault Refusal := wickRow 0x18 w (fun w => alone w (doElemwise w)) s

/-- CURVE (R99, R133). -/
def execCurve (w : WickRef) (s : State) : Host.Outcome State Fault Refusal := wickRow 0x19 w (fun w => alone w (doCurve w)) s

/-- The implicit barrier of the descriptor a wick stands before (R123). -/
def ownBarrier (w : Wk) (busy : Bool) (act : State → WOut Unit) (s : State) : WOut Unit :=
  arrive w (.implicit (wickOf s w).pc) true busy act s

/-- NORM of a wick: with its lantern's wicks, or as a SET barrier with one total for the set. -/
def goNorm (w : Wk) (d : Bytes) (s : State) : WOut Unit :=
  if setOp d then
    let ls := (taskAt s w.t).lanterns
    ownBarrier w (setBusy s w.t) (fun s => doNormSet w.t (ls.map (fun l => (l, wicksIn s w.t w.ue [l]))) d s) s
  else comeTo w s

/-- NORM (R133). -/
def execNorm (w : WickRef) (s : State) : Host.Outcome State Fault Refusal := wickRow 0x1A w goNorm s

/-- QUANTISE (R133). -/
def execQuantise (w : WickRef) (s : State) : Host.Outcome State Fault Refusal := wickRow 0x1B w (fun w => alone w (doQuantise w)) s

/-- REDUCE of a wick. -/
def goReduce (w : Wk) (d : Bytes) (s : State) : WOut Unit :=
  if setOp d then
    let ls := (taskAt s w.t).lanterns
    ownBarrier w (setBusy s w.t) (fun s => doReduceSet w.t (ls.map (fun l => (l, wicksIn s w.t w.ue [l]))) d s) s
  else comeTo w s

/-- REDUCE (R133). -/
def execReduce (w : WickRef) (s : State) : Host.Outcome State Fault Refusal := wickRow 0x1C w goReduce s

/-- DIGEST (R135). -/
def execDigest (w : WickRef) (s : State) : Host.Outcome State Fault Refusal := wickRow 0x1D w (fun w _ s => comeTo w s) s

/-! ## Attention and the cache -/

/-- ATTEND (R160). -/
def execAttend (w : WickRef) (ue : Ue) (s : State) : Host.Outcome State Fault Refusal := wickRowUe 0x20 w ue (fun w _ s => comeTo w s) s

/-- ATTN_MERGE of a wick. -/
def goMerge (w : Wk) (d : Bytes) (s : State) : WOut Unit := ownBarrier w (setBusy s w.t) (doMerge w.t d w.ue) s

/-- ATTN_MERGE (R163). -/
def execAttnMerge (w : WickRef) (s : State) : Host.Outcome State Fault Refusal := wickRow 0x21 w goMerge s

/-- A KV_APPEND of a subop: COMMIT and ROLLBACK stand before their descriptor while the set depends on a ticket (R156). -/
def goAppend (sub : Nat) (act : Nat → Bytes → Ue → State → WOut Unit) (w : Wk) (d : Bytes) (s : State) : WOut Unit :=
  ownBarrier w (if sub = 0 then !(taskAt s w.t).exch.isEmpty else setBusy s w.t) (act w.t d w.ue) s

/-- KV_APPEND APPEND (R152). -/
def execKvAppendAppend (w : WickRef) (ue : Ue) (s : State) : Host.Outcome State Fault Refusal :=
  whenServing (wickTurn (isSub 0x22 5 0) (wkOf w ue) (goAppend 0 doAppend (wkOf w ue))) s

/-- KV_APPEND COMMIT (R153). -/
def execKvAppendCommit (w : WickRef) (ue : Ue) (s : State) : Host.Outcome State Fault Refusal :=
  whenServing (wickTurn (isSub 0x22 5 1) (wkOf w ue) (goAppend 1 doCommit (wkOf w ue))) s

/-- KV_APPEND ROLLBACK (R154). -/
def execKvAppendRollback (w : WickRef) (ue : Ue) (s : State) : Host.Outcome State Fault Refusal :=
  whenServing (wickTurn (isSub 0x22 5 2) (wkOf w ue) (goAppend 2 doRollback (wkOf w ue))) s

/-! ## Experts -/

/-- TOPK_ROUTE of a wick. -/
def goTopk (w : Wk) (d : Bytes) (s : State) : WOut Unit :=
  if setOp d then ownBarrier w (setBusy s w.t) (doTopkSet w.t d w.ue) s else comeTo w s

/-- TOPK_ROUTE (R168). -/
def execTopkRoute (w : WickRef) (ue : Ue) (s : State) : Host.Outcome State Fault Refusal := wickRowUe 0x28 w ue goTopk s

/-- EXPERT_SEND DISPATCH (R176). -/
def execExpertSendDispatch (w : WickRef) (ue : Ue) (s : State) : Host.Outcome State Fault Refusal :=
  whenServing (wickTurn (isSub 0x29 16 0) (wkOf w ue) (fun _ s => comeTo (wkOf w ue) s)) s

/-- EXPERT_SEND RETURN (R181). -/
def execExpertSendReturn (w : WickRef) (s : State) : Host.Outcome State Fault Refusal :=
  whenServing (wickTurn (isSub 0x29 16 1) (wkOf w {}) (fun _ s => comeTo (wkOf w {}) s)) s

/-- EXPERT_SEND CANCEL (R185). -/
def execExpertSendCancel (w : WickRef) (s : State) : Host.Outcome State Fault Refusal :=
  whenServing (wickTurn (isSub 0x29 16 2) (wkOf w {}) (fun _ s => comeTo (wkOf w {}) s)) s

/-- EXPERT_COMBINE of a wick. -/
def goCombine (w : Wk) (d : Bytes) (s : State) : WOut Unit := ownBarrier w (!(taskAt s w.t).exch.isEmpty) (doCombine w.t d) s

/-- EXPERT_COMBINE (R184). -/
def execExpertCombine (w : WickRef) (s : State) : Host.Outcome State Fault Refusal := wickRow 0x2A w goCombine s

end Sys2Proof.Machine
end

