-- ==== Sys2Proof/Machine/ExpertRows.lean ====
section
/-! DEFINITION. Arrival and answer records, gather windows and deadlines (R179 to R183), pilot items (R310, R311), the trim loop
(R186 to R188). -/
namespace Sys2Proof.Machine

/-! ## Records at their units -/

/-- The oldest whole record of a kind that landed by a port, and in its lantern. -/
def firstRecord (s : State) (port : Nat) (arrival : Bool) : Option RxRecord :=
  s.experts.records.find? (fun r => r.port == port && r.arrival == arrival && r.under.isEmpty)

/-- ARRIVAL_RECORD: the arrival unit takes the oldest dispatch record of a port. -/
def takeArrival (port : Nat) (s : State) : State :=
  if linkStopped s (linkWest s port) then s else
  match firstRecord s port true with
  | none => s
  | some r => settle {} (arriveRecord r s)

/-- ARRIVAL_RECORD (R179). -/
def execArrivalRecord (port : Nat) (s : State) : Host.Outcome State Fault Refusal := whenServing (takeArrival port) s

/-- GATHER_WINDOW_EXPIRY (R179, R180). -/
def execGatherWindowExpiry (server slice : Nat) (s : State) : Host.Outcome State Fault Refusal :=
  whenServing (fun s => settle {} (expireWindow server slice s)) s

/-- ANSWER_RECORD: the combine units take the oldest answer record of a port; it stays where no ticket is to be had. -/
def takeAnswer (port : Nat) (s : State) : State :=
  if linkStopped s (linkWest s port) then s else
  match firstRecord s port false with
  | none => s
  | some r =>
    match applyAnswer r s with
    | none => s
    | some s => settle {} (onExperts (fun e => { e with records := e.records.erase r }) s)

/-- ANSWER_RECORD (R182). -/
def execAnswerRecord (port : Nat) (s : State) : Host.Outcome State Fault Refusal := whenServing (takeAnswer port) s

/-- COMBINE_DEADLINE (R183): one lantern's combine unit evaluates a slot's deadline. -/
def execCombineDeadline (slot l : Nat) (s : State) : Host.Outcome State Fault Refusal :=
  whenServing (fun s => if islandStopped s (.wicks l) then s else settle {} (deadlinePart slot l s)) s

/-! ## Pilot items (R310, R311) -/

/-- The arguments of an item's run: slots 0 to 7 from the item, the rest from the argument block. -/
def itemArgs (x : Task) (item : Bytes) : List Word64 := (chunks 8 (fit 64 item)).map (fun b => BitVec.ofNat 64 (leNat b)) ++ x.args.drop 8

/-- A pilot's program with an item's arguments. -/
def itemProg (x : Task) (args : List Word64) : Prog :=
  { argc := argCount x.header, sheets := sheetUnits x.header, descs := x.program, n := x.lanterns.length, w := x.w, args := args }

/-- The mask of a task's lanterns. -/
def taskMask (x : Task) : Nat := (x.lanterns.map (fun l => 2 ^ l)).sum

/-- The status of an item's own checks: the limits that rest on its arguments (R117, R118), then its sequences (R149). -/
def itemStatus (s : State) (x : Task) (args : List Word64) : Nat :=
  let p := itemProg x args
  if ¬ progOk p ∨ ¬ tableLimits s x.part (some (taskMask x)) p then stProgramInvalid
  else ((progSeqs p).map (fun q => seqStatus s x.part (taskMask x) q.1)).foldl firstStatus stOk

/-- An item fails: the fence takes its status, the items behind it are dropped and counted, the pilot is FAILED (R311). -/
def failItem (ue : Ue) (pi st : Nat) (s : State) : State :=
  let p := pilotAt s pi
  let s := fenceByHandle ue p.part p.fence (.error st) s
  let s := modCounters p.part (fun c => { c with dropped := tmod 0 c.dropped p.n (fun n => satTo 64 (n + p.items.length)) }) s
  freeSlice pi (setPilot pi { p with items := [], current := none, state := if p.state = .stopping then .stopping else .failed } s)

/-- The next item of a pilot begins. -/
def startItem (pi : Nat) (ue : Ue) (s : State) : State :=
  let p := pilotAt s pi
  let go := p.state = .waiting ∨ p.state = .running ∨ (p.state = .stopping ∧ p.drain)
  if ¬ dispatchOpen s ∨ (partAt s p.part).state ≠ .active ∨ ¬ go ∨ p.current.isSome then s
  else match p.items with
    | [] => s
    | item :: rest =>
      let x := taskAt s p.task
      let args := itemArgs x item
      let st := itemStatus s x args
      let s1 := setPilot pi { p with items := rest, current := some item, state := if p.state = .stopping then .stopping else .running } s
      if st ≠ stOk then settle ue (failItem ue pi st s1)
      else
        let qs := progSeqs (itemProg x args)
        if ¬ seqsFree s p.task qs then s
        else
          let s := modTask p.task (fun y => { y with
            seqHold := seqHolds qs, seqShare := seqSet qs, start := now s
            biasPins := (progGroups (itemProg x args)).map (fun g => (g, (groupAt s g).active)) }) (nameSeqs (seqSet qs) s1)
          settle ue (runTask p.task args s)

/-- PILOT_ITEM_START (R310). -/
def execPilotItemStart (pi : Nat) (ue : Ue) (s : State) : Host.Outcome State Fault Refusal := whenServing (startItem pi ue) s

/-- Whether every answer of a pilot's item has been accepted by a link engine (R181). -/
def answersSent (s : State) (pi : Nat) : Bool :=
  (opsOf s true (.answer pi) ++ opsOf s false (.answer pi)).all (fun e => e.2.sent.isSome)

/-- A pilot's item has ended. -/
def retireItem (pi : Nat) (ue : Ue) (s : State) : State :=
  let p := pilotAt s pi
  if islandStopped s .frontEnd ∨ p.current.isNone ∨ ¬ taskEnded s p.task then s
  else
    let x := taskAt s p.task
    if ¬ x.aborting ∧ ¬ answersSent s pi then s
    else
      let s := modTask p.task (fun y => { y with biasPins := [] }) (endRun p.task s)
      if x.failed then settle ue (failItem ue pi x.status s)
      else if x.aborting then settle ue (freeSlice pi (modPilot pi (fun q => { q with current := none }) s))
      else
        let n := p.retired + 1
        let s := fenceByHandle ue p.part p.fence (.signal (p.v0 + n)) s
        let st : PilotState := if p.state = .stopping then .stopping else if p.items = [] then .waiting else .running
        settle ue (freeSlice pi (modPilot pi (fun q => { q with current := none, retired := n, state := st }) s))

/-- PILOT_ITEM_RETIRE (R310). -/
def execPilotItemRetire (pi : Nat) (ue : Ue) (s : State) : Host.Outcome State Fault Refusal := whenServing (retireItem pi ue) s

/-! ## The trim loop (R186 to R188) -/

/-- Load counters of a group in one lantern. -/
def RGroup.loads (g : RGroup) : Nat := g.layers * g.experts

/-- One lantern's load counters are read and cleared; a failed read counts as no load. -/
def takeLoads (ue : Ue) (g : RGroup) (l : Nat) (s : State) : List Nat × State :=
  let a := regionAddr s g l (g.loadOff 0)
  let (r, s) := memRead (regionReq g l) ue a (4 * g.loads) s
  if r.status ≠ stOk then (List.replicate g.loads 0, s)
  else ((chunks 4 r.data).map leNat, (memWrite (regionReq g l) ue a (zeros (4 * g.loads)) s).2)

/-- The sums over every lantern's copy. -/
def sumLoads (ue : Ue) (g : RGroup) (s : State) : List Nat × State :=
  (List.range s.build.lanterns).foldl (fun (acc : List Nat × State) l =>
    let (v, s) := takeLoads ue g l acc.2
    ((acc.1.zip v).map (fun x => (x.1 + x.2) % 2 ^ 32), s)) (List.replicate g.loads 0, s)

/-- The sums go to the leader: reductions of at most 1,024 counters, then the report with RELEASE. -/
def sendLoads (gi : Nat) (g : RGroup) (vs : List Nat) (s : State) : State :=
  let base := trimBase + gi * 2 ^ 32
  let s := ((chunks 4096 (vs.flatMap (le 4))).zipIdx).foldl (fun s p =>
    enqueueOp true { issuer := .stolaikor gi, op := opReduce, dst := g.leader, offset := base + 4096 * p.2, len := p.1.length, spart := 0xFF, data := p.1 } s) s
  enqueueOp true { issuer := .stolaikor gi, op := opAtomic, flags := flRelease, dst := g.leader, offset := base + trimReport, len := 4, spart := 0xFF
                   data := le 4 1 } s

/-- The next period begins; where the member is the leader too, the loop computes after its waiting time at the latest. -/
def nextPeriod (gi : Nat) (s : State) : State :=
  modGroup gi (fun g => { g with periodEnd := g.periodEnd + 1000 * g.periodUs
                                 computeAt := if g.leader = s.fabric.node then g.periodEnd + 1000 * g.waitUs else 0 }) s

/-- The sums of a period go to the leader. -/
def periodSummed (gi : Nat) (ue : Ue) (g : RGroup) (x : List Nat × State) : State :=
  if g.leader = (nextPeriod gi x.2).fabric.node then addReport gi (nextPeriod gi x.2).fabric.node (addCounts gi 0 x.1 (nextPeriod gi x.2))
  else driveFabric ue (sendLoads gi g x.1 (nextPeriod gi x.2))

/-- A member's period ends. -/
def periodEnd (gi : Nat) (ue : Ue) (s : State) : State :=
  let g := groupAt s gi
  if ¬ g.live ∨ s.curfew.inForce ∨ s.ll.halted ∨ now s < g.periodEnd then s
  else periodSummed gi ue g (sumLoads ue g s)

/-- TRIM_PERIOD_END (R186). -/
def execTrimPeriodEnd (g : Nat) (ue : Ue) (s : State) : Host.Outcome State Fault Refusal := whenServing (periodEnd g ue) s

/-- A value held between two. -/
def clampF32 (v lo hi : F32) : F32 := f32Max lo (f32Min v hi)

/-- One layer's new biases (R186). -/
def trimLayer (g : RGroup) (cs : List Nat) (bs : List F32) : List F32 :=
  let fs := cs.map f32OfNat
  let total := fs.foldl f32Add 0
  if (dec32 total).isZero then bs else
  let mean := f32Div total (f32OfNat g.experts)
  (fs.zip bs).map (fun x =>
    let err := clampF32 (f32Div (f32Sub mean x.1) (f32Max mean f32One)) 0xBF800000 f32One
    clampF32 (f32Add (f32Mul x.2 (f32Sub f32One g.decay.toNat)) (f32Mul g.gain.toNat err)) (enc32 (fNeg (dec32 g.clamp.toNat))) g.clamp.toNat)

/-- The header of a bias block (R187). -/
def blockHeader (gi : Nat) (g : RGroup) (epoch : Nat) : Bytes :=
  le 1 1 ++ le 1 gi ++ le 2 g.layers ++ le 2 g.experts ++ zeros 2 ++ le 8 epoch ++ zeros 48

/-- The biases the leader goes on from: those of the block that waits, of the one that East fetches, or of the active copy. -/
def currentBias (ue : Ue) (gi : Nat) (s : State) : MemRead × State :=
  let g := groupAt s gi
  if ¬ g.pending ∧ g.fetching ≠ 0 then ({ data := (tget (0, []) s.ll.images g.fetching).2.drop 64 }, s) else
  if g.pending then ({ data := g.waitBlock.drop 64 }, s)
  else memRead (regionReq g 0) ue (regionAddr s g 0 (g.biasOff g.active + 64)) (4 * g.loads) s

/-- The version of a multicast frame that this node originates: the highest that every port of the group carries (R216). -/
def mcastVer (s : State) (e : Bytes) : Nat := if (bitList 24 (grPorts e)).all (fun p => portCarries s p 0x11) then 0x11 else 0x10

/-- The leader's block goes to the members by multicast: the group table's entry of the routing group's number. Its frames are dropped and
counted where this node is not the group's root (R201); the port they are counted at is DESIGN CHOICE (notes/assumptions/87.md). -/
def multicastBlock (ue : Ue) (gi : Nat) (block : Bytes) (s : State) : State :=
  let e := tget [] s.fabric.west.groups gi
  let ps := chunks 4096 block
  if ¬ grValid e ∨ grUp e ≠ 0xFE then ps.foldl (fun s _ => dropFrame (lowPort s true) s) s else
  ps.zipIdx.foldl (fun s p =>
    let fl := flMcast ||| (if p.2 + 1 = ps.length then flLast else 0)
    let off := trimBase + gi * 2 ^ 32 + trimBlock + 4096 * p.2
    let h := headerBytes (mcastVer s e) 64 64 s.fabric.node (nextStamp s true) { op := opStore, dst := gi, offset := off, len := p.1.length, flags := fl }
    let s := if grLocal e then (acceptOp ue true 0xFF h p.1 none s).2 else s
    mcastCopies ue true (.stolaikor gi) e h p.1 s) s

/-- The biases that follow from the counts that came and the biases before. -/
def newBias (g : RGroup) (data : Bytes) : List F32 :=
  let bs := (chunks 4 (fit (4 * g.loads) data)).map leNat
  let cs := (List.range g.loads).map (fun i => tget 0 g.counts i)
  (List.range g.layers).flatMap (fun y => trimLayer g ((cs.drop (y * g.experts)).take g.experts) ((bs.drop (y * g.experts)).take g.experts))

/-- The epoch of the next block: one past the waiting block's, or past that of the one East fetches, or past the installed one's. -/
def blockEpoch (s : State) (g : RGroup) : Nat :=
  (if g.pending then fld g.waitBlock 8 8 else if g.fetching ≠ 0 then fld (tget (0, []) s.ll.images g.fetching).2 8 8 else g.epoch) + 1

/-- The ARG of a trim-short event: the group, how many members it names, their node IDs of 2 B each. The spec gives it no layout (DESIGN
CHOICE, notes/assumptions/66.md); more than seven members take more than one event. -/
def trimShortArg (gi : Nat) (ids : Bytes) : Bytes := fit 16 (le 1 gi ++ le 1 (ids.length / 2) ++ ids)

/-- The counts of the period are cleared, and the members that did not report are named in events to the owner. -/
def closePeriod (gi : Nat) (g : RGroup) (s : State) : State :=
  let s := modGroup gi (fun g => { g with counts := [], reported := 0, reports := [], computeAt := 0 }) s
  (chunks 14 ((g.members.filter (fun m => !g.reports.contains m)).flatMap (le 2))).foldl (fun s ids => postEvent g.owner evTrimShort (trimShortArg gi ids) s) s

/-- The block with the new biases goes to the members, where the biases before were read. -/
def blockSent (gi : Nat) (ue : Ue) (g : RGroup) (x : MemRead × State) : State :=
  if x.1.status ≠ stOk then closePeriod gi g x.2
  else multicastBlock ue gi (blockHeader gi g (blockEpoch x.2 g) ++ (newBias g x.1.data).flatMap (le 4)) (closePeriod gi g x.2)

/-- The leader computes. -/
def trimCompute (gi : Nat) (ue : Ue) (s : State) : State :=
  let g := groupAt s gi
  if ¬ g.live ∨ g.leader ≠ s.fabric.node ∨ s.curfew.inForce ∨ s.ll.halted ∨ g.computeAt = 0 ∨ (g.reported < g.members.length ∧ now s < g.computeAt) then s
  else blockSent gi ue g (currentBias ue gi s)

/-- TRIM_COMPUTE (R186). -/
def execTrimCompute (g : Nat) (ue : Ue) (s : State) : Host.Outcome State Fault Refusal := whenServing (trimCompute g ue) s

/-- Whether a dispatched task pins a bias copy. -/
def biasPinned (s : State) (gi copy : Nat) : Bool := s.fe.tasks.any (fun e => e.2.live && e.2.biasPins.contains (gi, copy))

/-- Whether a waiting block is newer than the group's and is its. -/
def blockFits (g : RGroup) : Bool := blockNewer { g with pending := false } g.waitBlock

/-- The waiting block goes into the copy that is not the active one: into West's lanterns at once, into East's by East's own fetch of
Stolaikor's copy (R21); the copy becomes the active one when East has replied. -/
def swapBias (gi : Nat) (g : RGroup) (s : State) : State :=
  let t := s.seam.tickets + 1
  let a := leNat (unstatedBytes 8 s)
  let s := writeBias true gi g.waitBlock (drawn 8 s)
  let s := onLl (fun l => { l with images := tset (0, []) l.images t (fetchBias, g.waitBlock) }) (onSeam (fun x => { x with tickets := t }) s)
  let s := modGroup gi (fun g => { g with fetching := t, pending := false, waitBlock := [] }) s
  seamSend true 7 (.mailbox (.fetch t fetchBias gi a g.waitBlock.length (sha384 g.waitBlock))) s

/-- A waiting bias block is installed, or dropped where it is not newer or not the group's (R188); it waits while another is under way. -/
def installBlock (gi : Nat) (s : State) : State :=
  let g := groupAt s gi
  if ¬ g.live ∨ ¬ g.pending ∨ g.fetching ≠ 0 then s
  else if ¬ blockFits g then modGroup gi (fun g => { g with pending := false, waitBlock := [] }) s
  else if biasPinned s gi (1 - g.active) then s
  else swapBias gi g s

/-- BIAS_BLOCK_INSTALL (R188). -/
def execBiasBlockInstall (g : Nat) (s : State) : Host.Outcome State Fault Refusal := whenServing (installBlock g) s

end Sys2Proof.Machine
end

