-- ==== Sys2Proof/Machine/Tdi.lean ====
section
/-! DEFINITION. The interfaces of partitions (R252 to R255): TDISP's LOCK, START and STOP, and the IDE key port (R254, R480, R481) with
IDE_KM's KEY_PROG, K_SET_GO and K_SET_STOP. -/
namespace Sys2Proof.Machine

/-- Whether Stolaikor serves the TSM. -/
def tsmServed (s : State) : Bool := s.ll.ready && !s.jtag.llHalted && !s.faults.inBlockReset && s.faults.blockDue.isNone

/-! ## The IDE key port -/

/-- An operation goes out on the port. -/
def ideIssue (r : IdeRequest) (s : State) : State := emit (.ide r) (onIde (fun i => { i with current := some r, since := now s }) s)

/-- An operation goes out, or waits behind the one that is unacknowledged. -/
def ideSend (r : IdeRequest) (s : State) : State :=
  if s.ide.current.isSome then onIde (fun i => { i with waiting := i.waiting ++ [r] }) s else ideIssue r s

/-- The port is free for the next operation; the acknowledged one's key is forgotten. -/
def ideNext (s : State) : State :=
  match s.ide.waiting with
  | [] => onIde (fun i => { i with current := none }) s
  | r :: rs => ideIssue r (onIde (fun i => { i with waiting := rs }) s)

/-- A list with an element in it once. -/
def withOp (x : IdeOp) (xs : List IdeOp) : List IdeOp := if xs.contains x then xs else x :: xs

/-- What an acknowledged operation has brought about in the controller. -/
def ideTakes (r : IdeRequest) (i : IdePort) : IdePort :=
  match r.op with
  | 0 => { i with programmed := withOp r.which i.programmed }
  | 1 => { i with started := withOp r.which i.started }
  | _ => { i with programmed := i.programmed.erase r.which, started := i.started.erase r.which }

/-- Whether a stream is bound to a function: each sub-stream of it runs in both directions (R253, R254). -/
def streamBound (s : State) (f sid : Nat) : Bool :=
  [0, 1, 2].all (fun sub => [0, 1].all (fun dir =>
    s.ide.started.any (fun o => o.func == f && o.sid == sid && o.sub == sub && o.dir == dir)))

/-- A locked partition whose stream has stopped goes to ERROR and its queues stop (R253). -/
def streamStopped (p : Nat) (s : State) : State :=
  match (partAt s p).stream with
  | none => s
  | some sid => if partLocked s p ∧ ¬ streamBound s p sid then settle {} (stopOwner p (tdiError p s)) else s

/-- The outstanding operation ends as the controller, or the 10 µs, say. -/
def ideAcked (a : IdeAck) (s : State) : State :=
  match s.ide.current with
  | none => s
  | some r =>
    let tell (ok : Bool) (s : State) : State := if r.tsm then emit (.ideAnswer ok) s else s
    match a with
    | .ack => ideNext (tell true (streamStopped r.which.func (onIde (ideTakes r) s)))
    | .ackErr => ideNext (tell false s)
    | .timeout => if now s < s.ide.since + 10000 then s else ideNext (tell false s)

/-- IDE_KEY_ACK (R481). -/
def execIdeKeyAck (a : IdeAck) (s : State) : Host.Outcome State Fault Refusal := whenFused (ideAcked a) s

/-! ## IDE_KM (R254) -/

/-- The SIDs that a function's operations have named and not stopped. -/
def streamsOf (s : State) (f : Nat) : List Nat :=
  ((s.ide.programmed ++ s.ide.started ++ (s.ide.current.toList ++ s.ide.waiting).map IdeRequest.which).filter (fun o => o.func == f)).map IdeOp.sid

/-- Whether an operation names a selective stream that Eonal supports: one for each partition of the build and one for the manager. -/
def ideOpOk (s : State) (o : IdeOp) : Bool :=
  (decide (o.func < s.build.parts) || o.func == 16) && decide (o.sid < 256 ∧ o.sub < 3 ∧ o.dir < 2 ∧ o.kset < 2) &&
    (streamsOf s o.func).all (fun x => x == o.sid)

/-- An IDE_KM message of the TSM. -/
def ideKm (op : Nat) (o : IdeOp) (key iv : Bytes) (s : State) : State :=
  if ¬ tsmServed s then s
  else if ¬ ideOpOk s o ∨ (op = 0 ∧ (key.length ≠ 32 ∨ iv.length ≠ 8)) then emit (.ideAnswer false) s
  else ideSend { op := op, which := o, tsm := true, key := key, iv := iv } s

/-- KEY_PROG. -/
def execKeyProg (op : IdeOp) (key iv : Bytes) (s : State) : Host.Outcome State Fault Refusal := whenFused (ideKm 0 op key iv) s

/-- K_SET_GO. -/
def execKSetGo (op : IdeOp) (s : State) : Host.Outcome State Fault Refusal := whenFused (ideKm 1 op [] []) s

/-- K_SET_STOP. -/
def execKSetStop (op : IdeOp) (s : State) : Host.Outcome State Fault Refusal := whenFused (ideKm 2 op [] []) s

/-! ## TDISP (R253) -/

/-- LOCK_INTERFACE_REQUEST: the partition stands, unlocked, a stream is bound to its function; a start nonce goes out. -/
def lockInterface (p sid : Nat) (s : State) : State :=
  if ¬ tsmServed s then s
  else if p ≥ 16 ∨ ¬ partSettled s p ∨ (partAt s p).tdi ≠ .configUnlocked ∨ ¬ streamBound s p sid ∨ ¬ s.ll.drbgRunning then
    emit (.tdispAnswer false) s
  else
    let n := drbg 32 s
    emit (.tdispNonce n.1) (modPart p (fun x => { x with tdi := .configLocked, nonce := n.1, stream := some sid }) n.2)

/-- LOCK_INTERFACE_REQUEST. -/
def execLockInterfaceRequest (p : Nat) (sid : Nat) (s : State) : Host.Outcome State Fault Refusal := whenServing (lockInterface p sid) s

/-- START_INTERFACE_REQUEST: the nonce serves once. -/
def startInterface (p : Nat) (nonce : Bytes) (s : State) : State :=
  let x := partAt s p
  if ¬ tsmServed s then s
  else if p ≥ 16 ∨ x.tdi ≠ .configLocked ∨ x.nonce = [] ∨ nonce ≠ x.nonce then emit (.tdispAnswer false) s
  else emit (.tdispAnswer true) (modPart p (fun x => { x with tdi := .run, nonce := [] }) s)

/-- START_INTERFACE_REQUEST. -/
def execStartInterfaceRequest (p : Nat) (nonce : Bytes) (s : State) : Host.Outcome State Fault Refusal := whenServing (startInterface p nonce) s

/-- The key sets of a partition's stream are stopped (R254): those that run or are programmed, and the one that is being written; what
waits to be written or set going is dropped, with an error to the TSM. -/
def stopStream (p : Nat) (s : State) : State :=
  match (partAt s p).stream with
  | none => s
  | some sid =>
    let mine (o : IdeOp) : Bool := o.func == p && o.sid == sid
    let dropped := s.ide.waiting.filter (fun r => mine r.which && r.op ≠ 2)
    let s := onIde (fun i => { i with waiting := i.waiting.filter (fun r => !(mine r.which && r.op ≠ 2)) }) s
    let s := dropped.foldl (fun s r => if r.tsm then emit (.ideAnswer false) s else s) s
    let writing := (s.ide.current.toList.filter (fun r => r.op == 0)).map IdeRequest.which
    let sets := (s.ide.programmed ++ s.ide.started ++ writing).foldl (fun xs o => if xs.contains o then xs else xs ++ [o]) []
    (sets.filter mine).foldl (fun s o => ideSend { op := 2, which := o, tsm := false } s) s

/-- STOP_INTERFACE_REQUEST: a partition reset that ends with the partition's slots cleared and the interface unlocked. -/
def stopInterface (p : Nat) (ue : Ue) (s : State) : State :=
  if ¬ tsmServed s then s
  else if p ≥ 16 ∨ ¬ partExists s p ∨ (partAt s p).tdi = .configUnlocked then emit (.tdispAnswer false) s
  else
    let s := stopStream p s
    let s := if partSettled s p then beginPartReset p false s else tdiError p s
    settle ue (holdRequest 18 p (.partQuiet p false) [] s)

/-- STOP_INTERFACE_REQUEST. -/
def execStopInterfaceRequest (p : Nat) (ue : Ue) (s : State) : Host.Outcome State Fault Refusal := whenFused (stopInterface p ue) s

end Sys2Proof.Machine
end

