-- ==== Sys2Proof/Machine/Sideband.lean ====
section
/-! DEFINITION. The management port (R511 to R513, R257, R334): MCTP_MESSAGE, SET_ENDPOINT_ID and I3C_CCC. -/
namespace Sys2Proof.Machine

/-! ## MCTP messages -/

/-- A message is dropped and counted (R513). -/
def dropMctp (s : State) : State := onBoxes (fun b => { b with mctpDrops := b.mctpDrops + 1 }) s

/-- A message of a session with a wrong counter or MAC is discarded and counted (R257). -/
def discardMgmt (s : State) : State := onLl (fun l => { l with mgmtDiscards := l.mgmtDiscards + 1 }) s

/-- The message without its trailer, where a session is open and the trailer is the next one (R257). -/
def openTrailer (s : State) (body : Bytes) : Option Bytes :=
  if ¬ s.ll.mgmtActive then some body else
  let msg := body.take (body.length - 24)
  if body.length < 40 ∨ body.drop (body.length - 24) ≠ mgmtTrailer s.ll.mgmtKey (s.ll.mgmtRx + 1) msg then none else some msg

/-- A request of the management mailbox: into a free slot, or answered with BUSY (R334). A LENGTH that is not the payload's is BAD_ARG. -/
def takeMgmt (m : MctpMsg) (msg : Bytes) (s : State) : State :=
  let b := boxAt s 17
  let now_ (st : Nat) (s : State) : State := mctpSend m.eid m.tag (responseOf b msg st []) s
  if reqLen msg + 16 ≠ msg.length then now_ stBadArg s
  else match (List.range 4).find? (fun k => (tget {} b.slots k).state == .free) with
    | none => now_ stBusy s
    | some k =>
      settle {} (setBox 17 { b with order := b.order + 1
                                    slots := tset {} b.slots k { state := .pending, request := fit 256 msg, order := b.order, mctpTag := m.tag, mctpEid := m.eid } } s)

/-- A whole message has come in. -/
def takeMctp (m : MctpMsg) (s : State) : State :=
  if ¬ boxServed s 17 then s
  else if ¬ m.inSequence ∨ m.body.length + 5 > 285 ∨ m.body.length < 16 ∨ m.vendor ≠ s.build.mgmtPen then dropMctp s
  else match openTrailer s m.body with
    | none => discardMgmt s
    | some msg => takeMgmt m msg (if s.ll.mgmtActive then onLl (fun l => { l with mgmtRx := l.mgmtRx + 1 }) s else s)

/-- MCTP_MESSAGE (R513). -/
def execMctpMessage (m : MctpMsg) (s : State) : Host.Outcome State Fault Refusal := whenServing (takeMctp m) s

/-- SET_ENDPOINT_ID (R512): an endpoint ID from 0x08 to 0xFE. -/
def execSetEndpointId (eid : Nat) (s : State) : Host.Outcome State Fault Refusal :=
  whenServing (fun s =>
    if 0x08 ≤ eid ∧ eid ≤ 0xFE then emit (.endpointId true eid) (onBoxes (fun b => { b with eid := eid }) s)
    else emit (.endpointId false s.boxes.eid) s) s

/-! ## Common command codes (R511) -/

/-- A value that answers a command code addressed to Eonal. -/
def cccAnswer (v : Nat) (s : State) : State := if s.boxes.i3cAddr = 0 then s else emit (.i3c v) s

/-- A common command code. An address is taken only while none is assigned; the lengths set do not pass 69. -/
def takeCcc (c : I3cCcc) (s : State) : State :=
  let free_ : Bool := s.boxes.i3cAddr == 0
  let set_ (f : Mailboxes → Mailboxes) (s : State) : State := if free_ then s else onBoxes f s
  match c with
  | .entdaa addr => if free_ then emit (.i3c s.build.mgmtPid) (onBoxes (fun b => { b with i3cAddr := addr % 128 }) s) else s
  | .setdasa st addr => if free_ ∧ s.build.mgmtSa ≠ 0 ∧ st = s.build.mgmtSa then onBoxes (fun b => { b with i3cAddr := addr % 128 }) s else s
  | .rstdaa => onBoxes (fun b => { b with i3cAddr := 0 }) s
  | .enec => set_ (fun b => { b with ibiEnabled := true }) s
  | .disec => set_ (fun b => { b with ibiEnabled := false }) s
  | .setmwl n => set_ (fun b => { b with mwl := min n 69 }) s
  | .setmrl n => set_ (fun b => { b with mrl := min n 69 }) s
  | .getpid => cccAnswer s.build.mgmtPid s
  | .getbcr => cccAnswer 0x06 s
  | .getdcr => if free_ then s else cccAnswer (leNat (unstatedBytes 1 s)) (drawn 1 s)
  | .getstatus => if free_ then s else cccAnswer (leNat (unstatedBytes 2 s)) (drawn 2 s)
  | .getmwl => cccAnswer s.boxes.mwl s
  | .getmrl => cccAnswer s.boxes.mrl s

/-- I3C_CCC (R511). -/
def execI3cCcc (c : I3cCcc) (s : State) : Host.Outcome State Fault Refusal := whenServing (takeCcc c) s

end Sys2Proof.Machine
end

