-- ==== Sys2Proof/Machine/Dispatch.lean ====
section
/-! DEFINITION. One arm per command: its meaning, or its rejection by name. -/
namespace Sys2Proof.Machine

/-- The effect of a command on everything but the queue of waiting commands. -/
def exec (i : Instr) (s : State) : Host.Outcome State Fault Refusal :=
  match i with
  | .powerOn vbatKept inp => Sys2Proof.Machine.execPowerOn vbatKept inp s
  | .pwrOkFall => Sys2Proof.Machine.execPwrOkFall s
  | .dusk => Sys2Proof.Machine.execDusk s
  | .powerEventEnd => Sys2Proof.Machine.execPowerEventEnd s
  | .tamperEvent causes => Sys2Proof.Machine.execTamperEvent causes s
  | .flashExtRequest => Sys2Proof.Machine.execFlashExtRequest s
  | .vigilKick value => Sys2Proof.Machine.execVigilKick value s
  | .vigilFault => Sys2Proof.Machine.execVigilFault s
  | .llIntegrityFault => Sys2Proof.Machine.execLlIntegrityFault s
  | .sramScrub corrected uncorrectable => Sys2Proof.Machine.execSramScrub corrected uncorrectable s
  | .keySlotScrub upset => Sys2Proof.Machine.execKeySlotScrub upset s
  | .entropyFailure => Sys2Proof.Machine.execEntropyFailure s
  | .lcReread row0 row1 row2 => Sys2Proof.Machine.execLcReread row0 row1 row2 s
  | .lcShadowMismatch => Sys2Proof.Machine.execLcShadowMismatch s
  | .blockResetSequence inp => Sys2Proof.Machine.execBlockResetSequence inp s
  | .lanternSnuff l failedWicks ue => Sys2Proof.Machine.execLanternSnuff l failedWicks ue s
  | .linkPortSnuff p => Sys2Proof.Machine.execLinkPortSnuff p s
  | .snuffDrainTimeout d => Sys2Proof.Machine.execSnuffDrainTimeout d s
  | .terminalFault => Sys2Proof.Machine.execTerminalFault s
  | .unitHung u => Sys2Proof.Machine.execUnitHung u s
  | .wickSelfTest l phys pass => Sys2Proof.Machine.execWickSelfTest l phys pass s
  | .seamSession m => Sys2Proof.Machine.execSeamSession m s
  | .seamKeyLoad m => Sys2Proof.Machine.execSeamKeyLoad m s
  | .seamKeyClear m => Sys2Proof.Machine.execSeamKeyClear m s
  | .seamKeyClearAll m => Sys2Proof.Machine.execSeamKeyClearAll m s
  | .seamKeyAck m => Sys2Proof.Machine.execSeamKeyAck m s
  | .seamSnuff m => Sys2Proof.Machine.execSeamSnuff m s
  | .seamCurfew m body => Sys2Proof.Machine.execSeamCurfew m body s
  | .seamTimeSync m body => Sys2Proof.Machine.execSeamTimeSync m body s
  | .seamTimeEcho m echo => Sys2Proof.Machine.execSeamTimeEcho m echo s
  | .timeSyncSend => Sys2Proof.Machine.execTimeSyncSend s
  | .seamFault m => Sys2Proof.Machine.execSeamFault m s
  | .seamFaultAck m => Sys2Proof.Machine.execSeamFaultAck m s
  | .seamMailbox m body ue => Sys2Proof.Machine.execSeamMailbox m body ue s
  | .seamTrace m body => Sys2Proof.Machine.execSeamTrace m body s
  | .seamCredit m => Sys2Proof.Machine.execSeamCredit m s
  | .dispatchRecord r => Sys2Proof.Machine.execDispatchRecord r s
  | .completionReport r ue => Sys2Proof.Machine.execCompletionReport r ue s
  | .exchangeRecord m => Sys2Proof.Machine.execExchangeRecord m s
  | .transitCrossing toEast port counter sealed tag => Sys2Proof.Machine.execTransitCrossing toEast port counter sealed tag s
  | .requestPortRead r => Sys2Proof.Machine.execRequestPortRead r s
  | .requestPortWrite r data be ue => Sys2Proof.Machine.execRequestPortWrite r data be ue s
  | .message port addr payload => Sys2Proof.Machine.execMessage port addr payload s
  | .rotationDueRepeat key => Sys2Proof.Machine.execRotationDueRepeat key s
  | .stackedReadReturn port id ue => Sys2Proof.Machine.execStackedReadReturn port id ue s
  | .quarantineLapse l page => Sys2Proof.Machine.execQuarantineLapse l page s
  | .pageRepair l page ue => Sys2Proof.Machine.execPageRepair l page ue s
  | .capReadReturn port id ue => Sys2Proof.Machine.execCapReadReturn port id ue s
  | .capacityVerdict c => Sys2Proof.Machine.execCapacityVerdict c s
  | .linkFrameVerdict p => Sys2Proof.Machine.execLinkFrameVerdict p s
  | .sweepChunkStart rot u => Sys2Proof.Machine.execSweepChunkStart rot u s
  | .sweepChunkDone rot u ue => Sys2Proof.Machine.execSweepChunkDone rot u ue s
  | .doorbellWrite a => Sys2Proof.Machine.execDoorbellWrite a s
  | .queueArbiterCycle => Sys2Proof.Machine.execQueueArbiterCycle s
  | .ringFetchReturn qi host ue => Sys2Proof.Machine.execRingFetchReturn qi host ue s
  | .commandDispatch qi ue => Sys2Proof.Machine.execCommandDispatch qi ue s
  | .dispatchResume qi ue => Sys2Proof.Machine.execDispatchResume qi ue s
  | .task qi ue => Sys2Proof.Machine.execTask qi ue s
  | .copy qi => Sys2Proof.Machine.execCopy qi s
  | .copyChunkDone qi host ue => Sys2Proof.Machine.execCopyChunkDone qi host ue s
  | .importCmd qi => Sys2Proof.Machine.execImportCmd qi s
  | .importChunkDone qi ue => Sys2Proof.Machine.execImportChunkDone qi ue s
  | .fabric qi ue => Sys2Proof.Machine.execFabric qi ue s
  | .signal qi ue => Sys2Proof.Machine.execSignal qi ue s
  | .wait qi ue => Sys2Proof.Machine.execWait qi ue s
  | .post qi ue => Sys2Proof.Machine.execPost qi ue s
  | .taskCompletionReport t ue => Sys2Proof.Machine.execTaskCompletionReport t ue s
  | .waitDeadline ue => Sys2Proof.Machine.execWaitDeadline ue s
  | .wickAbort w => Sys2Proof.Machine.execWickAbort w s
  | .wickFailed l phys cause => Sys2Proof.Machine.execWickFailed l phys cause s
  | .endOp w => Sys2Proof.Machine.execEndOp w s
  | .loop w => Sys2Proof.Machine.execLoop w s
  | .pred w => Sys2Proof.Machine.execPred w s
  | .barrier w => Sys2Proof.Machine.execBarrier w s
  | .move w ue => Sys2Proof.Machine.execMove w ue s
  | .gather w ue => Sys2Proof.Machine.execGather w ue s
  | .scatter w ue => Sys2Proof.Machine.execScatter w ue s
  | .gemv w ue => Sys2Proof.Machine.execGemv w ue s
  | .gemvSparse w ue => Sys2Proof.Machine.execGemvSparse w ue s
  | .elemwise w => Sys2Proof.Machine.execElemwise w s
  | .curve w => Sys2Proof.Machine.execCurve w s
  | .norm w => Sys2Proof.Machine.execNorm w s
  | .quantise w => Sys2Proof.Machine.execQuantise w s
  | .reduce w => Sys2Proof.Machine.execReduce w s
  | .digest w => Sys2Proof.Machine.execDigest w s
  | .attend w ue => Sys2Proof.Machine.execAttend w ue s
  | .attnMerge w => Sys2Proof.Machine.execAttnMerge w s
  | .kvAppendAppend w ue => Sys2Proof.Machine.execKvAppendAppend w ue s
  | .kvAppendCommit w ue => Sys2Proof.Machine.execKvAppendCommit w ue s
  | .kvAppendRollback w ue => Sys2Proof.Machine.execKvAppendRollback w ue s
  | .topkRoute w ue => Sys2Proof.Machine.execTopkRoute w ue s
  | .expertSendDispatch w ue => Sys2Proof.Machine.execExpertSendDispatch w ue s
  | .expertSendReturn w => Sys2Proof.Machine.execExpertSendReturn w s
  | .expertSendCancel w => Sys2Proof.Machine.execExpertSendCancel w s
  | .expertCombine w => Sys2Proof.Machine.execExpertCombine w s
  | .arrivalRecord port => Sys2Proof.Machine.execArrivalRecord port s
  | .gatherWindowExpiry server slice => Sys2Proof.Machine.execGatherWindowExpiry server slice s
  | .answerRecord port => Sys2Proof.Machine.execAnswerRecord port s
  | .combineDeadline slot l => Sys2Proof.Machine.execCombineDeadline slot l s
  | .pilotItemStart pi ue => Sys2Proof.Machine.execPilotItemStart pi ue s
  | .pilotItemRetire pi ue => Sys2Proof.Machine.execPilotItemRetire pi ue s
  | .trimPeriodEnd g ue => Sys2Proof.Machine.execTrimPeriodEnd g ue s
  | .trimCompute g ue => Sys2Proof.Machine.execTrimCompute g ue s
  | .biasBlockInstall g => Sys2Proof.Machine.execBiasBlockInstall g s
  | .efpLoad port f ue => Sys2Proof.Machine.execEfpLoad port f ue s
  | .efpStore port f ue => Sys2Proof.Machine.execEfpStore port f ue s
  | .efpAtomic port f ue => Sys2Proof.Machine.execEfpAtomic port f ue s
  | .efpReduce port f ue => Sys2Proof.Machine.execEfpReduce port f ue s
  | .efpTrigger port f ue => Sys2Proof.Machine.execEfpTrigger port f ue s
  | .efpAck port f => Sys2Proof.Machine.execEfpAck port f s
  | .efpData port f ue => Sys2Proof.Machine.execEfpData port f ue s
  | .efpNack port f => Sys2Proof.Machine.execEfpNack port f s
  | .efpHello port f => Sys2Proof.Machine.execEfpHello port f s
  | .efpSpdm port f ev => Sys2Proof.Machine.execEfpSpdm port f ev s
  | .efpRoll port f => Sys2Proof.Machine.execEfpRoll port f s
  | .efpTimeProbe port f => Sys2Proof.Machine.execEfpTimeProbe port f s
  | .efpTimeEcho port f => Sys2Proof.Machine.execEfpTimeEcho port f s
  | .efpBulk port f => Sys2Proof.Machine.execEfpBulk port f s
  | .linkTrained p => Sys2Proof.Machine.execLinkTrained p s
  | .linkLost p => Sys2Proof.Machine.execLinkLost p s
  | .portBringupRetry p => Sys2Proof.Machine.execPortBringupRetry p s
  | .rollDue p => Sys2Proof.Machine.execRollDue p s
  | .rollOverrun p => Sys2Proof.Machine.execRollOverrun p s
  | .fabricTimeout half entry ue => Sys2Proof.Machine.execFabricTimeout half entry ue s
  | .backoffExpiry half dst => Sys2Proof.Machine.execBackoffExpiry half dst s
  | .ackCoalesceExpiry half dst => Sys2Proof.Machine.execAckCoalesceExpiry half dst s
  | .combiningLineWriteback half line => Sys2Proof.Machine.execCombiningLineWriteback half line s
  | .bulkFlush port via => Sys2Proof.Machine.execBulkFlush port via s
  | .timeProbeRound => Sys2Proof.Machine.execTimeProbeRound s
  | .timeRootSet peerTimes => Sys2Proof.Machine.execTimeRootSet peerTimes s
  | .regulatorEvaluation a => Sys2Proof.Machine.execRegulatorEvaluation a s
  | .deratedExit r => Sys2Proof.Machine.execDeratedExit r s
  | .windowAdjust u levels waited => Sys2Proof.Machine.execWindowAdjust u levels waited s
  | .powerCapStep estimate => Sys2Proof.Machine.execPowerCapStep estimate s
  | .traceHeaderRewrite half buf => Sys2Proof.Machine.execTraceHeaderRewrite half buf s
  | .curfewStop isl => Sys2Proof.Machine.execCurfewStop isl s
  | .dawnTime ue => Sys2Proof.Machine.execDawnTime ue s
  | .ideKeyAck a => Sys2Proof.Machine.execIdeKeyAck a s
  | .mctpMessage m => Sys2Proof.Machine.execMctpMessage m s
  | .setEndpointId eid => Sys2Proof.Machine.execSetEndpointId eid s
  | .mgmtSessionExpiry => Sys2Proof.Machine.execMgmtSessionExpiry s
  | .reportDigestExpiry => Sys2Proof.Machine.execReportDigestExpiry s
  | .lockInterfaceRequest p sid => Sys2Proof.Machine.execLockInterfaceRequest p sid s
  | .startInterfaceRequest p nonce => Sys2Proof.Machine.execStartInterfaceRequest p nonce s
  | .stopInterfaceRequest p ue => Sys2Proof.Machine.execStopInterfaceRequest p ue s
  | .keyProg op key iv => Sys2Proof.Machine.execKeyProg op key iv s
  | .kSetGo op => Sys2Proof.Machine.execKSetGo op s
  | .kSetStop op => Sys2Proof.Machine.execKSetStop op s
  | .getVersion r => Sys2Proof.Machine.execGetVersion r s
  | .negotiate r => Sys2Proof.Machine.execNegotiate r s
  | .settingGet r => Sys2Proof.Machine.execSettingGet r s
  | .settingSet r => Sys2Proof.Machine.execSettingSet r s
  | .partitionCreate r => Sys2Proof.Machine.execPartitionCreate r s
  | .partitionDestroy r => Sys2Proof.Machine.execPartitionDestroy r s
  | .partitionReset r => Sys2Proof.Machine.execPartitionReset r s
  | .pasidBind r => Sys2Proof.Machine.execPasidBind r s
  | .pasidUnbind r => Sys2Proof.Machine.execPasidUnbind r s
  | .contextQuery r => Sys2Proof.Machine.execContextQuery r s
  | .objectCreate r => Sys2Proof.Machine.execObjectCreate r s
  | .objectFree r => Sys2Proof.Machine.execObjectFree r s
  | .fenceCreate r => Sys2Proof.Machine.execFenceCreate r s
  | .fenceFree r => Sys2Proof.Machine.execFenceFree r s
  | .fenceSignal r => Sys2Proof.Machine.execFenceSignal r s
  | .fenceQuery r => Sys2Proof.Machine.execFenceQuery r s
  | .fenceWait r => Sys2Proof.Machine.execFenceWait r s
  | .queueCreate r => Sys2Proof.Machine.execQueueCreate r s
  | .queueDestroy r => Sys2Proof.Machine.execQueueDestroy r s
  | .queueResume r => Sys2Proof.Machine.execQueueResume r s
  | .pilotStart r => Sys2Proof.Machine.execPilotStart r s
  | .pilotStop r => Sys2Proof.Machine.execPilotStop r s
  | .poolCreate r => Sys2Proof.Machine.execPoolCreate r s
  | .poolDestroy r => Sys2Proof.Machine.execPoolDestroy r s
  | .sequenceCreate r => Sys2Proof.Machine.execSequenceCreate r s
  | .sequenceDestroy r => Sys2Proof.Machine.execSequenceDestroy r s
  | .sequenceQuery r => Sys2Proof.Machine.execSequenceQuery r s
  | .keyGenerate r => Sys2Proof.Machine.execKeyGenerate r s
  | .keyImport r => Sys2Proof.Machine.execKeyImport r s
  | .keyClear r => Sys2Proof.Machine.execKeyClear r s
  | .keyGrant r => Sys2Proof.Machine.execKeyGrant r s
  | .keyUngrant r => Sys2Proof.Machine.execKeyUngrant r s
  | .keySetRotationTarget r => Sys2Proof.Machine.execKeySetRotationTarget r s
  | .keyRotate r => Sys2Proof.Machine.execKeyRotate r s
  | .keyConfirm r => Sys2Proof.Machine.execKeyConfirm r s
  | .reportGet r => Sys2Proof.Machine.execReportGet r s
  | .spdmMessage r => Sys2Proof.Machine.execSpdmMessage r s
  | .domainPrepare r => Sys2Proof.Machine.execDomainPrepare r s
  | .domainActivate r => Sys2Proof.Machine.execDomainActivate r s
  | .domainRetirePrevious r => Sys2Proof.Machine.execDomainRetirePrevious r s
  | .domainLeave r => Sys2Proof.Machine.execDomainLeave r s
  | .windowCreate r => Sys2Proof.Machine.execWindowCreate r s
  | .windowDestroy r => Sys2Proof.Machine.execWindowDestroy r s
  | .regionOwnerSet r => Sys2Proof.Machine.execRegionOwnerSet r s
  | .routeLoad r => Sys2Proof.Machine.execRouteLoad r s
  | .groupTableLoad r => Sys2Proof.Machine.execGroupTableLoad r s
  | .linkStatus r => Sys2Proof.Machine.execLinkStatus r s
  | .tableLoad r => Sys2Proof.Machine.execTableLoad r s
  | .tableUnload r => Sys2Proof.Machine.execTableUnload r s
  | .tableGrant r => Sys2Proof.Machine.execTableGrant r s
  | .tableUngrant r => Sys2Proof.Machine.execTableUngrant r s
  | .rgroupCreate r => Sys2Proof.Machine.execRgroupCreate r s
  | .rgroupDestroy r => Sys2Proof.Machine.execRgroupDestroy r s
  | .serverStart r => Sys2Proof.Machine.execServerStart r s
  | .serverStop r => Sys2Proof.Machine.execServerStop r s
  | .powerCapSet r => Sys2Proof.Machine.execPowerCapSet r s
  | .powerCapGet r => Sys2Proof.Machine.execPowerCapGet r s
  | .sensorRead r temps => Sys2Proof.Machine.execSensorRead r temps s
  | .reservationQuery r => Sys2Proof.Machine.execReservationQuery r s
  | .faultRead r => Sys2Proof.Machine.execFaultRead r s
  | .faultAck r => Sys2Proof.Machine.execFaultAck r s
  | .faultSummary r => Sys2Proof.Machine.execFaultSummary r s
  | .inject r => Sys2Proof.Machine.execInject r s
  | .dumpRead r => Sys2Proof.Machine.execDumpRead r s
  | .blockReset r => Sys2Proof.Machine.execBlockReset r s
  | .traceConfigBuffer r => Sys2Proof.Machine.execTraceConfigBuffer r s
  | .traceConfigSources r => Sys2Proof.Machine.execTraceConfigSources r s
  | .traceConfigTrigger r => Sys2Proof.Machine.execTraceConfigTrigger r s
  | .traceConfigWatch r => Sys2Proof.Machine.execTraceConfigWatch r s
  | .traceConfigFire r => Sys2Proof.Machine.execTraceConfigFire r s
  | .traceConfigStop r => Sys2Proof.Machine.execTraceConfigStop r s
  | .traceConfigRearm r => Sys2Proof.Machine.execTraceConfigRearm r s
  | .traceConfigDisable r => Sys2Proof.Machine.execTraceConfigDisable r s
  | .curfewSchedule r => Sys2Proof.Machine.execCurfewSchedule r s
  | .curfewCancel r => Sys2Proof.Machine.execCurfewCancel r s
  | .dawn r => Sys2Proof.Machine.execDawn r s
  | .lcTransition r => Sys2Proof.Machine.execLcTransition r s
  | .debugUnlockChallenge r => Sys2Proof.Machine.execDebugUnlockChallenge r s
  | .debugUnlockUnlock r => Sys2Proof.Machine.execDebugUnlockUnlock r s
  | .fwStage r => Sys2Proof.Machine.execFwStage r s
  | .fwActivate r => Sys2Proof.Machine.execFwActivate r s
  | .fwCommit r => Sys2Proof.Machine.execFwCommit r s
  | .fwStatus r => Sys2Proof.Machine.execFwStatus r s
  | .mgmtChallenge r => Sys2Proof.Machine.execMgmtChallenge r s
  | .mgmtAuth r => Sys2Proof.Machine.execMgmtAuth r s
  | .mgmtEnd r => Sys2Proof.Machine.execMgmtEnd r s
  | .ptMbRelease a => Sys2Proof.Machine.execPtMbRelease a s
  | .ptMbEventPtr a => Sys2Proof.Machine.execPtMbEventPtr a s
  | .lnTgenStart a => Sys2Proof.Machine.execLnTgenStart a s
  | .lnTgenStop a => Sys2Proof.Machine.execLnTgenStop a s
  | .registerWrite a => Sys2Proof.Machine.execRegisterWrite a s
  | .jtagInstruction half ir => Sys2Proof.Machine.execJtagInstruction half ir s
  | .debugAccess half dr => Sys2Proof.Machine.execDebugAccess half dr s
  | .channelTraining u channel level => Sys2Proof.Machine.execChannelTraining u channel level s
  | .flashExtNRise => Sys2Proof.Machine.execFlashExtNRise s
  | .i3cCcc c => Sys2Proof.Machine.execI3cCcc c s
  | .registerRead a => Sys2Proof.Machine.execRegisterRead a s

end Sys2Proof.Machine
end

