-- ==== Sys2Proof/Machine/Tick.lean ====
section
/-! DEFINITION. One nanosecond of the clocks when no command waits: the real-time clock (R496), the time island and its follower (R24 to
R27, R407), the observation cap's periods (R419), the additions of running tasks (R269), the flash records (R73, R139, R397), the fuse controller (R442, R443, R449, R498), the traffic generators (R485 to R488). -/
namespace Sys2Proof.Machine

/-- The real-time clock: 32,768 counts a second. -/
def rtcTick (s : State) : State :=
  onTrust (fun t =>
    if t.rtcPhase + 32768 ≥ 1000000000 then { t with rtc := t.rtc + 1, rtcPhase := t.rtcPhase + 32768 - 1000000000 }
    else { t with rtcPhase := t.rtcPhase + 32768 }) s

/-- The counter and its follower count; the follower withholds what it holds. -/
def countTick (s : State) : State :=
  onTime (fun t => { t with now := t.now + 1, east := if t.hold = 0 then t.east + 1 else t.east, hold := t.hold - 1
                            steerPhase := (t.steerPhase + 1) % 1000 }) s

/-- Once per 1 µs a count is inserted or withheld toward the parent's time, and the follower told; not during a block reset. -/
def steerTick (s : State) : State :=
  let t := s.time
  if t.steerPhase ≠ 0 ∨ t.steer = 0 ∨ s.faults.inBlockReset then s
  else if t.steer > 0 then tellEast 1 (onTime (fun t => { t with now := t.now + 1, steer := t.steer - 1 }) s)
  else tellEast (-1) (onTime (fun t => { t with now := t.now - 1, steer := t.steer + 1 }) s)

/-- A 10 µs period of the observation cap ends. -/
def obsTick (s : State) : State :=
  if now s % 10000 = 0 ∧ s.trace.bufs ≠ [] then flushTrace (onTrace (fun t => { t with spentW := [], spentE := [], spentPort := [] }) s) else s

/-- What a nanosecond does once the counters of the powered block have moved on. -/
def tickRunning (s : State) : State := if running s then keepFuses tgensTick (reachSafe (lcAdvance (syncRecords (keepFuses (fun s => chargeRuns (obsTick s)) s)))) else s

/-- What a nanosecond does. -/
def tickBody (s : State) : State :=
  if (rtcTick s).trust.pwrOk then tickRunning (steerTick (countTick (rtcTick s))) else rtcTick s

/-- One nanosecond passes. -/
def tick (s : State) : State := framed tickBody s

end Sys2Proof.Machine
end

