-- ==== Sys2Proof/Laws/Bytes.lean ====
section
/-! SUPPORT. The laws of byte strings: lengths, the numbers they hold, and that a field written is the field read. -/
namespace Sys2Proof.Machine

@[simp] theorem le_length (n v : Nat) : (le n v).length = n := by
  induction n generalizing v with
  | zero => rfl
  | succ n ih => simp [le, ih]

@[simp] theorem be_length (n v : Nat) : (be n v).length = n := by simp [be]
@[simp] theorem zeros_length (n : Nat) : (zeros n).length = n := by simp [zeros]
@[simp] theorem fit_length (n : Nat) (b : Bytes) : (fit n b).length = n := by simp [fit]
@[simp] theorem sub_length (b : Bytes) (off n : Nat) : (sub b off n).length = n := by simp [sub]

/-- A string of `n` bytes holds a number below 256 to the `n`. -/
theorem leNat_lt (b : Bytes) : leNat b < 256 ^ b.length := by
  induction b with
  | nil => simp [leNat]
  | cons x b ih =>
    have := x.isLt
    simp only [leNat, List.length_cons, Nat.pow_succ]
    omega

theorem fld_lt (b : Bytes) (off n : Nat) : fld b off n < 256 ^ n := by
  have h := leNat_lt (sub b off n)
  rw [sub_length] at h
  exact h

/-- The number written as `n` bytes is read back modulo 256 to the `n`. -/
theorem leNat_le (n v : Nat) : leNat (le n v) = v % 256 ^ n := by
  induction n generalizing v with
  | zero => simp [le, leNat, Nat.mod_one]
  | succ n ih =>
    have h : (256 : Nat) ^ (n + 1) = 256 * 256 ^ n := Nat.pow_succ'
    rw [le, leNat, ih, BitVec.toNat_ofNat, h]
    exact (Nat.mod_mul (a := 256) (b := 256 ^ n) (x := v)).symm

theorem leNat_le_of_lt {n v : Nat} (h : v < 256 ^ n) : leNat (le n v) = v := by rw [leNat_le, Nat.mod_eq_of_lt h]

theorem fit_of_length {n : Nat} {b : Bytes} (h : b.length = n) : fit n b = b := by simp [fit, ← h]

/-- A part of a string that stands after `a`. -/
theorem sub_append_right (a b : Bytes) (off n : Nat) : sub (a ++ b) (a.length + off) n = sub b off n := by
  rw [sub, sub, List.drop_append, List.drop_eq_nil_of_le (by omega), List.nil_append, Nat.add_sub_cancel_left]

/-- A part of a string that ends within its first piece. -/
theorem sub_append_left {a b : Bytes} {off n : Nat} (h : off + n ≤ a.length) : sub (a ++ b) off n = sub a off n := by
  unfold sub fit
  have h1 : n ≤ (a.drop off).length := by simp; omega
  rw [List.drop_append_of_le_length (by omega), List.append_assoc, List.take_append_of_le_length h1, List.take_append_of_le_length h1]

end Sys2Proof.Machine
end

