-- ==== Sys2Proof/Safety.lean ====
section
/-! DEFINITION. What a safe step is, and the words the statements are made in: what a command's effect may not write, when a request is
admitted, what it means that a request is answered. -/
namespace Sys2Proof.Safety

open Sys2Proof.Machine

/-- A step is safe when it answers a next state. -/
def stepSafe (s : State) : Prop := ∃ t, Sys2Proof.Machine.step s = .next t

/-- Build parameters within the ranges of R3: lanterns, active and spare wicks, link and capacity ports, partitions. -/
def buildLegal (b : Build) : Bool :=
  decide (1 ≤ b.lanterns ∧ b.lanterns ≤ 16 ∧ 16 ≤ b.wicks ∧ b.wicks ≤ 192 ∧ b.links ≤ 24 ∧ b.caps ≤ 8 ∧ 4 ≤ b.parts ∧ b.parts ≤ 16) &&
    b.spares == (if b.wicks ≤ 48 then 0 else if b.wicks ≤ 128 then 4 else 8)

/-- The commands that act on a block that is not powered, or that a Terminal fault has stopped: power, tamper, the register port and the
test access ports. -/
def actsStopped : Instr → Bool
  | .powerOn _ _ | .pwrOkFall | .dusk | .powerEventEnd | .tamperEvent _ | .ptMbRelease _ | .ptMbEventPtr _ | .lnTgenStart _ | .lnTgenStop _
  | .registerWrite _ | .registerRead _ | .jtagInstruction _ _ | .debugAccess _ _ => true
  | _ => false

/-- The commands whose effect may burn a fuse or move the life cycle. -/
def mayBurn : Instr → Bool
  | .powerOn _ _ | .pwrOkFall | .powerEventEnd | .blockResetSequence _ | .lcTransition _ | .debugUnlockChallenge _ | .debugUnlockUnlock _
  | .fwCommit _ => true
  | _ => false

/-- The keys that a Terminal fault clears are gone: the slots, the mirror, what the link engines, the seam and the Lamplighter held of
keys, and the replay tables (R240, R380). -/
def keysGone (s : State) : Bool :=
  s.keys.slots == [] && s.keys.mirror == [] && s.keys.captureKey == [] && s.ll.cdi1 == [] && s.ll.recordKey == [] && s.ll.aliasPriv == 0 && s.ll.aliasPqSeed == [] &&
    s.ll.importPriv == 0 && s.ll.mgmtKey == [] && s.seam.sessionKey == [] && s.seam.eastKey == [] && s.seam.westPriv == 0 && s.seam.eastPriv == 0 &&
    s.fabric.west.replay == [] && s.fabric.east.replay == [] && s.fabric.linkKeys == [] &&
    s.fabric.links.all (fun e => e.2.master == [] && e.2.txKey == [] && e.2.txNext == [] && e.2.rxKey == [] && e.2.rxNext == [])

/-! ## Frames -/

/-- The state `t` as a served command leaves it from `s`: the waiting commands, the build parameters, the fuses and the life cycle, the
flash, the clocks, the IDE and debug ports and the waiting MESSAGEs are those of `s`. -/
def served (s t : State) : State :=
  { t with lc := s.lc, flash := s.flash, time := s.time, ide := s.ide, jtag := s.jtag, inbox := s.inbox, pending := s.pending, build := s.build }

/-- The state `t` as a command leaves it from `s` that burns no fuse: the waiting commands, the build parameters, the fuses and the life
cycle are those of `s`. -/
def fused (s t : State) : State := { t with lc := s.lc, pending := s.pending, build := s.build }

/-- The state `t` as a command leaves it from `s` that changes what the records of the flash keep: what a served command leaves, and then the
records brought up to date (R509). -/
def recorded (s t : State) : State := fused s (recording (fun _ => t) s)

/-- The state `t` as any command leaves it from `s`: the waiting commands and the build parameters are those of `s`. -/
def kept (s t : State) : State := { t with pending := s.pending, build := s.build }

/-- A check that gives `a`, and no status. -/
def gives {α : Type} [DecidableEq α] (x : Except Nat α) (a : α) : Bool :=
  match x with
  | .ok b => decide (b = a)
  | .error _ => false

/-! ## Mailbox requests -/

/-- The block runs, the request in the slot may start as this operation, and the six checks of R329 pass. -/
def admitted (s : State) (op sub : Nat) (r : MbReq) : Bool := running s && startable s op sub r && prologue s r.mb r.slot == stOk

/-- The request as its operation has it. -/
def callOf (r : MbReq) (s : State) : Call := ⟨r.mb, r.slot, mbRequest s r.mb r.slot, r.ue⟩

/-- The state its operation starts from: the slot's request is marked started. -/
def begun (r : MbReq) (s : State) : State := markStarted r.mb r.slot s

/-- Where an admitted request meets `cond`, its command answers the state in which `effect` has happened, the slot holds the reply
with STATUS OK and `payload`, and everything that follows at once has happened. -/
def repliesOk (c : MbReq → Instr) (op sub : Nat) (keep : State → State → State) (cond : Call → State → Bool)
    (payload : Call → State → Bytes) (effect : Call → State → State) : Prop :=
  ∀ (r : MbReq) (s : State), admitted s op sub r = true → cond (callOf r s) (begun r s) = true →
    exec (c r) s = .next (keep s (settle r.ue (reply r.mb r.slot stOk (payload (callOf r s) (begun r s)) (effect (callOf r s) (begun r s)))))

/-- Where an admitted request meets `cond`, its command answers the state in which `effect` has happened and the request waits for `w`
before it replies `payload` (R335), and everything that follows at once has happened. -/
def repliesLater (c : MbReq → Instr) (op sub : Nat) (keep : State → State → State) (cond : Call → State → Bool) (w : Call → State → WaitCond)
    (payload : Call → State → Bytes) (effect : Call → State → State) : Prop :=
  ∀ (r : MbReq) (s : State), admitted s op sub r = true → cond (callOf r s) (begun r s) = true →
    exec (c r) s = .next (keep s (settle r.ue (holdRequest r.mb r.slot (w (callOf r s) (begun r s)) (payload (callOf r s) (begun r s))
      (effect (callOf r s) (begun r s)))))

/-- Where an admitted request meets `cond`, its command answers the state in which `effect` has happened, the reply included where the
operation has sent it itself, and everything that follows at once has happened. -/
def takes (c : MbReq → Instr) (op sub : Nat) (keep : State → State → State) (cond : Call → State → Bool) (effect : Call → State → State) : Prop :=
  ∀ (r : MbReq) (s : State), admitted s op sub r = true → cond (callOf r s) (begun r s) = true →
    exec (c r) s = .next (keep s (settle r.ue (effect (callOf r s) (begun r s))))

/-- A change of key slots: while the halves are paired the request waits until East has acknowledged every KEY message up to the last one
the change sent, otherwise it replies at once (R19). -/
def repliesEast (c : MbReq → Instr) (op sub : Nat) (keep : State → State → State) (cond : Call → State → Bool) (effect : Call → State → State) : Prop :=
  repliesLater c op sub keep (fun x s => cond x s && (effect x s).seam.paired) (fun x s => .eastKeys (lastKeyMessage (effect x s))) (fun _ _ => []) effect ∧
  repliesOk c op sub keep (fun x s => cond x s && !(effect x s).seam.paired) (fun _ _ => []) effect

/-- An admitted request that meets `cond` exists: no statement about it is empty. -/
def metBy (op sub : Nat) (cond : Call → State → Bool) (r : MbReq) (s : State) : Bool :=
  admitted s op sub r && cond (callOf r s) (begun r s)

/-! ## Other commands -/

/-- In a running block that meets `cond`, the command answers the state `effect` leaves, apart from what `keep` keeps. -/
def does (c : Instr) (keep : State → State → State) (cond : State → Bool) (effect : State → State) : Prop :=
  ∀ s, running s = true → cond s = true → exec c s = .next (keep s (effect s))

/-! ## Wicks -/

/-- Whether a step of a wick comes to its end, what it gives then, and the state it leaves. -/
def finishes {α : Type} : WOut α → Bool
  | .done _ _ => true
  | _ => false
def result {α : Type} [Inhabited α] : WOut α → α
  | .done a _ => a
  | _ => default
def leaves {α : Type} (s : State) : WOut α → State
  | .done _ t => t
  | .fails _ t => t
  | .waits _ => s
  | .stays t => t

/-- The block runs and a wick stands ready before descriptor `d` of a row's operation. -/
def standsBefore (s : State) (w : Wk) (mine : Bytes → Bool) (d : Bytes) : Bool :=
  running s && wickReady s w && decide (wickDesc s w = some d) && mine d

/-- The lanterns whose wicks meet in a scope: the wick's own, or the set. -/
def scopeOf (s : State) (w : Wk) (set : Bool) : List Nat := if set then (taskAt s w.t).lanterns else [w.l]

/-- No meeting of the wick's lantern, and none of its set, is complete (R123). -/
def noMeeting (s : State) (w : Wk) : Bool :=
  (gathered s w.t w.ue false [w.l]).isNone && (gathered s w.t w.ue true (taskAt s w.t).lanterns).isNone

/-- Predication does not skip the descriptor a wick stands before (R122), and none of the scratchpad words it consumes is poison (R105). -/
def takesUp (s : State) (w : Wk) (d : Bytes) : Bool := !skipped (wickOf s w) d && !readsPoison s w d

/-- A wick whose turn ends in `t` wants no ticket any more, and everything that follows at once has happened. -/
def turned (w : Wk) (ue : Ue) (t : State) : State := settle ue (noteWanted w [] t)

/-- A wick that stands before a descriptor of the row, takes it up and meets `cond`: the command answers the state `effect` leaves and
what follows at once. -/
def wickTakes (c : WickRef → Instr) (ue : Ue) (mine : Bytes → Bool) (cond : Wk → Bytes → State → Bool) (effect : Wk → Bytes → State → State) : Prop :=
  ∀ (r : WickRef) (s : State) (d : Bytes), standsBefore s (wkOf r ue) mine d = true → takesUp s (wkOf r ue) d = true →
    cond (wkOf r ue) d s = true → noMeeting (effect (wkOf r ue) d s) (wkOf r ue) = true →
    exec (c r) s = .next (served s (turned (wkOf r ue) ue (effect (wkOf r ue) d s)))

/-- A wick that stands before a descriptor of the row and that predication skips goes on behind it (R122). -/
def wickSkips (c : WickRef → Instr) (ue : Ue) (mine : Bytes → Bool) : Prop :=
  ∀ (r : WickRef) (s : State) (d : Bytes), standsBefore s (wkOf r ue) mine d = true → skipped (wickOf s (wkOf r ue)) d = true →
    noMeeting (endDesc (wkOf r ue) s s) (wkOf r ue) = true →
    exec (c r) s = .next (served s (turned (wkOf r ue) ue (endDesc (wkOf r ue) s s)))

/-- A wick that stands before a descriptor of the row and would consume a poisoned word of its scratchpad fails its task with DATA_POISON
(R44, R105). -/
def wickPoisoned (c : WickRef → Instr) (ue : Ue) (mine : Bytes → Bool) : Prop :=
  ∀ (r : WickRef) (s : State) (d : Bytes), standsBefore s (wkOf r ue) mine d = true → skipped (wickOf s (wkOf r ue)) d = false →
    readsPoison s (wkOf r ue) d = true → exec (c r) s = .next (served s (settle ue (failTask (wkOf r ue).t stDataPoison s)))

/-- A wick at a barrier or meeting. -/
def waitsAt (w : Wk) (a : WickWait) (s : State) : State := modWick w (fun k => { k with waiting := a }) s

/-- The place of a wick at the descriptor it stands before. -/
def ownPlace (s : State) (w : Wk) : WickWait := .implicit (wickOf s w).pc

/-- Wicks that go on together behind their descriptor; `s` is the state before its work. -/
def allGoOn (ws : List Wk) (s t : State) : State := ws.foldl (fun t v => endDesc v s t) t

/-- A descriptor that the wicks of a scope share (R123): a wick that comes before the others waits; with the last one, where `cond`
holds of those that came, `act` happens once and all of them go on. -/
def wicksShare (c : WickRef → Instr) (ue : Ue) (mine : Bytes → Bool) (set : Bool) (cond : List Wk → Wk → Bytes → State → Bool)
    (act : List Wk → Wk → Bytes → State → State) : Prop :=
  wickTakes c ue mine (fun _ _ _ => true) (fun w _ s => waitsAt w (ownPlace s w) s) ∧
  ∀ (r : WickRef) (s : State) (d : Bytes) (ws : List Wk),
    let w := wkOf r ue
    let t := waitsAt w (ownPlace s w) s
    standsBefore s w mine d = true → takesUp s w d = true →
    (set = true → gathered t w.t w.ue false [w.l] = none) → gathered t w.t w.ue set (scopeOf t w set) = some (ws, (wickOf s w).pc) →
    cond ws w d t = true →
    (set = false → gathered (allGoOn ws t (act ws w d t)) w.t w.ue true (taskAt (allGoOn ws t (act ws w d t)) w.t).lanterns = none) →
    exec (c r) s = .next (served s (turned w ue (allGoOn ws t (act ws w d t))))

/-- A descriptor that is a barrier (R123): a wick that comes before the others waits at `place`; with the last one, where `cond` holds (of
the state it comes in and of the one in which it waits too), `act` happens once and all of them go on. -/
def wicksMeet (c : WickRef → Instr) (ue : Ue) (mine : Bytes → Bool) (set : Bytes → Bool) (place : State → Wk → Bytes → WickWait)
    (cond : Wk → Bytes → State → State → Bool) (act : Wk → Bytes → State → State) : Prop :=
  wickTakes c ue mine (fun w d s => !mismatch (taskAt s w.t) w.l (place s w d) (set d) &&
      !allAt (waitsAt w (place s w d) s) (wicksIn s w.t w.ue (scopeOf s w (set d))) (place s w d))
    (fun w d s => waitsAt w (place s w d) s) ∧
  wickTakes c ue mine (fun w d s => !mismatch (taskAt s w.t) w.l (place s w d) (set d) &&
      allAt (waitsAt w (place s w d) s) (wicksIn s w.t w.ue (scopeOf s w (set d))) (place s w d) && cond w d s (waitsAt w (place s w d) s))
    (fun w d s => allGoOn (wicksIn s w.t w.ue (scopeOf s w (set d))) s (act w d (waitsAt w (place s w d) s)))

/-- A barrier over the set whose work needs what the lanterns give each other (R110, R123): with the last wick to come the shares of a round
leave as exchange records, and it stands before its descriptor until they have landed. -/
def wicksGive (c : WickRef → Instr) (ue : Ue) (mine : Bytes → Bool) (cond : State → Wk → Bytes → Bool) (rounds : Wk → Bytes → State → WOut Unit) : Prop :=
  ∀ (r : WickRef) (s u : State) (d : Bytes),
    let w := wkOf r ue
    let t := waitsAt w (ownPlace s w) s
    standsBefore s w mine d = true → takesUp s w d = true → mismatch (taskAt s w.t) w.l (ownPlace s w) true = false →
    allAt t (wicksIn s w.t w.ue (scopeOf s w true)) (ownPlace s w) = true → cond s w d = true → rounds w d t = .stays u →
    exec (c r) s = .next (served s (turned w ue (waitsAt w .none u)))

end Sys2Proof.Safety
end

