-- ==== Sys2Proof/Laws/Serve.lean ====
section
/-! SUPPORT. What a running block answers to a command, and a mailbox request once it is admitted: one lemma for each way its operation
can answer. -/
namespace Sys2Proof.Laws

open Sys2Proof.Machine Sys2Proof.Safety

/-- A check that gives a value is that value. -/
theorem gives_eq {α : Type} [DecidableEq α] {x : Except Nat α} {a : α} (h : gives x a = true) : x = .ok a := by
  unfold gives at h
  split at h
  · rename_i b; simp at h; rw [h]
  · exact absurd h (by simp)

/-- What an admitted request has. -/
theorem admitted_run {s : State} {op sub : Nat} {r : MbReq} (h : admitted s op sub r = true) :
    running s = true ∧ startable s op sub r = true ∧ prologue s r.mb r.slot = stOk := by
  simpa [admitted, and_assoc] using h

/-- An admitted request whose operation answers OK: the reply stands in its slot, and what follows has happened. -/
theorem serve_done {s : State} {op sub : Nat} {r : MbReq} {f : Call → State → Answer × State} {p : Bytes} {u : State}
    (h : admitted s op sub r = true) (hf : f (callOf r s) (begun r s) = (.done stOk p, u)) :
    serve op sub f r s = settle r.ue (reply r.mb r.slot stOk p u) := by
  obtain ⟨-, h2, h3⟩ := admitted_run h
  unfold callOf begun at hf
  simp [serve, h2, h3, hf]

/-- An admitted request whose operation waits. -/
theorem serve_wait {s : State} {op sub : Nat} {r : MbReq} {f : Call → State → Answer × State} {p : Bytes} {w : WaitCond} {u : State}
    (h : admitted s op sub r = true) (hf : f (callOf r s) (begun r s) = (.wait w p, u)) :
    serve op sub f r s = settle r.ue (holdRequest r.mb r.slot w p u) := by
  obtain ⟨-, h2, h3⟩ := admitted_run h
  unfold callOf begun at hf
  simp [serve, h2, h3, hf]

/-- An admitted request whose operation has replied itself or keeps the request. -/
theorem serve_kept {s : State} {op sub : Nat} {r : MbReq} {f : Call → State → Answer × State} {u : State}
    (h : admitted s op sub r = true) (hf : f (callOf r s) (begun r s) = (.kept, u)) :
    serve op sub f r s = settle r.ue u := by
  obtain ⟨-, h2, h3⟩ := admitted_run h
  unfold callOf begun at hf
  simp [serve, h2, h3, hf]

/-- A served command in a running block. -/
theorem whenServing_next {s : State} (f : State → State) (h : running s = true) : whenServing f s = .next (served s (f s)) := by
  simp [whenServing, whenRunning, h, framed, inCore, served]

/-- A command that burns no fuse in a running block. -/
theorem whenFused_next {s : State} (f : State → State) (h : running s = true) : whenFused f s = .next (fused s (f s)) := by
  simp [whenFused, whenRunning, h, framed, keepFuses, fused]

/-- A command in a running block. -/
theorem whenRunning_next {s : State} (f : State → State) (h : running s = true) : whenRunning f s = .next (kept s (f s)) := by
  simp [whenRunning, h, framed, kept]

/-- A served request replies OK where its operation does. -/
theorem repliesOk_served {c : MbReq → Instr} {op sub : Nat} {f : Call → State → Answer × State} {cond p u}
    (he : ∀ r s, exec (c r) s = whenServing (serve op sub f r) s)
    (hf : ∀ c s, cond c s = true → f c s = (.done stOk (p c s), u c s)) : repliesOk c op sub served cond p u := by
  intro r s h hc
  rw [he, whenServing_next _ (admitted_run h).1, serve_done h (hf _ _ hc)]

/-- The same for one that burns no fuse. -/
theorem repliesOk_fused {c : MbReq → Instr} {op sub : Nat} {f : Call → State → Answer × State} {cond p u}
    (he : ∀ r s, exec (c r) s = whenFused (serve op sub f r) s)
    (hf : ∀ c s, cond c s = true → f c s = (.done stOk (p c s), u c s)) : repliesOk c op sub fused cond p u := by
  intro r s h hc
  rw [he, whenFused_next _ (admitted_run h).1, serve_done h (hf _ _ hc)]

/-- The same for one that may burn fuses. -/
theorem repliesOk_kept {c : MbReq → Instr} {op sub : Nat} {f : Call → State → Answer × State} {cond p u}
    (he : ∀ r s, exec (c r) s = whenRunning (serve op sub f r) s)
    (hf : ∀ c s, cond c s = true → f c s = (.done stOk (p c s), u c s)) : repliesOk c op sub kept cond p u := by
  intro r s h hc
  rw [he, whenRunning_next _ (admitted_run h).1, serve_done h (hf _ _ hc)]

/-- A served request waits where its operation does. -/
theorem repliesLater_served {c : MbReq → Instr} {op sub : Nat} {f : Call → State → Answer × State} {cond p u w}
    (he : ∀ r s, exec (c r) s = whenServing (serve op sub f r) s)
    (hf : ∀ c s, cond c s = true → f c s = (.wait (w c s) (p c s), u c s)) : repliesLater c op sub served cond w p u := by
  intro r s h hc
  rw [he, whenServing_next _ (admitted_run h).1, serve_wait h (hf _ _ hc)]

/-- The same for one that burns no fuse. -/
theorem repliesLater_fused {c : MbReq → Instr} {op sub : Nat} {f : Call → State → Answer × State} {cond p u w}
    (he : ∀ r s, exec (c r) s = whenFused (serve op sub f r) s)
    (hf : ∀ c s, cond c s = true → f c s = (.wait (w c s) (p c s), u c s)) : repliesLater c op sub fused cond w p u := by
  intro r s h hc
  rw [he, whenFused_next _ (admitted_run h).1, serve_wait h (hf _ _ hc)]

/-- A served request whose operation replies itself. -/
theorem takes_served {c : MbReq → Instr} {op sub : Nat} {f : Call → State → Answer × State} {cond u}
    (he : ∀ r s, exec (c r) s = whenServing (serve op sub f r) s)
    (hf : ∀ c s, cond c s = true → f c s = (.kept, u c s)) : takes c op sub served cond u := by
  intro r s h hc
  rw [he, whenServing_next _ (admitted_run h).1, serve_kept h (hf _ _ hc)]

/-- The same for one that burns no fuse. -/
theorem takes_fused {c : MbReq → Instr} {op sub : Nat} {f : Call → State → Answer × State} {cond u}
    (he : ∀ r s, exec (c r) s = whenFused (serve op sub f r) s)
    (hf : ∀ c s, cond c s = true → f c s = (.kept, u c s)) : takes c op sub fused cond u := by
  intro r s h hc
  rw [he, whenFused_next _ (admitted_run h).1, serve_kept h (hf _ _ hc)]

/-- The same for one that may burn fuses. -/
theorem takes_kept {c : MbReq → Instr} {op sub : Nat} {f : Call → State → Answer × State} {cond u}
    (he : ∀ r s, exec (c r) s = whenRunning (serve op sub f r) s)
    (hf : ∀ c s, cond c s = true → f c s = (.kept, u c s)) : takes c op sub kept cond u := by
  intro r s h hc
  rw [he, whenRunning_next _ (admitted_run h).1, serve_kept h (hf _ _ hc)]

/-- A command served in a running block. -/
theorem does_served {c : Instr} {f effect : State → State} {cond : State → Bool} (he : ∀ s, exec c s = whenServing f s)
    (hf : ∀ s, cond s = true → f s = effect s) : does c served cond effect := by
  intro s h hc
  rw [he, whenServing_next _ h, hf s hc]

/-- One that burns no fuse. -/
theorem does_fused {c : Instr} {f effect : State → State} {cond : State → Bool} (he : ∀ s, exec c s = whenFused f s)
    (hf : ∀ s, cond s = true → f s = effect s) : does c fused cond effect := by
  intro s h hc
  rw [he, whenFused_next _ h, hf s hc]

/-- Any other. -/
theorem does_kept {c : Instr} {f effect : State → State} {cond : State → Bool} (he : ∀ s, exec c s = whenRunning f s)
    (hf : ∀ s, cond s = true → f s = effect s) : does c kept cond effect := by
  intro s h hc
  rw [he, whenRunning_next _ h, hf s hc]

/-- A powered block without a Terminal fault runs. -/
theorem running_parts {s : State} (h : running s = true) : s.trust.pwrOk = true ∧ s.faults.terminal = false := by
  simpa [running] using h

/-- A command that is not held to a running block, as it acts in one: it writes nothing of the fuses and what the trust island holds. -/
theorem does_core {c : Instr} {f effect : State → State} {cond : State → Bool} (he : ∀ s, exec c s = step1 (inCore f) s)
    (hf : ∀ s, running s = true → cond s = true → f s = effect s) : does c served cond effect := by
  intro s h hc
  rw [he, ← hf s h hc]
  simp [step1, framed, inCore, served]

/-- One that burns no fuse. -/
theorem does_trust {c : Instr} {f effect : State → State} {cond : State → Bool} (he : ∀ s, exec c s = step1 (keepFuses f) s)
    (hf : ∀ s, running s = true → cond s = true → f s = effect s) : does c fused cond effect := by
  intro s h hc
  rw [he, ← hf s h hc]
  simp [step1, framed, keepFuses, fused]

/-- Any other. -/
theorem does_always {c : Instr} {f effect : State → State} {cond : State → Bool} (he : ∀ s, exec c s = step1 f s)
    (hf : ∀ s, running s = true → cond s = true → f s = effect s) : does c kept cond effect := by
  intro s h hc
  rw [he, ← hf s h hc]
  simp [step1, framed, kept]

end Sys2Proof.Laws
end

