-- ==== Sys2Proof/Laws/Requests.lean ====
section
/-! SUPPORT. Steps of operations by mailbox that are stated for any value of what they read, so that a proof need not unfold the read. -/
namespace Sys2Proof.Laws

open Sys2Proof.Machine Sys2Proof.Safety

/-- A field of a request is below 256 to the number of its bytes. -/
theorem arg_lt (r : Bytes) (off n : Nat) : arg r off n < 256 ^ n := fld_lt _ _ _

/-- A pilot whose program passes its checks and finds its resources is installed. -/
theorem pilotChecked_ok {c : Call} {pi ring : Nat} {a : TaskAsk} {s : State} {x : Fetched × State} {objs : List Nat}
    (h1 : gives (resolveObjs x.2 c.owner x.1.objs) objs = true) (h2 : taskStatus x.2 a x.1 = stOk)
    (h3 : resourcesFree x.2 a (sheetUnits x.1.header).sum [] = true)
    (h4 : (progPins x.2 (progOf a x.1 (maskLanterns x.2 a.mask).length)).any (fun k => tableLoading x.2 k.1 k.2) = false) :
    pilotChecked c pi ring a s x = installPilot c pi ring a x.1 objs x.2 := by
  unfold pilotChecked
  simp only [gives_eq h1]
  rw [if_neg (by simp [h2]), if_neg (by rw [h3, h4]; simp)]

/-- A held report is the one that was made. -/
@[simp] theorem holdReport_held (nonce : Bytes) (m : Bytes × State) : (holdReport nonce m).ll.heldReport = m.1 := rfl

/-- An issued report is counted. -/
@[simp] theorem issueReport_seq (r : Bytes) (s : State) : (issueReport r s).ll.reportSeq = s.ll.reportSeq + 1 := rfl

/-- Drawing random bytes takes no time. -/
@[simp] theorem drbg_now (n : Nat) (s : State) : now (drbg n s).2 = now s := rfl

/-- A reply of the responder has at least a byte. -/
theorem spdmMade_pos (s : State) : 0 < (spdmMade s).ll.spdmReply.length := by
  have h : (spdmMade s).ll.spdmReply.length = max 1 (leNat (unstatedBytes 2 s)) := by
    show (unstatedBytes _ _).length = _
    simp [unstatedBytes]
  omega

/-- The first piece of a reply. -/
theorem spdmCollect_first {s : State} (h : 0 < s.ll.spdmReply.length) :
    spdmCollect 0 s = (.done stOk (spdmPiece s.ll.spdmReply.length (if min 232 s.ll.spdmReply.length = s.ll.spdmReply.length then 2 else 0) 0
      (sub s.ll.spdmReply 0 (min 232 s.ll.spdmReply.length))), s) := by
  unfold spdmCollect
  simp only [accept, Nat.sub_zero, Nat.zero_add]
  rw [if_neg (by omega)]
  simp [sub]

/-- A change of key slots answers once East holds it, or at once (R19). -/
theorem repliesEast_served {c : MbReq → Instr} {op sub : Nat} {f : Call → State → Answer × State} {cond u}
    (he : ∀ r s, exec (c r) s = whenServing (serve op sub f r) s)
    (hf : ∀ c s, cond c s = true → f c s = afterEast (u c s)) : repliesEast c op sub served cond u := by
  refine ⟨repliesLater_served he (fun c s h => ?_), repliesOk_served he (fun c s h => ?_)⟩
  · simp only [Bool.and_eq_true] at h
    rw [hf c s h.1, afterEast, if_pos h.2]
  · simp only [Bool.and_eq_true, Bool.not_eq_true'] at h
    rw [hf c s h.1, afterEast, if_neg (by simp [h.2])]; rfl

/-- The same for a command that burns no fuse. -/
theorem repliesEast_fused {c : MbReq → Instr} {op sub : Nat} {f : Call → State → Answer × State} {cond u}
    (he : ∀ r s, exec (c r) s = whenFused (serve op sub f r) s)
    (hf : ∀ c s, cond c s = true → f c s = afterEast (u c s)) : repliesEast c op sub fused cond u := by
  refine ⟨repliesLater_fused he (fun c s h => ?_), repliesOk_fused he (fun c s h => ?_)⟩
  · simp only [Bool.and_eq_true] at h
    rw [hf c s h.1, afterEast, if_pos h.2]
  · simp only [Bool.and_eq_true, Bool.not_eq_true'] at h
    rw [hf c s h.1, afterEast, if_neg (by simp [h.2])]; rfl

end Sys2Proof.Laws
end

