-- ==== Sys2Proof/Laws/Tab.lean ====
section
/-! SUPPORT. The laws of sparse tables: what a read finds after each change, and that every change keeps the canonical form. -/
namespace Sys2Proof.Machine

variable {α : Type}

/-! ## Reads -/

theorem tget_terase_self (d : α) (t : Tab α) (k : Nat) : tget d (terase t k) k = d := by
  induction t with
  | nil => rfl
  | cons p t ih =>
    by_cases h : p.1 = k
    · simpa [terase, h] using ih
    · simp only [terase, List.filter_cons, h, ne_eq, not_false_eq_true, decide_true, if_true, tget] at *
      exact ih

theorem tget_terase_ne (d : α) (t : Tab α) (k j : Nat) (h : j ≠ k) : tget d (terase t k) j = tget d t j := by
  induction t with
  | nil => rfl
  | cons p t ih =>
    by_cases hp : p.1 = k
    · have : p.1 ≠ j := fun e => h (e ▸ hp)
      simpa [terase, hp, tget, this, Ne.symm h] using ih
    · simp only [terase, List.filter_cons, hp, ne_eq, not_false_eq_true, decide_true, if_true, tget] at *
      rw [ih]

theorem tget_tinsert_self (d : α) (t : Tab α) (k : Nat) (v : α) : tget d (tinsert t k v) k = v := by
  induction t with
  | nil => simp [tinsert, tget]
  | cons p t ih =>
    unfold tinsert
    split
    · simp [tget]
    · split
      · simp [tget]
      · rename_i h; simp [tget, Ne.symm h, ih]

theorem tget_tinsert_ne (d : α) (t : Tab α) (k j : Nat) (v : α) (h : j ≠ k) : tget d (tinsert t k v) j = tget d t j := by
  induction t with
  | nil => simp [tinsert, tget, Ne.symm h]
  | cons p t ih =>
    unfold tinsert
    split
    · simp [tget, Ne.symm h]
    · split
      · rename_i e; simp [tget, ← e, Ne.symm h]
      · simp [tget, ih]

variable [DecidableEq α]

@[simp] theorem tget_tset_self (d : α) (t : Tab α) (k : Nat) (v : α) : tget d (tset d t k v) k = v := by
  unfold tset
  split
  · rename_i h; rw [h]; exact tget_terase_self d t k
  · exact tget_tinsert_self d t k v

theorem tget_tset_ne (d : α) (t : Tab α) (k j : Nat) (v : α) (h : j ≠ k) : tget d (tset d t k v) j = tget d t j := by
  unfold tset
  split
  · exact tget_terase_ne d t k j h
  · exact tget_tinsert_ne d t k j v h

theorem tget_tset (d : α) (t : Tab α) (k j : Nat) (v : α) : tget d (tset d t k v) j = if j = k then v else tget d t j := by
  split
  · rename_i h; rw [h]; exact tget_tset_self d t k v
  · rename_i h; exact tget_tset_ne d t k j v h

theorem tget_tmod (d : α) (t : Tab α) (k j : Nat) (f : α → α) :
    tget d (tmod d t k f) j = if j = k then f (tget d t k) else tget d t j := tget_tset d t k j _

omit [DecidableEq α] in
theorem tget_tclear_in (d : α) (t : Tab α) (lo hi j : Nat) (h : lo ≤ j ∧ j < hi) : tget d (tclear t lo hi) j = d := by
  induction t with
  | nil => rfl
  | cons p t ih =>
    by_cases hp : p.1 < lo ∨ hi ≤ p.1
    · have : p.1 ≠ j := by omega
      simpa [tclear, hp, tget, this] using ih
    · simpa [tclear, hp, tget] using ih

omit [DecidableEq α] in
theorem tget_tclear_out (d : α) (t : Tab α) (lo hi j : Nat) (h : j < lo ∨ hi ≤ j) : tget d (tclear t lo hi) j = tget d t j := by
  induction t with
  | nil => rfl
  | cons p t ih =>
    by_cases hp : p.1 < lo ∨ hi ≤ p.1
    · simp only [tclear, List.filter_cons, hp, decide_true, if_true, tget] at *
      rw [ih]
    · have : p.1 ≠ j := by omega
      simpa [tclear, hp, tget, this] using ih

/-- A read outside a run of stores finds what stood there. -/
theorem tget_twrites_out (d : α) (vs : List α) : ∀ (t : Tab α) (k j : Nat), (j < k ∨ k + vs.length ≤ j) →
    tget d (twrites d t k vs) j = tget d t j := by
  induction vs with
  | nil => intro t k j _; rfl
  | cons v vs ih =>
    intro t k j h
    simp only [List.length_cons] at h
    rw [twrites, ih _ _ _ (by omega), tget_tset_ne _ _ _ _ _ (by omega)]

/-- A read inside a run of stores finds the stored value. -/
theorem tget_twrites_in (d : α) (vs : List α) : ∀ (t : Tab α) (k i : Nat), (h : i < vs.length) →
    tget d (twrites d t k vs) (k + i) = vs[i] := by
  induction vs with
  | nil => intro t k i h; simp at h
  | cons v vs ih =>
    intro t k i h
    cases i with
    | zero =>
      rw [twrites, tget_twrites_out d vs _ _ _ (by omega)]
      simp
    | succ i =>
      have := ih (tset d t k v) (k + 1) i (by simpa using h)
      rw [twrites, show k + (i + 1) = k + 1 + i by omega, this]
      simp

/-- A run of stores reads back. -/
theorem treads_twrites (d : α) (t : Tab α) (k : Nat) (vs : List α) : treads d (twrites d t k vs) k vs.length = vs := by
  apply List.ext_getElem
  · simp [treads]
  · intro i h1 h2
    simp [treads, tget_twrites_in d vs t k i (by simpa [treads] using h1)]

omit [DecidableEq α] in
@[simp] theorem treads_length (d : α) (t : Tab α) (k n : Nat) : (treads d t k n).length = n := by simp [treads]

/-! ## The canonical form -/

omit [DecidableEq α] in
theorem map_fst_terase (t : Tab α) (k : Nat) : (terase t k).map Prod.fst = (t.map Prod.fst).filter (· ≠ k) := by
  simp [terase, List.filter_map, Function.comp_def]

theorem TabWf.filter {d : α} {t : Tab α} (h : TabWf d t) (p : Nat × α → Bool) : TabWf d (t.filter p) :=
  ⟨h.1.sublist (List.filter_sublist.map _), fun e he => h.2 e (List.mem_filter.1 he).1⟩

theorem TabWf.nil (d : α) : TabWf d ([] : Tab α) := ⟨List.Pairwise.nil, fun _ h => nomatch h⟩

theorem TabWf.terase {d : α} {t : Tab α} (h : TabWf d t) (k : Nat) : TabWf d (terase t k) := h.filter _
theorem TabWf.tclear {d : α} {t : Tab α} (h : TabWf d t) (lo hi : Nat) : TabWf d (tclear t lo hi) := h.filter _

omit [DecidableEq α] in
theorem mem_tinsert {t : Tab α} {k : Nat} {v : α} {e : Nat × α} (h : e ∈ tinsert t k v) : e = (k, v) ∨ e ∈ t := by
  induction t with
  | nil => simpa [tinsert] using h
  | cons p t ih =>
    unfold tinsert at h
    split at h
    · simpa using h
    · split at h
      · rcases List.mem_cons.1 h with h | h
        · exact .inl h
        · exact .inr (List.mem_cons_of_mem _ h)
      · rcases List.mem_cons.1 h with h | h
        · exact .inr (h ▸ List.mem_cons_self)
        · rcases ih h with h | h
          · exact .inl h
          · exact .inr (List.mem_cons_of_mem _ h)

theorem TabWf.tinsert {d : α} {t : Tab α} (h : TabWf d t) (k : Nat) {v : α} (hv : v ≠ d) : TabWf d (tinsert t k v) := by
  refine ⟨?_, fun e he => ?_⟩
  · have hp := h.1
    clear h
    induction t with
    | nil => simp [Machine.tinsert]
    | cons p t ih =>
      have hp' := List.pairwise_cons.1 hp
      unfold Machine.tinsert
      split
      · rename_i hk
        refine List.pairwise_cons.2 ⟨fun a ha => ?_, hp⟩
        rcases List.mem_cons.1 ha with ha | ha
        · exact ha ▸ hk
        · exact Nat.lt_trans hk (hp'.1 a ha)
      · split
        · rename_i he
          exact List.pairwise_cons.2 ⟨fun a ha => he ▸ hp'.1 a ha, hp'.2⟩
        · rename_i h1 h2
          refine List.pairwise_cons.2 ⟨fun a ha => ?_, ih hp'.2⟩
          obtain ⟨e, he, rfl⟩ := List.mem_map.1 ha
          rcases mem_tinsert he with rfl | he
          · show p.1 < k
            omega
          · exact hp'.1 _ (List.mem_map_of_mem he)
  · rcases mem_tinsert he with rfl | he
    · exact hv
    · exact h.2 e he

theorem TabWf.tset {d : α} {t : Tab α} (h : TabWf d t) (k : Nat) (v : α) : TabWf d (tset d t k v) := by
  unfold Machine.tset
  split
  · exact h.terase k
  · rename_i hv; exact h.tinsert k hv

theorem TabWf.tmod {d : α} {t : Tab α} (h : TabWf d t) (k : Nat) (f : α → α) : TabWf d (tmod d t k f) := h.tset k _

theorem TabWf.twrites {d : α} {vs : List α} : ∀ {t : Tab α}, TabWf d t → ∀ k, TabWf d (twrites d t k vs) := by
  induction vs with
  | nil => intro t h k; exact h
  | cons v vs ih => intro t h k; exact ih (h.tset k v) (k + 1)

theorem TabWf.tmap {d : α} {t : Tab α} (h : TabWf d t) (f : Nat → α → α) : TabWf d (tmap d t f) := by
  refine ⟨?_, fun e he => by simpa using (List.mem_filter.1 he).2⟩
  have : ((t.map (fun p => (p.1, f p.1 p.2))).map Prod.fst).Pairwise (· < ·) := by simpa [Function.comp_def] using h.1
  exact this.sublist (List.filter_sublist.map _)

/-- Canonical tables that read alike are equal. -/
theorem TabWf.ext {d : α} : ∀ {t u : Tab α}, TabWf d t → TabWf d u → (∀ k, tget d t k = tget d u k) → t = u := by
  intro t
  induction t with
  | nil =>
    intro u _ hu h
    cases u with
    | nil => rfl
    | cons q u =>
      have := h q.1
      simp [tget] at this
      exact absurd this.symm (hu.2 q List.mem_cons_self)
  | cons p t ih =>
    intro u ht hu h
    have htp := List.pairwise_cons.1 ht.1
    have low : ∀ {w : Tab α} {n : Nat}, (∀ a ∈ w.map Prod.fst, n < a) → ∀ k, k ≤ n → tget d w k = d := by
      intro w
      induction w with
      | nil => intros; rfl
      | cons x w ihw =>
        intro n hn k hk
        have hx : n < x.1 := hn x.1 (by simp)
        have : x.1 ≠ k := by omega
        simp only [tget, this, if_false]
        exact ihw (fun a ha => hn a (List.mem_cons_of_mem _ ha)) k hk
    cases u with
    | nil =>
      have := h p.1
      simp [tget] at this
      exact absurd this (ht.2 p List.mem_cons_self)
    | cons q u =>
      have hup := List.pairwise_cons.1 hu.1
      have hpq : p.1 = q.1 := by
        rcases Nat.lt_trichotomy p.1 q.1 with hl | he | hl
        · have h1 := h p.1
          have : q.1 ≠ p.1 := by omega
          simp only [tget, if_true, this, if_false] at h1
          rw [low hup.1 p.1 (by omega)] at h1
          exact absurd h1 (ht.2 p List.mem_cons_self)
        · exact he
        · have h1 := h q.1
          have : p.1 ≠ q.1 := by omega
          simp only [tget, if_true, this, if_false] at h1
          rw [low htp.1 q.1 (by omega)] at h1
          exact absurd h1.symm (hu.2 q List.mem_cons_self)
      have hv : p.2 = q.2 := by
        have h1 := h p.1
        simpa [tget, hpq] using h1
      have : t = u := by
        refine ih ⟨htp.2, fun e he => ht.2 e (List.mem_cons_of_mem _ he)⟩ ⟨hup.2, fun e he => hu.2 e (List.mem_cons_of_mem _ he)⟩ (fun k => ?_)
        by_cases hk : p.1 = k
        · rw [low htp.1 k (by omega), low hup.1 k (by omega)]
        · have h1 := h k
          have hk' : q.1 ≠ k := hpq ▸ hk
          simpa only [tget, hk, hk', if_false] using h1
      rw [this, Prod.ext hpq hv]

end Sys2Proof.Machine
end

