-- ==== Sys2Proof/Laws/Wicks.lean ====
section
/-! SUPPORT. What a wick's row answers: one lemma for a descriptor a wick takes by itself, one for a meeting, one for a barrier. -/
namespace Sys2Proof.Laws

open Sys2Proof.Machine Sys2Proof.Safety

/-- A step that comes to its end. -/
theorem finishes_eq {α : Type} [Inhabited α] {o : WOut α} (s : State) (h : finishes o = true) : o = .done (result o) (leaves s o) := by
  cases o <;> simp_all [finishes, result, leaves]

/-- Steps that agree on every element of a list below a bound agree on the list. -/
theorem each_below {β : Type} {f : Nat × Nat → State → WOut β} {g : Nat × Nat → State → WOut β} {n : Nat} {xs : List (Nat × Nat)}
    (h : xs.all (fun x => decide (x.2 < n)) = true) (hf : ∀ x s, x.2 < n → f x s = g x s) (s : State) : WOut.each f xs s = WOut.each g xs s := by
  induction xs generalizing s with
  | nil => rfl
  | cons a as ih =>
    simp only [List.all_cons, Bool.and_eq_true, decide_eq_true_eq] at h
    simp only [WOut.each, hf a s h.1]
    congr 1
    funext b t
    rw [ih (by simpa using h.2)]

/-- What a ready wick has. -/
theorem stands_run {s : State} {w : Wk} {mine : Bytes → Bool} {d : Bytes} (h : standsBefore s w mine d = true) :
    running s = true ∧ wickReady s w = true ∧ wickDesc s w = some d ∧ mine d = true := by
  simpa [standsBefore, and_assoc] using h

/-- A row's operation covers its forms. -/
theorem stands_mono {s : State} {w : Wk} {mine mine0 : Bytes → Bool} {d : Bytes} (hm : ∀ d, mine d = true → mine0 d = true)
    (h : standsBefore s w mine d = true) : standsBefore s w mine0 d = true := by
  obtain ⟨h1, h2, h3, h4⟩ := stands_run h
  simp [standsBefore, h1, h2, h3, hm d h4]

/-- No meeting takes place where none is complete. -/
theorem holdMeeting_none {w : Wk} {set : Bool} {s : State} (h : gathered s w.t w.ue set (scopeOf s w set) = none) :
    holdMeeting w set s = .done () s := by
  unfold holdMeeting
  unfold scopeOf at h
  simp only [h]

/-- Nor of the lantern nor of the set. -/
theorem noMeeting_run {s : State} {w : Wk} (h : noMeeting s w = true) :
    gathered s w.t w.ue false [w.l] = none ∧ gathered s w.t w.ue true (taskAt s w.t).lanterns = none := by
  simpa [noMeeting] using h

/-- What taking a descriptor up says. -/
theorem takesUp_run {s : State} {w : Wk} {d : Bytes} (h : takesUp s w d = true) :
    skipped (wickOf s w) d = false ∧ readsPoison s w d = false := by simpa [takesUp] using h

/-- A turn of a wick, its descriptor's work and the meetings after it. -/
theorem wickTurn_eq {s : State} {w : Wk} {mine : Bytes → Bool} {d : Bytes} {go : Bytes → State → WOut Unit} {u v x : State}
    (h : standsBefore s w mine d = true) (hs : takesUp s w d = true) (hg : go d s = .done () u)
    (h1 : holdMeeting w false u = .done () v) (h2 : holdMeeting w true v = .done () x) : wickTurn mine w go s = turned w w.ue x := by
  obtain ⟨-, k2, k3, k4⟩ := stands_run h
  obtain ⟨p1, p2⟩ := takesUp_run hs
  simp only [wickTurn, k2, k3, k4, p1, p2, hg, WOut.andThen]
  rw [if_neg (by simp), if_neg (by simp), if_neg (by simp), if_neg (by simp)]
  dsimp only
  rw [h1]
  dsimp only
  rw [h2]
  rfl

/-- A turn of a wick whose descriptor leaves it in `u`, where no meeting is complete then. -/
theorem wickTurn_done {s : State} {w : Wk} {mine : Bytes → Bool} {d : Bytes} {go : Bytes → State → WOut Unit} {u : State}
    (h : standsBefore s w mine d = true) (hs : takesUp s w d = true) (hg : go d s = .done () u) (hn : noMeeting u w = true) :
    wickTurn mine w go s = turned w w.ue u := by
  obtain ⟨n1, n2⟩ := noMeeting_run hn
  exact wickTurn_eq h hs hg (holdMeeting_none (set := false) (by simpa [scopeOf] using n1)) (holdMeeting_none (set := true) (by simpa [scopeOf] using n2))

/-- A turn of a wick that predication skips. -/
theorem wickTurn_skip {s : State} {w : Wk} {mine : Bytes → Bool} {d : Bytes} {go : Bytes → State → WOut Unit}
    (h : standsBefore s w mine d = true) (hs : skipped (wickOf s w) d = true) (hn : noMeeting (endDesc w s s) w = true) :
    wickTurn mine w go s = turned w w.ue (endDesc w s s) := by
  obtain ⟨-, h2, h3, h4⟩ := stands_run h
  obtain ⟨n1, n2⟩ := noMeeting_run hn
  simp only [wickTurn, h2, h3, h4, hs, WOut.andThen]
  rw [if_neg (by simp), if_neg (by simp), if_pos trivial]
  dsimp only
  rw [holdMeeting_none (set := false) (by simpa [scopeOf] using n1)]
  dsimp only
  rw [holdMeeting_none (set := true) (by simpa [scopeOf] using n2)]
  rfl

/-- A turn of a wick that would consume poison. -/
theorem wickTurn_poison {s : State} {w : Wk} {mine : Bytes → Bool} {d : Bytes} {go : Bytes → State → WOut Unit}
    (h : standsBefore s w mine d = true) (hs : skipped (wickOf s w) d = false) (hp : readsPoison s w d = true) :
    wickTurn mine w go s = settle w.ue (failTask w.t stDataPoison s) := by
  obtain ⟨-, h2, h3, h4⟩ := stands_run h
  simp only [wickTurn, h2, h3, h4, hs, hp, WOut.andThen]
  rw [if_neg (by simp), if_neg (by simp), if_neg (by simp), if_pos trivial]

/-- A row whose operation ends the descriptor in `effect`. -/
theorem wickTakes_of {c : WickRef → Instr} {ue : Ue} {mine : Bytes → Bool} {cond : Wk → Bytes → State → Bool} {effect : Wk → Bytes → State → State}
    {go : Wk → Bytes → State → WOut Unit} {mine0 : Bytes → Bool} (hm : ∀ d, mine d = true → mine0 d = true)
    (he : ∀ r s, exec (c r) s = whenServing (wickTurn mine0 (wkOf r ue) (go (wkOf r ue))) s)
    (hg : ∀ w d s, mine d = true → cond w d s = true → go w d s = .done () (effect w d s)) : wickTakes c ue mine cond effect := by
  intro r s d h hs hc hn
  rw [he, whenServing_next _ (stands_run h).1, wickTurn_done (stands_mono hm h) hs (hg _ _ _ (stands_run h).2.2.2 hc) hn]
  rfl

/-- The wicks met in some lanterns: there is a first one, of the task and of one of the lanterns. -/
theorem gathered_head {s : State} {t : Nat} {ls : List Nat} {ue : Ue} {set : Bool} {ws : List Wk} {pc : Nat}
    (h : gathered s t ue set ls = some (ws, pc)) : ∃ v vs, ws = v :: vs ∧ v.t = t ∧ v.l ∈ ls ∧ v.ue = ue := by
  unfold gathered at h
  dsimp only at h
  split at h
  · rw [Option.map_eq_some_iff] at h
    obtain ⟨a, ha, hb⟩ := h
    simp only [Prod.mk.injEq] at hb
    have hmem := List.min?_mem ha
    rw [List.mem_filterMap] at hmem
    obtain ⟨v, hv, hva⟩ := hmem
    have hin : v ∈ ws := by
      rw [← hb.1, List.mem_filter]
      refine ⟨hv, ?_⟩
      split at hva
      · split at hva
        · simp only [Option.some.injEq] at hva
          rename_i heq _
          rw [heq, hva]; simp
        · exact absurd hva (by simp)
      · exact absurd hva (by simp)
    have hall : ∀ x ∈ ws, x.t = t ∧ x.l ∈ ls ∧ x.ue = ue := by
      intro x hx
      rw [← hb.1, List.mem_filter] at hx
      have := hx.1
      simp only [wicksIn, List.mem_flatMap, List.mem_map] at this
      obtain ⟨_, hl, r, _, rfl⟩ := this
      exact ⟨rfl, hl, rfl⟩
    cases ws with
    | nil => exact absurd hin (by simp)
    | cons v vs => exact ⟨v, vs, rfl, hall v (by simp)⟩
  · exact absurd h (by simp)

/-- Every row skips. -/
theorem wickSkips_of {c : WickRef → Instr} {ue : Ue} {mine : Bytes → Bool} {go : Wk → Bytes → State → WOut Unit}
    (he : ∀ r s, exec (c r) s = whenServing (wickTurn mine (wkOf r ue) (go (wkOf r ue))) s) : wickSkips c ue mine := by
  intro r s d h hs hn
  rw [he, whenServing_next _ (stands_run h).1, wickTurn_skip h hs hn]
  rfl

/-- Every row fails on poison. -/
theorem wickPoisoned_of {c : WickRef → Instr} {ue : Ue} {mine : Bytes → Bool} {go : Wk → Bytes → State → WOut Unit}
    (he : ∀ r s, exec (c r) s = whenServing (wickTurn mine (wkOf r ue) (go (wkOf r ue))) s) : wickPoisoned c ue mine := by
  intro r s d h hs hp
  rw [he, whenServing_next _ (stands_run h).1, wickTurn_poison h hs hp]
  rfl

/-- A row whose operation is a descriptor that its scope shares. -/
theorem wicksShare_of {c : WickRef → Instr} {ue : Ue} {mine : Bytes → Bool} {set : Bool} {cond : List Wk → Wk → Bytes → State → Bool}
    {act : List Wk → Wk → Bytes → State → State} {go : Wk → Bytes → State → WOut Unit} {mine0 : Bytes → Bool}
    (hm : ∀ d, mine d = true → mine0 d = true) (he : ∀ r s, exec (c r) s = whenServing (wickTurn mine0 (wkOf r ue) (go (wkOf r ue))) s)
    (hg : ∀ w d s, mine d = true → go w d s = comeTo w s)
    (ha : ∀ ws w d t pc, mine d = true → gathered t w.t w.ue set (scopeOf t w set) = some (ws, pc) → cond ws w d t = true →
      meetingAct ws d t = .done () (act ws w d t)) : wicksShare c ue mine set cond act := by
  refine ⟨wickTakes_of hm he (fun w d s hm _ => hg w d s hm), ?_⟩
  intro r s d ws w t h hs h1 h2 hc h3
  obtain ⟨hr, hw, hd, hmd⟩ := stands_run h
  have hcome : comeTo w s = .done () t := rfl
  have hprog : (taskAt t w.t).program.getD (wickOf s w).pc [] = d := by
    have : (taskAt t w.t).program = (taskAt s w.t).program := by
      show (tget {} (tset {} s.fe.tasks w.t _) w.t).program = _
      rw [tget_tset_self]
    rw [this, List.getD, show (taskAt s w.t).program[(wickOf s w).pc]? = some d from hd]
    rfl
  have hold : holdMeeting w set t = .done () (allGoOn ws t (act ws w d t)) := by
    unfold holdMeeting
    unfold scopeOf at h2
    simp only [h2, hprog]
    rw [ha ws w d t (wickOf s w).pc hmd (by unfold scopeOf; exact h2) hc]
    rfl
  rw [he, whenServing_next _ hr]
  cases set with
  | false =>
    rw [wickTurn_eq (stands_mono hm h) hs ((hg w d s hmd).trans hcome) hold (holdMeeting_none (set := true) (by simpa [scopeOf] using h3 rfl))]
    rfl
  | true =>
    rw [wickTurn_eq (stands_mono hm h) hs ((hg w d s hmd).trans hcome) (holdMeeting_none (set := false) (by simpa [scopeOf] using h1 rfl)) hold]
    rfl

/-- A row whose operation is a barrier. -/
theorem wicksMeet_of {c : WickRef → Instr} {ue : Ue} {mine : Bytes → Bool} {set : Bytes → Bool} {place : State → Wk → Bytes → WickWait}
    {cond : Wk → Bytes → State → State → Bool} {act : Wk → Bytes → State → State} {go : Wk → Bytes → State → WOut Unit}
    {busy : Wk → Bytes → State → Bool} {f : Wk → Bytes → State → State → WOut Unit} {mine0 : Bytes → Bool}
    (hm : ∀ d, mine d = true → mine0 d = true) (he : ∀ r s, exec (c r) s = whenServing (wickTurn mine0 (wkOf r ue) (go (wkOf r ue))) s)
    (hg : ∀ w d s, mine d = true → go w d s = arrive w (place s w d) (set d) (busy w d s) (f w d s) s)
    (hb : ∀ w d s, mine d = true → cond w d s (waitsAt w (place s w d) s) = true → busy w d s = false ∧
      f w d s (waitsAt w (place s w d) s) = .done () (act w d (waitsAt w (place s w d) s))) : wicksMeet c ue mine set place cond act := by
  refine ⟨wickTakes_of hm he (fun w d s hm h => ?_), wickTakes_of hm he (fun w d s hm h => ?_)⟩
  · simp only [Bool.and_eq_true, Bool.not_eq_true'] at h
    obtain ⟨h1, h2⟩ := h
    unfold waitsAt scopeOf at h2
    rw [hg w d s hm]
    unfold arrive
    simp only [h1]
    rw [if_neg (by simp), if_pos (by simp [h2])]
    rfl
  · simp only [Bool.and_eq_true, Bool.not_eq_true'] at h
    obtain ⟨⟨h1, h2⟩, h3⟩ := h
    obtain ⟨b1, b2⟩ := hb w d s hm h3
    unfold waitsAt scopeOf at h2
    unfold waitsAt at b2
    rw [hg w d s hm]
    unfold arrive
    simp only [h1]
    rw [if_neg (by simp), if_neg (by simp [h2]), b1, if_neg (by simp), b2]
    rfl

end Sys2Proof.Laws
end

