-- ==== Sys2Proof/WellFormed.lean ====
section
/-! DEFINITION. Which commands are well formed: every operand fits the port, pin, wire or frame field it arrives on, and unit
numbers lie within the largest build (R3). Numbers a build does not have, reserved values of a field and the contents of a message
are no matter of form: the meanings answer them. -/
namespace Sys2Proof

/-- Error flags name whole 64 B parts of the stacked tier's channels (R469) and of the capacity ports (R471). -/
def Ue.wellFormed (u : Ue) : Bool :=
  u.stacked.all (fun a => a % 64 == 0 && decide (a < 2 ^ 40)) && u.capacity.all (fun a => a % 64 == 0 && decide (a < 2 ^ 41))

/-- A seam message: at most 15 payload words (R12), and no more corrected words than it has. -/
def SeamMsg.wellFormed (m : SeamMsg) : Bool := decide (m.payload.length ≤ 15) && decide (m.corrected ≤ m.payload.length + 1)

/-- A frame other than a container: 32 B header, up to 4,096 B payload, 16 B tag (R194). -/
def Frame.wellFormed (f : Frame) : Bool := f.header.length == 32 && decide (f.payload.length ≤ 4096) && f.tag.length == 16

/-- A frame at a link port. -/
def frameAt (port : Nat) (f : Frame) : Bool := decide (port < 24) && f.wellFormed

/-- An exchange record: lantern numbers, a 16-bit incarnation and 64-bit counter of its IV, and at most one MESSAGE (R108, R109). -/
def ExchangeMsg.wellFormed (m : ExchangeMsg) : Bool :=
  decide (m.source < 32) && decide (m.dest < 16) && decide (m.incarnation < 2 ^ 16) && decide (m.counter < 2 ^ 64) &&
    m.tag.length == 16 && decide (m.sealed.length ≤ 4112)

/-- A request of the target side: 17 ports and the widths of R454. -/
def PortReq.wellFormed (r : PortReq) : Bool :=
  decide (r.port ≤ 16) && decide (r.len < 128) && decide (r.id < 4096) && decide (r.part < 32)

/-- A lantern or capacity engine of the largest build (R3). -/
def MemUnit.wellFormed : MemUnit → Bool
  | .lantern l => decide (l < 16)
  | .capacity c => decide (c < 8)

/-- An access of the host register port: 5-bit REQ_FUNC, 26-bit address, naturally aligned (R477). -/
def RegAccess.wellFormed (a : RegAccess) : Bool :=
  decide (a.func < 32) && decide (a.offset < 2 ^ 26) && a.offset % (if a.size8 then 8 else 4) == 0

/-- A mailbox and slot (R324, R325). -/
def MbReq.wellFormed (r : MbReq) : Bool := decide (r.mb < 18) && decide (r.slot < 4) && r.ue.wellFormed

/-- A wick of a task (R111). -/
def WickRef.wellFormed (w : WickRef) : Bool := decide (w.lantern < 16) && decide (w.rank < 192)

/-- The wicks a boot's self-tests name are physical wicks of lanterns (R139). -/
def wickList (l : List (Nat × Nat)) : Bool := l.all (fun x => decide (x.1 < 16) && decide (x.2 < 200))

/-- What a boot finds. -/
def BootIn.wellFormed (b : BootIn) : Bool := wickList b.failedWicks && b.ue.wellFormed

/-- Units that report progress. -/
def HungUnit.wellFormed : HungUnit → Bool
  | .lantern l => decide (l < 16)
  | _ => true

/-- Snuffable domains (R389). -/
def SnuffDomain.wellFormed : SnuffDomain → Bool
  | .lantern l => decide (l < 16)
  | .linkPort p => decide (p < 24)
  | .block => true

/-- Islands of R427. -/
def Island.wellFormed : Island → Bool
  | .wicks l => decide (l < 16)
  | .crypto l => decide (l < 16)
  | .capacity c => decide (c < 8)
  | .link h => decide (h < 2)
  | _ => true

/-- Ready cycles of 100 µs: 64 channels a lantern out of 200,000, a capacity port out of 100,000, a link port out of 125,000 (R351). -/
def AvailIn.wellFormed (a : AvailIn) : Bool :=
  decide (a.lanterns.length ≤ 16) && a.lanterns.all (fun c => c.length == 64 && c.all (fun x => decide (x ≤ 200000))) &&
    decide (a.capacity.length ≤ 8) && a.capacity.all (fun x => decide (x ≤ 100000)) &&
    decide (a.links.length ≤ 24) && a.links.all (fun x => decide (x ≤ 125000))

/-- An MCTP message: an endpoint ID byte and a 3-bit tag (R512, R513). -/
def MctpMsg.wellFormed (m : MctpMsg) : Bool := decide (m.eid < 256) && decide (m.tag < 8)

/-- Dynamic addresses are 7 bits wide, the maximum lengths 16 (R511). -/
def I3cCcc.wellFormed : I3cCcc → Bool
  | .entdaa a => decide (a < 128)
  | .setdasa sa a => decide (sa < 128) && decide (a < 128)
  | .setmwl n | .setmrl n => decide (n < 2 ^ 16)
  | _ => true

/-- The fields of the IDE key port (R480). -/
def IdeOp.wellFormed (o : IdeOp) : Bool :=
  decide (o.func < 32) && decide (o.sid < 256) && decide (o.sub < 4) && decide (o.dir < 2) && decide (o.kset < 2)

/-- A half: West 0, East 1. -/
def halfOk (h : Nat) : Bool := decide (h < 2)

/-- Whether a command is well formed. -/
def Instr.wellFormed : Instr → Bool
  | .powerOn _ inp | .blockResetSequence inp => inp.wellFormed
  | .pwrOkFall | .dusk | .powerEventEnd | .tamperEvent _ | .flashExtRequest | .vigilKick _ | .vigilFault | .llIntegrityFault
  | .entropyFailure | .lcReread _ _ _ | .lcShadowMismatch | .terminalFault | .timeSyncSend | .queueArbiterCycle
  | .timeProbeRound | .ideKeyAck _ | .mgmtSessionExpiry | .reportDigestExpiry | .flashExtNRise => true
  | .sramScrub corrected _ => decide (corrected < 2 ^ 32)
  | .keySlotScrub upset => upset.all (fun k => decide (k < 1048))
  | .lanternSnuff l failed ue => decide (l < 16) && failed.all (fun w => decide (w < 200)) && ue.wellFormed
  | .linkPortSnuff p | .linkTrained p | .linkLost p | .portBringupRetry p | .rollDue p | .rollOverrun p | .linkFrameVerdict p => decide (p < 24)
  | .snuffDrainTimeout d => d.wellFormed
  | .unitHung u => u.wellFormed
  | .wickSelfTest l phys _ | .wickFailed l phys _ => decide (l < 16) && decide (phys < 200)
  | .seamSession m | .seamKeyLoad m | .seamKeyClear m | .seamKeyClearAll m | .seamKeyAck m | .seamSnuff m | .seamFault m
  | .seamFaultAck m | .seamCredit m | .seamCurfew m _ | .seamTimeSync m _ | .seamTimeEcho m _ | .seamTrace m _ => m.wellFormed
  | .seamMailbox m _ ue => m.wellFormed && ue.wellFormed
  | .dispatchRecord r => decide (r.counter < 2 ^ 64) && r.tag.length == 16
  | .completionReport r ue => decide (r.counter < 2 ^ 64) && r.tag.length == 16 && ue.wellFormed
  | .exchangeRecord m => m.wellFormed
  | .transitCrossing _ port counter sealed tag => decide (port < 24) && decide (counter < 2 ^ 64) && tag.length == 16 && sealed.ue.wellFormed
  | .requestPortRead r => r.wellFormed
  | .requestPortWrite r data be ue => r.wellFormed && data.length == be.length && ue.wellFormed
  | .message port _ _ => decide (port ≤ 16)
  | .rotationDueRepeat key => decide (key < 1024)
  | .stackedReadReturn port id ue | .capReadReturn port id ue => decide (port ≤ 16) && decide (id < 4096) && ue.wellFormed
  | .quarantineLapse l page => decide (l < 16) && decide (page < 12582912)
  | .pageRepair l page ue => decide (l < 16) && decide (page < 12582912) && ue.wellFormed
  | .capacityVerdict c => decide (c < 8)
  | .sweepChunkStart rot u => decide (rot < 8) && u.wellFormed
  | .sweepChunkDone rot u ue => decide (rot < 8) && u.wellFormed && ue.wellFormed
  | .doorbellWrite a | .ptMbRelease a | .ptMbEventPtr a | .lnTgenStart a | .lnTgenStop a | .registerWrite a | .registerRead a => a.wellFormed
  | .ringFetchReturn _ _ ue | .commandDispatch _ ue | .dispatchResume _ ue | .task _ ue | .copyChunkDone _ _ ue | .importChunkDone _ ue
  | .fabric _ ue | .signal _ ue | .wait _ ue | .post _ ue | .taskCompletionReport _ ue | .waitDeadline ue | .pilotItemStart _ ue
  | .pilotItemRetire _ ue | .trimPeriodEnd _ ue | .trimCompute _ ue | .dawnTime ue => ue.wellFormed
  | .copy _ | .importCmd _ | .biasBlockInstall _ => true
  | .wickAbort w | .endOp w | .loop w | .pred w | .barrier w | .elemwise w | .curve w | .norm w | .quantise w | .reduce w | .digest w
  | .attnMerge w | .expertSendReturn w | .expertSendCancel w | .expertCombine w => w.wellFormed
  | .move w ue | .gather w ue | .scatter w ue | .gemv w ue | .gemvSparse w ue | .attend w ue | .kvAppendAppend w ue
  | .kvAppendCommit w ue | .kvAppendRollback w ue | .topkRoute w ue | .expertSendDispatch w ue => w.wellFormed && ue.wellFormed
  | .arrivalRecord port | .answerRecord port => decide (port < 24)
  | .gatherWindowExpiry server slice => decide (server < 16) && decide (slice < 256)
  | .combineDeadline _ l => decide (l < 16)
  | .efpLoad port f ue | .efpStore port f ue | .efpAtomic port f ue | .efpReduce port f ue | .efpTrigger port f ue
  | .efpData port f ue => frameAt port f && ue.wellFormed
  | .efpAck port f | .efpNack port f | .efpHello port f | .efpSpdm port f _ | .efpRoll port f | .efpTimeProbe port f
  | .efpTimeEcho port f => frameAt port f
  | .efpBulk port f => decide (port < 24) && f.header.length == 32 && decide (f.payload.length ≤ 65536) && f.tag.length == 0
  | .fabricTimeout half _ ue => halfOk half && ue.wellFormed
  | .backoffExpiry half dst | .ackCoalesceExpiry half dst => halfOk half && decide (dst < 65536)
  | .combiningLineWriteback half _ => halfOk half
  | .bulkFlush port via => decide (port < 24) && decide (via < 65536)
  | .timeRootSet peers => decide (peers.length ≤ 24) && peers.all (fun t => decide (t < 2 ^ 64))
  | .regulatorEvaluation a => a.wellFormed
  | .deratedExit r => decide (r < 64)
  | .windowAdjust u levels _ => u.wellFormed && decide (levels.length ≤ 64) && levels.all (fun q => decide (q ≤ 15))
  | .powerCapStep estimate => decide (estimate < 2 ^ 32)
  | .traceHeaderRewrite half buf => halfOk half && decide (buf ≤ 16)
  | .curfewStop isl => isl.wellFormed
  | .mctpMessage m => m.wellFormed
  | .setEndpointId eid => decide (eid < 256)
  | .lockInterfaceRequest p sid => decide (p < 16) && decide (sid < 256)
  | .startInterfaceRequest p nonce => decide (p < 16) && nonce.length == 32
  | .stopInterfaceRequest p ue => decide (p < 16) && ue.wellFormed
  | .keyProg op key iv => op.wellFormed && key.length == 32 && iv.length == 8
  | .kSetGo op | .kSetStop op => op.wellFormed
  | .getVersion r | .negotiate r | .settingGet r | .settingSet r | .partitionCreate r | .partitionDestroy r | .partitionReset r
  | .pasidBind r | .pasidUnbind r | .contextQuery r | .objectCreate r | .objectFree r | .fenceCreate r | .fenceFree r | .fenceSignal r
  | .fenceQuery r | .fenceWait r | .queueCreate r | .queueDestroy r | .queueResume r | .pilotStart r | .pilotStop r | .poolCreate r
  | .poolDestroy r | .sequenceCreate r | .sequenceDestroy r | .sequenceQuery r | .keyGenerate r | .keyImport r | .keyClear r
  | .keyGrant r | .keyUngrant r | .keySetRotationTarget r | .keyRotate r | .keyConfirm r | .reportGet r | .spdmMessage r
  | .domainPrepare r | .domainActivate r | .domainRetirePrevious r | .domainLeave r | .windowCreate r | .windowDestroy r
  | .regionOwnerSet r | .routeLoad r | .groupTableLoad r | .linkStatus r | .tableLoad r | .tableUnload r | .tableGrant r
  | .tableUngrant r | .rgroupCreate r | .rgroupDestroy r | .serverStart r | .serverStop r | .powerCapSet r | .powerCapGet r
  | .reservationQuery r | .faultRead r | .faultAck r | .faultSummary r | .inject r | .dumpRead r | .blockReset r
  | .traceConfigBuffer r | .traceConfigSources r | .traceConfigTrigger r | .traceConfigWatch r | .traceConfigFire r
  | .traceConfigStop r | .traceConfigRearm r | .traceConfigDisable r | .curfewSchedule r | .curfewCancel r | .dawn r
  | .lcTransition r | .debugUnlockChallenge r | .debugUnlockUnlock r | .fwStage r | .fwActivate r | .fwCommit r | .fwStatus r
  | .mgmtChallenge r | .mgmtAuth r | .mgmtEnd r => r.wellFormed
  | .sensorRead r temps => r.wellFormed && decide (temps.length ≤ 16) && temps.all (fun t => decide (-32768 ≤ t) && decide (t ≤ 32767))
  | .jtagInstruction half _ | .debugAccess half _ => halfOk half
  | .channelTraining u channel _ => u.wellFormed && decide (channel < 64)
  | .i3cCcc c => c.wellFormed

end Sys2Proof
end

