-- ==== Sys2Proof/Certificates/Slice0/Obligations.lean ====
section
/-! DEFINITION. The statements for the provers. -/

open Sys2Proof Sys2Proof.Machine Sys2Proof.Safety

/-! ## Steps and invariants -/

/-- A step takes the command at the front of the queue and runs it with the queue's rest; with an empty queue a nanosecond of the clocks
passes, which the model does in place of idling (notes/assumptions/1.md), and without power nothing but the real-time clock counts. -/
def Obligations.StepRunsTheFrontCommand : Prop :=
  (∀ (c : Instr) (rest : List Instr) (s : State), s.pending = c :: rest → step s = exec c { s with pending := rest }) ∧
  (∀ s : State, s.pending = [] → step s = .next (tick s) ∧ (tick s).pending = [] ∧ (tick s).build = s.build) ∧
  (∀ s : State, s.trust.pwrOk = false → tick s = rtcTick s)

/-- The build is legal (R3) and every waiting command well-formed. -/
def queueLegal (s : State) : Bool := buildLegal s.build && s.pending.all Instr.wellFormed

/-- The state right after reset has a legal build, no command waiting, no Terminal fault, no key, the OTP rows unburned, and no step of it
fails. -/
def Obligations.ResetIsLegal : Prop :=
  queueLegal State.reset = true ∧ State.reset.pending = [] ∧ State.reset.faults.terminal = false ∧ keysGone State.reset = true ∧
  (∀ k, otpRow State.reset k = 0) ∧ ∃ t, step State.reset = .next t

/-- Every step keeps the build legal and the waiting commands well-formed, and changes neither the build nor a command behind the front. -/
def Obligations.EveryStepKeepsTheQueue : Prop :=
  ∀ s t, step s = .next t → t.build = s.build ∧ t.pending = s.pending.drop 1 ∧ (queueLegal s = true → queueLegal t = true)

/-- Every code contains the bits of the codes before it, and no step takes a bit out of an OTP row (R437, R442). -/
def Obligations.FusesOnlyGainBits : Prop :=
  lcCode 0 = 0x00000000#32 ∧ lcCode 1 = 0x00FF00FF#32 ∧ lcCode 2 = 0xFFFF00FF#32 ∧ lcCode 3 = 0xFFFFFFFF#32 ∧
  (∀ a b, a ≤ b → b ≤ 3 → lcCode a &&& lcCode b = lcCode a) ∧
  (∀ s t, step s = .next t → ∀ k, otpRow s k &&& otpRow t k = otpRow s k)

/-- A Terminal fault clears every key, and stops the block (R240, R380). -/
def Obligations.TerminalEntryClearsKeys : Prop :=
  ∀ s, running s = true → s.faults.terminalDue = true →
    ∃ t, exec .terminalFault s = .next t ∧ t.faults.terminal = true ∧ running t = false ∧ keysGone t = true ∧ t.ide.zeroiseAll = true ∧ t.ll.halted = true

/-- After a Terminal fault no step but PWR_OK falling leaves that state, or brings a key back: only a power cycle does (R240, R380). -/
def Obligations.TerminalHolds : Prop :=
  ∀ s t, s.trust.pwrOk = true → s.faults.terminal = true → keysGone s = true → s.pending.head? ≠ some .pwrOkFall → step s = .next t →
    t.trust.pwrOk = true ∧ t.faults.terminal = true ∧ keysGone t = true

/-- A command other than those of power, tamper, the register port and the test access ports leaves a stopped block as it is, with no
power or after a Terminal fault (R380, R490); and whatever a command does, the build, the waiting commands and, unless it may burn
fuses, the fuses and the life cycle are as they were. -/
def Obligations.StoppedBlockIgnoresCommands : Prop :=
  (∀ c s, actsStopped c = false → running s = false → exec c s = .next s) ∧
  (∀ c s t, exec c s = .next t → t.build = s.build ∧ t.pending = s.pending ∧ (mayBurn c = false → t.lc = s.lc))

/-! ## Requests that complete -/

/-- GET_VERSION lists every version from 1.0 to 1.PROTO_MAX (R330); NEGOTIATE of a version not above PROTO_MAX, with no other request
PENDING in the mailbox, sets the mailbox's version and replies it (R331); SETTING_GET replies a setting's value and SETTING_SET of a
value in its range sets it, HOME_GIB only with no memory key slot installed, PORT_ROLE only at a port DOWN or FAILED (R340, R37). -/
def Obligations.VersionAndSettingRequestsComplete : Prop :=
  repliesOk .getVersion 0x0001 0 served (fun _ _ => true)
    (fun _ s => le 1 (s.ll.protoMax + 1) ++ (List.range (s.ll.protoMax + 1)).flatMap (fun m => [1#8, BitVec.ofNat 8 m])) (fun _ s => s) ∧
  repliesOk .negotiate 0x0002 0 served
    (fun c s => arg c.req 0 1 == 1 && decide (arg c.req 1 1 ≤ s.ll.protoMax) && (pendingSlots s c.mb).all (fun e => e.1 == c.slot))
    (fun c s => le 1 1 ++ le 1 (arg c.req 1 1) ++ le 1 4 ++ le 1 (b2n s.build.mldsa + 2 * b2n s.ll.mgmtActive) ++ le 4 s.ll.svn ++
      le 2 s.ll.relMajor ++ le 2 s.ll.relMinor ++ le 4 s.ll.relPatch)
    (fun c s => modBox c.mb (fun b => { b with major := 1, minor := arg c.req 1 1 }) s) ∧
  repliesOk .settingGet 0x0010 0 served (fun c s => settingKnown s (arg c.req 0 2) (arg c.req 2 2))
    (fun c s => le 8 (settingOf s (arg c.req 0 2) (arg c.req 2 2))) (fun _ s => s) ∧
  repliesOk .settingSet 0x0011 0 served
    (fun c s => settingKnown s (arg c.req 0 2) (arg c.req 2 2) && settingOpen s (arg c.req 0 2) (arg c.req 2 2) &&
      decide ((settingRange (arg c.req 0 2)).1 ≤ arg c.req 8 8 ∧ arg c.req 8 8 ≤ (settingRange (arg c.req 0 2)).2))
    (fun c _ => le 8 (arg c.req 8 8)) (fun c s => putSetting (arg c.req 0 2) (arg c.req 2 2) (arg c.req 8 8) s)

/-- What PARTITION_CREATE asks of a request before anything changes (R260, R261, R355, R434). -/
def createOk (c : Call) (s : State) : Bool :=
  lcPermits s && arg c.req 0 1 == 1 && (arg c.req 1 1 == 0xFE || decide (arg c.req 1 1 < s.build.parts)) && !partExists s (ownerIndex (arg c.req 1 1)) &&
    (arg c.req 1 1 == 0xFE || partExists s 16) && partFieldsOk s c.req && !partMeets s c.req && !partBusy s c.req && partAdmitted s c.req &&
    (arg c.req 1 1 == 0xFE || s.ll.drbgRunning)

/-- PARTITION_CREATE of a definition whose fields, totals and bandwidth the block admitted makes the partition ACTIVE with its capacity
lines initialised and its digest seed drawn, the manager's carve-out the same without a seed (R260, R261, R355); PARTITION_DESTROY and
PARTITION_RESET begin and reply when the partition is quiet (R264, R265); PASID_BIND puts an entry at the lowest free slot, PASID_UNBIND
frees one (R267); CONTEXT_QUERY replies the context's record and with CLEAR zeroes it in the same step (R268). -/
def Obligations.PartitionRequestsComplete : Prop :=
  repliesOk .partitionCreate 0x0100 0 served (fun c s => createOk c s && decide (arg c.req 1 1 < 16)) (fun c _ => created (arg c.req 1 1) 0)
    (fun c s => drawSeed (arg c.req 1 1) 0 (initCarveout c.ue (arg c.req 1 1)
      (setPart (arg c.req 1 1) { state := .active, definition := argBytes c.req 0 240 } s))) ∧
  repliesOk .partitionCreate 0x0100 0 served (fun c s => createOk c s && arg c.req 1 1 == 0xFE) (fun _ _ => created 0xFE 0)
    (fun c s => initCarveout c.ue 16 (setPart 16 { state := .active, definition := argBytes c.req 0 240 } s)) ∧
  repliesLater .partitionDestroy 0x0101 0 served
    (fun c s => decide (arg c.req 0 1 ≤ 15) && partExists s (arg c.req 0 1) && partOpen s (arg c.req 0 1) && partSettled s (arg c.req 0 1))
    (fun c _ => .partQuiet (arg c.req 0 1) true) (fun _ _ => []) (fun c s => beginPartReset (arg c.req 0 1) true s) ∧
  repliesLater .partitionReset 0x0102 0 served
    (fun c s => (if c.mb < 16 then arg c.req 0 1 == 0xFF else decide (arg c.req 0 1 ≤ 15)) &&
      partExists s (if c.mb < 16 then c.mb else arg c.req 0 1) && partSettled s (if c.mb < 16 then c.mb else arg c.req 0 1))
    (fun c _ => .partQuiet (if c.mb < 16 then c.mb else arg c.req 0 1) false) (fun _ _ => [])
    (fun c s => beginPartReset (if c.mb < 16 then c.mb else arg c.req 0 1) false s) ∧
  (∀ k, repliesOk .pasidBind 0x0103 0 served
    (fun c s => arg c.req 0 1 == 1 && bindOk s (arg c.req 1 1) (arg c.req 4 4 % 2 ^ 20) (arg c.req 8 8) && partOpen s (arg c.req 1 1) &&
      decide ((entriesOf s (arg c.req 1 1)).length < pdef s (arg c.req 1 1) 24 2) && (maskQueues s (arg c.req 1 1) (arg c.req 8 8)).all queueEmpty &&
      tfind {} s.parts.pasids 1024 (fun e => !e.bound) == some k)
    (fun _ _ => created k 0)
    (fun c s => setPasid k { bound := true, part := arg c.req 1 1, pasid := arg c.req 4 4 % 2 ^ 20, mask := BitVec.ofNat 64 (arg c.req 8 8) } s)) ∧
  repliesOk .pasidUnbind 0x0104 0 served
    (fun c s => decide (arg c.req 0 2 < 1024) && (pasidAt s (arg c.req 0 2)).bound && partOpen s (pasidAt s (arg c.req 0 2)).part &&
      (maskQueues s (pasidAt s (arg c.req 0 2)).part (pasidAt s (arg c.req 0 2)).mask.toNat).all queueEmpty)
    (fun _ _ => []) (fun c s => setPasid (arg c.req 0 2) {} s) ∧
  repliesOk .contextQuery 0x0105 0 served (fun c s => mayQuery s c.mb (arg c.req 0 2)) (fun c s => contextRecord s (arg c.req 0 2))
    (fun c s => if bit (arg c.req 2 1) 0 then setContext (arg c.req 0 2) {} s else s)

/-- A new fence at slot `k`: ACTIVE with the requested VALUE, its word on the host or in object `o`, which it binds; the word is written. -/
def newFence (c : Call) (k : Nat) (o : Option Nat) (s : State) : State :=
  let t := modFence k (fun f => { gen := f.gen, state := .active, owner := c.mb, value := BitVec.ofNat 64 (arg c.req 0 8), host := o.isNone
                                  word := if o.isNone then arg c.req 8 8 else domainOf (arg c.req 8 8), obj := o.getD 0
                                  hostQ := if o.isNone then arg c.req 22 1 else 0xFF, ctx := arg c.req 20 2 }) s
  writeFenceWord c.ue k (o.elim t (fun i => bindObj i t))

/-- OBJECT_CREATE takes the lowest FREE slot at the place R272 gives, its contents filled where the request asks for it or the tier needs it;
OBJECT_FREE of an object that nothing binds frees it (R271 to R276); FENCE_CREATE makes a fence ACTIVE with its value and writes its
word (R277); FENCE_FREE frees it (R281); FENCE_SIGNAL, FENCE_QUERY (R278, R279); FENCE_WAIT replies at once where the condition
holds and waits otherwise (R282, R283). -/
def Obligations.ObjectAndFenceRequestsComplete : Prop :=
  (∀ base k, repliesOk .objectCreate 0x0110 0 served
    (fun c s => arg c.req 0 1 == 1 && objFieldsOk s c.mb c.req && decide (objsHeld s c.mb < pdef s c.mb 16 2) && objPlace s c.mb c.req == some base &&
      freeObjSlot s == some k && !fillWaits s c.req base && (fillObject c.ue c.mb c.req base s).1 == stOk)
    (fun c s => created (objHandleOf (installObj k c.mb c.req base (fillObject c.ue c.mb c.req base s).2) k) base)
    (fun c s => installObj k c.mb c.req base (fillObject c.ue c.mb c.req base s).2)) ∧
  (∀ k, repliesOk .objectFree 0x0111 0 served
    (fun c s => gives (objHandle s c.mb (arg c.req 0 4)) k && (objAt s k).bindings == 0) (fun _ _ => []) (fun _ s => freeObj k (stopBuffersIn k s))) ∧
  (∀ k o, repliesOk .fenceCreate 0x0118 0 served
    (fun c s => arg c.req 8 8 % 8 == 0 && ctxOk s c.mb (arg c.req 20 2) && decide (arg c.req 0 8 < 2 ^ 63) && gives (wordPlace s c.mb c.req) o &&
      decide (fencesHeld s c.mb < pdef s c.mb 18 2) && tfind {} s.parts.fences 2048 (fun f => f.state == .free) == some k && wordsOpen s &&
      !(o.isSome && rangeWaits s true (arg c.req 8 8) 8))
    (fun c s => created (fenceHandleOf (newFence c k o s) k) 0) (fun c s => newFence c k o s)) ∧
  (∀ k, repliesOk .fenceFree 0x0119 0 served
    (fun c s => gives (fenceHandle s c.mb (arg c.req 0 4)) k && !wordWaits s k) (fun _ _ => []) (fun c s => freeFence c.ue k s)) ∧
  (∀ k, repliesOk .fenceSignal 0x011A 0 served
    (fun c s => gives (fenceHandle s c.mb (arg c.req 0 4)) k && decide (arg c.req 8 8 < 2 ^ 63))
    (fun c s => fencePayload (fenceEvent c.ue k (.signal (arg c.req 8 8)) s) k) (fun c s => fenceEvent c.ue k (.signal (arg c.req 8 8)) s)) ∧
  (∀ k, repliesOk .fenceQuery 0x011B 0 served
    (fun c s => gives (fenceHandle s c.mb (arg c.req 0 4)) k) (fun _ s => fencePayload s k) (fun _ s => s)) ∧
  (∀ k, repliesOk .fenceWait 0x011C 0 served
    (fun c s => gives (fenceHandle s c.mb (arg c.req 0 4)) k && decide (arg c.req 8 8 < 2 ^ 63) &&
      decide (arg c.req 16 8 ≠ 0 ∧ arg c.req 16 8 ≤ now s + 10000000000) && (fenceAt s k).state == .active && !(fenceAt s k).value.msb &&
      decide (arg c.req 8 8 ≤ (fenceAt s k).value.toNat))
    (fun _ s => fencePayload s k) (fun _ s => s)) ∧
  (∀ k, repliesLater .fenceWait 0x011C 0 served
    (fun c s => gives (fenceHandle s c.mb (arg c.req 0 4)) k && decide (arg c.req 8 8 < 2 ^ 63) &&
      decide (arg c.req 16 8 ≠ 0 ∧ arg c.req 16 8 ≤ now s + 10000000000) && (fenceAt s k).state == .active && !(fenceAt s k).value.msb &&
      decide ((fenceAt s k).value.toNat < arg c.req 8 8))
    (fun c s => .fence k (fenceAt s k).gen (BitVec.ofNat 64 (arg c.req 8 8)) (arg c.req 16 8)) (fun _ _ => []) (fun _ s => s))

/-- A new queue at number `k`: ACTIVE with the requested number, class, ring and mirror, its completion register 0; a ring in object `o` binds
it. -/
def newQueue (c : Call) (k : Nat) (o : Option Nat) (s : State) : State :=
  let t := onFe (fun f => { f with completions := tset 0 f.completions (64 * c.mb + arg c.req 1 1) 0 })
    (setQueue k { state := .active, part := c.mb, q := arg c.req 1 1, realtime := arg c.req 2 1 == 1, log2 := arg c.req 3 1, device := o.isSome
                  ring := BitVec.ofNat 64 (arg c.req 8 8), ringObj := o.getD 0, cmirror := BitVec.ofNat 64 (arg c.req 24 8) } s)
  o.elim t (fun i => bindObj i t)

/-- QUEUE_CREATE takes the lowest free queue, ACTIVE, its completion register 0, its ring's object bound (R287); QUEUE_DESTROY begins and replies
when the queue is quiet (R307); QUEUE_RESUME of a STOPPED queue whose commands have all ended makes it ACTIVE, HEAD at TAIL, its register
0 (R303); PILOT_START whose program passes its checks stands WAITING with its wicks and sheets (R308); PILOT_STOP (R312). -/
def Obligations.QueueAndPilotRequestsComplete : Prop :=
  (∀ k o, repliesOk .queueCreate 0x0120 0 served
    (fun c s => arg c.req 0 1 == 1 && queueFieldsOk c.req && (queueNamed s c.mb (arg c.req 1 1)).isNone && gives (queueRingObj s c.mb c.req) o &&
      decide (queuesHeld s c.mb < pdef s c.mb 4 1) &&
      (arg c.req 2 1 != 1 || (decide (rtQueues s (fun q => q.part == c.mb) < pdef s c.mb 5 1) && decide (rtQueues s (fun _ => true) < 16))) &&
      tfind {} s.fe.queues 256 (fun q => q.state == .absent) == some k)
    (fun c _ => created (arg c.req 1 1) 0) (fun c s => newQueue c k o s)) ∧
  (∀ k, repliesLater .queueDestroy 0x0121 0 served
    (fun c s => queueNamed s c.mb (arg c.req 0 1) == some k && (queueAt s k).state != .destroying)
    (fun _ _ => .queueQuiet k) (fun _ _ => []) (fun c s => destroyQueue k stQueueDestroyed (bit (arg c.req 1 1) 0) s)) ∧
  (∀ k, repliesOk .queueResume 0x0122 0 served
    (fun c s => queueNamed s c.mb (arg c.req 0 1) == some k && (queueAt s k).state == .stopped && queueDrained (queueAt s k))
    (fun _ _ => [])
    (fun _ s => setCompletion k 0 (setQueue k { queueAt s k with state := .active, head := (queueAt s k).tail, sampled := (queueAt s k).tail
                                                                 rung := false, fetching := 0 } s))) ∧
  (∀ pi ring objs, repliesOk .pilotStart 0x0128 0 served
    (fun c s =>
      let a := pilotAsk c.owner pi c.req
      let f := fetchProgram c.ue a s
      gives (pilotRingObj s c.owner c.req) ring && decide ((pilotsOf s c.owner).length < pdef s c.owner 6 1) &&
        tfind {} s.fe.pilots 64 (fun x => x.state == .absent) == some pi && !rangeWaits s false a.prog 64 && !rangeWaits s false a.argsAddr 368 &&
        setOk s c.owner a.mask a.w && gives (resolveObjs f.2 c.owner f.1.objs) objs && taskStatus f.2 a f.1 == stOk &&
        resourcesFree f.2 a (sheetUnits f.1.header).sum [] &&
        !(progTables f.2 (progOf a f.1 (maskLanterns f.2 a.mask).length)).any (fun k => tableLoading f.2 k.1 k.2))
    (fun c _ => created (arg c.req 0 1) 0)
    (fun c s =>
      let a := pilotAsk c.owner pi c.req
      let f := fetchProgram c.ue a s
      let t := prepareTask a f.1 f.2
      holdObjs objs (bindObj ring (setPilot pi
        { state := .waiting, part := c.owner, n := arg c.req 0 1, ctx := arg c.req 4 2, fence := arg c.req 24 4, v0 := arg c.req 32 8
          ring := BitVec.ofNat 64 (arg c.req 40 8), ringObj := ring, log2 := arg c.req 6 1, task := t.1, objs := objs } (allotTask a t.1 t.2))))) ∧
  (∀ pi, repliesLater .pilotStop 0x0129 0 served
    (fun c s => pilotNamed s c.mb (arg c.req 0 1) == some pi && (pilotAt s pi).state != .stopping)
    (fun _ _ => .pilotQuiet pi) (fun _ _ => []) (fun c s => stopPilot pi stQueueDestroyed (bit (arg c.req 1 1) 0) s))

/-- POOL_CREATE writes the header of R143 into every lantern's share and binds the object (R142); POOL_DESTROY closes the pool and replies
when its sequences are gone (R344); SEQUENCE_CREATE takes the lowest slots and its first frames (R147); SEQUENCE_DESTROY revokes it
(R148); SEQUENCE_QUERY replies the descriptor of R146. -/
def Obligations.PoolAndSequenceRequestsComplete : Prop :=
  (∀ pool k, repliesOk .poolCreate 0x0130 0 served
    (fun c s => arg c.req 0 1 == 1 && gives (poolAsked s c.mb c.req) pool &&
      decide ((s.kv.pools.filter (fun e => e.2.live && e.2.part == c.mb)).length < min 4 (pdef s c.mb 7 1)) &&
      tfind {} s.kv.pools 64 (fun x => !x.live) == some k && !(poolLanterns s pool).any (fun l => rangeWaits s true (poolAddr s pool l 0) 64))
    (fun _ _ => created k 0)
    (fun c s =>
      let t := bindObj pool.obj (setPool k pool s)
      (poolLanterns t pool).foldl (fun s l => poolWrite c.ue pool l (poolAddr s pool l 0) (poolHeader s pool) s) t)) ∧
  repliesLater .poolDestroy 0x0131 0 served (fun c s => poolHere s c.mb (arg c.req 0 1)) (fun c _ => .poolQuiet (arg c.req 0 1)) (fun _ _ => [])
    (fun c s => closePool (arg c.req 0 1) s) ∧
  (∀ n slot t, ∀ (r : MbReq) (s : State), admitted s 0x0132 0 r = true →
    let c := callOf r s
    let k := arg c.req 0 1
    let l0 := arg c.req 4 4
    let s1 := begun r s
    let q := modSeq n (fun q => { live := true, gen := q.gen, part := c.mb, pool := k, slot := slot
                                  start := slot % max 1 (poolLanterns s1 (poolAt s1 k)).length, c := l0 }) s1
    poolHere s1 c.mb k = true → l0 ≤ (poolAt s1 k).maxTokens - 64 → seqsHeld s1 c.mb < pdef s1 c.mb 20 2 →
    tfind {} s1.kv.seqs 4096 (fun q => !q.live) = some n → freePoolSlot s1 k = some slot → framesWait q n l0 = false →
    allotFrames c.ue n (List.range ((l0 + 63) / 64)) q = some t →
    exec (.sequenceCreate r) s = .next (served s (settle r.ue (reply r.mb r.slot stOk (created (seqHandle t n) 0) t)))) ∧
  (∀ k, repliesOk .sequenceDestroy 0x0133 0 served
    (fun c s => gives (seqHandleStatus s c.mb (arg c.req 0 4)) k && (seqAt s k).state != .revoked) (fun _ _ => []) (fun _ s => revokeSeq k s)) ∧
  (∀ k, repliesOk .sequenceQuery 0x0134 0 served
    (fun c s => gives (seqHandleStatus s c.mb (arg c.req 0 4)) k) (fun _ s => seqDescriptor s k) (fun _ s => s))

/-- What KEY_GENERATE leaves for a MEMORY slot: 32 B of the DRBG (R232) are its key, ACTIVE, its owner, ENGINES, FLAGS and USES as asked,
and East is told. -/
def newMemorySlot (c : Call) (s : State) : State :=
  fillSlot (arg c.req 0 2) { key := (drbg 32 s).1, cls := .memory, state := .active, owner := c.mb, engines := BitVec.ofNat 8 (arg c.req 3 1 % 64)
                             flags := BitVec.ofNat 8 (arg c.req 4 1 % 2), uses := arg c.req 8 6 } (drbg 32 s).2

/-- KEY_GENERATE fills an EMPTY slot of the caller's pool and replies once East holds it, at once while the halves are unpaired (R19, R238);
for class 8 it draws the partition's digest seed; KEY_IMPORT of an envelope that passes the checks of R244 installs its key; KEY_CLEAR
starts the drain of a slot and an EMPTY one replies at once; KEY_GRANT and KEY_UNGRANT; KEY_SET_ROTATION_TARGET, KEY_ROTATE and
KEY_CONFIRM (R65, R70, R238). -/
def Obligations.KeyRequestsComplete : Prop :=
  repliesEast .keyGenerate 0x0200 0 served
    (fun c s => lcPermits s && arg c.req 2 1 == 2 && inPool s c.mb (arg c.req 0 2) && (slotAt s (arg c.req 0 2)).state == .empty && s.ll.drbgRunning)
    newMemorySlot ∧
  repliesEast .keyGenerate 0x0200 0 served
    (fun c s => lcPermits s && arg c.req 2 1 == 8 && decide (c.mb < 16) && s.ll.drbgRunning)
    (fun c s => drawSeed c.mb (BitVec.ofNat 8 (arg c.req 4 1 % 2)) s) ∧
  (∀ key, repliesEast .keyImport 0x0201 0 fused
    (fun c s => (c.mb != 17 || envKind (argBytes c.req 8 224) == 3) && lcPermits s &&
      decide (importCheck s c (arg c.req 0 2) (argBytes c.req 8 224) = (stOk, key)) &&
      !(envKind (argBytes c.req 8 224) == 3 && (s.flash.extAck || s.trust.dusk)))
    (fun c s => (installKey c (arg c.req 0 2) (argBytes c.req 8 224) key s).2)) ∧
  repliesOk .keyClear 0x0202 0 served
    (fun c s => clearable s c.mb (arg c.req 0 2) && !clearing s (arg c.req 0 2) && (slotAt s (arg c.req 0 2)).state == .empty)
    (fun _ _ => []) (fun _ s => s) ∧
  repliesLater .keyClear 0x0202 0 served
    (fun c s => clearable s c.mb (arg c.req 0 2) && !clearing s (arg c.req 0 2) && (slotAt s (arg c.req 0 2)).state != .empty &&
      ((slotAt s (arg c.req 0 2)).owner == c.mb || (slotAt s (arg c.req 0 2)).spent) && !rotating s (arg c.req 0 2) &&
      !s.keys.grants.any (fun g => g.slot == arg c.req 0 2 && !partOpen s g.part))
    (fun c _ => .keyDrain (arg c.req 0 2)) (fun _ _ => [])
    (fun c s => onPath (fun p => { p with due := tset {} p.due (arg c.req 0 2) {} })
      (closeGrants (arg c.req 0 2) (fun _ => true) (modSlot (arg c.req 0 2) (fun v => { v with draining := true }) s))) ∧
  repliesOk .keyGrant 0x0203 0 served
    (fun c s => grantable s (arg c.req 0 2) && decide (arg c.req 2 1 ≤ 15) && partExists s (arg c.req 2 1) && decide (arg c.req 3 1 ≤ 1) &&
      partOpen s (arg c.req 2 1))
    (fun _ _ => [])
    (fun c s => onKeys (fun x => { x with grants := x.grants ++ [⟨arg c.req 0 2, arg c.req 2 1, arg c.req 3 1 == 1, false⟩] })
      (endGrants (arg c.req 0 2) (fun g => g.part == arg c.req 2 1) s)) ∧
  repliesLater .keyUngrant 0x0204 0 served
    (fun c s => grantable s (arg c.req 0 2) && decide (arg c.req 2 1 ≤ 15) && partExists s (arg c.req 2 1) &&
      s.keys.grants.any (fun g => g.slot == arg c.req 0 2 && g.part == arg c.req 2 1) && partOpen s (arg c.req 2 1))
    (fun c _ => .grantDrain (arg c.req 0 2) (arg c.req 2 1)) (fun _ _ => [])
    (fun c s => closeGrants (arg c.req 0 2) (fun g => g.part == arg c.req 2 1) s) ∧
  repliesOk .keyUngrant 0x0204 0 served
    (fun c s => grantable s (arg c.req 0 2) && decide (arg c.req 2 1 ≤ 15) && partExists s (arg c.req 2 1) &&
      !s.keys.grants.any (fun g => g.slot == arg c.req 0 2 && g.part == arg c.req 2 1))
    (fun _ _ => []) (fun _ s => s) ∧
  repliesOk .keySetRotationTarget 0x0205 0 served (fun c s => rotatable s c.mb (arg c.req 0 2) && !(slotAt s (arg c.req 0 2)).capUsed) (fun _ _ => [])
    (fun c s => onKeys (fun x => { x with targets := tset 0xFFFF x.targets (slotAt s (arg c.req 0 2)).owner (arg c.req 0 2) }) s) ∧
  (∀ n, repliesLater .keyRotate 0x0206 0 served
    (fun c s => !rotating s (arg c.req 0 2) && !rotating s (arg c.req 2 2) &&
      rotateOk s c.mb (arg c.req 0 2) (arg c.req 2 2) (arg c.req 4 1) (arg c.req 8 8) (arg c.req 16 8) && freeRotation s == some n)
    (fun _ _ => .sweepOpen n) (fun _ _ => created n 0)
    (fun c s =>
      let t := startRotation n (arg c.req 0 2) (arg c.req 2 2) (arg c.req 8 8) (arg c.req 16 8) (if arg c.req 4 1 = 0 then 2 else arg c.req 4 1) s
      if tget 0xFFFF t.keys.targets (slotAt s (arg c.req 0 2)).owner = arg c.req 2 2 then
        onKeys (fun x => { x with targets := terase x.targets (slotAt s (arg c.req 0 2)).owner }) t
      else t)) ∧
  (∀ n x, repliesLater .keyConfirm 0x0207 0 served
    (fun c s => decide (0 < arg c.req 0 2 ∧ arg c.req 0 2 < 0x400) && (slotAt s (arg c.req 0 2)).state == .aliased &&
      ((slotAt s (arg c.req 0 2)).owner == c.mb || c.mb == 16) && s.path.rotations.find? (fun e => e.2.active && e.2.a == arg c.req 0 2) == some (n, x))
    (fun _ _ => .retireDrain n) (fun _ _ => []) (fun _ s => s))

/-- DOMAIN_PREPARE with its trust list enters PREPARED with the domain, the node and the list (R245); DOMAIN_ACTIVATE sends under the current
epoch, DOMAIN_RETIRE_PREVIOUS forgets the previous one (R246); DOMAIN_LEAVE fails what is outstanding, closes the ports and forgets the
domain's keys (R248). The two that clear slots reply once East has cleared them. -/
def Obligations.DomainRequestsComplete : Prop :=
  repliesOk .domainPrepare 0x0300 0 served
    (fun c s => lcPermits s && s.fabric.domState == 0 && decide (arg c.req 16 2 < 16384) && !imageWaits s c 32 &&
      (readImage c 32 trustLen s).1 == stOk && fld (readImage c 32 trustLen s).2.1 0 1 == 1 &&
      (readImage c 32 trustLen s).2.1.length == 16 + 48 * fld (readImage c 32 trustLen s).2.1 1 1)
    (fun _ _ => [])
    (fun c s => onFabric (fun f => { f with domState := 1, domId := argBytes c.req 0 16, node := arg c.req 16 2
                                            trust := chunks 48 ((readImage c 32 trustLen s).2.1.drop 16) }) (readImage c 32 trustLen s).2.2) ∧
  repliesOk .domainActivate 0x0301 0 served (fun c s => s.fabric.domState == 2 && arg c.req 0 4 == s.fabric.epoch) (fun _ _ => [])
    (fun _ s => onFabric (fun f => { f with sendEpoch := f.epoch }) s) ∧
  repliesEast .domainRetirePrevious 0x0302 0 served (fun _ _ => true)
    (fun _ s => onFabric (fun f => { f with havePrev := false }) (wipeSlot 1030 (wipeSlot 1028 s))) ∧
  repliesEast .domainLeave 0x0303 0 served (fun _ _ => true)
    (fun _ s =>
      let t := failAllOps false stFabricDenied (failAllOps true stFabricDenied s)
      let u := (List.range t.build.links).foldl (fun s p => closePort p s) t
      onFabric (fun f => { f with domState := 0, trust := [], epoch := 0, sendEpoch := 0, prevEpoch := 0, havePrev := false, haveCur := false
                                  west := { f.west with replay := [], owed := [] }, east := { f.east with replay := [], owed := [] } })
        ([1027, 1028, 1029, 1030].foldl (fun s k => wipeSlot k s) u))

/-- WINDOW_CREATE puts a window whose fields R202 allows at its number, or at the lowest unused one, its region entries accepting no node
(R202, R203); WINDOW_DESTROY; REGION_OWNER_SET writes the named entries once nothing accepted before it is left (R203); ROUTE_LOAD and
GROUP_TABLE_LOAD hand an accepted image to East and wait for it (R190, R191, R201); LINK_STATUS (R345). -/
def Obligations.WindowAndRouteRequestsComplete : Prop :=
  (∀ k o, repliesOk .windowCreate 0x0310 0 served
    (fun c s =>
      let w := askedWindow c.req
      fld w.entry 0 1 == 1 && decide (w.part ≤ 16) && (w.part != 16 || fld w.entry 3 1 == 0xFF) && (decide (w.peer ≤ 15) || w.peer == 0xFF) &&
        windowFieldsOk w && windowRegionsOk s w && mayWindow c.mb w.part && partExists s w.part && !lockedFor s c.mb w.part &&
        (arg c.req 0 1 == 0xFF || (windowAt s (arg c.req 0 1)).kind == 0) && gives (windowObj s w (arg c.req 40 4)) o &&
        (if arg c.req 0 1 = 0xFF then freeWindow s else some (arg c.req 0 1)) == some k)
    (fun _ _ => created k 0) (fun c s => installWindow k { askedWindow c.req with obj := o } s)) ∧
  repliesOk .windowDestroy 0x0311 0 served
    (fun c s => (windowAt s (arg c.req 0 1)).kind != 0 && mayWindow c.mb (windowAt s (arg c.req 0 1)).part &&
      !lockedFor s c.mb (windowAt s (arg c.req 0 1)).part)
    (fun _ _ => []) (fun c s => dropWindow (arg c.req 0 1) s) ∧
  repliesOk .regionOwnerSet 0x0312 0 served
    (fun c s =>
      let w := windowAt s (arg c.req 0 1)
      w.kind != 0 && w.owned && w.part == c.mb && decide (arg c.req 4 4 + arg c.req 8 4 ≤ w.regions) &&
        (decide (arg c.req 12 2 < 16384) || arg c.req 12 2 == 0xFFFF || arg c.req 12 2 == 0xFFFE) && !windowInbound s (arg c.req 0 1))
    (fun _ _ => [])
    (fun c s => onFabric (fun f => { f with owners := (List.range (arg c.req 8 4)).foldl (fun t i =>
      tset 0xFFFE t ((windowAt s (arg c.req 0 1)).ownBase + arg c.req 4 4 + i) (arg c.req 12 2)) f.owners }) s) ∧
  repliesLater .routeLoad 0x0318 0 served
    (fun c s =>
      let x := readImage c 0 (fun n => n == 131136) s
      !imageWaits s c 0 && x.1 == stOk && fld x.2.1 0 1 == 1 && routesOk x.2.2 x.2.1)
    (fun c s => .eastFetch ((readImage c 0 (fun n => n == 131136) s).2.2.seam.tickets + 1) fetchRoutes 0 0) (fun _ _ => [])
    (fun c s =>
      let x := readImage c 0 (fun n => n == 131136) s
      (loadImage fetchRoutes 0 0 x.2.1 x.2.2).2) ∧
  repliesLater .groupTableLoad 0x0319 0 served
    (fun c s =>
      let x := readImage c 0 (fun n => n == 8256) s
      !imageWaits s c 0 && x.1 == stOk && fld x.2.1 0 1 == 1 && groupVersions x.2.1 && (groupsOf x.2.1).all (fun e => groupEntryOk x.2.2 e.2))
    (fun c s => .eastFetch ((readImage c 0 (fun n => n == 8256) s).2.2.seam.tickets + 1) fetchGroups 0 0) (fun _ _ => [])
    (fun c s =>
      let x := readImage c 0 (fun n => n == 8256) s
      (loadImage fetchGroups 0 0 x.2.1 x.2.2).2) ∧
  repliesOk .linkStatus 0x031A 0 served (fun c s => decide (arg c.req 0 1 < s.build.links))
    (fun c s =>
      let p := arg c.req 0 1
      let l := linkAt s p
      le 8 (regLink s p) ++ le 8 (regOffset s p) ++ le 1 l.failStep ++ zeros 1 ++ le 2 l.failStatus ++ le 4 l.session.toNat ++ zeros 8)
    (fun _ s => s)

/-- TABLE_LOAD of an image that its digest, version and checks admit hands it to East and waits (R85, R87); TABLE_UNLOAD unloads the named
tables that are loaded, in West and then in East (R88); TABLE_GRANT and TABLE_UNGRANT change a partition's grants of the manager's tables (R86); RGROUP_CREATE
(R165, R166, R187) and RGROUP_DESTROY; SERVER_START and SERVER_STOP (R178, R344). -/
def Obligations.TableGroupAndServerRequestsComplete : Prop :=
  repliesLater .tableLoad 0x0400 0 served
    (fun c s =>
      let kind := arg c.req 0 1
      let i := arg c.req 1 1
      let len := arg c.req 4 4
      let x := memRead { part := c.mb, kind := kindFrontEnd, access := 1, master := 7 } c.ue (arg c.req 8 8) len s
      tableIndexOk kind i && tableLength kind i len && !(targets i (tableSpan kind len)).any (othersTable s c.mb kind) &&
        !(targets i (tableSpan kind len)).any (pinned s kind) && !(targets i (tableSpan kind len)).any (tableLoading s kind) && !rangeWaits s false (arg c.req 8 8) len && x.1.status == stOk &&
        sha384 x.1.data == argBytes c.req 16 48 && fld x.1.data 0 1 == 1 && tableValid kind i x.1.data)
    (fun c s => .eastFetch ((memRead { part := c.mb, kind := kindFrontEnd, access := 1, master := 7 } c.ue (arg c.req 8 8) (arg c.req 4 4) s).2.seam.tickets + 1)
      (arg c.req 0 1) (arg c.req 1 1) (tableSpan (arg c.req 0 1) (arg c.req 4 4)))
    (fun _ _ => [])
    (fun c s =>
      let x := memRead { part := c.mb, kind := kindFrontEnd, access := 1, master := 7 } c.ue (arg c.req 8 8) (arg c.req 4 4) s
      (loadImage (arg c.req 0 1) (arg c.req 1 1) (tableSpan (arg c.req 0 1) (arg c.req 4 4)) x.1.data x.2).2) ∧
  repliesOk .tableUnload 0x0401 0 served
    (fun c s =>
      let is := targets (arg c.req 1 1) (namedSpan c.req)
      namedOk c.req && !is.any (pinned s (arg c.req 0 1)) && !is.any (tableLoading s (arg c.req 0 1)) && !is.any (fun i => (tableAt s (arg c.req 0 1) i).loaded))
    (fun _ _ => []) (fun _ s => s) ∧
  repliesLater .tableUnload 0x0401 0 served
    (fun c s =>
      let is := targets (arg c.req 1 1) (namedSpan c.req)
      let on := is.filter (fun i => (tableAt s (arg c.req 0 1) i).loaded)
      namedOk c.req && (c.mb == 16 || !on.any (othersTable s c.mb (arg c.req 0 1))) && !is.any (pinned s (arg c.req 0 1)) &&
        !is.any (tableLoading s (arg c.req 0 1)) && on != [] && !on.any (fun i => (tableAt s (arg c.req 0 1) i).grants.any (fun p => !partOpen s p)))
    (fun c s => .eastDrop (s.seam.tickets + 1) (arg c.req 0 1) (arg c.req 1 1) (namedSpan c.req)) (fun _ _ => [])
    (fun c s => (dropEast (arg c.req 0 1) (arg c.req 1 1) (namedSpan c.req)
      (((targets (arg c.req 1 1) (namedSpan c.req)).filter (fun i => (tableAt s (arg c.req 0 1) i).loaded)).foldl
        (fun s i => unloadWest (arg c.req 0 1) i s) s)).2) ∧
  repliesOk .tableGrant 0x0402 0 served
    (fun c s => namedOk c.req && decide (arg c.req 2 1 < 16) && partExists s (arg c.req 2 1) && partOpen s (arg c.req 2 1) &&
      (targets (arg c.req 1 1) (namedSpan c.req)).all (fun i => (tableAt s (arg c.req 0 1) i).loaded && (tableAt s (arg c.req 0 1) i).owner == 16))
    (fun _ _ => [])
    (fun c s => (targets (arg c.req 1 1) (namedSpan c.req)).foldl (fun s i => setTable (arg c.req 0 1) i
      { tableAt s (arg c.req 0 1) i with grants := (fun g => if g.contains (arg c.req 2 1) then g else g ++ [arg c.req 2 1])
                                                              (tableAt s (arg c.req 0 1) i).grants } s) s) ∧
  repliesOk .tableUngrant 0x0403 0 served
    (fun c s => namedOk c.req && decide (arg c.req 2 1 < 16) && partExists s (arg c.req 2 1) && partOpen s (arg c.req 2 1) &&
      (targets (arg c.req 1 1) (namedSpan c.req)).all (fun i => (tableAt s (arg c.req 0 1) i).loaded && (tableAt s (arg c.req 0 1) i).owner == 16))
    (fun _ _ => [])
    (fun c s => (targets (arg c.req 1 1) (namedSpan c.req)).foldl (fun s i => setTable (arg c.req 0 1) i
      { tableAt s (arg c.req 0 1) i with grants := (tableAt s (arg c.req 0 1) i).grants.filter (· ≠ arg c.req 2 1) } s) s) ∧
  (∀ o, repliesOk .rgroupCreate 0x0410 0 served
    (fun c s =>
      let g := groupOfReq c.mb o (now s) c.req
      let x := readImage c 48 (fun n => decide (2 ≤ n ∧ n ≤ 32768) && n % 2 == 0) s
      groupFieldsOk s c.mb c.req && gives (objHandle s c.mb (arg c.req 32 4)) o && regionFits s g && !imageWaits s c 48 &&
        !(allLanterns s).any (fun l => rangeWaits s true (regionAddr s g l 0) g.regionBytes) && x.1 == stOk &&
        ((chunks 2 x.2.1).map leNat).contains g.leader && ((chunks 2 x.2.1).map leNat).all (fun m => decide (m < 16384)))
    (fun c _ => created (arg c.req 0 1) 0)
    (fun c s =>
      let g := groupOfReq c.mb o (now s) c.req
      let x := readImage c 48 (fun n => decide (2 ≤ n ∧ n ≤ 32768) && n % 2 == 0) s
      let t := bindObj o (setGroup (arg c.req 0 1) { g with members := (chunks 2 x.2.1).map leNat } x.2.2)
      (allLanterns t).foldl (fun s l => clearRegion c.ue (arg c.req 0 1) g l s) t)) ∧
  repliesOk .rgroupDestroy 0x0411 0 served
    (fun c s => decide (arg c.req 0 1 < 16) && (groupAt s (arg c.req 0 1)).live && (groupAt s (arg c.req 0 1)).owner == c.mb) (fun _ _ => [])
    (fun c s => dropGroup (arg c.req 0 1) s) ∧
  (∀ ps, repliesOk .serverStart 0x0418 0 served
    (fun c s =>
      decide (arg c.req 0 1 < 16) && !(serverAt s (arg c.req 0 1)).live && decide (arg c.req 1 1 ≠ 0 ∧ arg c.req 1 1 ≤ 4) &&
        serverPilots s c.mb c.req == some ps && serverOk s c.req ps && !imageWaits s c 32 &&
        (readImage c 32 (fun n => decide (16 ≤ n ∧ n ≤ 262144) && n % 16 == 0) s).1 == stOk)
    (fun c _ => created (arg c.req 0 1) 0)
    (fun c s =>
      let x := readImage c 32 (fun n => decide (16 ≤ n ∧ n ≤ 262144) && n % 16 == 0) s
      setServer (arg c.req 0 1)
        { live := true, part := c.mb, slices := ps.map (fun pi => ({ pilot := pi } : Slice)), inRef := BitVec.ofNat 32 (arg c.req 8 4), cnt := arg c.req 12 4
          gatherNs := arg c.req 16 4, instances := (chunks 16 x.2.1).map (fun b => BitVec.ofNat 64 (fld b 0 8)) } x.2.2)) ∧
  repliesLater .serverStop 0x0419 0 served
    (fun c s => decide (arg c.req 0 1 < 16) && (serverAt s (arg c.req 0 1)).live && (serverAt s (arg c.req 0 1)).part == c.mb &&
      !(serverAt s (arg c.req 0 1)).closing)
    (fun c _ => .serverQuiet (arg c.req 0 1)) (fun _ _ => []) (fun c s => stopServer (arg c.req 0 1) (bit (arg c.req 1 1) 0) s)

/-- POWER_CAP_SET of 0 or of a value in the build's range sets the cap and replies as POWER_CAP_GET (R364, R367); SENSOR_READ (R368);
RESERVATION_QUERY (R369); FAULT_READ replies up to MAX records by SEQ, FAULT_ACK acknowledges a record, FAULT_SUMMARY (R379, R404);
INJECT arms an injection or raises the class at once (R381); DUMP_READ (R403); BLOCK_RESET makes the sequencer due (R405). -/
def Obligations.PowerAndFaultRequestsComplete : Prop :=
  repliesOk .powerCapSet 0x0500 0 served
    (fun c s => arg c.req 0 4 == 0 || decide (s.build.capMin ≤ arg c.req 0 4 ∧ arg c.req 0 4 ≤ s.build.capMax))
    (fun c s => capPayload (onReg (fun g => { g with cap := arg c.req 0 4 }) s)) (fun c s => onReg (fun g => { g with cap := arg c.req 0 4 }) s) ∧
  repliesOk .powerCapGet 0x0501 0 served (fun _ _ => true) (fun _ s => capPayload s) (fun _ s => s) ∧
  (∀ temps, repliesOk (fun r => .sensorRead r temps) 0x0502 0 served (fun _ _ => true)
    (fun _ s => le 1 1 ++ zeros 3 ++ le 4 s.reg.pEst ++ le 4 s.reg.cap ++ le 1 s.reg.throttle ++ zeros 3 ++
      (List.range 16).flatMap (fun l => le 2 (availOf s 0 l) ++
        le 2 (if l < s.build.lanterns then (temps.getD l 0 % (65536 : Nat)).toNat else 0)) ++
      (List.range 8).flatMap (fun i => le 2 (availOf s 1 i)) ++ (List.range 24).flatMap (fun i => le 2 (availOf s 2 i)))
    (fun _ s => s)) ∧
  (∀ p, repliesOk .reservationQuery 0x0503 0 served
    (fun c s => gives (queriedOwner s c) p && decide (arg c.req 1 1 ≤ 2 ∧ arg c.req 2 1 < resCount s (arg c.req 1 1)))
    (fun c s =>
      let r := resOf (arg c.req 1 1) (arg c.req 2 1)
      let x := resourceAt s r
      le 1 1 ++ le 1 (b2n x.derated + 2 * b2n x.bgShed + 4 * b2n (x.inReset || resInReset s r)) ++ le 2 (bwShare s p (arg c.req 1 1)) ++
        le 2 (rtUnits s p r) ++ le 2 x.fNormal ++ le 2 x.fRt ++ le 2 x.avail ++ le 4 (effectiveMbps s p r) ++ le 4 (tget 0 s.reg.missedRes r) ++
        le 4 (guaranteed s p r) ++ zeros 8)
    (fun _ s => s)) ∧
  repliesOk .faultRead 0x0508 0 served (fun c _ => decide (1 ≤ arg c.req 4 1 ∧ arg c.req 4 1 ≤ 3))
    (fun c s =>
      let rs := ((storedRecords s).filter (fun r => readable c.mb r && decide (arg c.req 0 4 ≤ r.seq) && (!bit (arg c.req 5 1) 0 || !r.acked) &&
        (!bit (arg c.req 5 1) 1 || decide (2 ≤ r.severity)))).take (arg c.req 4 1)
      le 4 ((rs.getLast?.map (fun r => (r.seq + 1) % 2 ^ 32)).getD (arg c.req 0 4)) ++ le 1 rs.length ++ zeros 3 ++ rs.flatMap FaultRec.bytes)
    (fun _ s => s) ∧
  (∀ x, repliesOk .faultAck 0x0509 0 served
    (fun c s => decide ((storedRecords s).find? (fun r => r.seq == arg c.req 0 4) = some x) && mayAck c.mb x) (fun _ _ => [])
    (fun c s => ackRecords (fun y => y.origin == x.origin && mayAck c.mb y) s)) ∧
  repliesOk .faultSummary 0x050A 0 served (fun _ _ => true)
    (fun _ s => le 8 (regSummary s) ++ (List.range 6).flatMap (fun l => le 4 (tget 0 s.faults.levelCnt l)) ++ le 8 s.faults.lastReset.toNat ++
      le 8 s.faults.lastTime)
    (fun _ s => s) ∧
  repliesOk .inject 0x050B 0 served
    (fun c s => s.faults.injectEn && lcState s != 0 &&
      (lcState s == 1 || !(arg c.req 1 1 == kindKeyStore || arg c.req 1 1 == kindKeyMirror || arg c.req 1 1 == kindTrust || arg c.req 0 1 == clsLcCorrupt)) &&
      arg c.req 0 1 != 0 && (classKinds (arg c.req 0 1)).contains (arg c.req 1 1) && sourceExists s (arg c.req 1 1) (arg c.req 2 1) &&
      decide (arg c.req 3 1 ≤ 1) && arg c.req 6 2 != 0)
    (fun _ _ => [])
    (fun c s =>
      let i : Injection := { cls := arg c.req 0 1, kind := arg c.req 1 1, inst := arg c.req 2 1, mode := arg c.req 3 1, sub := arg c.req 4 2
                             count := arg c.req 6 2, addr := BitVec.ofNat 64 (arg c.req 8 8) }
      if arg c.req 3 1 = 1 then signalFault i s else onFaults (fun f => { f with inject := f.inject ++ [i] }) s) ∧
  repliesOk .dumpRead 0x0510 0 served (fun _ _ => true)
    (fun _ s => le 1 1 ++ le 1 s.faults.dump.state ++ le 1 s.faults.dump.lantern ++ le 1 s.faults.dump.cls ++ le 4 s.faults.dump.seq ++
      le 8 s.faults.dump.time ++ le 8 s.faults.dump.address.toNat ++ le 4 s.faults.dump.length ++ zeros 4)
    (fun _ s => s) ∧
  repliesOk .blockReset 0x0511 0 served (fun _ _ => true) (fun _ _ => []) (fun c s => dueBlockReset 2 none (bit (arg c.req 0 1) 0) s)

/-- The eight operations of TRACE_CONFIG on a buffer or watch that the requester may name (R413 to R418, R422, R425). -/
def Obligations.TraceRequestsComplete : Prop :=
  (∀ o, repliesOk .traceConfigBuffer 0x0518 0 served
    (fun c s => decide (arg c.req 1 1 < 32) && bufFieldsOk c.req && mayBuf s c.mb (arg c.req 1 1) && !bufEnabled s (arg c.req 1 1) &&
      gives (bufPlace s c.mb c.req) o)
    (fun _ _ => [])
    (fun c s =>
      let t := modBuf (arg c.req 1 1) (fun b => { b with owner := some c.mb, policy := arg c.req 2 1, obj := o.getD noObj, remote := o.isNone
                                                         offset := arg c.req 8 8, length := arg c.req 16 4
                                                         post := if arg c.req 2 1 = 2 then arg c.req 20 4 else 0, fired := false }) s
      controlBoth (arg c.req 1 1) 0 (o.elim t (fun i => holdObjs [i] t)))) ∧
  repliesOk .traceConfigSources 0x0518 1 served
    (fun c s => decide (arg c.req 1 1 < 32 ∧ arg c.req 16 4 ≠ 0 ∧ arg c.req 16 4 ≤ 65536) && mayBuf s c.mb (arg c.req 1 1) &&
      (arg c.req 20 4 == 0xFFFF || ctxOk s ((bufAt s (arg c.req 1 1)).owner.getD c.mb) (arg c.req 20 4)))
    (fun _ _ => [])
    (fun c s => modBuf (arg c.req 1 1) (fun b => { b with types := arg c.req 4 4, maskW := BitVec.ofNat 64 (arg c.req 8 8)
                                                          maskE := BitVec.ofNat 64 (arg c.req 24 8), sample := arg c.req 16 4, ctx := arg c.req 20 4 })
      (claimBuf (arg c.req 1 1) c.mb s)) ∧
  repliesOk .traceConfigTrigger 0x0518 2 served
    (fun c s => decide (arg c.req 1 1 < 32 ∧ arg c.req 2 1 ≤ 6) && (arg c.req 2 1 != 4 || decide (arg c.req 4 4 < 32)) && mayBuf s c.mb (arg c.req 1 1) &&
      (decide (16 ≤ c.mb) || condConcerns s c.mb (arg c.req 2 1) (arg c.req 4 4)))
    (fun _ _ => [])
    (fun c s => modBuf (arg c.req 1 1) (fun b => { b with cond := arg c.req 2 1, arg := arg c.req 4 4 }) (claimBuf (arg c.req 1 1) c.mb s)) ∧
  repliesOk .traceConfigWatch 0x0518 3 served
    (fun c s => decide (arg c.req 1 1 < 32 ∧ arg c.req 2 1 = 0) && mayWatch s c.mb (arg c.req 1 1)) (fun _ _ => [])
    (fun c s => setWatch (arg c.req 1 1) {} s) ∧
  repliesOk .traceConfigWatch 0x0518 3 served
    (fun c s => decide (arg c.req 1 1 < 32 ∧ arg c.req 2 1 = 1 ∧ arg c.req 3 1 < 32 ∧ arg c.req 8 4 ≠ 0 ∧ arg c.req 8 4 ≤ 65536) &&
      mayWatch s c.mb (arg c.req 1 1) && ctxOk s c.mb (arg c.req 4 2) && (bufAt s (arg c.req 3 1)).owner == some c.mb)
    (fun _ _ => [])
    (fun c s => setWatch (arg c.req 1 1)
      { on := true, owner := c.mb, ctx := arg c.req 4 2, desc := arg c.req 6 2, every := arg c.req 8 4, buf := arg c.req 3 1 } s) ∧
  repliesOk .traceConfigFire 0x0518 4 served
    (fun c s => decide (arg c.req 1 1 < 32) && mayBuf s c.mb (arg c.req 1 1) && bufEnabled s (arg c.req 1 1)) (fun _ _ => [])
    (fun c s => controlSub (arg c.req 1 1) 0 4 s) ∧
  repliesOk .traceConfigStop 0x0518 5 served
    (fun c s => decide (arg c.req 1 1 < 32) && mayBuf s c.mb (arg c.req 1 1) && bufEnabled s (arg c.req 1 1)) (fun _ _ => [])
    (fun c s => controlBoth (arg c.req 1 1) 5 s) ∧
  repliesOk .traceConfigRearm 0x0518 6 served
    (fun c s => decide (arg c.req 1 1 < 32) && mayBuf s c.mb (arg c.req 1 1) && bufEnabled s (arg c.req 1 1) &&
      ((bufAt s (arg c.req 1 1)).remote || (bufAt s (arg c.req 1 1)).obj != noObj))
    (fun _ _ => []) (fun c s => controlBoth (arg c.req 1 1) 6 s) ∧
  repliesOk .traceConfigDisable 0x0518 7 served (fun c s => decide (arg c.req 1 1 < 32) && mayBuf s c.mb (arg c.req 1 1)) (fun _ _ => [])
    (fun c s => seamSend true 8 (.trace (.control (arg c.req 1 1) 7)) (dropBuffer (arg c.req 1 1)
      (onTrace (fun t => { t with watches := t.watches.filter (fun w => w.2.buf ≠ arg c.req 1 1) }) s)))

/-- CURFEW_SCHEDULE with T at least 100 µs ahead arms West and East and replies once both are armed (R426); CANCEL until 20 µs before T (R426); DAWN moves an
earlier dawn into force (R431). -/
def Obligations.CurfewRequestsComplete : Prop :=
  (∀ k, repliesLater .curfewSchedule 0x0519 0 served
    (fun c s => areaOf s (arg c.req 16 4) == some k && decide (now s + 100000 ≤ arg c.req 8 8) && decide (arg c.req 4 4 ≠ 0 ∧ arg c.req 4 4 ≤ 60000) &&
      !curfewBusy s)
    (fun _ _ => .curfewArmed) (fun _ _ => []) (fun c s => armCurfew (arg c.req 8 8) (arg c.req 8 8 + arg c.req 4 4 * 1000000) k s)) ∧
  repliesOk .curfewCancel 0x0519 1 served (fun _ s => curfewBusy s && s.curfew.state == 1 && decide (now s + 20000 ≤ s.curfew.t)) (fun _ _ => [])
    (fun _ s => seamSend true 4 (.curfew .cancel) (dropObjs [s.curfew.area] (onKeys (fun k => { k with captureKey := [] }) (onCurfew (fun _ => {}) s)))) ∧
  repliesOk .dawn 0x051A 0 served
    (fun c s => s.curfew.inForce && decide (now s + 100000 ≤ arg c.req 8 8 ∧ arg c.req 8 8 < s.curfew.maxDawn)) (fun _ _ => [])
    (fun c s => seamSend true 4 (.curfew (.dawn (arg c.req 8 8)))
      (onCurfew (fun x => { x with dawn := arg c.req 8 8, state := if x.state = 3 then 4 else x.state }) s))

/-- LC_TRANSITION to an allowed target begins with the burn of its intent row, from Production under a token (R441, R442); DEBUG_UNLOCK
CHALLENGE replies a nonce of the DRBG, UNLOCK sets the pending mask and a block reset, in Production under a token (R446, R405);
FW_STAGE stages an image whole or in pieces (R348); FW_ACTIVATE puts a VALID image on trial and FW_COMMIT begins its burns (R349,
R449); FW_STATUS (R350). -/
def Obligations.LifeCycleAndFirmwareRequestsComplete : Prop :=
  takes .lcTransition 0x0520 0 kept
    (fun c s =>
      let target := arg c.req 0 1
      decide (target ≠ 0 ∧ target ≤ 3) && targetAllowed (shadowState s) target && shadowState s != 2 && s.lc.intent == 0 && decide (s.lc.ops = []) &&
        (target != 2 || argBytes c.req 8 48 != zeros 48))
    (fun c s => beginTransition c (arg c.req 0 1) (if arg c.req 0 1 = 2 then argBytes c.req 8 48 else []) s) ∧
  takes .lcTransition 0x0520 0 kept
    (fun c s => arg c.req 0 1 == 3 && shadowState s == 2 && s.lc.intent == 0 && decide (s.lc.ops = []) && !s.flash.extAck &&
      tokenOk s 2 0 (argBytes c.req 56 160))
    (fun c s => beginTransition c 3 [] (useChallenge s)) ∧
  repliesOk .debugUnlockChallenge 0x0521 0 kept (fun _ s => s.ll.drbgRunning) (fun _ s => (drbg 32 s).1)
    (fun _ s => onLc (fun l => { l with nonce := (drbg 32 s).1, nonceTime := now s, nonceLive := true }) (drbg 32 s).2) ∧
  repliesOk .debugUnlockUnlock 0x0521 1 kept
    (fun c s => (lcState s != 2 || arg c.req 1 1 == 0) && argBytes c.req 8 160 == zeros 160) (fun _ _ => [])
    (fun c s => dueBlockReset 2 none false (onTrust (fun t => { t with pendingMask := BitVec.ofNat 8 (arg c.req 1 1 % 32) }) s)) ∧
  repliesOk .debugUnlockUnlock 0x0521 1 kept
    (fun c s => lcState s == 2 && arg c.req 1 1 != 0 && !s.flash.extAck && tokenOk s 1 (arg c.req 1 1) (argBytes c.req 8 160)) (fun _ _ => [])
    (fun c s => dueBlockReset 2 none false (onTrust (fun t => { t with pendingMask := BitVec.ofNat 8 (arg c.req 1 1 % 32) }) (useChallenge s))) ∧
  repliesOk .fwStage 0x0600 0 fused
    (fun c s =>
      let x := readImage c 0 (fun n => decide (0 < n ∧ n ≤ 0x100000)) s
      let t := stageBytes 0 x.2.1 (beginStage c.mb x.2.2)
      c.mb != 17 && !s.ll.fwStage.active && !flashHeld s && !imageWaits s c 0 && x.1 == stOk && imageOk t t.ll.fwStage.slot)
    (fun _ _ => [])
    (fun c s =>
      let x := readImage c 0 (fun n => decide (0 < n ∧ n ≤ 0x100000)) s
      let t := stageBytes 0 x.2.1 (beginStage c.mb x.2.2)
      markSlotState t.ll.fwStage.slot 1 (onLl (fun l => { l with fwStage := { l.fwStage with active := false } }) t)) ∧
  repliesOk .fwStage 0x0600 0 fused
    (fun c s =>
      let n := arg c.req 4 2
      c.mb == 17 && (if arg c.req 0 4 = 0 then !s.ll.fwStage.active else s.ll.fwStage.active) && !flashHeld s &&
        decide (n < 2 ^ 15 ∧ n ≠ 0 ∧ n ≤ 192 ∧ 8 + n = reqLen c.req ∧ arg c.req 0 4 + n ≤ 0x100000))
    (fun _ _ => [])
    (fun c s => stageBytes (arg c.req 0 4) (argBytes c.req 8 (arg c.req 4 2)) (if arg c.req 0 4 = 0 then beginStage c.mb s else s)) ∧
  repliesOk .fwStage 0x0600 0 fused
    (fun c s =>
      let n := arg c.req 4 2 - 2 ^ 15
      let t := stageBytes (arg c.req 0 4) (argBytes c.req 8 n) (if arg c.req 0 4 = 0 then beginStage c.mb s else s)
      c.mb == 17 && (if arg c.req 0 4 = 0 then !s.ll.fwStage.active else s.ll.fwStage.active) && !flashHeld s &&
        decide (2 ^ 15 < arg c.req 4 2 ∧ n ≤ 192 ∧ 8 + n = reqLen c.req ∧ arg c.req 0 4 + n ≤ 0x100000) && imageOk t t.ll.fwStage.slot)
    (fun _ _ => [])
    (fun c s =>
      let t := stageBytes (arg c.req 0 4) (argBytes c.req 8 (arg c.req 4 2 - 2 ^ 15)) (if arg c.req 0 4 = 0 then beginStage c.mb s else s)
      markSlotState t.ll.fwStage.slot 1 (onLl (fun l => { l with fwStage := { l.fwStage with active := false } }) t)) ∧
  repliesOk .fwActivate 0x0601 0 fused (fun _ s => slotStateOf s (otherSlot s) == 1 && !flashHeld s) (fun _ _ => [])
    (fun _ s => dueBlockReset 4 none false (rewriteBoot (fun b => put b 2 (le 1 (otherSlot s + 1))) s)) ∧
  takes .fwCommit 0x0602 0 kept
    (fun c s => s.ll.trial && decide (s.lc.ops = []) && (arg c.req 0 1 % 4 == 0 || lcPermits s) && !flashHeld s)
    (fun c s => lcAdvance (onLc (fun l => { l with req := some (c.mb, c.slot), opOn := false, ops := commitBurns s (arg c.req 0 1 % 4) ++ [.done false] })
      (onLl (fun l => { l with trial := false }) (rewriteBoot (fun b => put b 1 (le 1 s.ll.image)) s)))) ∧
  repliesOk .fwStatus 0x0603 0 served (fun _ s => !flashHeld s)
    (fun _ s => slotEntry s 0 ++ slotEntry s 1 ++ le 4 (if s.ll.fwStage.active then s.ll.fwStage.written else 0)) (fun _ s => s)

/-- REPORT_GET into a buffer that holds the report writes it, counts it and remembers its digest (R241, R242), and through the management mailbox
replies its first piece or a later one (R347); SPDM_MESSAGE takes a piece of a message, or gives a piece of the reply (R252, R345);
MGMT_CHALLENGE replies a nonce, MGMT_AUTH that matches opens a session, MGMT_END ends it with its reply as the last message
(R257, R347). -/
def Obligations.ReportAndSessionRequestsComplete : Prop :=
  repliesOk .reportGet 0x0208 0 served
    (fun c s => lcPermits s && c.mb != 17 && s.ll.drbgRunning && decide ((askedReport c s).1.length ≤ arg c.req 40 4) &&
      !rangeWaits s true (arg c.req 32 8) (askedReport c s).1.length && (putReport c (askedReport c s)).1 == stOk)
    (fun c s => le 4 (askedReport c s).1.length ++ zeros 4 ++ le 8 ((putReport c (askedReport c s)).2.ll.reportSeq + 1) ++ sha384 (askedReport c s).1)
    (fun c s => issueReport (askedReport c s).1 (putReport c (askedReport c s)).2) ∧
  repliesOk .reportGet 0x0208 0 served (fun c s => lcPermits s && c.mb == 17 && arg c.req 32 4 == 0 && s.ll.drbgRunning)
    (fun c s =>
      let r := (makeReport true 16 0xFD (argBytes c.req 0 32) (bit (arg c.req 36 1) 0) s).1
      le 4 r.length ++ le 4 0 ++ sub r 0 (min 232 r.length))
    (fun c s => holdReport (argBytes c.req 0 32) (makeReport true 16 0xFD (argBytes c.req 0 32) (bit (arg c.req 36 1) 0) s)) ∧
  repliesOk .reportGet 0x0208 0 served
    (fun c s => lcPermits s && c.mb == 17 && arg c.req 32 4 != 0 && s.ll.heldReport != [] && argBytes c.req 0 32 == s.ll.heldNonce &&
      decide (arg c.req 32 4 < s.ll.heldReport.length))
    (fun c s => le 4 s.ll.heldReport.length ++ le 4 (arg c.req 32 4) ++
      sub s.ll.heldReport (arg c.req 32 4) (min 232 (s.ll.heldReport.length - arg c.req 32 4)))
    (fun _ s => s) ∧
  repliesOk .spdmMessage 0x0209 0 served
    (fun c s => arg c.req 0 2 == 0 && arg c.req 2 1 == 0 && decide (arg c.req 4 4 < s.ll.spdmReply.length))
    (fun c s =>
      let b := sub s.ll.spdmReply (arg c.req 4 4) (min 232 (s.ll.spdmReply.length - arg c.req 4 4))
      spdmPiece s.ll.spdmReply.length (if arg c.req 4 4 + b.length = s.ll.spdmReply.length then 2 else 0) (arg c.req 4 4) b)
    (fun _ s => s) ∧
  repliesOk .spdmMessage 0x0209 0 served
    (fun c s =>
      let b := argBytes c.req 8 (reqLen c.req - 8)
      !(arg c.req 0 2 == 0 && arg c.req 2 1 == 0) && b != [] && (arg c.req 4 4 == 0 || arg c.req 4 4 == s.ll.spdmBuffer.length) &&
        decide (arg c.req 4 4 + b.length ≤ arg c.req 0 2) && !bit (arg c.req 2 1) 1)
    (fun _ _ => spdmPiece 0 0 0 [])
    (fun c s => onLl (fun l => { l with spdmBuffer := l.spdmBuffer.take (arg c.req 4 4) ++ argBytes c.req 8 (reqLen c.req - 8) }) s) ∧
  repliesOk .spdmMessage 0x0209 0 served
    (fun c s =>
      let b := argBytes c.req 8 (reqLen c.req - 8)
      b != [] && (arg c.req 4 4 == 0 || arg c.req 4 4 == s.ll.spdmBuffer.length) && arg c.req 4 4 + b.length == arg c.req 0 2 && bit (arg c.req 2 1) 1)
    (fun c s =>
      let m := (spdmMade (onLl (fun l => { l with spdmBuffer := l.spdmBuffer.take (arg c.req 4 4) ++ argBytes c.req 8 (reqLen c.req - 8) }) s)).ll.spdmReply
      spdmPiece m.length (if min 232 m.length = m.length then 2 else 0) 0 (sub m 0 (min 232 m.length)))
    (fun c s => spdmMade (onLl (fun l => { l with spdmBuffer := l.spdmBuffer.take (arg c.req 4 4) ++ argBytes c.req 8 (reqLen c.req - 8) }) s)) ∧
  repliesOk .mgmtChallenge 0x0700 0 served (fun _ s => s.ll.drbgRunning) (fun _ s => (drbg 32 s).1)
    (fun _ s => onLl (fun l => { l with mgmtNonce := (drbg 32 s).1, mgmtNonceAt := now s, mgmtNonceOn := true }) (drbg 32 s).2) ∧
  takes .mgmtAuth 0x0701 0 fused
    (fun c s =>
      let u := useSlot 1031 s
      decide (s.ll.mgmtLockEnd ≤ now s) && !s.flash.extAck && !s.trust.dusk && nonceLive s && u.1 == stOk && (useSlot 1031 u.2).1 == stOk &&
        authMac u.2 c == argBytes c.req 32 48)
    (fun c s =>
      let u := (useSlot 1031 s).2
      let secret := (slotAt u 1031).key
      let nb := argBytes c.req 0 32
      let t := writeSealed (onLl (fun l => { l with mgmtFails := 0, mgmtLockEnd := 0 }) (endSession (useSlot 1031 u).2))
      let v := reply c.mb c.slot stOk (hmac secret (ascii "EONAL-MGMT-1" ++ nb ++ u.ll.mgmtNonce)) t
      onLl (fun l => { l with mgmtActive := true, mgmtKey := hkdf (u.ll.mgmtNonce ++ nb) secret (ascii "EONAL-MGMT-S-1") 32, mgmtStart := now v }) v) ∧
  takes .mgmtEnd 0x0702 0 served (fun _ _ => true) (fun c s => endSession (reply c.mb c.slot stOk [] s))

/-! ## Wicks -/

/-- A wick that runs past its last descriptor, or stands before an END, ends its program where no other waits for it (R120); LOOP enters
its body or passes it over (R121); PRED sets a lane mask (R122); BARRIER holds the wicks of its scope until the last one comes (R123); a
descriptor that predication skips only ends (R122); a count or mask that a wick would read from a poisoned scratchpad word fails its task
(R105); a wick of an aborting task stops (R119). -/
def Obligations.WickControlCompletes : Prop :=
  (∀ (r : WickRef) (s : State),
    let w := wkOf r {}
    let t := modWick w (fun k => { k with ended := true, waiting := .none }) (endDesc w s s)
    (running s && wickReady s w) = true → (wickDesc s w).all (fun d => isOp 0x01 d && !skipped (wickOf s w) d) = true →
    othersWait (taskAt (endDesc w s s) w.t) w.l = false → noMeeting t w = true → exec (.endOp r) s = .next (served s (settle {} t))) ∧
  wickTakes .loop {} (isOp 0x02) (fun w d s => loopTimes s w d == 0)
    (fun w d s => endDescBy (fun k => Wick.next (taskAt s w.t).program { k with pc := k.pc + fld d 4 1 }) w s s) ∧
  wickTakes .loop {} (isOp 0x02) (fun w d s => loopTimes s w d != 0)
    (fun w d s => endDescBy (fun k => Wick.next (taskAt s w.t).program
      { k with loops := ⟨k.pc + 1, k.pc + fld d 4 1, loopTimes s w d, 0, k.args⟩ :: k.loops }) w s s) ∧
  wickTakes .pred {} (isOp 0x03) (fun _ _ _ => true)
    (fun w d s => endDesc w s (modWick w (fun k => { k with masks := k.masks.set (fld d 4 1) (predValue s w d) }) s)) ∧
  wicksMeet .barrier {} (isOp 0x04) (fun d => fld d 4 1 == 1) (fun _ _ d => .explicit (fld d 4 1 == 1) (fld d 5 1))
    (fun w d s _ => fld d 4 1 != 1 || (taskAt s w.t).exch.isEmpty) (fun _ _ t => t) ∧
  wickSkips .loop {} (isOp 0x02) ∧ wickSkips .pred {} (isOp 0x03) ∧ wickSkips .barrier {} (isOp 0x04) ∧
  wickPoisoned .loop {} (isOp 0x02) ∧ wickPoisoned .pred {} (isOp 0x03) ∧
  (∀ (r : WickRef) (s : State), running s = true → ((taskAt s r.task).live && (taskAt s r.task).aborting &&
      (taskAt s r.task).lanterns.contains r.lantern && decide (r.rank < (taskAt s r.task).w) && !islandStopped s (.wicks r.lantern)) = true →
    exec (.wickAbort r) s = .next (served s (settle {} (modWick (wkOf r {})
      (fun k => if k.ended then k else { k with ended := true, waiting := .none }) s))))

/-- The byte range of a wick's 64 B units of `n` bytes: where it begins and how long it is. -/
def moveStart (s : State) (w : Wk) (d : Bytes) : Nat := 64 * (wickShare s w ((vecN d + 63) / 64)).1
def moveLen (s : State) (w : Wk) (d : Bytes) : Nat :=
  min (vecN d) (64 * (wickShare s w ((vecN d + 63) / 64)).2) - min (vecN d) (moveStart s w d)

/-- The bytes a MOVE reads, and its write. -/
def moveRead (w : Wk) (d : Bytes) (s : State) : WOut Bytes := readOp w (opndAt d 8) (moveStart s w d) (moveLen s w d) s
def moveWrite (w : Wk) (d : Bytes) (s : State) : WOut Unit :=
  writeOp w (opndAt d 4) (moveStart s w d) (result (moveRead w d s)) (leaves s (moveRead w d s))

/-- The bytes a MOVE under ALL reads, and where they go in every sheet. -/
def moveSure (w : Wk) (d : Bytes) (s : State) : WOut Bytes := readSure w (opndAt d 8) (moveStart s w d) (moveLen s w d) s
def moveAllOff (w : Wk) (d : Bytes) (s t : State) : Nat := (opndAt d 4).off + rankOf (taskAt t w.t) w.l * vecAux d + moveStart s w d

/-- One row of a GATHER: row number and index, and of a SCATTER that stores. -/
def gatherRow (w : Wk) (d : Bytes) (x : Nat × Nat) (s : State) : WOut Unit :=
  (readOp w (opndAt d 8) (x.2 * vecAux d) (vecAux d) s).andThen fun b s => writeOp w (opndAt d 4) (x.1 * vecAux d) b s
def scatterRow (w : Wk) (d : Bytes) (x : Nat × Nat) (s : State) : WOut Unit :=
  (readOp w (opndAt d 8) (x.1 * vecAux d) (vecAux d) s).andThen fun b s => writeOp w (opndAt d 4) (x.2 * vecAux d) b s

/-- One row of a SCATTER that adds. -/
def scatterAdd (w : Wk) (d : Bytes) (x : Nat × Nat) (s : State) : WOut Unit :=
  (readOp w (opndAt d 8) (x.1 * vecAux d) (vecAux d) s).andThen fun b s => .done () (addElems w (opndAt d 4) (x.2 * vecAux d) b s)

/-- The rows after their indices are read. -/
def rowsAfter (row : Wk → Bytes → Nat × Nat → State → WOut Unit) (w : Wk) (d : Bytes) (s : State) : WOut (List Unit) :=
  WOut.each (row w d) (result (readIdx w d s)) (leaves s (readIdx w d s))

/-- Whether the indices are read and below the bound. -/
def idxOk (w : Wk) (d : Bytes) (s : State) : Bool :=
  finishes (readIdx w d s) && (result (readIdx w d s)).all (fun x => decide (x.2 < vecImm d))

/-- MOVE copies a wick's units where both ends are reached, under ALL to the sheet of every lantern (R136); GATHER reads rows by index and
stores them in order, SCATTER reads them in order and stores, or adds, by index (R137). Each wick ends its descriptor. -/
def Obligations.DataMovementCompletes : Prop :=
  (∀ ue, wickTakes (fun r => .move r ue) ue (isOp 0x08) (fun w d s => fld d 2 1 == 0 && finishes (moveRead w d s) && finishes (moveWrite w d s))
    (fun w d s => endDesc w s (leaves (leaves s (moveRead w d s)) (moveWrite w d s)))) ∧
  (∀ ue, wickTakes (fun r => .move r ue) ue (isOp 0x08) (fun w d s => fld d 2 1 != 0 && moveLen s w d != 0 && finishes (moveSure w d s))
    (fun w d s =>
      let t := leaves s (moveSure w d s)
      let b := result (moveSure w d s)
      let off := moveAllOff w d s t
      endDesc w s (((taskAt t w.t).lanterns.filter (· ≠ w.l)).foldl (fun s l => sendSheet w.t w.l l (opndAt d 4).arg off b s)
        (writeSheet w.t w.l (opndAt d 4).arg off b t)))) ∧
  (∀ ue, wickTakes (fun r => .gather r ue) ue (isOp 0x09) (fun w d s => idxOk w d s && finishes (rowsAfter gatherRow w d s))
    (fun w d s => endDesc w s (leaves s (rowsAfter gatherRow w d s)))) ∧
  (∀ ue, wickTakes (fun r => .scatter r ue) ue (isOp 0x0A) (fun w d s => fld d 21 1 == 0 && idxOk w d s && finishes (rowsAfter scatterRow w d s))
    (fun w d s => endDesc w s (leaves s (rowsAfter scatterRow w d s)))) ∧
  (∀ ue, wickTakes (fun r => .scatter r ue) ue (isOp 0x0A) (fun w d s => fld d 21 1 != 0 && idxOk w d s && finishes (rowsAfter scatterAdd w d s))
    (fun w d s => endDesc w s (leaves s (rowsAfter scatterAdd w d s)))) ∧
  (∀ ue, wickSkips (fun r => .move r ue) ue (isOp 0x08)) ∧ (∀ ue, wickSkips (fun r => .gather r ue) ue (isOp 0x09)) ∧
  (∀ ue, wickSkips (fun r => .scatter r ue) ue (isOp 0x0A))

/-- The shape of a GEMV in a lantern, and the reads of a wick's tiles. -/
def gemvOf (s : State) (w : Wk) (d : Bytes) : Gemv := gemvShape s w (fmtIn s w.l (fld d 16 1)) (fld d 20 4) (fld d 24 2) (fld d 26 2) (fld d 17 1)
def gemvReads (w : Wk) (d : Bytes) (s : State) : WOut (List Bytes) :=
  let g := gemvOf s w d
  let p := wickShare s w g.total
  WOut.each (fun (i : Nat) s => readOp w (opndAt d 4) (g.base (opndAt d 4) + (p.1 + i) * g.tb) g.tb s) (List.range (p.2 - p.1)) s

/-- The sums of a GEMV over the tiles it read. -/
def gemvSums (w : Wk) (d : Bytes) (s t : State) (tiles : List Bytes) : GemvAcc :=
  let g := gemvOf s w d
  let t0 := (wickShare s w g.total).1
  tiles.zipIdx.foldl (fun a e =>
    let n := t0 + e.2
    let b := n / g.full
    gemvTile t w.l (fmtIn s w.l (fld d 16 1)) (getLocal s w (opndAt d 8) 0 (16 * g.k)) (laneMask (wickOf s w) d)
      (fun i => g.placeOf (g.b0 + b) ((n - b * g.full) * g.tw + i)) e.1 a) {}

/-- The shape of a GEMV_SPARSE, the reads of its table entries and the sums over its row blocks. -/
def sparseOf (s : State) (w : Wk) (d : Bytes) : Gemv := gemvShape s w (fmtIn s w.l (fld d 20 1)) (fld d 24 4) (fld d 28 2) (fld d 30 2) (fld d 21 1)
def sparseTable (w : Wk) (d : Bytes) (s : State) : WOut (List (Nat × Nat × Nat)) :=
  let g := sparseOf s w d
  let p := wickShare s w (g.b1 - g.b0)
  WOut.each (fun (b : Nat) s => (readSure w (opndAt d 16) (8 * b) 8 s).andThen fun e s => .done (b, fld e 0 4, fld e 4 4) s)
    ((List.range (p.2 - p.1)).map (fun i => g.b0 + p.1 + i)) s
def sparseSums (w : Wk) (d : Bytes) (s : State) : WOut GemvAcc :=
  let g := sparseOf s w d
  sparseBlocks w d (fmtIn s w.l (fld d 20 1)) g (getLocal s w (opndAt d 8) 0 (16 * g.k)) (laneMask (wickOf s w) d)
    (result (sparseTable w d s)) {} (leaves s (sparseTable w d s))

/-- GEMV adds the sums of a wick's tiles into Y where every tile is read (R126); GEMV_SPARSE the sums of its row blocks where table
entries, index data and tiles are read (R129); ACC, and ACT where X lay in a sheet, hold free values then (R127). A wick that would
consume a poisoned scratchpad word fails its task instead (R105). -/
def Obligations.ProductsComplete : Prop :=
  (∀ ue, wickTakes (fun r => .gemv r ue) ue (isOp 0x10) (fun w d s => finishes (gemvReads w d s))
    (fun w d s =>
      let t := leaves s (gemvReads w d s)
      endDesc w s (gemvScratch w (opndAt d 8) (gemvStore w (gemvOf s w d) (opndAt d 12) (fld d 2 1 == 1) (laneMask (wickOf s w) d)
        (gemvSums w d s t (result (gemvReads w d s))) t)))) ∧
  (∀ ue, wickTakes (fun r => .gemvSparse r ue) ue (isOp 0x11) (fun w d s => finishes (sparseTable w d s) && finishes (sparseSums w d s))
    (fun w d s =>
      endDesc w s (gemvScratch w (opndAt d 8) (gemvStore w (sparseOf s w d) (opndAt d 12) (fld d 2 1 == 1) (laneMask (wickOf s w) d)
        (result (sparseSums w d s)) (leaves s (sparseSums w d s)))))) ∧
  (∀ ue, wickSkips (fun r => .gemv r ue) ue (isOp 0x10)) ∧ (∀ ue, wickSkips (fun r => .gemvSparse r ue) ue (isOp 0x11)) ∧
  (∀ ue, wickPoisoned (fun r => .gemv r ue) ue (isOp 0x10)) ∧ (∀ ue, wickPoisoned (fun r => .gemvSparse r ue) ue (isOp 0x11))

/-- The tiles of a QUANTISE SEQ that a wick writes: lanes in rising order, in each lane its share of the tiles. -/
def seqTiles (w : Wk) (d : Bytes) (s : State) : WOut (List Unit) :=
  let f := fmtIn s w.l (fld d 22 1)
  let p := wickShare s w ((vecN d + f.tileWeights - 1) / f.tileWeights)
  WOut.each (fun (j : Nat × Nat) s =>
      quantTile w f d j.1 j.2 (getRows s w (opndAt d 8) (typeA d) (j.2 * f.tileWeights) (min (vecN d) (j.2 * f.tileWeights + f.tileWeights))) s)
    ((bitList 8 (laneMask (wickOf s w) d)).flatMap (fun lane => (List.range (p.2 - p.1)).map (fun i => (lane, p.1 + i)))) s

/-- The element a wick's units of QUANTISE INTERLEAVED begin at, and their values. -/
def unitStart (s : State) (w : Wk) (d : Bytes) : Nat := min (vecN d) (4 * (wickShare s w ((vecN d + 3) / 4)).1)
def unitRows (s : State) (w : Wk) (d : Bytes) : List (List F32) :=
  getRows s w (opndAt d 8) (typeA d) (unitStart s w d) (min (vecN d) (4 * (wickShare s w ((vecN d + 3) / 4)).2))

/-- The write of a wick's units into memory. -/
def unitWrite (w : Wk) (d : Bytes) (s : State) : WOut Unit :=
  let p := wickShare s w ((vecN d + 3) / 4)
  writeOp w (opndAt d 4) (64 * p.1) (fit (64 * (p.2 - p.1)) (encRows 1 (laneMask (wickOf s w) d) [] (unitRows s w d))) s

/-- A round of an operation over a set, brought to the state in which every lantern holds what the others give it (R110, R123); before that,
where records must cross, it does not finish. -/
def given (t round : Nat) (mk : State → WOut (List (Nat × Nat × Bytes))) (s : State) : WOut Unit := withShares t round mk (fun s => .done () s) s

/-- The lanterns of a set with their wicks. -/
def setWicks (w : Wk) (t : State) : List (Nat × List Wk) := (taskAt t w.t).lanterns.map (fun l => (l, wicksIn t w.t w.ue [l]))

/-- NORM of a set: the means that a lantern subtracts under LAYER, and the rounds before its rows are written. -/
def setMeans (w : Wk) (d : Bytes) (t s : State) (l : Nat) : List F32 :=
  if fld d 21 1 = 0 then List.replicate 8 0 else setMean s w.t 1 (taskAt t w.t).lanterns ((taskAt t w.t).lanterns.length * vecN d) l
def normRounds (w : Wk) (d : Bytes) (t : State) : WOut Unit :=
  (if fld d 21 1 = 0 then .done () t else given w.t 1 (sumShares (setWicks w t) (fun _ _ a => a) d) t).andThen fun _ s =>
    given w.t 2 (fun s => sumShares (setWicks w t) (fun a => normSquare d (setMeans w d t s a)) d s) s

/-- REDUCE of a set: the round, and the rows of a lantern from what it holds. -/
def reduceRound (w : Wk) (d : Bytes) (t : State) : WOut Unit :=
  given w.t 1 (fun s => .done (toAll (taskAt t w.t).lanterns (fun a => reduceShare (wicksIn t w.t w.ue [a]) d s)) s) t
def reducedIn (w : Wk) (d : Bytes) (t s : State) (l : Nat) : List (List (Option F32)) :=
  reduceTotals (fld d 21 1) (vecN d) ((taskAt t w.t).lanterns.map (fun a => reduceOfShare (shareAtOf s w.t 1 a l)))
def putReduced (d : Bytes) (res : List (List (Option F32))) (s : State) (v : Wk) : State :=
  let p := wickShare s v (vecN d)
  let m := laneMask (wickOf s v) d
  (List.range (p.2 - p.1)).foldl (fun s i => putLanes v (opndAt d 4) (typeD d) (p.1 + i)
    ((List.range 8).map (fun x => if laneOn m x then (res.getD (p.1 + i) []).getD x none else none)) s) s

/-- ELEMWISE and CURVE store, for each element of a wick's share and each active lane, the subop's result (R133); QUANTISE stores its
tiles, or its units (R133, R134); NORM and REDUCE of a lantern take effect once with its last wick, of the set as a barrier at which the
lanterns give each other their partials through the exchange (R123, R133); DIGEST stores the digest of its wicks' elements (R135). A wick
that would consume a poisoned scratchpad word fails its task instead (R105). -/
def Obligations.VectorOperationsComplete : Prop :=
  wickTakes .elemwise {} (isOp 0x18) (fun _ _ _ => true)
    (fun w d s =>
      let p := wickShare s w (vecN d)
      let a := getRows s w (opndAt d 8) (typeA d) p.1 p.2
      let b := if elemB (fld d 21 1) then getRows s w (opndAt d 12) (typeB d) p.1 p.2 else a
      endDesc w s (putRows w (opndAt d 4) (typeD d) (laneMask (wickOf s w) d) p.1
        ((a.zip b).map (fun r => (r.1.zip r.2).map (fun v => elemOp (fld d 21 1) (storeImage s w.l 2 (fld d 22 1)) (vecImm d) v.1 v.2))) s)) ∧
  wickTakes .curve {} (isOp 0x19) (fun _ _ _ => true)
    (fun w d s =>
      let p := wickShare s w (vecN d)
      endDesc w s (putRows w (opndAt d 4) (typeD d) (laneMask (wickOf s w) d) p.1
        ((getRows s w (opndAt d 8) (typeA d) p.1 p.2).map (fun r => r.map (curveEval (storeImage s w.l 2 (fld d 22 1))))) s)) ∧
  wickTakes .quantise {} (isOp 0x1B) (fun w d s => fld d 21 1 == 0 && finishes (seqTiles w d s))
    (fun w d s => endDesc w s (leaves s (seqTiles w d s))) ∧
  wickTakes .quantise {} (isOp 0x1B) (fun w d s => fld d 21 1 != 0 && (opndAt d 4).isMem && finishes (unitWrite w d s))
    (fun w d s => endDesc w s (leaves s (unitWrite w d s))) ∧
  wickTakes .quantise {} (isOp 0x1B) (fun _ d _ => fld d 21 1 != 0 && !(opndAt d 4).isMem)
    (fun w d s => endDesc w s (putRows w (opndAt d 4) 1 (laneMask (wickOf s w) d) (unitStart s w d) (unitRows s w d) s)) ∧
  wicksShare .norm {} (fun d => isOp 0x1A d && !setOp d) false (fun _ _ _ _ => true) (fun ws _ d t => doNorm ws d t) ∧
  wicksMeet .norm {} (fun d => isOp 0x1A d && setOp d) (fun _ => true) (fun s w _ => ownPlace s w)
    (fun w d s t => !setBusy s w.t && finishes (normRounds w d t))
    (fun w d t =>
      let u := leaves t (normRounds w d t)
      endShares w.t ((setWicks w t).foldl (fun s e => normOut e.2 (setMeans w d t s e.1)
        (normDen d (setMean s w.t 2 (taskAt t w.t).lanterns ((taskAt t w.t).lanterns.length * vecN d) e.1)) d s) u)) ∧
  wicksGive .norm {} (fun d => isOp 0x1A d && setOp d) (fun s w _ => !setBusy s w.t) normRounds ∧
  wicksShare .reduce {} (fun d => isOp 0x1C d && !setOp d) false (fun _ _ _ _ => true) (fun ws _ d t => doReduce ws d t) ∧
  wicksMeet .reduce {} (fun d => isOp 0x1C d && setOp d) (fun _ => true) (fun s w _ => ownPlace s w)
    (fun w d s t => !setBusy s w.t && finishes (reduceRound w d t))
    (fun w d t =>
      let u := leaves t (reduceRound w d t)
      endShares w.t ((setWicks w t).foldl (fun s e => e.2.foldl (putReduced d (reducedIn w d t s e.1)) s) u)) ∧
  wicksGive .reduce {} (fun d => isOp 0x1C d && setOp d) (fun s w _ => !setBusy s w.t) reduceRound ∧
  wicksShare .digest {} (isOp 0x1D) false (fun _ _ _ _ => true)
    (fun ws w d t =>
      let v := digestOf (digestKey t (taskAt t w.t).part (lanternWest t w.l)) (ws.flatMap (fun x => digestIn t x d))
      (if (opndAt d 4).space = spSheet then ws.take 1 else ws).foldl (fun s x => putLocal x (opndAt d 4) 0 (le 8 v) s) t) ∧
  wickSkips .elemwise {} (isOp 0x18) ∧ wickSkips .curve {} (isOp 0x19) ∧ wickSkips .quantise {} (isOp 0x1B) ∧ wickSkips .norm {} (isOp 0x1A) ∧
  wickSkips .reduce {} (isOp 0x1C) ∧ wickSkips .digest {} (isOp 0x1D) ∧
  wickPoisoned .elemwise {} (isOp 0x18) ∧ wickPoisoned .curve {} (isOp 0x19) ∧ wickPoisoned .quantise {} (isOp 0x1B) ∧
  wickPoisoned .norm {} (isOp 0x1A) ∧ wickPoisoned .reduce {} (isOp 0x1C) ∧ wickPoisoned .digest {} (isOp 0x1D)

/-- The records of the wicks that met at an ATTEND. -/
def attReads (ws : List Wk) (d : Bytes) (t : State) : WOut (List (List (Nat × AttRec))) := WOut.each (fun (w : Wk) s => attWick w d s) ws t

/-- The live tokens of an APPEND, its positions and the state in which their pages have frames. -/
def appendPos (t : State) (w : Wk) (d : Bytes) (k : Nat) : Nat := (seqAt t (seqOf t w.t d)).c + fld d 12 1 + k
def appendLive (t : State) (w : Wk) (d : Bytes) : List Nat :=
  let q := seqAt t (seqOf t w.t d)
  (List.range (fld d 13 1)).filter (fun k =>
    laneOn (laneMask (wickOf t (lead w.t (pageHome t (poolAt t q.pool) q (appendPos t w d k / 64)).1 w.ue)) d) k)
def appendFrames (t : State) (w : Wk) (d : Bytes) : Option State :=
  allotFrames w.ue (seqOf t w.t d) ((appendLive t w d).map (fun k => appendPos t w d k / 64)) t
def appendDrafts (t : State) (w : Wk) (d : Bytes) : WOut (List Unit) :=
  WOut.each (fun (k : Nat) s => writeDraft w.t (seqOf t w.t d) (fld d 6 2) (opndAt d 8) w.ue k (appendPos t w d k) s) (appendLive t w d)
    ((appendFrames t w d).getD t)

/-- The accepted offsets of a COMMIT, the check of their marks and the copies to their places. -/
def accepted (d : Bytes) : List Nat := (sub d 16 (fld d 14 1)).map BitVec.toNat
def commitMarks (t : State) (w : Wk) (d : Bytes) : WOut (List Bool) :=
  WOut.each (fun (a : Nat) s => draftMarked w.t (seqOf t w.t d) a w.ue s) (accepted d) t
def moved (t : State) (w : Wk) (d : Bytes) : List DraftCopy := commitCopies (seqAt t (seqOf t w.t d)) (accepted d)
def commitRound (w : Wk) (d : Bytes) (t : State) : WOut Unit :=
  given w.t 1 (commitShares w.t (seqOf t w.t d) w.ue (moved t w d)) (leaves t (commitMarks t w d))
def commitLands (w : Wk) (d : Bytes) (t : State) : WOut Unit :=
  commitWrites w.t (seqOf t w.t d) w.ue (moved t w d) (leaves t (commitRound w d t))

/-- The rounds of an ATTN_MERGE: records to their owners, outputs to the lanterns that store them. -/
def mergeRounds (w : Wk) (d : Bytes) (t : State) : WOut Unit :=
  (given w.t 1 (mergeShares w.t d) t).andThen fun _ s => given w.t 2 (mergeOutputs w.t d) s

/-- ATTEND stores the merged records of a lantern's wicks (R160, R161); ATTN_MERGE merges every lantern's records and stores the rows
(R163); APPEND gives its live tokens frames, writes their K and V rows and raises D (R152); COMMIT moves accepted drafts to their places,
through the exchange where two pages lie in different lanterns, then advances C and the epoch (R153); ROLLBACK advances the epoch (R154). -/
def Obligations.AttentionAndCacheComplete : Prop :=
  (∀ ue, wicksShare (fun r => .attend r ue) ue (isOp 0x20) false (fun ws _ d t => finishes (attReads ws d t))
    (fun ws w d t => ws.foldl (fun s x => attScratch x s) (attStore ws w.l d (result (attReads ws d t)) (leaves t (attReads ws d t))))) ∧
  wicksMeet .attnMerge {} (isOp 0x21) (fun _ => true) (fun s w _ => ownPlace s w) (fun w d s t => !setBusy s w.t && finishes (mergeRounds w d t))
    (fun w d t =>
      let u := leaves t (mergeRounds w d t)
      let ls := (taskAt u w.t).lanterns
      endShares w.t (ls.zipIdx.foldl (fun s o => (if fld d 2 1 = 1 then ls else [o.1]).foldl (fun s l => mergeWrite w.t d w.ue o.1 o.2 l s) s) u)) ∧
  wicksGive .attnMerge {} (isOp 0x21) (fun s w _ => !setBusy s w.t) mergeRounds ∧
  (∀ ue, wicksMeet (fun r => .kvAppendAppend r ue) ue (isSub 0x22 5 0) (fun _ => true) (fun s w _ => ownPlace s w)
    (fun w d s t => (taskAt s w.t).exch.isEmpty &&
      decide (appendPos t w d (fld d 13 1 - 1) < (poolAt t (seqAt t (seqOf t w.t d)).pool).maxTokens) && (appendFrames t w d).isSome &&
      finishes (appendDrafts t w d))
    (fun w d t => modSeq (seqOf t w.t d) (fun q => { q with d := max q.d (fld d 12 1 + fld d 13 1) }) (leaves t (appendDrafts t w d)))) ∧
  (∀ ue, wicksMeet (fun r => .kvAppendCommit r ue) ue (isSub 0x22 5 1) (fun _ => true) (fun s w _ => ownPlace s w)
    (fun w d s t => !setBusy s w.t && (accepted d).all (fun a => decide (a < (seqAt t (seqOf t w.t d)).d)) && finishes (commitMarks t w d) &&
      !(result (commitMarks t w d)).contains false && finishes (commitRound w d t) && finishes (commitLands w d t))
    (fun w d t => endShares w.t (advanceEpoch w.ue (seqOf t w.t d)
      (modSeq (seqOf t w.t d) (fun q => { q with c := q.c + fld d 14 1 }) (leaves t (commitLands w d t)))))) ∧
  (∀ ue, wicksGive (fun r => .kvAppendCommit r ue) ue (isSub 0x22 5 1)
    (fun s w d => !setBusy s w.t && (accepted d).all (fun a => decide (a < (seqAt s (seqOf s w.t d)).d)) &&
      finishes (commitMarks (waitsAt w (ownPlace s w) s) w d) && !(result (commitMarks (waitsAt w (ownPlace s w) s) w d)).contains false) commitRound) ∧
  (∀ ue, wicksMeet (fun r => .kvAppendRollback r ue) ue (isSub 0x22 5 2) (fun _ => true) (fun s w _ => ownPlace s w)
    (fun w _ s _ => !setBusy s w.t) (fun w d t => advanceEpoch w.ue (seqOf t w.t d) t)) ∧
  (∀ ue, wickSkips (fun r => .attend r ue) ue (isOp 0x20)) ∧ wickSkips .attnMerge {} (isOp 0x21) ∧
  (∀ ue, wickSkips (fun r => .kvAppendAppend r ue) ue (isSub 0x22 5 0)) ∧ (∀ ue, wickSkips (fun r => .kvAppendCommit r ue) ue (isSub 0x22 5 1)) ∧
  (∀ ue, wickSkips (fun r => .kvAppendRollback r ue) ue (isSub 0x22 5 2))

/-- The round of a TOPK_ROUTE over a set: each lantern's best candidates to every lantern. -/
def topkRound (w : Wk) (d : Bytes) (t : State) : WOut Unit := given w.t 1 (topkShares w.t d w.ue) t

/-- The slot a batch of a task holds, if it holds one. -/
def heldBatch (t : State) (w : Wk) (d : Bytes) : Nat := tget 0 (taskAt t w.t).batches (fld d 17 1)

/-- Whether a task runs for a command, not as a pilot's item. -/
def forCommand (x : Task) : Bool :=
  match x.purpose with
  | .command _ _ => true
  | .pilot _ => false

/-- TOPK_ROUTE stores the route records of its lantern or set (R168 to R171); DISPATCH opens a combine slot for its pairs and sends their
records (R176); RETURN sends the answers of a pilot item, and outside a pilot does nothing (R181); CANCEL gives a batch up (R185); COMBINE
of a complete batch frees it, of an expired one under DEGRADE counts its missing pairs and frees it (R184). -/
def Obligations.ExpertDescriptorsComplete : Prop :=
  (∀ ue, wicksShare (fun r => .topkRoute r ue) ue (fun d => isOp 0x28 d && !setOp d) false
    (fun _ w d t => !(setBusy t w.t && decide ((taskAt t w.t).lanterns.length > 1)) && finishes (topkRead w.t d w.ue t))
    (fun _ w d t => topkStore w.t d w.ue (fun _ => result (topkRead w.t d w.ue t)) (leaves t (topkRead w.t d w.ue t)))) ∧
  (∀ ue, wicksMeet (fun r => .topkRoute r ue) ue (fun d => isOp 0x28 d && setOp d) (fun _ => true) (fun s w _ => ownPlace s w)
    (fun w d s t => !setBusy s w.t && finishes (topkRound w d t))
    (fun w d t =>
      let u := leaves t (topkRound w d t)
      endShares w.t (topkStore w.t d w.ue (fun l => (taskAt u w.t).lanterns.map (fun a => candsOf (groupAt u (fld d 14 1)).k (shareAtOf u w.t 1 a l))) u))) ∧
  (∀ ue, wicksGive (fun r => .topkRoute r ue) ue (fun d => isOp 0x28 d && setOp d) (fun s w _ => !setBusy s w.t) topkRound) ∧
  (∀ ue, wicksShare (fun r => .expertSendDispatch r ue) ue (isSub 0x29 16 0) true
    (fun _ w d t => !setBusy t w.t &&
      !(heldBatch t w d != 0 && decide ((combineAt t (heldBatch t w d - 1)).state = .open_) && (combineAt t (heldBatch t w d - 1)).task == w.t) &&
      (batchPairs w.t d w.ue t).isSome && (openableSlot (freeBatch w.t (heldBatch t w d) t) (taskAt t w.t).part).isSome)
    (fun _ w d t =>
      let u := freeBatch w.t (heldBatch t w d) t
      openBatch w.t ((openableSlot u (taskAt t w.t).part).getD 0) d w.ue ((batchPairs w.t d w.ue t).getD []) t u)) ∧
  wicksShare .expertSendReturn {} (isSub 0x29 16 1) false
    (fun _ w _ t => depsOf t w.t w.l == [] && forCommand (taskAt t w.t)) (fun _ _ _ t => t) ∧
  (∀ pi, wicksShare .expertSendReturn {} (isSub 0x29 16 1) false
    (fun _ w _ t => depsOf t w.t w.l == [] && decide ((taskAt t w.t).purpose = .pilot pi))
    (fun _ w d t => driveFabric w.ue ((lanesOf t pi).foldl
      (fun s lane => sendAnswers w.t w.l (laneMask (wickOf t (lead w.t w.l w.ue)) d) pi d lane s) t))) ∧
  wicksShare .expertSendCancel {} (isSub 0x29 16 2) true (fun _ w d t => heldBatch t w d == 0) (fun _ _ _ t => t) ∧
  wicksShare .expertSendCancel {} (isSub 0x29 16 2) true (fun _ w d t => heldBatch t w d != 0)
    (fun _ w d t => modTask w.t (fun x => { x with batches := tset 0 x.batches (fld d 17 1) 0, cancelled := fld d 17 1 :: x.cancelled })
      (if (combineAt t (heldBatch t w d - 1)).task = w.t then freeSlot (heldBatch t w d - 1) t else t)) ∧
  wicksMeet .expertCombine {} (isOp 0x2A) (fun _ => true) (fun s w _ => ownPlace s w)
    (fun w d s t =>
      let k := tget 0 (taskAt t w.t).batches (fld d 4 1)
      (taskAt s w.t).exch.isEmpty && !(taskAt t w.t).cancelled.contains (fld d 4 1) && k != 0 && (combineAt t (k - 1)).task == w.t &&
        decide ((combineAt t (k - 1)).state = .complete ∨ ((combineAt t (k - 1)).state = .expired ∧ (combineAt t (k - 1)).degrade = true)) &&
        ((combineAt t (k - 1)).state != .expired || !(combineAt t (k - 1)).parts.any (fun p => p.state = .open_)))
    (fun w d t =>
      let x := taskAt t w.t
      let k := tget 0 x.batches (fld d 4 1)
      let u := if (combineAt t (k - 1)).state = .complete then t
        else modCounters x.part (fun y => { y with degraded := satTo 64 (y.degraded + (missingPairs (combineAt t (k - 1))).length) }) t
      freeSlot (k - 1) (modTask w.t (fun x => { x with batches := tset 0 x.batches (fld d 4 1) 0 }) u)) ∧
  (∀ ue, wickSkips (fun r => .topkRoute r ue) ue (isOp 0x28)) ∧ (∀ ue, wickSkips (fun r => .expertSendDispatch r ue) ue (isSub 0x29 16 0)) ∧
  wickSkips .expertSendReturn {} (isSub 0x29 16 1) ∧ wickSkips .expertSendCancel {} (isSub 0x29 16 2) ∧ wickSkips .expertCombine {} (isOp 0x2A)

/-! ## Queues and their commands -/

/-- The held command of a queue is `c` and may start: nothing has ended or killed it, dispatch is open, its order allows it. -/
def mayStart (s : State) (qi : Nat) (c : InFlight) : Bool :=
  decide (heldCommand s qi = some c) && !c.started && !c.isEnded && c.killed == 0 && dispatchOpen s && orderFree s qi c

/-- A held command is marked started. -/
def marked (qi : Nat) (c : InFlight) (s : State) : State := modInFlight qi c.serial (fun c => { c with started := true }) s

/-- Whether a doorbell at page `p`, offset `off`, reaches queue `qi`. -/
def bellReaches (a : RegAccess) (p off qi : Nat) (s : State) : Bool :=
  decide (pageOf a.offset = some (p, off)) && !s.faults.inBlockReset && decide (a.func ≤ 16 ∧ 0x1000 ≤ off ∧ off < 0x1200) &&
    pageAdmits s a p off true && (a.size8 || off % 8 != 4) && decide (queueNamed s p ((off - 0x1000) / 8) = some qi) &&
    decide ((queueAt s qi).state ≠ .destroying ∧ (partAt s p).tdi ≠ .configLocked ∧ (partAt s p).tdi ≠ .error ∧
      (16 ≤ p ∨ (partAt s p).state = .active ∨ (partAt s p).state = .halted))

/-- An accepted doorbell moves TAIL and sets the rung bit, a value out of range counts and faults (R291); a cycle of the arbiter serves the
next queue and decides which are idle (R292); a fetch that comes back adds its entries (R288, R289); a fetched command that passes its
checks goes to dispatch, one that does not fails (R300). -/
def Obligations.SubmissionCommandsComplete : Prop :=
  (∀ a p off qi, does (.doorbellWrite a) served (fun s => bellReaches a p off qi s && doorbellOk (queueAt s qi) (a.data.setWidth 32))
    (fun s => setQueue qi { queueAt s qi with tail := a.data.setWidth 32, rung := true } s)) ∧
  (∀ a p off qi, does (.doorbellWrite a) served (fun s => bellReaches a p off qi s && !doorbellOk (queueAt s qi) (a.data.setWidth 32))
    (fun s => recordFault { cls := clsBadDoorbell, kind := kindFrontEnd, inst := 0, status := stBadArg, part := p, master := 0
                            masterId := (off - 0x1000) / 8 } (countDoorbell p ((off - 0x1000) / 8) s))) ∧
  (∀ k, does .queueArbiterCycle served (fun s => dispatchOpen s && decide (nextServed s = some k)) (fun s => decideIdle (serveQueue k s))) ∧
  does .queueArbiterCycle served (fun s => dispatchOpen s && decide (nextServed s = none)) decideIdle ∧
  (∀ qi h ue, does (.ringFetchReturn qi h ue) served
    (fun s => (queueAt s qi).fetching != 0 && queueServed s (queueAt s qi) && !(queueAt s qi).device && h.status == stOk) (fetchDone qi h.data)) ∧
  (∀ qi h ue, does (.ringFetchReturn qi h ue) served
    (fun s =>
      let q := queueAt s qi
      q.fetching != 0 && queueServed s q && q.device && !rangeWaits s false (ringAddr s q) (64 * q.fetching) &&
        (memRead (ringReq q) ue (ringAddr s q) (64 * q.fetching) s).1.status == stOk)
    (fun s =>
      let q := queueAt s qi
      let x := memRead (ringReq q) ue (ringAddr s q) (64 * q.fetching) s
      fetchDone qi x.1.data x.2)) ∧
  (∀ qi ue c rest, does (.commandDispatch qi ue) served
    (fun s => decide ((queueAt s qi).fetched = c :: rest) && dispatchReady s (queueAt s qi) && (checkCommand ue qi c s).status == stOk)
    (fun s =>
      let k := checkCommand ue qi c s
      modQueue qi (fun q => { q with atDispatch := some ⟨c, k.objs, k.fences, k.handles⟩ }) (setQueue qi { queueAt s qi with fetched := rest } s))) ∧
  (∀ qi ue c rest, does (.commandDispatch qi ue) served
    (fun s => decide ((queueAt s qi).fetched = c :: rest) && dispatchReady s (queueAt s qi) && (checkCommand ue qi c s).status != stOk)
    (fun s =>
      let k := checkCommand ue qi c s
      failAtDispatch ue qi (put c 8 (le 4 k.fence)) k.status (setQueue qi { queueAt s qi with fetched := rest } s)))

/-- A held command that may start does what its type says (R300, R301): a TASK whose checks still pass takes its wicks and runs, a COPY
or IMPORT goes to the copy engine, a FABRIC to the fabric, by the agent where its frames leave in East, a SIGNAL ends, a WAIT waits or ends (R282 to R284), a POST hands its item over
(R309, R311). -/
def Obligations.HeldCommandsStart : Prop :=
  (∀ qi ue c t, does (.dispatchResume qi ue) served
    (fun s =>
      let a := taskAskOf s qi c.cmd c.serial
      let p := progOf a (fetchedOf (taskAt s t)) (taskAt s t).lanterns.length
      mayStart s qi c && cmdType c.cmd == 1 && c.task == some t && taskChecks s a (fetchedOf (taskAt s t)) == stOk && !outranked s qi c &&
        resourcesFree s a (taskAt s t).sheetUnits.sum (progSeqs p) && !(progPins s p).any (fun k => tableLoading s k.1 k.2))
    (fun s => settle ue (runTask t (taskAt s t).args (modTask t (fun x => { x with deadline := (taskAskOf s qi c.cmd c.serial).deadline })
      (allotTask (taskAskOf s qi c.cmd c.serial) t (marked qi c s)))))) ∧
  (∀ qi ue c, does (.dispatchResume qi ue) served (fun s => mayStart s qi c && (cmdType c.cmd == 2 || cmdType c.cmd == 3) && copySpace s)
    (fun s => sendDispatch (.copyChunk qi) (modInFlight qi c.serial (fun x => { x with started := true, deadline := deadlineOf s c.cmd }) s))) ∧
  (∀ qi ue c, does (.dispatchResume qi ue) served (fun s => mayStart s qi c && cmdType c.cmd == 4 && !fabricEast s c)
    (fun s => settle ue (driveFabric ue (marked qi c s)))) ∧
  (∀ qi ue c, does (.dispatchResume qi ue) served (fun s => mayStart s qi c && cmdType c.cmd == 4 && fabricEast s c)
    (fun s => sendDispatch (.fabric qi) (modInFlight qi c.serial (fun x => { x with started := true, east := true }) s))) ∧
  (∀ qi ue c, does (.dispatchResume qi ue) served (fun s => mayStart s qi c && cmdType c.cmd == 5)
    (fun s => settle ue (endCommand qi c.serial stOk (marked qi c s)))) ∧
  (∀ qi ue c, does (.dispatchResume qi ue) served
    (fun s =>
      let k := fld c.cmd 40 4 % 2048
      mayStart s qi c && cmdType c.cmd == 6 && waitOutcome (marked qi c s) false k (fenceAt (marked qi c s) k).gen (BitVec.ofNat 64 (fld c.cmd 48 8)) 0 == none)
    (fun s =>
      let k := fld c.cmd 40 4 % 2048
      settle ue (onFe (fun f => { f with waits := f.waits ++
        [⟨qi, c.serial, k, (fenceAt (marked qi c s) k).gen, BitVec.ofNat 64 (fld c.cmd 48 8), fld c.cmd 56 8⟩] }) (marked qi c s)))) ∧
  (∀ qi ue c st, does (.dispatchResume qi ue) served
    (fun s =>
      let k := fld c.cmd 40 4 % 2048
      mayStart s qi c && cmdType c.cmd == 6 && waitOutcome (marked qi c s) false k (fenceAt (marked qi c s) k).gen (BitVec.ofNat 64 (fld c.cmd 48 8)) 0 == some st)
    (fun s => settle ue (endCommand qi c.serial st (marked qi c s)))) ∧
  (∀ qi ue c pi, does (.dispatchResume qi ue) served
    (fun s => mayStart s qi c && cmdType c.cmd == 7 && pilotNamed s (queueAt s qi).part (fld c.cmd 40 1) == some pi && pilotTakes s pi &&
      pilotRoom s pi && !rangeWaits s false (fld c.cmd 48 8) 64 &&
      (memRead (feReq (queueAt s qi).part 6 (queueAt (marked qi c s) qi).q) ue (fld c.cmd 48 8) 64 (marked qi c s)).1.status == stOk)
    (fun s =>
      let x := memRead (feReq (queueAt s qi).part 6 (queueAt (marked qi c s) qi).q) ue (fld c.cmd 48 8) 64 (marked qi c s)
      settle ue (endCommand qi c.serial stOk (postItem pi x.1.data x.2))))

/-- A TASK's program as it is read at dispatch. -/
def taskFetch (qi : Nat) (ue : Ue) (d : AtDispatch) (s : State) : Fetched × State :=
  fetchProgram ue (taskAskOf s qi d.cmd (queueAt s qi).serial) (takeDispatch qi s)

/-- Whether the fence and objects a command at dispatch names are still there (R274). -/
def handlesHold (s : State) (qi : Nat) (d : AtDispatch) : Bool := (handlesNow s qi d).status == stOk

/-- A TASK whose program passes every check is admitted with its task (R296, R118); COPY, IMPORT, FABRIC, SIGNAL, WAIT and POST that pass
their own checks are admitted (R297 to R299); an admitted command starts where it can. A command whose own checks fail, or whose
handles hold no more, is refused and stops its queue (R274, R302). -/
def Obligations.QueueCommandsComplete : Prop :=
  (∀ qi ue d, does (.task qi ue) served
    (fun s =>
      let a := taskAskOf s qi d.cmd (queueAt s qi).serial
      let x := taskFetch qi ue d s
      decide (atType s qi 1 = some d) && taskFieldsOk d.cmd && setOk s a.part a.mask a.w && !rangeWaits s false a.prog 64 &&
        taskChecks x.2 a x.1 == stOk && handlesHold x.2 qi d && handlesHold (prepareTask a x.1 x.2).2 qi d &&
        decide ((queueAt (prepareTask a x.1 x.2).2 qi).state = .active))
    (fun s =>
      let a := taskAskOf s qi d.cmd (queueAt s qi).serial
      let x := taskFetch qi ue d s
      let y := prepareTask a x.1 x.2
      resumeQueue qi ue (admitCommand qi d (some y.1) y.2))) ∧
  (∀ qi d, does (.copy qi) served (fun s => decide (atType s qi 2 = some d) && copyStatus s (queueAt s qi).part d.cmd == stOk && handlesHold s qi d)
    (fun s => resumeQueue qi {} (admitCommand qi d none s))) ∧
  (∀ qi d, does (.importCmd qi) served (fun s => decide (atType s qi 3 = some d) && fld d.cmd 58 2 != 0 && handlesHold s qi d)
    (fun s => resumeQueue qi {} (admitCommand qi d none s))) ∧
  (∀ qi ue d, does (.fabric qi ue) served (fun s => decide (atType s qi 4 = some d) && fabricStatus d.cmd == stOk && handlesHold s qi d)
    (fun s => resumeQueue qi ue (admitCommand qi d none s))) ∧
  (∀ qi ue d, does (.signal qi ue) served (fun s => decide (atType s qi 5 = some d) && handlesHold s qi d) (fun s => resumeQueue qi ue (admitCommand qi d none s))) ∧
  (∀ qi ue d, does (.wait qi ue) served (fun s => decide (atType s qi 6 = some d) && decide (fld d.cmd 48 8 < 2 ^ 63) && handlesHold s qi d)
    (fun s => resumeQueue qi ue (admitCommand qi d none s))) ∧
  (∀ qi ue d, does (.post qi ue) served (fun s => decide (atType s qi 7 = some d) && decide (fld d.cmd 40 1 ≤ 63) && handlesHold s qi d)
    (fun s => resumeQueue qi ue (admitCommand qi d none s))) ∧
  (∀ qi d, does (.copy qi) served (fun s => decide (atType s qi 2 = some d) && copyStatus s (queueAt s qi).part d.cmd != stOk && handlesHold s qi d)
    (fun s => failAtDispatch {} qi d.cmd (copyStatus s (queueAt s qi).part d.cmd) (takeDispatch qi s))) ∧
  (∀ qi ue d, does (.fabric qi ue) served (fun s => decide (atType s qi 4 = some d) && fabricStatus d.cmd != stOk && handlesHold s qi d)
    (fun s => failAtDispatch ue qi d.cmd (fabricStatus d.cmd) (takeDispatch qi s))) ∧
  (∀ qi ue d, does (.wait qi ue) served (fun s => decide (atType s qi 6 = some d) && decide (2 ^ 63 ≤ fld d.cmd 48 8) && handlesHold s qi d)
    (fun s => failAtDispatch ue qi d.cmd stFenceRange (takeDispatch qi s))) ∧
  (∀ qi ue d, does (.signal qi ue) served (fun s => decide (atType s qi 5 = some d) && !handlesHold s qi d)
    (fun s => failAtDispatch ue qi (put d.cmd 8 (le 4 (handlesNow s qi d).fence)) (handlesNow s qi d).status (takeDispatch qi s)))

/-- The place of the next chunk of a COPY: source, destination, bytes. -/
def chunkSrc (c : InFlight) : Nat := fld c.cmd 40 8 + (copyChunk c.cmd c.next).1
def chunkDst (c : InFlight) : Nat := fld c.cmd 48 8 + (copyChunk c.cmd c.next).1
def chunkLen (c : InFlight) : Nat := (copyChunk c.cmd c.next).2

/-- What a chunk's source gives, and the state then: the host's read, or memory's. -/
def chunkRead (qi : Nat) (h : HostRead) (ue : Ue) (c : InFlight) (s : State) : MemRead × State :=
  if srcHost c.cmd then ({ status := h.status, data := fit (chunkLen c) h.data }, s)
  else memRead (copyReq s qi 1 (chunkSrc c)) ue (chunkSrc c) (chunkLen c) s

/-- The bytes it stores, and the state then: what it read; free values where source and destination overlap (R297). -/
def chunkData (qi : Nat) (h : HostRead) (ue : Ue) (c : InFlight) (s : State) : Bytes × State :=
  let x := chunkRead qi h ue c s
  let t := if srcHost c.cmd then x.2 else chargeCopyRead c.cmd s (chunkSrc c) (chunkLen c) x.2
  if copyOverlaps c.cmd then (unstatedBytes (chunkLen c) t, drawn (chunkLen c) t) else (x.1.data, t)

/-- Whether a COPY's next chunk may move: the engine runs, neither end waits, its source is read. -/
def chunkMoves (qi : Nat) (h : HostRead) (ue : Ue) (c : InFlight) (s : State) : Bool :=
  decide (flyingCommand s qi 2 = some c) && !islandStopped s .copyEngine && (srcHost c.cmd || !rangeWaits s false (chunkSrc c) (chunkLen c)) &&
    (dstHost c.cmd || !rangeWaits s true (chunkDst c) (chunkLen c)) && (chunkRead qi h ue c s).1.status == stOk

/-- An IMPORT's next chunk: its index, source, destination; the use of its key slot, the reads of its header and body. -/
def partIndex (c : InFlight) : Nat := fld c.cmd 60 4 + c.next
def partSrc (c : InFlight) : Nat := fld c.cmd 40 8 + 1048704 * c.next
def partDst (c : InFlight) : Nat := fld c.cmd 48 8 + 1048576 * c.next
def partLantern (s : State) (c : InFlight) : Nat := partIndex c % max 1 s.build.lanterns
def partKey (qi : Nat) (c : InFlight) (s : State) : Nat × State := useModel (fld c.cmd 56 2) (queueAt s qi).part s
def partHead (qi : Nat) (ue : Ue) (c : InFlight) (s : State) : MemRead × State :=
  memRead (copyReq (partKey qi c s).2 qi 1 (partSrc c)) ue (partSrc c) 64 (partKey qi c s).2
def partBody (qi : Nat) (ue : Ue) (c : InFlight) (s : State) : MemRead × State :=
  let x := partHead qi ue c s
  memRead (copyReq x.2 qi 1 (partSrc c + 64)) ue (partSrc c + 64) (wcLength x.1.data + 16) x.2
def partPlain (qi : Nat) (ue : Ue) (c : InFlight) (s : State) : Option Bytes :=
  let h := (partHead qi ue c s).1.data
  let b := (partBody qi ue c s).1.data
  gcmOpen (slotKey s (lanternWest s (partLantern s c)) (fld c.cmd 56 2)) (wcIv h) h (b.take (wcLength h)) (b.drop (wcLength h))

/-- A chunk of a COPY whose source is read goes to the host, or to memory (R297); a chunk of an IMPORT that deciphers is written, what
lies in other lanterns through the exchange, and ends when that has landed (R250, R108); a record with its counter and seal is obeyed, another is rejected with a fault (R10); a task that has ended reports, or ends its command
(R23, R61); a WAIT's deadline cycle settles (R284). -/
def Obligations.EngineCompletionsComplete : Prop :=
  (∀ qi h ue c, does (.copyChunkDone qi h ue) served (fun s => chunkMoves qi h ue c s && dstHost c.cmd)
    (fun s =>
      let x := chunkData qi h ue c s
      chunkEnded ue qi c stOk (emit (.hostWrite (queueAt x.2 qi).part (queuePasid x.2 (queueAt x.2 qi).part (queueAt x.2 qi).q)
        (BitVec.ofNat 64 (chunkDst c)) x.1) x.2))) ∧
  (∀ qi h ue c, does (.copyChunkDone qi h ue) served (fun s => chunkMoves qi h ue c s && !dstHost c.cmd)
    (fun s =>
      let x := chunkData qi h ue c s
      let y := memWrite (copyReq x.2 qi 2 (chunkDst c)) ue (chunkDst c) x.1 x.2
      chunkEnded ue qi c y.1 (chargeCopyWrite c.cmd s (chunkDst c) (chunkLen c) y.2))) ∧
  (∀ qi ue c plain, does (.importChunkDone qi ue) served
    (fun s => decide (flyingCommand s qi 3 = some c) && !c.storing && !islandStopped s .copyEngine && !islandStopped s (.crypto (partLantern s c)) &&
      !rangeWaits s false (partSrc c) 1048704 && !rangeWaits s true (partDst c) 1048576 && !lanternSnuffed s (partLantern s c) &&
      (partKey qi c s).1 == stOk && (partHead qi ue c s).1.status == stOk && wcOk (partHead qi ue c s).1.data (partIndex c) &&
      (partBody qi ue c s).1.status == stOk && partPlain qi ue c s == some plain)
    (fun s =>
      let n := wcLength (partHead qi ue c s).1.data
      let t := chargeCopyRead c.cmd s (partSrc c) (80 + n) (partBody qi ue c s).2
      let l := partLantern s c
      let y := writeParts qi ue (partDst c) plain (ownParts t l (partDst c) n) t
      let u := chargeCopyWrite c.cmd s (partDst c) n y.2
      let ks := chunkLanterns u l (partDst c) n
      if y.1 ≠ stOk ∨ ks = [] then chunkEnded ue qi c y.1 u
      else ks.foldl (fun s k => sendImport qi c.serial l k (partDst c) plain s)
        (modInFlight qi c.serial (fun c => { c with storing := true, result := stOk }) u))) ∧
  (∀ qi ue c, does (.importChunkDone qi ue) served (fun s => decide (flyingCommand s qi 3 = some c) && c.storing && c.exch == [])
    (fun s => chunkEnded {} qi c c.result (modInFlight qi c.serial (fun c => { c with storing := false }) s))) ∧
  (∀ r b body, does (.dispatchRecord r) served
    (fun s =>
      let x := injectCheck clsDispatchPath kindFeAgent 0 0 0 s
      !islandStopped s .feAgent && !x.1 && r.counter == x.2.keys.dispatchRx + 1 && openRecord x.2 true r == some b && dispatchBodyOf b == some body)
    (fun s =>
      let t := onKeys (fun k => { k with dispatchRx := r.counter }) (injectCheck clsDispatchPath kindFeAgent 0 0 0 s).2
      match body with
      | .startTask k => startEast k t
      | .abortTask k => modTask k (fun x => if x.live then { x with aborting := true } else x) t
      | .copyChunk qi => beginCopies qi t
      | .fabric qi => settle {} (driveFabric {} (takeFabric qi t)))) ∧
  (∀ r, does (.dispatchRecord r) served
    (fun s =>
      let x := injectCheck clsDispatchPath kindFeAgent 0 0 0 s
      !islandStopped s .feAgent && (x.1 || r.counter != x.2.keys.dispatchRx + 1 || openRecord x.2 true r == none))
    (fun s => recordFault { cls := clsDispatchPath, kind := kindFeAgent, inst := 0, status := stIntegrityFail }
      (injectCheck clsDispatchPath kindFeAgent 0 0 0 s).2)) ∧
  (∀ r ue b body, does (.completionReport r ue) served
    (fun s =>
      let x := injectCheck clsDispatchPath kindFrontEnd 0 0 0 s
      !islandStopped s .frontEnd && !x.1 && r.counter == x.2.keys.reportRx + 1 && openRecord x.2 false r == some b && reportBodyOf b == some body)
    (fun s =>
      let t := onKeys (fun k => { k with reportRx := r.counter }) (injectCheck clsDispatchPath kindFrontEnd 0 0 0 s).2
      match body with
      | .taskDone k nan sat => finishTask ue k (eastReported k nan sat t)
      | .copyDone qi => (eastEnded t qi [2, 3]).elim t (fun c => settle ue (endCommand qi c.serial c.result t))
      | .fabricDone qi => (eastEnded t qi [4]).elim t (fun c => settle ue (endCommand qi c.serial c.result t)))) ∧
  (∀ t ue, does (.taskCompletionReport t ue) served (fun s => eastReady s t)
    (fun s => sendReport (.taskDone t (taskAt s t).nanEast (taskAt s t).satEast)
      (modTask t (fun x => { x with reported := true, nanEast := 0, satEast := 0 }) s))) ∧
  (∀ t ue qi n, does (.taskCompletionReport t ue) served
    (fun s => !eastReady s t && !islandStopped s .frontEnd && taskEnded s t && decide ((taskAt s t).purpose = .command qi n))
    (fun s =>
      let u := freeTask t (endRun t s)
      settle ue (if (taskAt s t).failed then endCommand qi n (taskAt s t).status u else if (taskAt s t).aborting then endKilled qi n u
        else endCommand qi n stOk u))) ∧
  (∀ ue, does (.waitDeadline ue) served (fun _ => true) (settleLate ue))

/-! ## The seam -/

/-- The receiving endpoint's look at a message whose words it has taken: injected failures taken, corrected words counted (R11, R381, R483). -/
def seamCe (m : SeamMsg) (s : State) : Bool × State := injectCheck clsSeamCe kindSeam (b2n m.toEast) 0 0 (wordsTaken m s)
def seamLook (m : SeamMsg) (s : State) : Bool × State := injectCheck clsSeamUe kindSeam (b2n m.toEast) 0 0 (seamCe m s).2
def seamSeen (m : SeamMsg) (s : State) : State := countCorrected { m with corrected := m.corrected + b2n (seamCe m s).1 } (seamLook m s).2

/-- A sound message of a class: undamaged, of VER 1 and the class, as long as it says, next in sequence (R11 to R14). -/
def sound (cls : Nat) (m : SeamMsg) (s : State) : Bool :=
  !(seamLook m s).1 && !m.uncorrectable && hdrVer m.header == 1 && hdrCls m.header == cls &&
    decide (1 ≤ cls ∧ cls < 10) && m.payload.length == hdrLen m.header &&
    hdrSeq m.header == (tget 0 (seamSeen m s).seam.rxSeq (seamKey m.toEast cls)).toNat

/-- The state in which a sound message takes effect: its sequence number has gone by, its credit goes back (R14, R15). -/
def received (cls : Nat) (m : SeamMsg) (s : State) : State :=
  let t := onSeam (fun x => { x with rxSeq := tset 0 x.rxSeq (seamKey m.toEast cls) (tget 0 x.rxSeq (seamKey m.toEast cls) + 1) }) (seamSeen m s)
  if cls = 9 then t else returnCredit m.toEast cls t

/-- A sound message of a class the seam carries takes its effect where `cond` holds. -/
def seamDoes (c : Instr) (keep : State → State → State) (cls : Nat) (m : SeamMsg) (cond : State → Bool) (effect : State → State) : Prop :=
  does c keep (fun s => sound cls m s && seamCarries (received cls m s) cls && cond (received cls m s)) (fun s => effect (received cls m s))

/-- A sound message of a class the seam does not carry before pairing (R16) leaves nothing but its place in the sequence and its credit;
notes/assumptions/78.md names the choice. -/
def seamIdles (c : Instr) (cls : Nat) (m : SeamMsg) : Prop :=
  does c served (fun s => sound cls m s && !seamCarries (received cls m s) cls) (received cls m)

/-- A KEY message of a form opens (R18): what it holds, and the state in which its counter has gone by. -/
def opens (toEast : Bool) (sub len : Nat) (m : SeamMsg) (b : Bytes) (s : State) : Bool :=
  m.toEast == toEast && keySubOf m.header == sub && m.payload.length == len && decide (keySlotOf m.header < 1056) && (openKeyMsg m s).1 == some b
def opened (m : SeamMsg) (s : State) : State := (openKeyMsg m s).2

/-- SESSION: the other half's key and nonce, with this half's own, give the session key and this half's confirmation, its confirmation pairs
the halves once both have checked, and a wrong one halts (R17). KEY: East stores, or clears, a slot of its mirror, takes up what waited for
it, and acknowledges; an acknowledgement counts, and requests that wait for it go on (R18 to R20). A damaged message is a seam fault,
paired or not (R11), and one of a class not carried yet has no effect (R16). -/
def Obligations.SeamKeyMessagesComplete : Prop :=
  (∀ m k, seamDoes (.seamSession m) fused 1 m
    (fun s => !s.seam.paired && m.payload.length == 14 && pairKey s m.toEast ((bytesOf m.payload).take 96) ((bytesOf m.payload).drop 96) == some k)
    (fun s => continueBoot (seamSend (!m.toEast) 1 (.words 0 (wordsOf (confirmTag k (!m.toEast))))
      (onSeam (fun x => if m.toEast then { x with eastKey := k } else { x with sessionKey := k }) s)))) ∧
  (∀ m, seamDoes (.seamSession m) fused 1 m
    (fun s => !s.seam.paired && m.payload.length == 2 && (if m.toEast then s.seam.eastKey else s.seam.sessionKey) != [] &&
      confirmTag (if m.toEast then s.seam.eastKey else s.seam.sessionKey) m.toEast == bytesOf m.payload)
    (fun s => continueBoot (pairIfReady (onSeam (fun x => if m.toEast then { x with confWest := true } else { x with confEast := true }) s)))) ∧
  (∀ m, seamDoes (.seamSession m) fused 1 m
    (fun s => !s.seam.paired && m.payload.length == 2 &&
      confirmTag (if m.toEast then s.seam.eastKey else s.seam.sessionKey) m.toEast != bytesOf m.payload)
    (fun s => continueBoot (haltBoot 4 stOk s))) ∧
  (∀ m b, seamDoes (.seamKeyLoad m) served 2 m (opens true 1 8 m b)
    (fun s => ackKey m (deferredRolls (storeMirror (keySlotOf m.header) b (opened m s))))) ∧
  (∀ m b, seamDoes (.seamKeyClear m) served 2 m (opens true 2 2 m b)
    (fun s => ackKey m (deferredRolls (setEngineKey (keySlotOf m.header) [] (setMirror (keySlotOf m.header) {} (opened m s)))))) ∧
  (∀ m b, seamDoes (.seamKeyClearAll m) served 2 m (opens true 3 2 m b)
    (fun s => ackKey m (onFabric (fun f => { f with linkKeys := [] }) (onKeys (fun k => { k with mirror := [] }) (opened m s))))) ∧
  (∀ m b, seamDoes (.seamKeyAck m) served 2 m
    (fun s => decide (1 ≤ keySubOf m.header ∧ keySubOf m.header ≤ 3) && opens false (keySubOf m.header) 2 m b s) (fun s => settle {} (opened m s))) ∧
  (∀ m, does (.seamKeyLoad m) served (fun _ => m.uncorrectable) (fun s => simpleFault clsSeamUe kindSeam (b2n m.toEast) (seamSeen m s))) ∧
  (∀ m, seamIdles (.seamKeyLoad m) 2 m)

/-- SNUFF: East fences or releases a domain and answers (R389). CURFEW: East arms, takes a cancel or a dawn; West hears that East is armed or
has stopped (R426, R427, R431). TIME: the follower steers by a sync and echoes one that carries no steering change, West takes the echo, a
sync goes out every 4 µs (R25, R26). FAULT: West stores East's record and acknowledges, East frees its buffer (R372). MAILBOX: East takes a table or drops one, West answers the
request (R21, R88). TRACE: East follows control, a trigger freezes (R416, R425). CREDIT: a credit comes back and what waited leaves (R15). -/
def Obligations.SeamMessagesComplete : Prop :=
  (∀ m, seamDoes (.seamSnuff m) served 3 m
    (fun s =>
      let a := hdrArg m.header
      let d := bits a 23 16
      m.toEast && (bits a 31 24 == 1 || bits a 31 24 == 3) && decide ((d = 1 ∧ bits a 15 8 < s.build.lanterns) ∨ (d = 2 ∧ bits a 15 8 < s.build.links) ∨ d = 3))
    (fun s =>
      let a := hdrArg m.header
      settle {} (seamSend false 3 (.words (snuffArg 4 (bits a 23 16) (bits a 15 8)) [])
        (modSnuff (snuffMsgKey (bits a 23 16) (bits a 15 8)) (fun x => { x with fencedE := decide (bits a 31 24 = 1) }) s)))) ∧
  (∀ m t dawn, seamDoes (.seamCurfew m (.arm t dawn)) served 4 m (fun _ => m.toEast)
    (fun s => seamSend false 4 (.curfew (.arm t dawn)) (onCurfew (fun c => { c with armedE := true }) s))) ∧
  (∀ m t dawn, seamDoes (.seamCurfew m (.arm t dawn)) served 4 m (fun _ => !m.toEast)
    (fun s => settle {} (onBoxes (fun b => { b with waiting := b.waiting.map (fun w =>
      if w.cond = .curfewArmed then { w with cond := .eastKeys 0 } else w) }) s))) ∧
  (∀ m, seamDoes (.seamCurfew m .cancel) served 4 m (fun _ => m.toEast) (onCurfew (fun c => { c with armedE := false }))) ∧
  (∀ m t, seamDoes (.seamCurfew m (.dawn t)) served 4 m (fun _ => m.toEast) (onCurfew (fun c => { c with dawn := t }))) ∧
  (∀ m, seamDoes (.seamCurfew m .stopped) served 4 m (fun _ => !m.toEast) (fun s => stoppedIfReady (onCurfew (fun c => { c with eastStop := true }) s))) ∧
  (∀ m b, seamDoes (.seamTimeSync m b) fused 5 m (fun _ => m.toEast)
    (fun s =>
      let by_ (d : Int) (s : State) : State := onTime (fun t => if 0 ≤ d then { t with east := t.east + d.toNat } else { t with hold := t.hold + (-d).toNat }) s
      let t := by_ (min b.correction 2) (by_ b.steer s)
      if b.steer = 0 then seamSend false 5 (.echo t.time.east) t else t)) ∧
  (∀ m e, seamDoes (.seamTimeEcho m e) fused 5 m (fun _ => !m.toEast)
    (onTime (fun t => { t with correction := (((t.lastSync + t.now) / 2 : Nat) : Int) - (e : Nat) }))) ∧
  does .timeSyncSend fused (fun s => decide (s.time.lastSync + 4000 ≤ now s))
    (fun s => onTime (fun t => { t with lastSync := t.now, correction := 0 }) (seamSend true 5 (.sync ⟨now s, s.time.correction, 0⟩) s)) ∧
  (∀ m, seamDoes (.seamFault m) served 6 m (fun _ => !m.toEast && m.payload.length == 8)
    (fun s => settle {} (seamSend true 6 (.words 0 []) (storeRecord (recordOf (bytesOf m.payload)) s)))) ∧
  (∀ m, seamDoes (.seamFaultAck m) served 6 m (fun _ => m.toEast && decide (m.payload = []))
    (fun s => s.faults.eastHold.foldl (fun t e => eastRecord e.2 t) (onFaults (fun f => { f with eastBuf := f.eastBuf.drop 1, eastHold := [] }) s))) ∧
  (∀ m ue t kind i n len digest, seamDoes (.seamMailbox m (.fetch t kind i n len digest) ue) served 7 m (fun _ => m.toEast)
    (eastFetches t kind i len digest)) ∧
  (∀ m ue t kind i n, seamDoes (.seamMailbox m (.drop t kind i n) ue) served 7 m (fun _ => m.toEast)
    (fun s => seamSend false 7 (.mailbox (.reply t stOk)) ((List.range n).foldl (fun s j => storeIn false kind (i + j) [] s) s))) ∧
  (∀ m ue t st, seamDoes (.seamMailbox m (.reply t st) ue) served 7 m (fun _ => !m.toEast) (fun s => settle ue (fetchReplied t st s))) ∧
  (∀ m k sub, seamDoes (.seamTrace m (.control k sub)) served 8 m (fun s => m.toEast && decide ((bufAt s k).owner ≠ none))
    (fun s => seamSend false 8 (.trace (.status k ((bufAt (controlSub k 1 sub s) k).east.state))) (controlSub k 1 sub s))) ∧
  (∀ m k t a b, seamDoes (.seamTrace m (.trigger k t a b)) served 8 m (fun _ => true)
    (fun s => freezeSub k (b2n m.toEast) t (modBuf k (fun b => if b.owner = none then b else { b with fired := true }) s))) ∧
  (∀ m, seamDoes (.seamCredit m) served 9 m (fun _ => true)
    (fun s =>
      let k := seamKey (!m.toEast) (hdrArg m.header % 16)
      seamFlush (onSeam (fun x => { x with spent := tset 0 x.spent k (tget 0 x.spent k - bits (hdrArg m.header) 15 8) }) s)))

/-- A lantern's look at an exchange record: injected failures taken; what its seal opens to. -/
def exchLook (m : ExchangeMsg) (s : State) : Bool × State := injectCheck clsExchangeFail kindLantern m.dest m.source 0 s
def exchPlain (m : ExchangeMsg) (s : State) : Option Bytes :=
  if (exchLook m s).1 then none else gcmOpen (exchangeKey (exchLook m s).2 m.dest) (exchangeIv m) [] m.sealed m.tag
def exchTaken (m : ExchangeMsg) (s : State) : Bool :=
  decide (m.dest < s.build.lanterns ∧ m.source < 256 ∧ m.sealed.length ≤ 4112) && !islandStopped s (.wicks m.dest)

/-- An exchange record that opens as the next of its source takes effect, and its source's counter moves; one that does not open, or is not
the next, fails (R108, R109). A transit crossing that opens under the next counter leaves by its port or is dropped there, and one that
came in by a port of the other half is taken in here; another is rejected with a fault (R193, R213, R10). -/
def Obligations.RecordsAcrossComplete : Prop :=
  (∀ m p, does (.exchangeRecord m) served (fun s => exchTaken m s && exchPlain m s == some p && exchangeNext (exchLook m s).2 m)
    (fun s => settle {} (importResume (exchangePiece m p
      (onExperts (fun e => { e with exchRx := tset (0, 0) e.exchRx (exchKey m) (m.incarnation, m.counter) }) (exchLook m s).2))))) ∧
  (∀ m, does (.exchangeRecord m) served (fun s => exchTaken m s && exchPlain m s == none)
    (fun s => settle {} (importResume (exchangeFails m stIntegrityFail (tget [] s.experts.exchPart (exchKey m)) (exchLook m s).2)))) ∧
  (∀ m p, does (.exchangeRecord m) served (fun s => exchTaken m s && exchPlain m s == some p && !exchangeNext (exchLook m s).2 m)
    (fun s => settle {} (importResume (exchangeFails m stIntegrityFail
      (if (fld p 1 1).testBit 0 then p.drop 16 else tget [] s.experts.exchPart (exchKey m)) (exchLook m s).2)))) ∧
  (∀ toEast port counter sealed tag ue p, does (.transitCrossing toEast port counter ⟨sealed, ue⟩ tag) served
    (fun s => decide (port < s.build.links) && linkWest s port == !toEast && gcmOpen (engineKey s (!toEast) 1026) (transitIv toEast counter) [] sealed tag == some p &&
      counter == (if toEast then s.keys.transitRxE else s.keys.transitRxW) + 1)
    (fun s =>
      let t := onKeys (fun k => if toEast then { k with transitRxE := counter } else { k with transitRxW := counter }) s
      let n := if fMode (p.take 32) = 2 then p.length - 48 else p.length - 32
      if portUp t port then portOut (!toEast) port (p.take 32) ((p.drop 32).take n) ((p.drop 32).drop n) t else dropFrame port t)) ∧
  (∀ toEast port counter sealed tag ue p, does (.transitCrossing toEast port counter ⟨sealed, ue⟩ tag) served
    (fun s => decide (port < s.build.links) && linkWest s port == toEast && (!linkStopped s (!toEast) || areaRoom s sealed.length) &&
      gcmOpen (engineKey s (!toEast) 1026) (transitIv toEast counter) [] sealed tag == some p &&
      counter == (if toEast then s.keys.transitRxE else s.keys.transitRxW) + 1)
    (fun s =>
      let t := onKeys (fun k => if toEast then { k with transitRxE := counter } else { k with transitRxW := counter }) s
      let f := transitFrame p
      settle ue (driveFabric ue (takenIn ue (!toEast) port f (linkStopped t (!toEast)) (checkSealed port f t))))) ∧
  (∀ toEast port counter sealed tag ue, does (.transitCrossing toEast port counter ⟨sealed, ue⟩ tag) served
    (fun s => decide (port < s.build.links) && linkWest s port == !toEast && gcmOpen (engineKey s (!toEast) 1026) (transitIv toEast counter) [] sealed tag == none)
    (dispatchPathFault (if toEast then kindFeAgent else kindFrontEnd)))
/-! ## The target sides and the tiers -/

/-- A MESSAGE stands at a port that exists, of a lantern that takes requests. -/
def messageTaken (s : State) (port : Nat) : Bool :=
  decide (port ≤ 16) && (port == 16 || (decide (port < s.build.lanterns) && !lanternSnuffed s port && (lanternAt s port).ready))

/-- Whether a MESSAGE has the form of R465: 64 to 4,160 B, the address below 2^24 and of this port. -/
def messageForm (port : Nat) (addr : Word64) (payload : Bytes) : Bool :=
  decide (64 ≤ payload.length ∧ payload.length ≤ 4160 ∧ addr.toNat / 2 ^ 24 = 0) && bits addr.toNat 23 16 == port

/-- A request enters its port's list, as the next of all that arrive at the memory path (R67). -/
def setPortOf (r : PortReq) (w : PortWait) (s : State) : State :=
  onPath (fun p => { p with arrivals := s.path.arrivals + 1 }) (setPort r.port (portAt s r.port ++ [{ w with arrival := s.path.arrivals }]) s)

/-- A READ or WRITE that passes its checks is held in acceptance order, the WRITE performed as soon as it may be; one that does not is
answered with its status, a READ with poison (R456 to R461); a WRITE that meets a curfew stalls its port (R427, R463). A MESSAGE is
answered and the record it carries waits at its endpoint (R465). A read whose data is in has its units' status, data and poison, and owes
its tags' verdicts (R55, R462); a verdict reaches what waits for it (R55, R57). -/
def Obligations.PortRequestsComplete : Prop :=
  (∀ r, does (.requestPortRead r) served (fun s => portOpen s r.port && (portStatus s r false).1 == stOk)
    (setPortOf r { req := r, write := false, phase := 0, status := stOk, data := [], poison := [] })) ∧
  (∀ r, does (.requestPortRead r) served (fun s => portOpen s r.port && (portStatus s r false).1 != stOk)
    (fun s =>
      let st := portStatus s r false
      let n := min (r.len + 1) 128
      settle {} (pumpPort {} r.port (setPortOf r { req := r, write := false, phase := 2, status := st.1, data := poisonBytes (64 * n)
                                                   poison := List.replicate n true }
        (recordDenied (portReq r 1) r.addr.toNat { status := st.1, cls := st.2 } s))))) ∧
  (∀ r d be ue, does (.requestPortWrite r d be ue) served
    (fun s => portOpen s r.port && !portStalls s r.port && (portStatus s r true).1 == stOk && d.length == portBytes r && be.length == portBytes r &&
      enablesOk s r be)
    (fun s => settle ue (pumpPort ue r.port
      (setPortOf r { req := r, write := true, phase := 0, status := stOk, data := [], poison := [], wdata := d, wbe := be } s)))) ∧
  (∀ r d be ue, does (.requestPortWrite r d be ue) served (fun s => portOpen s r.port && portStalls s r.port)
    (onCurfew (fun c => { c with blockedPorts := c.blockedPorts ++ [r.port] }))) ∧
  (∀ port addr b, does (.message port addr b) fused (fun s => messageTaken s port && messageForm port addr b && decide (addr.toNat % 256 ≤ 3))
    (fun s => { (emit (.writeResponse port 0 stOk) s) with inbox := s.inbox ++ [⟨port, bits addr.toNat 15 8, addr.toNat % 256, b⟩] })) ∧
  (∀ port addr b, does (.message port addr b) fused (fun s => messageTaken s port && messageForm port addr b && decide (3 < addr.toNat % 256))
    (emit (.writeResponse port 0 stOk))) ∧
  (∀ port addr b, does (.message port addr b) fused (fun s => messageTaken s port && !messageForm port addr b)
    (emit (.writeResponse port 0 stBadArg))) ∧
  (∀ port id ue k w, does (.stackedReadReturn port id ue) served (fun s => returning s port id false == some (k, w))
    (fun s =>
      let x := readUnits ue w s
      let tags := x.1.flatMap (fun u => u.2.tags)
      let a : PortWait := { w with phase := if tags = [] then 2 else 1, status := ((x.1.map (fun u => unitStatus u.2)).find? (· ≠ stOk)).getD stOk
                                   data := x.1.flatMap (fun u => if unitStatus u.2 = stOk then u.2.data else poisonBytes u.1)
                                   poison := x.1.flatMap (fun u => List.replicate (u.1 / 64) (decide (unitStatus u.2 ≠ stOk))), left := tags.length }
      settle ue (pumpPort ue port (oweVerdicts port id w.req.part tags (setPort port ((portAt x.2 port).set k a) x.2))))) ∧
  (∀ port id ue k w, does (.capReadReturn port id ue) served (fun s => returning s port id true == some (k, w))
    (fun s => settle ue (pumpPort ue port (readPlaced port id k w (readUnits ue w s))))) ∧
  (∀ c v vs l k, does (.capacityVerdict c) served (fun s => (capAt s c).verdicts == v :: vs && decide (v.target = .ticket l k))
    (fun s => settle {} (ticketVerdict {} l k v.addr.toNat v.pass (modCap c (fun x => { x with verdicts := vs }) s)))) ∧
  (∀ c v vs p id, does (.capacityVerdict c) served (fun s => (capAt s c).verdicts == v :: vs && decide (v.target = .port p id))
    (fun s => settle {} (portVerdict c p id v (modCap c (fun x => { x with verdicts := vs }) s))))

/-- The rotation-due event comes again after 1 s without a usable target (R53); a unit's chunk opens at its watermark, and once swept its
contents stand under the target key, the owner's sweep total counts 8,192 B, its watermark moves on or its share ends, and what waited goes
(R66 to R69). A quarantine lapses after 50 µs (R393); the repair of a page without a replica that failed again remaps it, one from its
replica writes the replica, and where it reads back ends the quarantine and the page's poison marks and records it (R396, R397). -/
def Obligations.SweepAndRepairComplete : Prop :=
  (∀ k, does (.rotationDueRepeat k) served
    (fun s =>
      let d := tget {} s.path.due k
      d.on && decide (d.last + 1000000000 ≤ now s) && dueTarget s d.owner == 0xFFFF)
    (fun s => settle {} (rotationDueEvent k (tget {} s.path.due k).cause
      (onPath (fun p => { p with due := tset {} p.due k { tget {} p.due k with last := now s } }) s)))) ∧
  (∀ n u x, does (.sweepChunkStart n u) served
    (fun s => shareAt s n u == some x && (rotationAt s n).active && !(rotationAt s n).aliased && !x.done && !x.open_ && !unitIdle s u &&
      !chunkBusy s (unitDomain s u x.watermark))
    (fun s => settle {} (modShare n u (fun x => { x with open_ := true }) s))) ∧
  (∀ n u ue x, does (.sweepChunkDone n u ue) recorded (fun s => shareAt s n u == some x && (rotationAt s n).active && x.open_ && !unitIdle s u)
    (fun s =>
      let r := rotationAt s n
      let t := modTotals r.owner (fun t => { t with sweep := satTo 64 (t.sweep + 8192) }) (sweepChunk r ue u x.watermark s)
      pumpHeld ue (finishSweep n (traceSweep n u (modShare n u (fun x => match x.nextFrom (x.watermark + 4096) with
        | some w => { x with watermark := w, open_ := false }
        | none => { x with watermark := x.watermark + 4096, open_ := false, done := true }) t))))) ∧
  (∀ l page q, does (.quarantineLapse l page) served
    (fun s => (lanternAt s l).quarantine.find? (fun q => q.page == page) == some q && decide (q.since + 50000 ≤ clock s (lanternWest s l)))
    (fun s => pumpHeld {} (modLantern l (fun x => { x with quarantine := x.quarantine.filter (fun q => q.page ≠ page) }) s))) ∧
  (∀ l page ue, does (.pageRepair l page ue) recorded
    (fun s => quarantined s l page && !unitIdle s (.lantern l) && repairEntry s (domainOfLocal s l (page * 4096)) == none &&
      decide (2 ≤ recentErrors s l page))
    (fun s => pumpHeld ue (remapPage ue l page none s))) ∧
  (∀ l page ue e, does (.pageRepair l page ue) recorded
    (fun s =>
      let a := domainOfLocal s l (page * 4096)
      let x := memRead (repairReq l 1) ue (reqAddr e.rkey (e.replica + (a - e.base))) 4096 s
      let t := (memWrite (repairReq l 2) {} (reqAddr e.key a) x.1.data (onParts (fun p => { p with repairBytes := satTo 64 (p.repairBytes + 12288) }) x.2)).2
      quarantined s l page && !unitIdle s (.lantern l) && repairEntry s a == some e && decide (recentErrors s l page < 2) && x.1.status == stOk &&
        repairHolds l page ue e.key x.1.data t)
    (fun s =>
      let a := domainOfLocal s l (page * 4096)
      let x := memRead (repairReq l 1) ue (reqAddr e.rkey (e.replica + (a - e.base))) 4096 s
      let t := (memWrite (repairReq l 2) {} (reqAddr e.key a) x.1.data (onParts (fun p => { p with repairBytes := satTo 64 (p.repairBytes + 12288) }) x.2)).2
      repairDone l page ue e.key (endQuarantine l page t)))

/-! ## Records, pilot items and the trim loop -/

/-- A record leaves the list of those that landed. -/
def recordGone (r : RxRecord) (s : State) : State := onExperts (fun e => { e with records := e.records.erase r }) s

/-- The slot that an answer record's tag names (R182). -/
def answerSlot (r : RxRecord) : Nat := fld r.bytes 4 4 % 1024

/-- Whether an answer record's tag names its slot as it stands: open, of this generation (R182). -/
def answerCurrent (s : State) (r : RxRecord) : Bool :=
  (combineAt s (answerSlot r)).state == .open_ && bits (fld r.bytes 4 4) 31 20 == (combineAt s (answerSlot r)).gen

/-- The answers that landed in a lantern for a slot by its deadline, applied in their order (R183). -/
def answersIn (k l : Nat) (s : State) : State :=
  (s.experts.records.filter (landedFor s k l)).foldl (fun s r => (applyAnswer r s).elim s (recordGone r)) s

/-- The state in which one lantern's part of a slot is EXPIRED. -/
def partExpired (k l : Nat) (s : State) : State :=
  setCombine k { combineAt s k with parts := (combineAt s k).parts.map (fun p => if p.lantern = l ∧ p.state = .open_ then { p with state := .expired } else p) } s

/-- The oldest dispatch record of a port is taken: dropped where its version is not implemented or it is malformed, and counted where its
server is closing or gone, otherwise its pairs enter the batches of their slices as far as there is room, and their tokens go to the
slices' lanterns as exchange records (R179). An answer record of another version is dropped with a Note, one that names its slot no more
is stale, counted and dropped, one that does is taken by its slot (R182). A gather window that has ended closes its batch, after what
landed by its end has joined (R179, R180), and at a slot's deadline the lantern's part of it ends as it stands, after the answers that
landed by then (R183). A member's period that has ended sends its loads to the leader, the leader's own joining the sums at once (R186);
the leader computes once all have reported, or at its time, and multicasts the block (R186, R187); a newer block of the group is written
into the copy that no task pins, which becomes the active one with East's reply, any other is dropped (R188). -/
def Obligations.ExpertRecordsComplete : Prop :=
  (∀ p r, does (.arrivalRecord p) served (fun s => !linkStopped s (linkWest s p) && firstRecord s p true == some r && fld r.bytes 0 1 != 1)
    (fun s => settle {} (recordGone r (recordFault { cls := clsFabricDeniedIn, kind := kindLink, inst := r.port, status := stVersion, part := r.part } s)))) ∧
  (∀ p r, does (.arrivalRecord p) served (fun s => !linkStopped s (linkWest s p) && firstRecord s p true == some r && fld r.bytes 0 1 == 1 && !dispatchOk r.bytes)
    (fun s => settle {} (recordGone r s))) ∧
  (∀ p r, does (.arrivalRecord p) served (fun s => !linkStopped s (linkWest s p) && firstRecord s p true == some r && fld r.bytes 0 1 == 1 &&
      dispatchOk r.bytes && (serverAt s r.server).live && (serverAt s r.server).closing)
    (fun s => settle {} (recordGone r (modServer r.server (fun y => if y.live then { y with dropped := y.dropped + 1 } else y) s)))) ∧
  (∀ p r, does (.arrivalRecord p) served (fun s => !linkStopped s (linkWest s p) && firstRecord s p true == some r && fld r.bytes 0 1 == 1 &&
      dispatchOk r.bytes && (serverAt s r.server).live && !(serverAt s r.server).closing)
    (fun s =>
      let x := arrivePairs r (fld r.bytes 2 1) 0 (closeBefore r.server r.landed s)
      let t := closeWaiting r.server (forwardRecord r x.2)
      settle {} (if x.1 = fld r.bytes 2 1 then recordGone r t
        else onExperts (fun e => { e with records := e.records.map (fun y => if y = r then { y with bytes := cutPairs y.bytes x.1 } else y) }) t))) ∧
  (∀ p r, does (.answerRecord p) served (fun s => !linkStopped s (linkWest s p) && firstRecord s p false == some r && fld r.bytes 0 1 != 1)
    (fun s => settle {} (recordGone r (recordFault { cls := clsMalformedAnswer, kind := kindLantern, inst := 0, status := stVersion, part := r.part }
      (modCounters r.part (fun c => { c with malformed := satTo 64 (c.malformed + 1) }) s))))) ∧
  (∀ p r, does (.answerRecord p) served (fun s => !linkStopped s (linkWest s p) && firstRecord s p false == some r && fld r.bytes 0 1 == 1 && !answerCurrent s r)
    (fun s => settle {} (recordGone r (modCounters r.part (fun c => { c with stale := satTo 64 (c.stale + 1) }) s)))) ∧
  (∀ p r t, does (.answerRecord p) served (fun s => !linkStopped s (linkWest s p) && firstRecord s p false == some r && fld r.bytes 0 1 == 1 &&
      answerCurrent s r && decide (applyAnswer r s = some t))
    (fun _ => settle {} (recordGone r t))) ∧
  (∀ k i c, does (.gatherWindowExpiry k i) served
    (fun s => (serverAt s k).slices[i]? == some c && c.bound.isSome && !c.posted && decide (c.window ≤ now s))
    (fun s => settle {} (closeBatch k i
      ((s.experts.records.filter (fun r => r.arrival && r.server == k && decide (r.landed ≤ c.window))).foldl (fun s r => arriveRecord r s) s)))) ∧
  (∀ k l, does (.combineDeadline k l) served (fun s => !islandStopped s (.wicks l) && ((combineAt s k).state == .open_ || (combineAt s k).state == .expired) &&
      decide ((combineAt s k).deadline ≤ clock s (lanternWest s l)) && !s.experts.records.any (landedFor s k l))
    (fun s => settle {} (settleSlot k (partExpired k l s)))) ∧
  (∀ k l, does (.combineDeadline k l) served (fun s => !islandStopped s (.wicks l) && decide ((combineAt s k).deadline ≤ clock s (lanternWest s l)) &&
      !(answersIn k l s).experts.records.any (landedFor (answersIn k l s) k l))
    (fun s => settle {} (expirePart k l (answersIn k l s)))) ∧
  (∀ g ue, does (.trimPeriodEnd g ue) served (fun s => (groupAt s g).live && !s.curfew.inForce && !s.ll.halted && decide ((groupAt s g).periodEnd ≤ now s))
    (fun s =>
      let x := sumLoads ue (groupAt s g) s
      let t := nextPeriod g x.2
      if (groupAt s g).leader = t.fabric.node then addReport g t.fabric.node (addCounts g 0 x.1 t)
      else driveFabric ue (sendLoads g (groupAt s g) x.1 t))) ∧
  (∀ g ue, does (.trimCompute g ue) served (fun s => (groupAt s g).live && (groupAt s g).leader == s.fabric.node && !s.curfew.inForce && !s.ll.halted &&
      (groupAt s g).computeAt != 0 && (decide ((groupAt s g).members.length ≤ (groupAt s g).reported) || decide ((groupAt s g).computeAt ≤ now s)) &&
      (currentBias ue g s).1.status == stOk)
    (fun s =>
      let x := currentBias ue g s
      let r := groupAt s g
      multicastBlock ue g (blockHeader g r (blockEpoch x.2 r) ++ (newBias r x.1.data).flatMap (le 4)) (closePeriod g r x.2))) ∧
  (∀ g, does (.biasBlockInstall g) served (fun s => (groupAt s g).live && (groupAt s g).pending && (groupAt s g).fetching == 0 && !blockFits (groupAt s g))
    (modGroup g (fun g => { g with pending := false, waitBlock := [] }))) ∧
  (∀ g, does (.biasBlockInstall g) served (fun s => (groupAt s g).live && (groupAt s g).pending && (groupAt s g).fetching == 0 && blockFits (groupAt s g) &&
      !biasPinned s g (1 - (groupAt s g).active))
    (fun s => swapBias g (groupAt s g) s))

/-- Whether a pilot may begin an item now (R310). -/
def pilotReady (s : State) (pi : Nat) : Bool :=
  let p := pilotAt s pi
  dispatchOpen s && (partAt s p.part).state == .active && (p.state == .waiting || p.state == .running || (p.state == .stopping && p.drain)) && p.current.isNone

/-- The pilot with its oldest item taken. -/
def itemTaken (pi : Nat) (item : Bytes) (rest : List Bytes) (s : State) : State :=
  let p := pilotAt s pi
  setPilot pi { p with items := rest, current := some item, state := if p.state = .stopping then .stopping else .running } s

/-- The next item of a pilot that waits for one begins: it takes its arguments from the item, the sequences it names are held, and its
wicks start; an item whose own checks fail, fails the pilot (R310, R311). An item that has ended with its answers sent signals the pilot's
fence with V0 plus the count of items retired, frees its slice and leaves the pilot WAITING, RUNNING where items wait, or STOPPING (R310,
R181); an item that failed fails the pilot (R311). -/
def Obligations.PilotItemsComplete : Prop :=
  (∀ pi ue item rest, does (.pilotItemStart pi ue) served
    (fun s => pilotReady s pi && decide ((pilotAt s pi).items = item :: rest) &&
      itemStatus s (taskAt s (pilotAt s pi).task) (itemArgs (taskAt s (pilotAt s pi).task) item) != stOk)
    (fun s => settle ue (failItem ue pi (itemStatus s (taskAt s (pilotAt s pi).task) (itemArgs (taskAt s (pilotAt s pi).task) item))
      (itemTaken pi item rest s)))) ∧
  (∀ pi ue item rest, does (.pilotItemStart pi ue) served
    (fun s =>
      let x := taskAt s (pilotAt s pi).task
      pilotReady s pi && decide ((pilotAt s pi).items = item :: rest) && itemStatus s x (itemArgs x item) == stOk &&
        seqsFree s (pilotAt s pi).task (progSeqs (itemProg x (itemArgs x item))))
    (fun s =>
      let k := (pilotAt s pi).task
      let x := taskAt s k
      let qs := progSeqs (itemProg x (itemArgs x item))
      settle ue (runTask k (itemArgs x item) (modTask k (fun y => { y with
        seqHold := seqHolds qs, seqShare := seqSet qs, start := now s
        biasPins := (progGroups (itemProg x (itemArgs x item))).map (fun g => (g, (groupAt s g).active)) }) (nameSeqs (seqSet qs) (itemTaken pi item rest s)))))) ∧
  (∀ pi ue, does (.pilotItemRetire pi ue) served
    (fun s =>
      let p := pilotAt s pi
      !islandStopped s .frontEnd && p.current.isSome && taskEnded s p.task && !(taskAt s p.task).aborting && answersSent s pi && (taskAt s p.task).failed)
    (fun s =>
      let k := (pilotAt s pi).task
      settle ue (failItem ue pi (taskAt s k).status (modTask k (fun y => { y with biasPins := [] }) (endRun k s))))) ∧
  (∀ pi ue, does (.pilotItemRetire pi ue) served
    (fun s =>
      let p := pilotAt s pi
      !islandStopped s .frontEnd && p.current.isSome && taskEnded s p.task && !(taskAt s p.task).aborting && answersSent s pi && !(taskAt s p.task).failed)
    (fun s =>
      let p := pilotAt s pi
      let n := p.retired + 1
      settle ue (freeSlice pi (modPilot pi (fun q => { q with
          current := none, retired := n, state := if p.state = .stopping then .stopping else if p.items = [] then .waiting else .running })
        (fenceByHandle ue p.part p.fence (.signal (p.v0 + n)) (modTask p.task (fun y => { y with biasPins := [] }) (endRun p.task s))))))) ∧
  (∀ pi ue, does (.pilotItemRetire pi ue) served
    (fun s =>
      let p := pilotAt s pi
      !islandStopped s .frontEnd && p.current.isSome && taskEnded s p.task && (taskAt s p.task).aborting && !(taskAt s p.task).failed)
    (fun s =>
      let k := (pilotAt s pi).task
      settle ue (freeSlice pi (modPilot pi (fun q => { q with current := none }) (modTask k (fun y => { y with biasPins := [] }) (endRun k s))))))

/-! ## Frames at the link ports -/

/-- A frame of an operation that receives at a port whose half's engines run, in a running block, as `x` says, has the effect `effect`. -/
def arrives (c : Nat → Frame → Instr) (ue : Ue) (op : Nat) (cond : Nat → Bytes → Bytes → Bool → State → Bool)
    (effect : Nat → Bytes → Bytes → Bool → State → State) : Prop :=
  ∀ port f s pass plain t, running s = true → fOp f.header = op → linkStopped s (linkWest s port) = false →
    receiveFrame port f s = (.local_ pass plain, t) → cond port f.header plain pass t = true →
    exec (c port f) s = .next (fused s (settle ue (driveFabric ue (effect port f.header plain pass t))))

/-- A frame that is not for this node, or not received: what receiving it did, forwarded or dropped, is all. -/
def passes (c : Nat → Frame → Instr) (ue : Ue) (op : Nat) : Prop :=
  ∀ port f s t, running s = true → fOp f.header = op → linkStopped s (linkWest s port) = false → receiveFrame port f s = (.gone, t) →
    exec (c port f) s = .next (fused s (settle ue (driveFabric ue t)))

/-- A verified frame for this node at a half whose engines a curfew has stopped, with room for it, is captured (R428). -/
def isCaptured (c : Nat → Frame → Instr) (ue : Ue) (op : Nat) : Prop :=
  ∀ port f s plain t, running s = true → fOp f.header = op → linkStopped s (linkWest s port) = true → areaRoom s (32 + f.payload.length) = true →
    receiveFrame port f s = (.local_ true plain, t) → exec (c port f) s = .next (fused s (settle ue (driveFabric ue (captureFrame (linkWest s port) port f plain t))))

/-- A request for this node, by its window and its flags. -/
def requestArrives (c : Nat → Frame → Ue → Instr) (op : Nat) : Prop := ∀ ue,
  arrives (fun p f => c p f ue) ue op (fun _ h _ _ t => (fFlags h &&& flMcast) == 0 && !earlyWindow t h)
    (fun p h d _ t => answered (linkWest t p) h (acceptOp ue (linkWest t p) p h d none t)) ∧
  arrives (fun p f => c p f ue) ue op (fun _ h _ _ _ => (fFlags h &&& flMcast) != 0) (fun p h d _ t => takeMcast ue (linkWest t p) p h d t) ∧
  passes (fun p f => c p f ue) ue op ∧ isCaptured (fun p f => c p f ue) ue op

/-- A response or CONTROL frame for this node of the major version this block implements; one of a later version is refused whole, and as
it answers nothing, dropped and counted (R216). -/
def responds (c : Nat → Frame → Instr) (ue : Ue) (op : Nat) (cond : Nat → Bytes → Bytes → Bool → State → Bool)
    (effect : Nat → Bytes → Bytes → Bool → State → State) : Prop :=
  arrives c ue op (fun p h d pass t => fVer h / 16 == 1 && cond p h d pass t) effect

/-- A late response is counted, and returns the credit that its operation still held (R218). -/
def countsLate (h : Bytes) (t : State) : State :=
  onHalf (txnWest (fTxn h)) (fun x => { x with late := x.late + 1 }) (returnOwed (txnWest (fTxn h)) (txnEntry (fTxn h)) (txnGen (fTxn h)) t)

/-- LOAD, STORE, ATOMIC, REDUCE and TRIGGER that arrive for this node are accepted and answered as the checks of their window say, at once
or, for a STORE in an ARRIVAL or COMBINE window, with the frame's verdict standing out (R198 to R200, R205); with MCAST they go the way of the
group's tree. A frame that is not for this node is forwarded, one that is not received is dropped, and one that comes while the half's
engines stand stopped is captured. -/
def Obligations.FrameRequestsComplete : Prop :=
  requestArrives .efpLoad opLoad ∧ requestArrives .efpStore opStore ∧ requestArrives .efpAtomic opAtomic ∧ requestArrives .efpReduce opReduce ∧
  requestArrives .efpTrigger opTrigger ∧
  (∀ ue, arrives (fun p f => .efpStore p f ue) ue opStore (fun _ h _ _ t => (fFlags h &&& flMcast) == 0 && earlyWindow t h)
    (fun p h d pass t => answeredEarly (linkWest t p) h pass (acceptOp ue (linkWest t p) p h d (some t.fabric.nextVerdict) (oweFrame p h pass t))))

/-- Whether the payload of an ACK is 1 to 64 transactions, as long as its LEN says (R198). -/
def ackFormed (h plain : Bytes) : Bool := decide (2 ≤ plain.length ∧ plain.length ≤ 128) && plain.length % 2 == 0 && fLen h == plain.length

/-- ACK ends each operation it names (R198); DATA ends the operation it answers where the length is that operation's, NACK ends one with
its status, or where that is BUSY starts the backoff of its target; a response that names no operation under way is counted as late and
returns the credit (R198, R218, R221). ROLL of the peer switches the receive key (R211). TIME_PROBE is echoed with its time, its receipt and
the echo's own sending, read from the counter of the half it arrives in, and the echo of one's own probe enters the measurement (R198, R407).
A response of a later major version is dropped and counted (R216). BULK is unpacked and each frame in it taken in, in order (R227). -/
def Obligations.FrameResponsesComplete : Prop :=
  responds (fun p f => .efpAck p f) {} opAck (fun _ h d _ _ => ackFormed h d) (fun _ _ d _ t => ((chunks 2 d).map leNat).foldl (fun s k => takeAckOne k s) t) ∧
  (∀ ue o, responds (fun p f => .efpData p f ue) ue opData
    (fun _ h d _ t => respondedOp t (fTxn h) == some o && wantsData o && d.length == dataBytes o)
    (fun _ h d _ t => finishOp ue (txnWest (fTxn h)) (txnEntry (fTxn h)) stOk d t)) ∧
  (∀ ue, responds (fun p f => .efpData p f ue) ue opData (fun _ h _ _ t => respondedOp t (fTxn h) == none)
    (fun _ h _ _ t => countsLate h t)) ∧
  (∀ o, responds (fun p f => .efpNack p f) {} opNack (fun _ h _ _ t => respondedOp t (fTxn h) == some o && fStatus h == stBusy)
    (fun _ h _ _ t => startBackoff (txnWest (fTxn h)) o.dst (modOp (txnWest (fTxn h)) (txnEntry (fTxn h)) (fun o => { o with refused := true }) t))) ∧
  (∀ o, responds (fun p f => .efpNack p f) {} opNack
    (fun _ h _ _ t => respondedOp t (fTxn h) == some o && fStatus h != stBusy && fStatus h != stOk)
    (fun _ h _ _ t => finishOp {} (txnWest (fTxn h)) (txnEntry (fTxn h)) (fStatus h) [] t)) ∧
  responds (fun p f => .efpNack p f) {} opNack (fun _ h _ _ t => respondedOp t (fTxn h) == none)
    (fun _ h _ _ t => countsLate h t) ∧
  arrives (fun p f => .efpNack p f) {} opNack (fun _ h _ _ _ => fVer h / 16 != 1)
    (fun p _ _ _ t => modLink p (fun l => { l with dropped := l.dropped + 1 }) t) ∧
  responds (fun p f => .efpRoll p f) {} 0x22 (fun _ h d _ _ => fMode h == 1 && d.length == 4) (fun p _ d _ t => rollReceive p (leNat d) t) ∧
  responds (fun p f => .efpTimeProbe p f) {} 0x23 (fun p h d _ t => d.length == 8 && fMode h == 1 && fSrc h == (linkAt t p).peer)
    (fun p _ d _ t => peerFrame p 0x24 (d ++ le 8 (clock t (linkWest t p)) ++ le 8 (clock t (linkWest t p))) t) ∧
  responds (fun p f => .efpTimeProbe p f) {} 0x23
    (fun p h d _ t => d.length == 8 && !(fMode h == 1 && fSrc h == (linkAt t p).peer) && !linkStopped t (linkWest t p))
    (fun p h d _ t => (sendFrame (linkWest t p)
      { op := 0x24, dst := fSrc h, len := 24, payload := d ++ le 8 (clock t (linkWest t p)) ++ le 8 (clock t (linkWest t p)) } t).2) ∧
  responds (fun p f => .efpTimeEcho p f) {} 0x24 (fun p h d _ t => d.length == 24 && fMode h == 1 && fSrc h == (linkAt t p).peer)
    (fun p _ d _ t => takeEcho p d t) ∧
  (∀ p f, does (.efpBulk p f) fused
    (fun s =>
      let t := traceFrame p true f.header s
      fOp f.header == 0x30 && decide (p < t.build.links) && !portFenced t p && f.header.length == 32 && fMode f.header == 0 && roleOf t p == 2 &&
        fDst f.header == t.fabric.node && f.payload.length == fLen f.header)
    (fun s => settle {} (driveFabric {} ((bulkFrames (f.payload.length / 48 + 1) f.payload).foldl (fun s g => handleFrame {} p g s)
      (traceFrame p true f.header s)))))

/-! ## Bring-up -/

/-- Whether a port waits for the HELLO of its peer (R215). -/
def awaitsHello (s : State) (p : Nat) (f : Frame) : Bool :=
  fOp f.header == 0x20 && controlOk s p 0x20 f && f.payload.length == 32 && (linkAt s p).trained && ((linkAt s p).state == .trained || (linkAt s p).state == .handshake)

/-- The port after step 2, where it stood before it. -/
def helloed (p : Nat) (s : State) : State := if (linkAt s p).state = .trained then startBringup p s else s

/-- What a port knows of its peer after a HELLO that both sides can speak. -/
def peerKnown (p minor : Nat) (f : Frame) (s : State) : State :=
  modLink p (fun l => { l with peer := fld f.payload 2 2, peerPort := fld f.payload 4 1, major := 1, minor := minor, step := 3 }) s

/-- An SPDM frame that a port in steps 4 and 5 takes. -/
def awaitsSpdm (s : State) (p : Nat) (f : Frame) (ev : SpdmEvent) : Bool :=
  fOp f.header == 0x21 && controlOk s p 0x21 f && shaking (linkAt s p) && !asksRenewal s p ev

/-- Whether a session has been established at a port that stands in step 4, with a root that the device trusts. -/
def established (s : State) (p : Nat) (f : Frame) (a : Word32) (m : Bytes) (r : Bytes) (x : Bytes) : Bool :=
  let t := traceFrame p true f.header s
  awaitsSpdm t p f (.sessionEstablished a m r x) && (linkAt t p).step == 4 && t.fabric.trust.contains r

/-- The port in step 5 of that session. -/
def inSession (p : Nat) (a : Word32) (m x : Bytes) (s : State) : State :=
  modLink p (fun l => { l with newSession := a, master := m, rootOk := true, transcript := x, step := 5 }) s

/-- A port that trains begins its bring-up as a PEER port that is not fenced, unless it failed within the last second (R215 step 2). A HELLO gives the peer, its port and the
highest version both list, and the side with the lower node is the requester; no common version, or its own node, fails the port (R215
step 3, R216). SPDM frames take the port through steps 4 and 5: on a session whose root the device trusts it sends its own confirmation under
the domain key of the epoch it sends under (R246), then takes the peer's, on which generation 0 is derived; what fails, fails the port, and on
a port that is UP they begin the renewal (R215, R217). A FAILED port tries again after 1 s; a direction rolls at 2^40 frames or 24 h, and at
2^41 frames the port faults (R211). That a device without a domain key fails with NOT_PERMITTED is the model's choice (log entry 59). -/
def Obligations.LinkBringupCompletes : Prop :=
  (∀ p, does (.linkTrained p) served (fun s => decide (p < s.build.links) && !(linkAt s p).trained && !(roleOf s p == 0 && failedLately s p))
    (fun s =>
      let t := modLink p (fun l => { l with trained := true, state := .trained, step := 1 }) s
      if roleOf t p = 0 ∧ ¬ portFenced t p then startBringup p t else t)) ∧
  (∀ p, does (.linkTrained p) served (fun s => decide (p < s.build.links) && !(linkAt s p).trained && roleOf s p == 0 && failedLately s p)
    (modLink p (fun l => { l with trained := true, state := .failed }))) ∧
  (∀ p f m, does (.efpHello p f) served
    (fun s => awaitsHello (traceFrame p true f.header s) p f && commonVersion f.payload == some m && fld f.payload 2 2 != s.fabric.node)
    (fun s =>
      let t := modLink p (fun l => { l with requester := decide (s.fabric.node < fld f.payload 2 2), step := 4 })
        (peerKnown p m f (helloed p (traceFrame p true f.header s)))
      if (linkAt t p).requester then emit (.spdm p 4) t else t)) ∧
  (∀ p f, does (.efpHello p f) served
    (fun s => awaitsHello (traceFrame p true f.header s) p f && commonVersion f.payload == none)
    (fun s => failPort p stVersion (helloed p (traceFrame p true f.header s)))) ∧
  (∀ p f m, does (.efpHello p f) served
    (fun s => awaitsHello (traceFrame p true f.header s) p f && commonVersion f.payload == some m && fld f.payload 2 2 == s.fabric.node)
    (fun s => failPort p stBadArg (peerKnown p m f (helloed p (traceFrame p true f.header s))))) ∧
  (∀ p f a m r x k, does (.efpSpdm p f (.sessionEstablished a m r x)) served
    (fun s => established s p f a m r x && domainKey s s.fabric.sendEpoch == some k)
    (fun s =>
      let t := inSession p a m x (traceFrame p true f.header s)
      emit (.efpConfirm p t.fabric.node (linkAt t p).peer (16 * (linkAt t p).major + (linkAt t p).minor) t.fabric.domId t.fabric.sendEpoch
        (hmac (hkdf [] k (ascii "EONAL-PEER-1") 48) x)) t)) ∧
  (∀ p f a m r x, does (.efpSpdm p f (.sessionEstablished a m r x)) served
    (fun s => established s p f a m r x && domainKey s s.fabric.sendEpoch == none)
    (fun s => failPort p stNotPermitted (inSession p a m x (traceFrame p true f.header s)))) ∧
  (∀ p f a b v d e m k, does (.efpSpdm p f (.confirm a b v d e m)) served
    (fun s =>
      let t := traceFrame p true f.header s
      let l := linkAt t p
      awaitsSpdm t p f (.confirm a b v d e m) && l.step == 5 && l.rootOk && t.fabric.domState == 2 && a == l.peer && b == t.fabric.node &&
        v == 16 * l.major + l.minor && d == t.fabric.domId && domainKey t e == some k && confirmMac k l.transcript == m)
    (fun s => deriveKeys p (traceFrame p true f.header s))) ∧
  (∀ p f st, does (.efpSpdm p f (.failure st)) served (fun s => awaitsSpdm (traceFrame p true f.header s) p f (.failure st))
    (fun s => failPort p st (traceFrame p true f.header s))) ∧
  (∀ p f, does (.efpSpdm p f .progress) served
    (fun s => fOp f.header == 0x21 && controlOk (traceFrame p true f.header s) p 0x21 f && asksRenewal (traceFrame p true f.header s) p .progress)
    (fun s => spdmStep p .progress (emit (.spdm p 4) (modLink p (fun l => { l with renewing := true, step := 4, rootOk := false })
      (traceFrame p true f.header s))))) ∧
  (∀ p, does (.portBringupRetry p) served
    (fun s => decide (p < s.build.links) && (linkAt s p).state == .failed && (linkAt s p).trained && roleOf s p == 0 && !portFenced s p &&
      decide ((linkAt s p).failedAt + 1000000000 ≤ clock s (linkWest s p)))
    (startBringup p)) ∧
  (∀ p, does (.rollDue p) served
    (fun s => decide (p < s.build.links) && roleOf s p == 0 && (linkAt s p).state == .up && !linkStopped s (linkWest s p) &&
      (decide (2 ^ 40 ≤ (linkAt s p).txCtr) || decide ((linkAt s p).genStart + 86400000000000 ≤ clock s (linkWest s p)) || rollPending (linkAt s p)))
    (fun s => endRenewal p (rollSend p s))) ∧
  (∀ p, does (.rollOverrun p) served (fun s => decide (p < s.build.links) && decide (2 ^ 41 ≤ (linkAt s p).txCtr) && !(snuffAt s (100 + p)).due)
    (simpleFault clsRollOverrun kindLink p)) ∧
  (∀ p, does (.linkLost p) served (fun s => decide (p < s.build.links)) (fun s => settle {} (driveFabric {} (resetPort p s)))) ∧
  (∀ p v, does (.linkFrameVerdict p) served (fun s => s.fabric.verdicts.find? (fun v => v.port == p) == some v && v.pass)
    (fun s => settle {} (v.tickets.foldl (fun s t => ticketVerdict {} t.1 t.2 (fDst v.header * 2 ^ 48 + fOffset v.header) true s)
      (clearRecords v.id (onFabric (fun f => { f with verdicts := f.verdicts.filter (fun x => x.id ≠ v.id) }) s))))) ∧
  (∀ p v, does (.linkFrameVerdict p) served (fun s => s.fabric.verdicts.find? (fun v => v.port == p) == some v && !v.pass)
    (fun s => settle {} (v.tickets.foldl (fun s t => ticketVerdict {} t.1 t.2 (fDst v.header * 2 ^ 48 + fOffset v.header) false s)
      (dropRecords v.id (earlyFailed p v.header (onFabric (fun f => { f with verdicts := f.verdicts.filter (fun x => x.id ≠ v.id) }) s))))))

/-! ## Timers of the fabric -/

/-- An operation whose frame has stood for FABRIC_TIMEOUT ends with that status, its credit still out (R218, R222); refused operations leave again when their backoff
ends, in order, the first with RESEND (R221); ACKs that have waited 64 ns leave (R198); a combined line that has seen nothing for 1 µs is
written back (R224); a container that has stood 2 µs leaves (R226). Every 100 µs a member of a domain begins 16 round trips with its time
parent, where it has one, and the root, once, sets its counter to the latest time its peers gave (R407, R408). -/
def Obligations.FabricTimersComplete : Prop :=
  (∀ h k ue t, does (.fabricTimeout h k ue) served
    (fun s => (tget {} (halfOf s (halfWest h)).ops k).sent == some t && decide (k < 4096) && (tget {} (halfOf s (halfWest h)).ops k).used &&
      decide (t + 1000 * s.boxes.fabricTimeout ≤ clock s (halfWest h)) && !linkStopped s (halfWest h))
    (fun s => settle ue (driveFabric ue (finishOp ue (halfWest h) k stFabricTimeout [] (oweCredit (halfWest h) k s))))) ∧
  (∀ h d, does (.backoffExpiry h d) served
    (fun s => (tget {} (halfOf s (halfWest h)).backoffs d).active && decide ((tget {} (halfOf s (halfWest h)).backoffs d).until_ ≤ clock s (halfWest h)) && !linkStopped s (halfWest h))
    (fun s =>
      let w := halfWest h
      let t := onHalf w (fun x => { x with backoffs := tset {} x.backoffs d { tget {} (halfOf s w).backoffs d with active := false } }) s
      let es := ((halfOf t w).ops.filter (fun e => e.2.used && e.2.refused && e.2.dst == d)).foldr insertByOrder []
      settle {} (driveFabric {} (es.zipIdx.foldl (fun s e => resendOp w e.1.1 (if e.2 = 0 then flResend else 0) s) t)))) ∧
  (∀ h d a, does (.ackCoalesceExpiry h d) served
    (fun s => decide ((halfOf s (halfWest h)).acks.filter (fun a => a.node == d && decide (a.since + 64 ≤ now s)) = [a]))
    (flushAcks (halfWest h) a.node a.shalf)) ∧
  (∀ h l c, does (.combiningLineWriteback h l) served
    (fun s => combAt s l == some c && lineDue s h l c)
    (fun s => settle {} (writeBackLine {} l s))) ∧
  (∀ p v b, does (.bulkFlush p v) served
    (fun s => (halfOf s (linkWest s p)).bulks.find? (fun b => b.port == p && b.via == v) == some b && decide (b.since + 2000 ≤ clock s (linkWest s p)))
    (fun s => flushBulk (linkWest s p) p v s)) ∧
  (∀ p, does .timeProbeRound fused
    (fun s =>
      let t := updateTimeState (onTime (fun t => { t with lastProbe := now s }) s)
      decide (s.time.lastProbe + 100000 ≤ now s) && t.fabric.domState == 2 && timeRoot t != t.fabric.node && timeParent t == some p)
    (fun s => startProbes p (updateTimeState (onTime (fun t => { t with lastProbe := now s }) s)))) ∧
  (∀ ts, does (.timeRootSet ts) fused
    (fun s => s.fabric.domState == 2 && timeRoot s == s.fabric.node && !s.time.rootSet && !s.faults.inBlockReset && decide (now s < ts.foldl max 0))
    (fun s => updateTimeState (jumpTime (ts.foldl max 0 - now s) (onTime (fun t => { t with rootSet := true }) s)))) ∧
  (∀ ts, does (.timeRootSet ts) fused
    (fun s => s.fabric.domState == 2 && timeRoot s == s.fabric.node && !s.time.rootSet && !s.faults.inBlockReset && decide (ts.foldl max 0 ≤ now s))
    (fun s => updateTimeState (onTime (fun t => { t with rootSet := true }) s)))

/-! ## Power, trust and recovery -/

/-- A power-on: the canary decides what the battery kept, the core leaves isolation with its Link domain reset, and the block boots (R492,
R501, R517). -/
def poweredUp (kept : Bool) (inp : BootIn) (s : State) : State :=
  let t := if kept then s else vbatLost s
  let u := onTrust (fun t => { t with pwrOk := true, isolated := false, dawn := true, epochFloor := t.highestEpoch }) (coreLost t)
  bootFrom inp (if kept then u else keepFuses (simpleFault clsVbatLost kindTrust 0) u)

/-- POWER_ON powers a core without power; PWR_OK falling takes the core's state, and marks the trust island where the safe point was not
reached (R490 to R492, R517). DUSK holds dispatch with the throttle at 8 and every capacity engine writing through, counts, and reaches
the safe point where no fuse row is under way; its end takes that back (R497 to R499). An enabled tamper cause loses the root secret and,
in a running block, is a Terminal fault (R240, R494), which clears every key (R380). The external flash request is granted outside
Production, and its end takes the bus back (R510). -/
def Obligations.PowerAndTamperComplete : Prop :=
  (∀ k inp s, s.trust.pwrOk = false → exec (.powerOn k inp) s = .next (kept s (poweredUp k inp s))) ∧
  (∀ s, s.trust.pwrOk = true →
    exec .pwrOkFall s = .next (kept s (coreLost (onTrust (fun t => { t with unsafeLast := t.unsafeLast || !t.safe }) s)))) ∧
  does .dusk served (fun s => !s.trust.dusk)
    (fun s => reachSafe (writeThrough (sendSetting 0 8 (onReg (fun g => { g with throttle := 8 })
      (onTrust (fun t => { t with dusk := true, dawn := false, duskCount := satTo 16 (t.duskCount + 1) }) s))))) ∧
  does .powerEventEnd kept (fun s => s.trust.dusk)
    (fun s => settle {} (resumeBoot (lcAdvance (keepFuses writeCached (onTrust (fun t => { t with dusk := false, dawn := true, safe := false }) s))))) ∧
  (∀ c, does (.tamperEvent c) fused (fun s => c &&& s.trust.tamperEn &&& tamperMask (onTrust (fun t => { t with inputs := c.setWidth 8 }) s) &&& 0x1FFF#16 != 0)
    (fun s =>
      let e := c &&& s.trust.tamperEn &&& tamperMask (onTrust (fun t => { t with inputs := c.setWidth 8 }) s) &&& 0x1FFF#16
      enterTerminal (simpleFault clsTamper kindTrust 0 (onTrust (fun t => { t with
        inputs := c.setWidth 8, rootSecret := [], rootValid := false, cause := t.cause ||| e, count := satTo 16 (t.count + 1), tamperTime := t.rtc }) s)))) ∧
  (∀ c s, s.trust.pwrOk = false → c &&& s.trust.tamperEn &&& 0x1BFF#16 ≠ 0 →
    ∃ t, exec (.tamperEvent c) s = .next t ∧ t.trust.rootSecret = [] ∧ t.trust.rootValid = false ∧ t.trust.count = satTo 16 (s.trust.count + 1) ∧
      t.trust.cause = s.trust.cause ||| (c &&& s.trust.tamperEn &&& 0x1BFF#16)) ∧
  does .terminalFault fused (fun s => s.faults.terminalDue) enterTerminal ∧
  does .flashExtRequest fused (fun s => lcState s != 2 || (s.ll.stage == 0xFF && s.ll.reason == 2)) (onFlash (fun f => { f with extAck := true })) ∧
  does .flashExtNRise fused (fun _ => true) (onFlash (fun f => { f with extAck := false }))

/-- The right kick in time moves the watchdog on, a wrong or an early one is a vigil fault, and so is 2 ms without one (R322). An integrity
fault stops the sequencer (R316); a scrub of its memory records each corrected word and stops it at an uncorrectable one, armed
injections counting as such words (R316); a scrub of the key slots checks each slot's tag, a slot with flipped bits failing (R235); a
failure of the entropy source stops the DRBG (R232). A code that no longer reads as the shadow registers say, or shadow registers that
disagree, is a fault unless a transition is under way (R440). -/
def Obligations.WatchesComplete : Prop :=
  (∀ v, does (.vigilKick v) served
    (fun s => s.trust.vigilArmed && v == nextKick s.trust.vigilValue && (s.trust.vigilKicks == 0 || decide (s.trust.vigilLast + 50000 ≤ now s)))
    (fun s => onTrust (fun t => { t with vigilValue := v, vigilKicks := t.vigilKicks + 1, vigilLast := now s
                                         vigilMaxUs := max t.vigilMaxUs (satTo 16 ((now s - t.vigilLast) / 1000)) }) s)) ∧
  (∀ v, does (.vigilKick v) served
    (fun s => s.trust.vigilArmed && (v != nextKick s.trust.vigilValue || (s.trust.vigilKicks != 0 && decide (now s < s.trust.vigilLast + 50000))))
    (fun s => simpleFault clsVigil kindTrust 0 (onTrust (fun t => { t with vigilArmed := false }) s))) ∧
  does .vigilFault served (fun s => s.trust.vigilArmed && decide (s.trust.vigilLast + 2000000 ≤ now s))
    (fun s => simpleFault clsVigil kindTrust 0 (onTrust (fun t => { t with vigilArmed := false }) s)) ∧
  does .llIntegrityFault served (fun _ => true)
    (fun s => simpleFault clsLlIntegrity kindLamplighter 0 (onLl (fun l => { l with halted := true, ready := false }) s)) ∧
  (∀ n u, does (.sramScrub n u) served
    (fun s => !(injectCheck clsLlCe kindLamplighter 0 0 0 s).1 && !u &&
      !(injectCheck clsLlIntegrity kindLamplighter 0 0 0 (injectCheck clsLlCe kindLamplighter 0 0 0 s).2).1)
    (fun s => scrubCorrected n (injectCheck clsLlIntegrity kindLamplighter 0 0 0 (injectCheck clsLlCe kindLamplighter 0 0 0 s).2).2)) ∧
  (∀ n, does (.sramScrub n true) served (fun _ => true)
    (fun s =>
      let a := injectCheck clsLlCe kindLamplighter 0 0 0 s
      integrityFails (scrubCorrected (n + b2n a.1) (injectCheck clsLlIntegrity kindLamplighter 0 0 0 a.2).2))) ∧
  (∀ ks, does (.keySlotScrub ks) served (fun _ => true)
    (fun s => settle {} ((s.keys.slots.map Prod.fst).foldl (fun s k =>
      if (slotAt s k).state = .bad then s else if ks.contains k then slotFails k false s else checkSlot k s) s))) ∧
  does .entropyFailure served (fun _ => true) (fun s => simpleFault clsEntropy kindLamplighter 0 (onLl (fun l => { l with drbgRunning := false }) s)) ∧
  (∀ a b c, does (.lcReread a b c) served (fun s => voteCode a b c == shadowState s) (fun s => s)) ∧
  (∀ a b c, does (.lcReread a b c) served (fun s => voteCode a b c != shadowState s && !inTransition s) (simpleFault clsLcCorrupt kindTrust 0)) ∧
  does .lcShadowMismatch served (fun s => !inTransition s) (simpleFault clsLcCorrupt kindTrust 0)

/-- One move of a lantern's snuff is due, and its incarnation has room (R385, R388). -/
def snuffGoes (s : State) (l : Nat) : Bool := decide (l < s.build.lanterns) && (snuffAt s l).due && decide ((lanternAt s l).incarnation < 65535)

/-- A port's snuff is due. -/
def portSnuffGoes (s : State) (p : Nat) : Bool := decide (p < s.build.links) && (snuffAt s (100 + p)).due

/-- The partition that a scratchpad error names: that of the live task which holds the wick, else none. -/
def scratchPart (s : State) (l k : Nat) : Nat := (((wickHolders s l k).filter (fun e => e.2.live)).head?.map (fun e => e.2.part)).getD 255

/-- An uncorrectable scratchpad error: recorded and remembered, the word poisoned in every live task that holds the wick (R44, R105). -/
def scratchPoisoned (l k : Nat) (w : ScratchWord) (s : State) : State :=
  ((wickHolders s l k).filter (fun e => e.2.live)).foldl (fun t e => poisonWord e.1 l k w t)
    (modLantern l (fun x => { x with scratchLog := x.scratchLog.filter (fun e => e.1 ≠ k) ++ [(k, clock s (lanternWest s l))] })
      (recordFault { cls := clsScratchUe, kind := kindWick, inst := l, sub := k, status := stDataPoison, part := scratchPart s l k } s))

/-- A lantern's snuff fences, aborts the work in it, accounts and resets once drained or timed out, and releases once all 64 channels have
trained (R383 to R388); a link port's fences, drains, and resets the port (R388, R223); a drain ends after 100 µs at the latest (R388). A
unit that holds work and reports no progress is recorded as hung (R391). A failed background test, or a failed wick, marks the wick, a
uncorrectable scratchpad error is recorded and poisons its word, the second within 24 h marks the wick, and a corrected one is recorded
(R105, R139); the records of the flash follow (R509). A channel that has trained counts for its lantern, whose 64th makes it
accept requests unless its snuff still holds it (R517, R470). A block reset that is due runs to the boot (R390). -/
def Obligations.RecoveryCompletes : Prop :=
  (∀ l ws ue, does (.lanternSnuff l ws ue) recorded (fun s => snuffGoes s l && !(snuffAt s l).fencedW)
    (fun s => seamSend true 3 (.words (snuffArg 1 1 l) []) (modSnuff l (fun x => { x with fencedW := true }) s))) ∧
  (∀ l ws ue, does (.lanternSnuff l ws ue) recorded
    (fun s => snuffGoes s l && (snuffAt s l).fencedW && (snuffAt s l).fencedE && !(snuffAt s l).cleared && !(snuffAt s l).draining)
    (fun s => settle ue (modSnuff l (fun y => { y with draining := true, since := now s }) (lanternAbort l s)))) ∧
  (∀ l ws ue, does (.lanternSnuff l ws ue) recorded
    (fun s => snuffGoes s l && (snuffAt s l).fencedW && (snuffAt s l).fencedE && !(snuffAt s l).cleared && (snuffAt s l).draining &&
      (lanternDrained s l || (snuffAt s l).timedOut))
    (fun s => settle ue (lanternReset ue l ws (sayQuiet (!lanternWest s l) 1 l s)))) ∧
  (∀ l ws ue, does (.lanternSnuff l ws ue) recorded
    (fun s => snuffGoes s l && (snuffAt s l).fencedW && (snuffAt s l).fencedE && (snuffAt s l).cleared && decide (64 ≤ (lanternAt s l).trained.length) &&
      (!s.seam.paired || eastHeard s (snuffAt s l).keyMessage))
    (fun s => pumpHeld {} (releaseFence l 1 l (modLantern l (fun y => { y with ready := true }) (restoreStore l s))))) ∧
  (∀ l ws ue, does (.lanternSnuff l ws ue) recorded
    (fun s => decide (l < s.build.lanterns) && (snuffAt s l).due && decide (65535 ≤ (lanternAt s l).incarnation))
    (fun s => modSnuff l (fun y => { fencedE := y.fencedE }) (dueBlockReset 1 (unitCause s true l) true s))) ∧
  (∀ p, does (.linkPortSnuff p) served (fun s => portSnuffGoes s p && !(snuffAt s (100 + p)).fencedW)
    (fun s => seamSend true 3 (.words (snuffArg 1 2 p) []) (modSnuff (100 + p) (fun x => { x with fencedW := true }) s))) ∧
  (∀ p, does (.linkPortSnuff p) served
    (fun s => portSnuffGoes s p && (snuffAt s (100 + p)).fencedW && (snuffAt s (100 + p)).fencedE && !(snuffAt s (100 + p)).draining)
    (fun s => modSnuff (100 + p) (fun y => { y with draining := true, since := now s }) s)) ∧
  (∀ p, does (.linkPortSnuff p) served
    (fun s => portSnuffGoes s p && (snuffAt s (100 + p)).fencedW && (snuffAt s (100 + p)).fencedE && (snuffAt s (100 + p)).draining &&
      ((snuffAt s (100 + p)).timedOut || (s.fabric.west.ops ++ s.fabric.east.ops).all (fun e => !(e.2.used && e.2.sent.isSome && e.2.port == p))))
    (fun s => settle {} (driveFabric {} (releaseFence (100 + p) 2 p (resetPort p (unitDump {} false p (sayQuiet (!linkWest s p) 2 p s))))))) ∧
  (∀ l, does (.snuffDrainTimeout (.lantern l)) served (fun s => (snuffAt s l).draining && decide ((snuffAt s l).since + 100000 ≤ now s))
    (fun s => setSnuff l { snuffAt s l with timedOut := true } s)) ∧
  (∀ l, does (.unitHung (.lantern l)) served (fun s => decide (l < s.build.lanterns) && holdsWork s (.lantern l))
    (fun s => settle {} (recordFault { cls := clsUnitHung, kind := kindLantern, inst := l, status := stResetLost } s))) ∧
  (does (.unitHung .copyEngine) served (fun s => holdsWork s .copyEngine)
    (fun s => settle {} (recordFault { cls := clsEngineHung, kind := kindCopy, inst := 0, status := stResetLost } s))) ∧
  (∀ l k pass, does (.wickSelfTest l k pass) recorded
    (fun s => decide (l < s.build.lanterns) && decide (k < s.build.wicks + s.build.spares) && !(physUsed s l).contains k)
    (fun s =>
      let t := modLantern l (fun x => { x with selfTests := tset 0 x.selfTests k (clock s (lanternWest s l)) }) s
      if pass then t else settle {} (markWick l k t))) ∧
  (∀ l k, does (.wickFailed l k .selfTest) recorded (fun _ => true) (fun s => settle {} (markWick l k s))) ∧
  (∀ l k w, does (.wickFailed l k (.scratchpad w)) recorded
    (fun s => decide (l < s.build.lanterns) && decide (k < s.build.wicks + s.build.spares) &&
      !(lanternAt s l).scratchLog.any (fun e => e.1 == k && decide (clock s (lanternWest s l) < e.2 + 86400000000000)))
    (fun s => settle {} (scratchPoisoned l k w s))) ∧
  (∀ l k w, does (.wickFailed l k (.scratchpad w)) recorded
    (fun s => decide (l < s.build.lanterns) && decide (k < s.build.wicks + s.build.spares) &&
      (lanternAt s l).scratchLog.any (fun e => e.1 == k && decide (clock s (lanternWest s l) < e.2 + 86400000000000)))
    (fun s => settle {} (markWick l k (scratchPoisoned l k w s)))) ∧
  (∀ l k, does (.wickFailed l k .corrected) recorded
    (fun s => decide (l < s.build.lanterns) && decide (k < s.build.wicks + s.build.spares))
    (fun s => settle {} (recordFault { cls := clsScratchCe, kind := kindWick, inst := l, sub := k, status := stOk, part := scratchPart s l k } s))) ∧
  (∀ l c, does (.channelTraining (.lantern l) c false) served (fun s => decide (l < s.build.lanterns) && decide (c < 64))
    (fun s =>
      let t := modLantern l (fun x => { x with trained := x.trained.filter (· ≠ c) ++ [c] }) s
      if (lanternAt t l).trained.length = 64 ∧ ¬ (snuffAt t l).cleared then modLantern l (fun x => { x with ready := true }) t else t)) ∧
  (∀ c ch v, does (.channelTraining (.capacity c) ch v) served (fun s => decide (c < s.build.caps)) (modCap c (fun x => { x with trained := !v }))) ∧
  (∀ inp t, does (.blockResetSequence inp) kept (fun s => s.faults.blockDue == some t) (blockReset_ inp t))

/-! ## Regulation, curfew, trace headers -/

/-- Whether an island of a running half may stop now (R427). -/
def mayStop (s : State) (i : Island) : Bool :=
  !s.curfew.stopped.contains i && (s.curfew.inForce || (s.curfew.state == 1 && decide (s.curfew.t ≤ clock s ((islandsOf s true).contains i))))

/-- Every 10 µs each resource of the build is evaluated (R352); one that has stood above 1.02 times its reservations for 1 ms leaves
DERATED with its factors at 1,024 and its event (R363). W of a lantern is 1,024 to 8,192 in steps of 64, of a capacity engine 64 to 1,024
in steps of 8 (R360). Every 100 µs the throttle takes a step toward the cap, and East hears of a new one (R365, R366). -/
def Obligations.RegulationCompletes : Prop :=
  (∀ a, does (.regulatorEvaluation a) served (fun s => decide (s.reg.lastEval + 10000 ≤ now s))
    (fun s => (List.range 48).foldl (fun s r => evaluate a r s) (onReg (fun g => { g with lastEval := now s }) s))) ∧
  (∀ r t, does (.deratedExit r) served
    (fun s => (resourceAt s r).since == some t && (resourceAt s r).derated && !(resourceAt s r).inReset && decide (t + 1000000 ≤ clock s (resWest s r)))
    (fun s => deratedEvent r 0 (traceRegulate r 0
      (setResource r { resourceAt s r with derated := false, bgShed := false, fNormal := 1024, fRt := 1024, since := none } s)))) ∧
  (∀ l xs w, does (.windowAdjust (.lantern l) xs w) served (fun s => !xs.isEmpty && decide (l < s.build.lanterns))
    (fun s =>
      let sum := (xs.map (fun x => min x 15)).foldl (· + ·) 0
      modLantern l (fun x => { x with
        window := if 12 * xs.length ≤ sum then max 1024 (x.window - x.window / 8) else if sum < 8 * xs.length ∧ w = true then min 8192 (x.window + 64) else x.window
        qlevel := sum / xs.length }) s)) ∧
  (∀ c xs w, does (.windowAdjust (.capacity c) xs w) served (fun s => !xs.isEmpty && decide (c < s.build.caps))
    (fun s =>
      let sum := (xs.map (fun x => min x 15)).foldl (· + ·) 0
      modCap c (fun x => { x with
        window := if 12 * xs.length ≤ sum then max 64 (x.window - x.window / 8) else if sum < 8 * xs.length ∧ w = true then min 1024 (x.window + 8) else x.window
        qlevel := sum / xs.length }) s)) ∧
  (∀ e, does (.powerCapStep e) served (fun s => decide (s.reg.lastPower + 100000 ≤ now s) && nextThrottle s e == s.reg.throttle)
    (fun s => watchCap ((estimatesWith s e).foldl (· + ·) 0) (estimatesWith s e).length (throttleSet e s))) ∧
  (∀ e, does (.powerCapStep e) served (fun s => decide (s.reg.lastPower + 100000 ≤ now s) && nextThrottle s e != s.reg.throttle)
    (fun s => watchCap ((estimatesWith s e).foldl (· + ·) 0) (estimatesWith s e).length (sendSetting 0 (nextThrottle s e) (throttleSet e s))))

/-- An island of an armed half stops when its half's counter reaches T, the first of all putting the curfew in force and the stop into every RUNNING buffer; the last
of East's tells West (R427, R430). At dawn what stood goes on: deadlines moved by the time it lasted, the captured frames delivered, the
islands released, the area given back (R431). A header of a RUNNING or TRIGGERED sub-buffer is written anew, and what waits for remote
buffers leaves (R414, R419). -/
def Obligations.CurfewAndHeadersComplete : Prop :=
  (∀ i, does (.curfewStop i) served (fun s => mayStop s i && (islandsOf s true).contains i && s.curfew.armedW)
    (fun s => stoppedIfReady (onCurfew (fun c => { c with stopped := c.stopped ++ [i] })
      (if s.curfew.inForce then s else markStop (onCurfew (fun c => { c with state := 2, inForce := true }) s))))) ∧
  (∀ i, does (.curfewStop i) served (fun s => mayStop s i && !(islandsOf s true).contains i && (islandsOf s false).contains i && s.curfew.armedE)
    (fun s => stoppedIfReady (tellStopped (onCurfew (fun c => { c with stopped := c.stopped ++ [i] })
      (if s.curfew.inForce then s else markStop (onCurfew (fun c => { c with state := 2, inForce := true }) s)))))) ∧
  (∀ ue, does (.dawnTime ue) fused (fun s => s.curfew.inForce && decide (s.curfew.dawn ≤ now s))
    (fun s =>
      let d := s.curfew.dawn - s.curfew.t
      let t := onCurfew (fun c => { c with stopped := c.stopped.filter (fun i => i ≠ .link 0 ∧ i ≠ .link 1) }) (moveDeadlines d s)
      pumpHeld ue (settle ue (traceCurfewPhase 2 (postOpenEvent 16 evCurfew (leaveArea 2
        (onCurfew (fun c => { c with state := 0 }) (resumeIslands ue (deliverAll ue d t))))))))) ∧
  (∀ h b, does (.traceHeaderRewrite h b) served
    (fun s => decide (h ≤ 1 ∧ b < 32) && headerDue s h b)
    (fun s => settle {} (driveFabric {} (sendRemote h (writeHeader b h s))))) ∧
  (∀ h b, does (.traceHeaderRewrite h b) served
    (fun s => decide (h ≤ 1 ∧ b < 32) && !headerDue s h b)
    (fun s => settle {} (driveFabric {} (sendRemote h s))))

/-! ## The management port, sessions and interfaces -/

/-- Whether a message of the management port is taken in (R513). -/
def mctpTaken (s : State) (m : MctpMsg) : Bool :=
  boxServed s 17 && m.inSequence && decide (m.body.length + 5 ≤ 285) && decide (16 ≤ m.body.length) && m.vendor == s.build.mgmtPen

/-- Whether an operation of the IDE key port may go out at once. -/
def ideFree (s : State) : Bool := tsmServed s && s.ide.current.isNone

/-- A well-formed message in sequence is a request of the management mailbox: into its lowest free slot, or answered BUSY (R334, R513);
any other is dropped and counted. An endpoint ID from 0x08 to 0xFE is taken (R512). Of the common command codes ENTDAA assigns an address
where there is none, RSTDAA takes it back, and the others act or answer at the address (R511). A management session ends 3,600 s after it
opened (R257), and digests older than REPORT_TTL are forgotten (R242). -/
def Obligations.ManagementPortCompletes : Prop :=
  (∀ m k, does (.mctpMessage m) served
    (fun s => mctpTaken s m && !s.ll.mgmtActive && reqLen m.body + 16 == m.body.length &&
      (List.range 4).find? (fun k => decide ((tget {} (boxAt s 17).slots k).state = .free)) == some k)
    (fun s =>
      let b := boxAt s 17
      settle {} (setBox 17 { b with
        order := b.order + 1
        slots := tset {} b.slots k { state := .pending, request := fit 256 m.body, order := b.order, mctpTag := m.tag, mctpEid := m.eid } } s))) ∧
  (∀ m, does (.mctpMessage m) served
    (fun s => mctpTaken s m && !s.ll.mgmtActive && reqLen m.body + 16 == m.body.length &&
      (List.range 4).find? (fun k => decide ((tget {} (boxAt s 17).slots k).state = .free)) == none)
    (fun s => mctpSend m.eid m.tag (responseOf (boxAt s 17) m.body stBusy []) s)) ∧
  (∀ m, does (.mctpMessage m) served (fun s => boxServed s 17 && !mctpTaken s m) (onBoxes (fun b => { b with mctpDrops := b.mctpDrops + 1 }))) ∧
  (∀ e, does (.setEndpointId e) served (fun _ => decide (0x08 ≤ e ∧ e ≤ 0xFE))
    (fun s => emit (.endpointId true e) (onBoxes (fun b => { b with eid := e }) s))) ∧
  (∀ e, does (.setEndpointId e) served (fun _ => decide (e < 0x08 ∨ 0xFE < e)) (fun s => emit (.endpointId false s.boxes.eid) s)) ∧
  (∀ a, does (.i3cCcc (.entdaa a)) served (fun s => s.boxes.i3cAddr == 0)
    (fun s => emit (.i3c s.build.mgmtPid) (onBoxes (fun b => { b with i3cAddr := a % 128 }) s))) ∧
  does (.i3cCcc .rstdaa) served (fun _ => true) (onBoxes (fun b => { b with i3cAddr := 0 })) ∧
  (∀ n, does (.i3cCcc (.setmwl n)) served (fun s => s.boxes.i3cAddr != 0) (onBoxes (fun b => { b with mwl := min n 69 }))) ∧
  does (.i3cCcc .getbcr) served (fun s => s.boxes.i3cAddr != 0) (emit (.i3c 0x06)) ∧
  does .mgmtSessionExpiry served (fun s => s.ll.mgmtActive && decide (s.ll.mgmtStart + 3600000000000 ≤ now s)) endSession ∧
  does .reportDigestExpiry served (fun _ => true)
    (fun s => onLl (fun l => { l with digests := l.digests.filter (fun d => decide (now s < d.time + s.boxes.reportTtl * 1000000000)) }) s)

/-- LOCK of a settled, unlocked partition whose stream is bound to its function locks it with a fresh start nonce; START with that nonce
runs it, once; STOP begins a partition reset that ends with the interface unlocked (R253). KEY_PROG, K_SET_GO and K_SET_STOP of a supported
stream go out on the key port, or wait behind the one unacknowledged; its acknowledgement ends it, and so do 10 µs without one (R254,
R480, R481). -/
def Obligations.InterfacesComplete : Prop :=
  (∀ p sid, does (.lockInterfaceRequest p sid) served
    (fun s => tsmServed s && decide (p < 16) && partSettled s p && (partAt s p).tdi == .configUnlocked && streamBound s p sid && s.ll.drbgRunning)
    (fun s => emit (.tdispNonce (drbg 32 s).1) (modPart p (fun x => { x with tdi := .configLocked, nonce := (drbg 32 s).1, stream := some sid }) (drbg 32 s).2))) ∧
  (∀ p n, does (.startInterfaceRequest p n) served
    (fun s => tsmServed s && decide (p < 16) && (partAt s p).tdi == .configLocked && (partAt s p).nonce != [] && n == (partAt s p).nonce)
    (fun s => emit (.tdispAnswer true) (modPart p (fun x => { x with tdi := .run, nonce := [] }) s))) ∧
  (∀ p ue, does (.stopInterfaceRequest p ue) fused
    (fun s => tsmServed s && decide (p < 16) && partExists s p && (partAt s p).tdi != .configUnlocked && partSettled (stopStream p s) p)
    (fun s => settle ue (holdRequest 18 p (.partQuiet p false) [] (beginPartReset p false (stopStream p s))))) ∧
  (∀ o k v, does (.keyProg o k v) fused (fun s => ideFree s && ideOpOk s o && k.length == 32 && v.length == 8)
    (fun s => ideIssue { op := 0, which := o, tsm := true, key := k, iv := v } s)) ∧
  (∀ o, does (.kSetGo o) fused (fun s => ideFree s && ideOpOk s o) (ideIssue { op := 1, which := o, tsm := true })) ∧
  (∀ o, does (.kSetGo o) fused (fun s => tsmServed s && ideOpOk s o && s.ide.current.isSome)
    (onIde (fun i => { i with waiting := i.waiting ++ [{ op := 1, which := o, tsm := true }] }))) ∧
  (∀ o, does (.kSetStop o) fused (fun s => ideFree s && ideOpOk s o) (ideIssue { op := 2, which := o, tsm := true })) ∧
  (∀ r, does (.ideKeyAck .ack) fused (fun s => s.ide.current == some r && r.tsm)
    (fun s => ideNext (emit (.ideAnswer true) (streamStopped r.which.func (onIde (ideTakes r) s))))) ∧
  (∀ r, does (.ideKeyAck .timeout) fused (fun s => s.ide.current == some r && r.tsm && decide (s.ide.since + 10000 ≤ now s))
    (fun s => ideNext (emit (.ideAnswer false) s)))

/-! ## The register port and the test access ports -/

/-- A well-formed access by a function that exists, which its page admits, to an offset that is served. -/
def accessGoes (s : State) (a : RegAccess) (write : Bool) : Bool :=
  s.trust.pwrOk && formedAccess a && decide (a.func ≤ 16) && regAdmits s a write && regServed s a.offset

/-- The mailbox in whose page an access lies: 16 the manager's. -/
def accessBox (a : RegAccess) : Nat := if a.offset < 0x2000 then 16 else a.offset / 0x10000 - 16

/-- Whether that mailbox stands: a partition's does while the partition does. -/
def boxThere (s : State) (a : RegAccess) : Bool := decide (a.offset < 0x2000) || partExists s (accessBox a)

/-- A write that its page admits changes the writable bits it covers, one to a page that does not admit it is refused and counted (R478,
R520 to R522); a read answers what its register reads, 0 where it is not served, an access that its page does not admit 0 as well (R521).
PT_MB_RELEASE, PT_MB_EVENT_PTR and the two bits of LN_TGEN_CTRL are such writes to those registers (R325 to R327, R485 to R488). An
instruction of a test access port is loaded, BYPASS in its place where its category is closed, which counts (R514, R515), and captures its
data register; a DEBUG_ACCESS scan under an open category shifts the earlier result out and performs its update. -/
def Obligations.RegisterAndDebugAccessesComplete : Prop :=
  (∀ a, does (.registerWrite a) served (fun s => accessGoes s a true) (writeWindow a)) ∧
  (∀ a, does (.registerWrite a) served (fun s => s.trust.pwrOk && formedAccess a && !(decide (a.func ≤ 16) && regAdmits s a true)) (refuseReg a)) ∧
  (∀ a, does (.ptMbRelease a) served (fun s => accessGoes s a true && mailboxOffset a == some 0x810 && boxThere s a)
    (mbRelease (accessBox a) (a.data.setWidth 4))) ∧
  (∀ a, does (.ptMbEventPtr a) served (fun s => accessGoes s a true && mailboxOffset a == some 0x820 && boxThere s a)
    (modBox (accessBox a) (fun b => if (a.data.setWidth 16 - b.read).toNat ≤ unread b then { b with read := a.data.setWidth 16 } else b))) ∧
  (∀ a, does (.lnTgenStart a) served (fun s => accessGoes s a true && isTgenCtrl a && setsBit a 0) (writeWindow a)) ∧
  (∀ a, does (.lnTgenStop a) served (fun s => accessGoes s a true && isTgenCtrl a && setsBit a 1) (writeWindow a)) ∧
  (∀ a, does (.registerRead a) served (fun s => formedAccess a && decide (a.func ≤ 16) && regAdmits s a false)
    (fun s => emit (.regData (BitVec.ofNat 64 (regRead s a))) s)) ∧
  (∀ a, does (.registerRead a) served (fun s => formedAccess a && !(decide (a.func ≤ 16) && regAdmits s a false))
    (fun s => emit (.regData 0) (refuseReg a s))) ∧
  (∀ h ir, does (.jtagInstruction h ir) fused (fun s => decide (h < 2) && irDefined h ir && (irCategory h ir).all (fun c => categoryOpen s h c))
    (fun s => captureDr h (onJtag (fun d => if h = 0 then { d with irW := ir, deniedW := satTo 16 d.deniedW } else { d with irE := ir, deniedE := satTo 16 d.deniedE }) s))) ∧
  (∀ h ir, does (.jtagInstruction h ir) fused (fun s => decide (h < 2) && (irCategory h ir).any (fun c => !categoryOpen s h c))
    (fun s => captureDr h (onJtag (fun d => if h = 0 then { d with irW := 0xFF, deniedW := satTo 16 (d.deniedW + 1) }
      else { d with irE := 0xFF, deniedE := satTo 16 (d.deniedE + 1) }) s))) ∧
  (∀ h d, does (.debugAccess h d) fused (fun s => decide (h < 2) && irOf s h == 0x10#8 && (irCategory h (irOf s h)).any (fun c => categoryOpen s h c))
    (fun s =>
      let x := llAccess (bits d.toNat 95 88) (bits d.toNat 87 64) (d.setWidth 64) (emit (.jtag h (captureOf (resultOf s h))) s)
      setResult h x.1 x.2)) ∧
  (∀ h d, does (.debugAccess h d) fused (fun s => decide (h < 2) && irOf s h == 0x11#8 && (irCategory h (irOf s h)).any (fun c => categoryOpen s h c))
    (fun s =>
      let x := wickAccess h (bits d.toNat 95 88) (bits d.toNat 87 64) (d.setWidth 64) (emit (.jtag h (captureOf (resultOf s h))) s)
      setResult h x.1 x.2)) ∧
  (∀ h d, does (.debugAccess h d) fused (fun s => decide (h < 2) && irOf s h == 0x12#8 && (irCategory h (irOf s h)).any (fun c => categoryOpen s h c))
    (fun s => setLoopback h (d.toNat % 2 ^ 16) (emit (.jtag h (loopbackBits s h)) s)))

/-! ## Placement, formats, memory -/

/-- No two stacked domain addresses share a place, and every one lies in a lantern of the build, below 48 GiB (R37). -/
def Obligations.StackedPlacementIsOneToOne : Prop :=
  ∀ s a b, 0 < s.build.lanterns → homeGib s ≤ 48 → a < 2 ^ 30 * (48 * s.build.lanterns) → b < 2 ^ 30 * (48 * s.build.lanterns) →
    (∃ l la, placeStacked s a = .stacked l la ∧ l < s.build.lanterns ∧ la < 48 * 2 ^ 30) ∧ (placeStacked s a = placeStacked s b → a = b)

/-- Within a lantern, where the page is not remapped (R72), the channel is LA[13:8] and the channel-local address (LA[35:14] << 8) |
LA[7:0], below 768 MiB; consecutive units of 256 B fall on consecutive channels; the window of home placement lies wholly in its
lantern; a capacity line of 256 B lies on one port, and the ports interleave at 4 KiB (R38). -/
def Obligations.ChannelsFollowTheAddress : Prop :=
  (∀ s l la, la < 48 * 2 ^ 30 → remapOf s l (la / 4096) = none →
    (channelOf s l la).1 = bits la 13 8 ∧ (channelOf s l la).2 = (bits la 35 14 <<< 8 ||| bits la 7 0) ∧ (channelOf s l la).2 ≤ 0x2FFFFFFF) ∧
  (∀ s l la, remapOf s l (la / 4096) = none → remapOf s l ((la + 256) / 4096) = none →
    (channelOf s l (la + 256)).1 = ((channelOf s l la).1 + 1) % 64) ∧
  (∀ s l off, homeGib s ≤ 48 → off < homeGib s * 2 ^ 30 →
    placeStacked s (homeAddr s l off) = .stacked l ((48 - homeGib s) * 2 ^ 30 + off)) ∧
  (∀ s ca, ca % 256 = 0 → 0 < s.build.caps → ∃ c pa, placeCapacity s (capBase + ca) = .capacity c pa ∧ pa % 256 = 0 ∧ c < s.build.caps ∧
    (∀ j, j < 256 → placeCapacity s (capBase + (ca + j)) = .capacity c (pa + j)) ∧
    (∃ p, placeCapacity s (capBase + (ca + 4096)) = .capacity ((c + 1) % s.build.caps) p))

/-- Element `i` of width `w` is bits w * i + w - 1 down to w * i of the little-endian bit stream, where bit b is bit b mod 8 of byte b div 8
(R76). -/
def Obligations.ElementsAreStreamBits : Prop :=
  ∀ (b : Bytes) (w i j : Nat), 0 < w → w ≤ 8 → w * i + w ≤ 8 * b.length → j < w →
    (streamElem b w i).testBit j = (b.getD ((w * i + j) / 8) 0).getLsbD ((w * i + j) % 8) ∧ streamElem b w i < 2 ^ w

/-- Element `i` of an OCP Microscaling block decodes to the scale times the element's value, for MXINT8 the value times 2^-6; a block whose
scale byte is 0xFF decodes to NaN whatever its elements hold (R78). -/
def Obligations.MicroscalingBlocksDecode : Prop :=
  (∀ s l (f : Fmt) tile i, f.kind = 2 → f.scale = 1 → f.sel = 0 → f.group = 32 → f.elem ≠ 8 →
    weightAt s l f tile i = fMul (decE8m0 (fld tile (f.elemRegion + i / 32) 1)) (decElem f.elem (streamElem tile f.bits i))) ∧
  (∀ s l (f : Fmt) tile i, f.kind = 2 → f.scale = 1 → f.sel = 0 → f.group = 32 → f.elem = 8 →
    weightAt s l f tile i = fMul (decE8m0 (fld tile (f.elemRegion + i / 32) 1)) (fMul (decElem 8 (streamElem tile f.bits i)) (.fin false 1 (-6)))) ∧
  (∀ s l (f : Fmt) tile i, f.kind = 2 → f.scale = 1 → f.sel = 0 → f.group = 32 → fld tile (f.elemRegion + i / 32) 1 = 0xFF → weightAt s l f tile i = .nan)

/-- A capacity line whose counter is at its maximum refuses a write with COUNTER_EXHAUSTED and keeps its old bytes, and the fault, whose
default level is Partition-fatal, is recorded in the fault hub (R54). -/
def Obligations.ExhaustedCounterRefusesWrites : Prop :=
  (∀ r ue c pa addr d be s m, (capAt s c).cache.find? (fun m => m.group == pa / 1024) = some m → (m.at pa).counter = maxCounter → pa < 0x003C00000000 →
    (writeLine r ue c pa addr d be s).1 = stCounterExhausted ∧ rawLine (writeLine r ue c pa addr d be s).2 c pa = rawLine s c pa ∧
    (writeLine r ue c pa addr d be s).2 = counterEndFault r c addr (cacheLine c m s)) ∧
  (classDefault clsCounterEnd).1 = 2

/-! ## Queues, mailboxes, faults, regulation -/

/-- The unread entries of every queue's ring fit in it. -/
def ringsFit (s : State) : Prop := ∀ k, countDiff (queueAt s k).tail (queueAt s k).head ≤ 2 ^ (queueAt s k).log2

/-- A doorbell leaves every ring's entries within its SIZE, moves TAIL on by less than 2^31 where it is accepted, and leaves every TAIL as
it was where it is not (R291). -/
def Obligations.DoorbellsKeepRingsInSize : Prop :=
  ∀ p n t s, (ringsFit s → ringsFit (ringDoorbell p n t s)) ∧
    (∀ k, (queueAt (ringDoorbell p n t s) k).tail = (queueAt s k).tail ∨
      ((queueAt (ringDoorbell p n t s) k).tail = t ∧ countDiff t (queueAt s k).tail < 2 ^ 31 ∧ countDiff t (queueAt s k).head ≤ 2 ^ (queueAt s k).log2)) ∧
    (∀ k, (queueAt (ringDoorbell p n t s) k).head = (queueAt s k).head)

/-- A slot that is not FREE ignores a submission, and writes to its request; a release frees the DONE slots it names and no other; READ
moves on, but never past WRITE; and an event that meets 16 unread entries is dropped and counted, the ring as it was (R326, R327). -/
def Obligations.MailboxSlotsAndEventRing : Prop :=
  (∀ mb k s, (tget {} (boxAt s mb).slots k).state ≠ .free → mbSubmit mb k s = s) ∧
  (∀ a mb off s, off < 0x400 → (tget {} (boxAt s mb).slots (off / 256)).state ≠ .free → writeMailbox a mb off s = s) ∧
  (∀ mb m k s, k < 4 → (tget {} (boxAt (mbRelease mb m s) mb).slots k) =
    if m.getLsbD k = true ∧ (tget {} (boxAt s mb).slots k).state = .done then {} else tget {} (boxAt s mb).slots k) ∧
  (∀ mb v s, unread (boxAt (mbRead mb v s) mb) ≤ unread (boxAt s mb) ∧ (boxAt (mbRead mb v s) mb).write = (boxAt s mb).write) ∧
  (∀ mb code a s, (mb < 16 → partExists s mb = true) → 16 ≤ unread (boxAt s mb) →
    (boxAt (postEvent mb code a s) mb).events = (boxAt s mb).events ∧ (boxAt (postEvent mb code a s) mb).write = (boxAt s mb).write ∧
    (boxAt (postEvent mb code a s) mb).lost = satTo 16 ((boxAt s mb).lost + 1))

/-- A write to FH_SEVERITY sets the level of an unlocked class to 0 to 4, and of no other; level 5 and the reserved levels, and any write
to a locked class, are ignored; the programmed level is that of every record of its class, of SLOT_BAD for a partition's slots only; and a
block reset keeps the levels (R377). -/
def Obligations.SeverityIsProgrammed : Prop :=
  (∀ s a c d, (coverOf a).getLsbD 0 = true → (classDefault c).2 = false → a.data.toNat % 8 ≤ 4 →
    programmedLevel (writeSeverity a c s) d = if d = c then a.data.toNat % 8 else programmedLevel s d) ∧
  (∀ s a c, ((classDefault c).2 = true ∨ 5 ≤ a.data.toNat % 8) → writeSeverity a c s = s) ∧
  (∀ s (a : FaultArg), a.level = none → (a.cls ≠ clsSlotBad ∨ a.part < 16) → baseLevel s a = programmedLevel s a.cls) ∧
  (∀ s (a : FaultArg), a.level = none → a.cls = clsSlotBad → 16 ≤ a.part → baseLevel s a = 4) ∧
  (∀ s, (clearFaults s).faults.levels = s.faults.levels)

/-- W after an adjustment, by the mean fill level over `n` channels (`sum` their sum) and whether requests waited (R360). -/
def adjusted (w sum n : Nat) (waited : Bool) (lo hi step : Nat) : Nat :=
  if 12 * n ≤ sum then max lo (w - w / 8) else if sum < 8 * n ∧ waited = true then min hi (w + step) else w

/-- WINDOW_ADJUST moves W of its unit by R360 and no other unit's, and keeps it from W_MIN to W_MAX; at reset W is 8,192 in a lantern and
1,024 in a capacity engine. -/
def Obligations.WindowsFollowTheFillLevel : Prop :=
  (∀ l xs w s, running s = true → l < s.build.lanterns → xs ≠ [] → (∀ x ∈ xs, x ≤ 15) →
    ∃ t, exec (.windowAdjust (.lantern l) xs w) s = .next t ∧ (lanternAt t l).window = adjusted (lanternAt s l).window xs.sum xs.length w 1024 8192 64 ∧
      (∀ k, k ≠ l → (lanternAt t k).window = (lanternAt s k).window) ∧ (∀ c, (capAt t c).window = (capAt s c).window) ∧
      (1024 ≤ (lanternAt s l).window ∧ (lanternAt s l).window ≤ 8192 → 1024 ≤ (lanternAt t l).window ∧ (lanternAt t l).window ≤ 8192)) ∧
  (∀ c xs w s, running s = true → c < s.build.caps → xs ≠ [] → (∀ x ∈ xs, x ≤ 15) →
    ∃ t, exec (.windowAdjust (.capacity c) xs w) s = .next t ∧ (capAt t c).window = adjusted (capAt s c).window xs.sum xs.length w 64 1024 8 ∧
      (∀ k, k ≠ c → (capAt t k).window = (capAt s k).window) ∧ (∀ l, (lanternAt t l).window = (lanternAt s l).window) ∧
      (64 ≤ (capAt s c).window ∧ (capAt s c).window ≤ 1024 → 64 ≤ (capAt t c).window ∧ (capAt t c).window ≤ 1024)) ∧
  (∀ l, (lanternAt State.reset l).window = 8192) ∧ (∀ c, (capAt State.reset c).window = 1024)

/-- The factors never exceed 1; REALTIME keeps its whole reservation while the rest has any, and what either class is granted never
exceeds what is measured; T stays from 8 to 64, 8 in a power event and 64 without a cap (R362, R365, R498). -/
def Obligations.FactorsAndThrottleKeepTheirBounds : Prop :=
  (∀ m i rt n, (factorsOf m i rt n).1 ≤ 1024 ∧ (factorsOf m i rt n).2 ≤ 1024 ∧ ((factorsOf m i rt n).1 ≠ 0 → (factorsOf m i rt n).2 = 1024) ∧
    (i + rt ≤ m → (factorsOf m i rt n).2 = 1024 ∧ (0 < n → (factorsOf m i rt n).1 * n ≤ 1024 * (m - i - rt))) ∧
    (m < i + rt → (factorsOf m i rt n).1 = 0 ∧ (factorsOf m i rt n).2 * rt ≤ 1024 * (m - i))) ∧
  (∀ s e, 8 ≤ nextThrottle s e ∧ nextThrottle s e ≤ 64 ∧ (s.trust.dusk = true → nextThrottle s e = 8) ∧
    (s.trust.dusk = false → s.reg.cap = 0 → nextThrottle s e = 64))
end

