-- ==== Sys2Proof/Laws/State.lean ====
section
/-! SUPPORT. What each update of the state does to each field, so that no proof unfolds a record update. -/
namespace Sys2Proof.Machine

variable (s : State)


/-! ### onKeys -/

@[simp] theorem onKeys_pending (f : Keys → Keys) : (onKeys f s).pending = s.pending := rfl
@[simp] theorem onKeys_free (f : Keys → Keys) : (onKeys f s).free = s.free := rfl
@[simp] theorem onKeys_build (f : Keys → Keys) : (onKeys f s).build = s.build := rfl
@[simp] theorem onKeys_trust (f : Keys → Keys) : (onKeys f s).trust = s.trust := rfl
@[simp] theorem onKeys_lc (f : Keys → Keys) : (onKeys f s).lc = s.lc := rfl
@[simp] theorem onKeys_flash (f : Keys → Keys) : (onKeys f s).flash = s.flash := rfl
@[simp] theorem onKeys_ll (f : Keys → Keys) : (onKeys f s).ll = s.ll := rfl
@[simp] theorem onKeys_keys (f : Keys → Keys) : (onKeys f s).keys = f s.keys := rfl
@[simp] theorem onKeys_seam (f : Keys → Keys) : (onKeys f s).seam = s.seam := rfl
@[simp] theorem onKeys_time (f : Keys → Keys) : (onKeys f s).time = s.time := rfl
@[simp] theorem onKeys_mem (f : Keys → Keys) : (onKeys f s).mem = s.mem := rfl
@[simp] theorem onKeys_path (f : Keys → Keys) : (onKeys f s).path = s.path := rfl
@[simp] theorem onKeys_tables (f : Keys → Keys) : (onKeys f s).tables = s.tables := rfl
@[simp] theorem onKeys_parts (f : Keys → Keys) : (onKeys f s).parts = s.parts := rfl
@[simp] theorem onKeys_boxes (f : Keys → Keys) : (onKeys f s).boxes = s.boxes := rfl
@[simp] theorem onKeys_fe (f : Keys → Keys) : (onKeys f s).fe = s.fe := rfl
@[simp] theorem onKeys_kv (f : Keys → Keys) : (onKeys f s).kv = s.kv := rfl
@[simp] theorem onKeys_experts (f : Keys → Keys) : (onKeys f s).experts = s.experts := rfl
@[simp] theorem onKeys_fabric (f : Keys → Keys) : (onKeys f s).fabric = s.fabric := rfl
@[simp] theorem onKeys_reg (f : Keys → Keys) : (onKeys f s).reg = s.reg := rfl
@[simp] theorem onKeys_faults (f : Keys → Keys) : (onKeys f s).faults = s.faults := rfl
@[simp] theorem onKeys_trace (f : Keys → Keys) : (onKeys f s).trace = s.trace := rfl
@[simp] theorem onKeys_curfew (f : Keys → Keys) : (onKeys f s).curfew = s.curfew := rfl
@[simp] theorem onKeys_ide (f : Keys → Keys) : (onKeys f s).ide = s.ide := rfl
@[simp] theorem onKeys_jtag (f : Keys → Keys) : (onKeys f s).jtag = s.jtag := rfl
@[simp] theorem onKeys_inbox (f : Keys → Keys) : (onKeys f s).inbox = s.inbox := rfl
@[simp] theorem onKeys_out (f : Keys → Keys) : (onKeys f s).out = s.out := rfl

/-! ### onTrust -/

@[simp] theorem onTrust_pending (f : Trust → Trust) : (onTrust f s).pending = s.pending := rfl
@[simp] theorem onTrust_free (f : Trust → Trust) : (onTrust f s).free = s.free := rfl
@[simp] theorem onTrust_build (f : Trust → Trust) : (onTrust f s).build = s.build := rfl
@[simp] theorem onTrust_trust (f : Trust → Trust) : (onTrust f s).trust = f s.trust := rfl
@[simp] theorem onTrust_lc (f : Trust → Trust) : (onTrust f s).lc = s.lc := rfl
@[simp] theorem onTrust_flash (f : Trust → Trust) : (onTrust f s).flash = s.flash := rfl
@[simp] theorem onTrust_ll (f : Trust → Trust) : (onTrust f s).ll = s.ll := rfl
@[simp] theorem onTrust_keys (f : Trust → Trust) : (onTrust f s).keys = s.keys := rfl
@[simp] theorem onTrust_seam (f : Trust → Trust) : (onTrust f s).seam = s.seam := rfl
@[simp] theorem onTrust_time (f : Trust → Trust) : (onTrust f s).time = s.time := rfl
@[simp] theorem onTrust_mem (f : Trust → Trust) : (onTrust f s).mem = s.mem := rfl
@[simp] theorem onTrust_path (f : Trust → Trust) : (onTrust f s).path = s.path := rfl
@[simp] theorem onTrust_tables (f : Trust → Trust) : (onTrust f s).tables = s.tables := rfl
@[simp] theorem onTrust_parts (f : Trust → Trust) : (onTrust f s).parts = s.parts := rfl
@[simp] theorem onTrust_boxes (f : Trust → Trust) : (onTrust f s).boxes = s.boxes := rfl
@[simp] theorem onTrust_fe (f : Trust → Trust) : (onTrust f s).fe = s.fe := rfl
@[simp] theorem onTrust_kv (f : Trust → Trust) : (onTrust f s).kv = s.kv := rfl
@[simp] theorem onTrust_experts (f : Trust → Trust) : (onTrust f s).experts = s.experts := rfl
@[simp] theorem onTrust_fabric (f : Trust → Trust) : (onTrust f s).fabric = s.fabric := rfl
@[simp] theorem onTrust_reg (f : Trust → Trust) : (onTrust f s).reg = s.reg := rfl
@[simp] theorem onTrust_faults (f : Trust → Trust) : (onTrust f s).faults = s.faults := rfl
@[simp] theorem onTrust_trace (f : Trust → Trust) : (onTrust f s).trace = s.trace := rfl
@[simp] theorem onTrust_curfew (f : Trust → Trust) : (onTrust f s).curfew = s.curfew := rfl
@[simp] theorem onTrust_ide (f : Trust → Trust) : (onTrust f s).ide = s.ide := rfl
@[simp] theorem onTrust_jtag (f : Trust → Trust) : (onTrust f s).jtag = s.jtag := rfl
@[simp] theorem onTrust_inbox (f : Trust → Trust) : (onTrust f s).inbox = s.inbox := rfl
@[simp] theorem onTrust_out (f : Trust → Trust) : (onTrust f s).out = s.out := rfl

/-! ### onLc -/

@[simp] theorem onLc_pending (f : LifeCycle → LifeCycle) : (onLc f s).pending = s.pending := rfl
@[simp] theorem onLc_free (f : LifeCycle → LifeCycle) : (onLc f s).free = s.free := rfl
@[simp] theorem onLc_build (f : LifeCycle → LifeCycle) : (onLc f s).build = s.build := rfl
@[simp] theorem onLc_trust (f : LifeCycle → LifeCycle) : (onLc f s).trust = s.trust := rfl
@[simp] theorem onLc_lc (f : LifeCycle → LifeCycle) : (onLc f s).lc = f s.lc := rfl
@[simp] theorem onLc_flash (f : LifeCycle → LifeCycle) : (onLc f s).flash = s.flash := rfl
@[simp] theorem onLc_ll (f : LifeCycle → LifeCycle) : (onLc f s).ll = s.ll := rfl
@[simp] theorem onLc_keys (f : LifeCycle → LifeCycle) : (onLc f s).keys = s.keys := rfl
@[simp] theorem onLc_seam (f : LifeCycle → LifeCycle) : (onLc f s).seam = s.seam := rfl
@[simp] theorem onLc_time (f : LifeCycle → LifeCycle) : (onLc f s).time = s.time := rfl
@[simp] theorem onLc_mem (f : LifeCycle → LifeCycle) : (onLc f s).mem = s.mem := rfl
@[simp] theorem onLc_path (f : LifeCycle → LifeCycle) : (onLc f s).path = s.path := rfl
@[simp] theorem onLc_tables (f : LifeCycle → LifeCycle) : (onLc f s).tables = s.tables := rfl
@[simp] theorem onLc_parts (f : LifeCycle → LifeCycle) : (onLc f s).parts = s.parts := rfl
@[simp] theorem onLc_boxes (f : LifeCycle → LifeCycle) : (onLc f s).boxes = s.boxes := rfl
@[simp] theorem onLc_fe (f : LifeCycle → LifeCycle) : (onLc f s).fe = s.fe := rfl
@[simp] theorem onLc_kv (f : LifeCycle → LifeCycle) : (onLc f s).kv = s.kv := rfl
@[simp] theorem onLc_experts (f : LifeCycle → LifeCycle) : (onLc f s).experts = s.experts := rfl
@[simp] theorem onLc_fabric (f : LifeCycle → LifeCycle) : (onLc f s).fabric = s.fabric := rfl
@[simp] theorem onLc_reg (f : LifeCycle → LifeCycle) : (onLc f s).reg = s.reg := rfl
@[simp] theorem onLc_faults (f : LifeCycle → LifeCycle) : (onLc f s).faults = s.faults := rfl
@[simp] theorem onLc_trace (f : LifeCycle → LifeCycle) : (onLc f s).trace = s.trace := rfl
@[simp] theorem onLc_curfew (f : LifeCycle → LifeCycle) : (onLc f s).curfew = s.curfew := rfl
@[simp] theorem onLc_ide (f : LifeCycle → LifeCycle) : (onLc f s).ide = s.ide := rfl
@[simp] theorem onLc_jtag (f : LifeCycle → LifeCycle) : (onLc f s).jtag = s.jtag := rfl
@[simp] theorem onLc_inbox (f : LifeCycle → LifeCycle) : (onLc f s).inbox = s.inbox := rfl
@[simp] theorem onLc_out (f : LifeCycle → LifeCycle) : (onLc f s).out = s.out := rfl

/-! ### onFlash -/

@[simp] theorem onFlash_pending (f : Flash → Flash) : (onFlash f s).pending = s.pending := rfl
@[simp] theorem onFlash_free (f : Flash → Flash) : (onFlash f s).free = s.free := rfl
@[simp] theorem onFlash_build (f : Flash → Flash) : (onFlash f s).build = s.build := rfl
@[simp] theorem onFlash_trust (f : Flash → Flash) : (onFlash f s).trust = s.trust := rfl
@[simp] theorem onFlash_lc (f : Flash → Flash) : (onFlash f s).lc = s.lc := rfl
@[simp] theorem onFlash_flash (f : Flash → Flash) : (onFlash f s).flash = f s.flash := rfl
@[simp] theorem onFlash_ll (f : Flash → Flash) : (onFlash f s).ll = s.ll := rfl
@[simp] theorem onFlash_keys (f : Flash → Flash) : (onFlash f s).keys = s.keys := rfl
@[simp] theorem onFlash_seam (f : Flash → Flash) : (onFlash f s).seam = s.seam := rfl
@[simp] theorem onFlash_time (f : Flash → Flash) : (onFlash f s).time = s.time := rfl
@[simp] theorem onFlash_mem (f : Flash → Flash) : (onFlash f s).mem = s.mem := rfl
@[simp] theorem onFlash_path (f : Flash → Flash) : (onFlash f s).path = s.path := rfl
@[simp] theorem onFlash_tables (f : Flash → Flash) : (onFlash f s).tables = s.tables := rfl
@[simp] theorem onFlash_parts (f : Flash → Flash) : (onFlash f s).parts = s.parts := rfl
@[simp] theorem onFlash_boxes (f : Flash → Flash) : (onFlash f s).boxes = s.boxes := rfl
@[simp] theorem onFlash_fe (f : Flash → Flash) : (onFlash f s).fe = s.fe := rfl
@[simp] theorem onFlash_kv (f : Flash → Flash) : (onFlash f s).kv = s.kv := rfl
@[simp] theorem onFlash_experts (f : Flash → Flash) : (onFlash f s).experts = s.experts := rfl
@[simp] theorem onFlash_fabric (f : Flash → Flash) : (onFlash f s).fabric = s.fabric := rfl
@[simp] theorem onFlash_reg (f : Flash → Flash) : (onFlash f s).reg = s.reg := rfl
@[simp] theorem onFlash_faults (f : Flash → Flash) : (onFlash f s).faults = s.faults := rfl
@[simp] theorem onFlash_trace (f : Flash → Flash) : (onFlash f s).trace = s.trace := rfl
@[simp] theorem onFlash_curfew (f : Flash → Flash) : (onFlash f s).curfew = s.curfew := rfl
@[simp] theorem onFlash_ide (f : Flash → Flash) : (onFlash f s).ide = s.ide := rfl
@[simp] theorem onFlash_jtag (f : Flash → Flash) : (onFlash f s).jtag = s.jtag := rfl
@[simp] theorem onFlash_inbox (f : Flash → Flash) : (onFlash f s).inbox = s.inbox := rfl
@[simp] theorem onFlash_out (f : Flash → Flash) : (onFlash f s).out = s.out := rfl

/-! ### onLl -/

@[simp] theorem onLl_pending (f : Lamplighter → Lamplighter) : (onLl f s).pending = s.pending := rfl
@[simp] theorem onLl_free (f : Lamplighter → Lamplighter) : (onLl f s).free = s.free := rfl
@[simp] theorem onLl_build (f : Lamplighter → Lamplighter) : (onLl f s).build = s.build := rfl
@[simp] theorem onLl_trust (f : Lamplighter → Lamplighter) : (onLl f s).trust = s.trust := rfl
@[simp] theorem onLl_lc (f : Lamplighter → Lamplighter) : (onLl f s).lc = s.lc := rfl
@[simp] theorem onLl_flash (f : Lamplighter → Lamplighter) : (onLl f s).flash = s.flash := rfl
@[simp] theorem onLl_ll (f : Lamplighter → Lamplighter) : (onLl f s).ll = f s.ll := rfl
@[simp] theorem onLl_keys (f : Lamplighter → Lamplighter) : (onLl f s).keys = s.keys := rfl
@[simp] theorem onLl_seam (f : Lamplighter → Lamplighter) : (onLl f s).seam = s.seam := rfl
@[simp] theorem onLl_time (f : Lamplighter → Lamplighter) : (onLl f s).time = s.time := rfl
@[simp] theorem onLl_mem (f : Lamplighter → Lamplighter) : (onLl f s).mem = s.mem := rfl
@[simp] theorem onLl_path (f : Lamplighter → Lamplighter) : (onLl f s).path = s.path := rfl
@[simp] theorem onLl_tables (f : Lamplighter → Lamplighter) : (onLl f s).tables = s.tables := rfl
@[simp] theorem onLl_parts (f : Lamplighter → Lamplighter) : (onLl f s).parts = s.parts := rfl
@[simp] theorem onLl_boxes (f : Lamplighter → Lamplighter) : (onLl f s).boxes = s.boxes := rfl
@[simp] theorem onLl_fe (f : Lamplighter → Lamplighter) : (onLl f s).fe = s.fe := rfl
@[simp] theorem onLl_kv (f : Lamplighter → Lamplighter) : (onLl f s).kv = s.kv := rfl
@[simp] theorem onLl_experts (f : Lamplighter → Lamplighter) : (onLl f s).experts = s.experts := rfl
@[simp] theorem onLl_fabric (f : Lamplighter → Lamplighter) : (onLl f s).fabric = s.fabric := rfl
@[simp] theorem onLl_reg (f : Lamplighter → Lamplighter) : (onLl f s).reg = s.reg := rfl
@[simp] theorem onLl_faults (f : Lamplighter → Lamplighter) : (onLl f s).faults = s.faults := rfl
@[simp] theorem onLl_trace (f : Lamplighter → Lamplighter) : (onLl f s).trace = s.trace := rfl
@[simp] theorem onLl_curfew (f : Lamplighter → Lamplighter) : (onLl f s).curfew = s.curfew := rfl
@[simp] theorem onLl_ide (f : Lamplighter → Lamplighter) : (onLl f s).ide = s.ide := rfl
@[simp] theorem onLl_jtag (f : Lamplighter → Lamplighter) : (onLl f s).jtag = s.jtag := rfl
@[simp] theorem onLl_inbox (f : Lamplighter → Lamplighter) : (onLl f s).inbox = s.inbox := rfl
@[simp] theorem onLl_out (f : Lamplighter → Lamplighter) : (onLl f s).out = s.out := rfl

/-! ### onSeam -/

@[simp] theorem onSeam_pending (f : Seam → Seam) : (onSeam f s).pending = s.pending := rfl
@[simp] theorem onSeam_free (f : Seam → Seam) : (onSeam f s).free = s.free := rfl
@[simp] theorem onSeam_build (f : Seam → Seam) : (onSeam f s).build = s.build := rfl
@[simp] theorem onSeam_trust (f : Seam → Seam) : (onSeam f s).trust = s.trust := rfl
@[simp] theorem onSeam_lc (f : Seam → Seam) : (onSeam f s).lc = s.lc := rfl
@[simp] theorem onSeam_flash (f : Seam → Seam) : (onSeam f s).flash = s.flash := rfl
@[simp] theorem onSeam_ll (f : Seam → Seam) : (onSeam f s).ll = s.ll := rfl
@[simp] theorem onSeam_keys (f : Seam → Seam) : (onSeam f s).keys = s.keys := rfl
@[simp] theorem onSeam_seam (f : Seam → Seam) : (onSeam f s).seam = f s.seam := rfl
@[simp] theorem onSeam_time (f : Seam → Seam) : (onSeam f s).time = s.time := rfl
@[simp] theorem onSeam_mem (f : Seam → Seam) : (onSeam f s).mem = s.mem := rfl
@[simp] theorem onSeam_path (f : Seam → Seam) : (onSeam f s).path = s.path := rfl
@[simp] theorem onSeam_tables (f : Seam → Seam) : (onSeam f s).tables = s.tables := rfl
@[simp] theorem onSeam_parts (f : Seam → Seam) : (onSeam f s).parts = s.parts := rfl
@[simp] theorem onSeam_boxes (f : Seam → Seam) : (onSeam f s).boxes = s.boxes := rfl
@[simp] theorem onSeam_fe (f : Seam → Seam) : (onSeam f s).fe = s.fe := rfl
@[simp] theorem onSeam_kv (f : Seam → Seam) : (onSeam f s).kv = s.kv := rfl
@[simp] theorem onSeam_experts (f : Seam → Seam) : (onSeam f s).experts = s.experts := rfl
@[simp] theorem onSeam_fabric (f : Seam → Seam) : (onSeam f s).fabric = s.fabric := rfl
@[simp] theorem onSeam_reg (f : Seam → Seam) : (onSeam f s).reg = s.reg := rfl
@[simp] theorem onSeam_faults (f : Seam → Seam) : (onSeam f s).faults = s.faults := rfl
@[simp] theorem onSeam_trace (f : Seam → Seam) : (onSeam f s).trace = s.trace := rfl
@[simp] theorem onSeam_curfew (f : Seam → Seam) : (onSeam f s).curfew = s.curfew := rfl
@[simp] theorem onSeam_ide (f : Seam → Seam) : (onSeam f s).ide = s.ide := rfl
@[simp] theorem onSeam_jtag (f : Seam → Seam) : (onSeam f s).jtag = s.jtag := rfl
@[simp] theorem onSeam_inbox (f : Seam → Seam) : (onSeam f s).inbox = s.inbox := rfl
@[simp] theorem onSeam_out (f : Seam → Seam) : (onSeam f s).out = s.out := rfl

/-! ### onTime -/

@[simp] theorem onTime_pending (f : Time → Time) : (onTime f s).pending = s.pending := rfl
@[simp] theorem onTime_free (f : Time → Time) : (onTime f s).free = s.free := rfl
@[simp] theorem onTime_build (f : Time → Time) : (onTime f s).build = s.build := rfl
@[simp] theorem onTime_trust (f : Time → Time) : (onTime f s).trust = s.trust := rfl
@[simp] theorem onTime_lc (f : Time → Time) : (onTime f s).lc = s.lc := rfl
@[simp] theorem onTime_flash (f : Time → Time) : (onTime f s).flash = s.flash := rfl
@[simp] theorem onTime_ll (f : Time → Time) : (onTime f s).ll = s.ll := rfl
@[simp] theorem onTime_keys (f : Time → Time) : (onTime f s).keys = s.keys := rfl
@[simp] theorem onTime_seam (f : Time → Time) : (onTime f s).seam = s.seam := rfl
@[simp] theorem onTime_time (f : Time → Time) : (onTime f s).time = f s.time := rfl
@[simp] theorem onTime_mem (f : Time → Time) : (onTime f s).mem = s.mem := rfl
@[simp] theorem onTime_path (f : Time → Time) : (onTime f s).path = s.path := rfl
@[simp] theorem onTime_tables (f : Time → Time) : (onTime f s).tables = s.tables := rfl
@[simp] theorem onTime_parts (f : Time → Time) : (onTime f s).parts = s.parts := rfl
@[simp] theorem onTime_boxes (f : Time → Time) : (onTime f s).boxes = s.boxes := rfl
@[simp] theorem onTime_fe (f : Time → Time) : (onTime f s).fe = s.fe := rfl
@[simp] theorem onTime_kv (f : Time → Time) : (onTime f s).kv = s.kv := rfl
@[simp] theorem onTime_experts (f : Time → Time) : (onTime f s).experts = s.experts := rfl
@[simp] theorem onTime_fabric (f : Time → Time) : (onTime f s).fabric = s.fabric := rfl
@[simp] theorem onTime_reg (f : Time → Time) : (onTime f s).reg = s.reg := rfl
@[simp] theorem onTime_faults (f : Time → Time) : (onTime f s).faults = s.faults := rfl
@[simp] theorem onTime_trace (f : Time → Time) : (onTime f s).trace = s.trace := rfl
@[simp] theorem onTime_curfew (f : Time → Time) : (onTime f s).curfew = s.curfew := rfl
@[simp] theorem onTime_ide (f : Time → Time) : (onTime f s).ide = s.ide := rfl
@[simp] theorem onTime_jtag (f : Time → Time) : (onTime f s).jtag = s.jtag := rfl
@[simp] theorem onTime_inbox (f : Time → Time) : (onTime f s).inbox = s.inbox := rfl
@[simp] theorem onTime_out (f : Time → Time) : (onTime f s).out = s.out := rfl

/-! ### onMem -/

@[simp] theorem onMem_pending (f : Memory → Memory) : (onMem f s).pending = s.pending := rfl
@[simp] theorem onMem_free (f : Memory → Memory) : (onMem f s).free = s.free := rfl
@[simp] theorem onMem_build (f : Memory → Memory) : (onMem f s).build = s.build := rfl
@[simp] theorem onMem_trust (f : Memory → Memory) : (onMem f s).trust = s.trust := rfl
@[simp] theorem onMem_lc (f : Memory → Memory) : (onMem f s).lc = s.lc := rfl
@[simp] theorem onMem_flash (f : Memory → Memory) : (onMem f s).flash = s.flash := rfl
@[simp] theorem onMem_ll (f : Memory → Memory) : (onMem f s).ll = s.ll := rfl
@[simp] theorem onMem_keys (f : Memory → Memory) : (onMem f s).keys = s.keys := rfl
@[simp] theorem onMem_seam (f : Memory → Memory) : (onMem f s).seam = s.seam := rfl
@[simp] theorem onMem_time (f : Memory → Memory) : (onMem f s).time = s.time := rfl
@[simp] theorem onMem_mem (f : Memory → Memory) : (onMem f s).mem = f s.mem := rfl
@[simp] theorem onMem_path (f : Memory → Memory) : (onMem f s).path = s.path := rfl
@[simp] theorem onMem_tables (f : Memory → Memory) : (onMem f s).tables = s.tables := rfl
@[simp] theorem onMem_parts (f : Memory → Memory) : (onMem f s).parts = s.parts := rfl
@[simp] theorem onMem_boxes (f : Memory → Memory) : (onMem f s).boxes = s.boxes := rfl
@[simp] theorem onMem_fe (f : Memory → Memory) : (onMem f s).fe = s.fe := rfl
@[simp] theorem onMem_kv (f : Memory → Memory) : (onMem f s).kv = s.kv := rfl
@[simp] theorem onMem_experts (f : Memory → Memory) : (onMem f s).experts = s.experts := rfl
@[simp] theorem onMem_fabric (f : Memory → Memory) : (onMem f s).fabric = s.fabric := rfl
@[simp] theorem onMem_reg (f : Memory → Memory) : (onMem f s).reg = s.reg := rfl
@[simp] theorem onMem_faults (f : Memory → Memory) : (onMem f s).faults = s.faults := rfl
@[simp] theorem onMem_trace (f : Memory → Memory) : (onMem f s).trace = s.trace := rfl
@[simp] theorem onMem_curfew (f : Memory → Memory) : (onMem f s).curfew = s.curfew := rfl
@[simp] theorem onMem_ide (f : Memory → Memory) : (onMem f s).ide = s.ide := rfl
@[simp] theorem onMem_jtag (f : Memory → Memory) : (onMem f s).jtag = s.jtag := rfl
@[simp] theorem onMem_inbox (f : Memory → Memory) : (onMem f s).inbox = s.inbox := rfl
@[simp] theorem onMem_out (f : Memory → Memory) : (onMem f s).out = s.out := rfl

/-! ### onPath -/

@[simp] theorem onPath_pending (f : MemPath → MemPath) : (onPath f s).pending = s.pending := rfl
@[simp] theorem onPath_free (f : MemPath → MemPath) : (onPath f s).free = s.free := rfl
@[simp] theorem onPath_build (f : MemPath → MemPath) : (onPath f s).build = s.build := rfl
@[simp] theorem onPath_trust (f : MemPath → MemPath) : (onPath f s).trust = s.trust := rfl
@[simp] theorem onPath_lc (f : MemPath → MemPath) : (onPath f s).lc = s.lc := rfl
@[simp] theorem onPath_flash (f : MemPath → MemPath) : (onPath f s).flash = s.flash := rfl
@[simp] theorem onPath_ll (f : MemPath → MemPath) : (onPath f s).ll = s.ll := rfl
@[simp] theorem onPath_keys (f : MemPath → MemPath) : (onPath f s).keys = s.keys := rfl
@[simp] theorem onPath_seam (f : MemPath → MemPath) : (onPath f s).seam = s.seam := rfl
@[simp] theorem onPath_time (f : MemPath → MemPath) : (onPath f s).time = s.time := rfl
@[simp] theorem onPath_mem (f : MemPath → MemPath) : (onPath f s).mem = s.mem := rfl
@[simp] theorem onPath_path (f : MemPath → MemPath) : (onPath f s).path = f s.path := rfl
@[simp] theorem onPath_tables (f : MemPath → MemPath) : (onPath f s).tables = s.tables := rfl
@[simp] theorem onPath_parts (f : MemPath → MemPath) : (onPath f s).parts = s.parts := rfl
@[simp] theorem onPath_boxes (f : MemPath → MemPath) : (onPath f s).boxes = s.boxes := rfl
@[simp] theorem onPath_fe (f : MemPath → MemPath) : (onPath f s).fe = s.fe := rfl
@[simp] theorem onPath_kv (f : MemPath → MemPath) : (onPath f s).kv = s.kv := rfl
@[simp] theorem onPath_experts (f : MemPath → MemPath) : (onPath f s).experts = s.experts := rfl
@[simp] theorem onPath_fabric (f : MemPath → MemPath) : (onPath f s).fabric = s.fabric := rfl
@[simp] theorem onPath_reg (f : MemPath → MemPath) : (onPath f s).reg = s.reg := rfl
@[simp] theorem onPath_faults (f : MemPath → MemPath) : (onPath f s).faults = s.faults := rfl
@[simp] theorem onPath_trace (f : MemPath → MemPath) : (onPath f s).trace = s.trace := rfl
@[simp] theorem onPath_curfew (f : MemPath → MemPath) : (onPath f s).curfew = s.curfew := rfl
@[simp] theorem onPath_ide (f : MemPath → MemPath) : (onPath f s).ide = s.ide := rfl
@[simp] theorem onPath_jtag (f : MemPath → MemPath) : (onPath f s).jtag = s.jtag := rfl
@[simp] theorem onPath_inbox (f : MemPath → MemPath) : (onPath f s).inbox = s.inbox := rfl
@[simp] theorem onPath_out (f : MemPath → MemPath) : (onPath f s).out = s.out := rfl

/-! ### onTables -/

@[simp] theorem onTables_pending (f : Tables → Tables) : (onTables f s).pending = s.pending := rfl
@[simp] theorem onTables_free (f : Tables → Tables) : (onTables f s).free = s.free := rfl
@[simp] theorem onTables_build (f : Tables → Tables) : (onTables f s).build = s.build := rfl
@[simp] theorem onTables_trust (f : Tables → Tables) : (onTables f s).trust = s.trust := rfl
@[simp] theorem onTables_lc (f : Tables → Tables) : (onTables f s).lc = s.lc := rfl
@[simp] theorem onTables_flash (f : Tables → Tables) : (onTables f s).flash = s.flash := rfl
@[simp] theorem onTables_ll (f : Tables → Tables) : (onTables f s).ll = s.ll := rfl
@[simp] theorem onTables_keys (f : Tables → Tables) : (onTables f s).keys = s.keys := rfl
@[simp] theorem onTables_seam (f : Tables → Tables) : (onTables f s).seam = s.seam := rfl
@[simp] theorem onTables_time (f : Tables → Tables) : (onTables f s).time = s.time := rfl
@[simp] theorem onTables_mem (f : Tables → Tables) : (onTables f s).mem = s.mem := rfl
@[simp] theorem onTables_path (f : Tables → Tables) : (onTables f s).path = s.path := rfl
@[simp] theorem onTables_tables (f : Tables → Tables) : (onTables f s).tables = f s.tables := rfl
@[simp] theorem onTables_parts (f : Tables → Tables) : (onTables f s).parts = s.parts := rfl
@[simp] theorem onTables_boxes (f : Tables → Tables) : (onTables f s).boxes = s.boxes := rfl
@[simp] theorem onTables_fe (f : Tables → Tables) : (onTables f s).fe = s.fe := rfl
@[simp] theorem onTables_kv (f : Tables → Tables) : (onTables f s).kv = s.kv := rfl
@[simp] theorem onTables_experts (f : Tables → Tables) : (onTables f s).experts = s.experts := rfl
@[simp] theorem onTables_fabric (f : Tables → Tables) : (onTables f s).fabric = s.fabric := rfl
@[simp] theorem onTables_reg (f : Tables → Tables) : (onTables f s).reg = s.reg := rfl
@[simp] theorem onTables_faults (f : Tables → Tables) : (onTables f s).faults = s.faults := rfl
@[simp] theorem onTables_trace (f : Tables → Tables) : (onTables f s).trace = s.trace := rfl
@[simp] theorem onTables_curfew (f : Tables → Tables) : (onTables f s).curfew = s.curfew := rfl
@[simp] theorem onTables_ide (f : Tables → Tables) : (onTables f s).ide = s.ide := rfl
@[simp] theorem onTables_jtag (f : Tables → Tables) : (onTables f s).jtag = s.jtag := rfl
@[simp] theorem onTables_inbox (f : Tables → Tables) : (onTables f s).inbox = s.inbox := rfl
@[simp] theorem onTables_out (f : Tables → Tables) : (onTables f s).out = s.out := rfl

/-! ### onParts -/

@[simp] theorem onParts_pending (f : Parts → Parts) : (onParts f s).pending = s.pending := rfl
@[simp] theorem onParts_free (f : Parts → Parts) : (onParts f s).free = s.free := rfl
@[simp] theorem onParts_build (f : Parts → Parts) : (onParts f s).build = s.build := rfl
@[simp] theorem onParts_trust (f : Parts → Parts) : (onParts f s).trust = s.trust := rfl
@[simp] theorem onParts_lc (f : Parts → Parts) : (onParts f s).lc = s.lc := rfl
@[simp] theorem onParts_flash (f : Parts → Parts) : (onParts f s).flash = s.flash := rfl
@[simp] theorem onParts_ll (f : Parts → Parts) : (onParts f s).ll = s.ll := rfl
@[simp] theorem onParts_keys (f : Parts → Parts) : (onParts f s).keys = s.keys := rfl
@[simp] theorem onParts_seam (f : Parts → Parts) : (onParts f s).seam = s.seam := rfl
@[simp] theorem onParts_time (f : Parts → Parts) : (onParts f s).time = s.time := rfl
@[simp] theorem onParts_mem (f : Parts → Parts) : (onParts f s).mem = s.mem := rfl
@[simp] theorem onParts_path (f : Parts → Parts) : (onParts f s).path = s.path := rfl
@[simp] theorem onParts_tables (f : Parts → Parts) : (onParts f s).tables = s.tables := rfl
@[simp] theorem onParts_parts (f : Parts → Parts) : (onParts f s).parts = f s.parts := rfl
@[simp] theorem onParts_boxes (f : Parts → Parts) : (onParts f s).boxes = s.boxes := rfl
@[simp] theorem onParts_fe (f : Parts → Parts) : (onParts f s).fe = s.fe := rfl
@[simp] theorem onParts_kv (f : Parts → Parts) : (onParts f s).kv = s.kv := rfl
@[simp] theorem onParts_experts (f : Parts → Parts) : (onParts f s).experts = s.experts := rfl
@[simp] theorem onParts_fabric (f : Parts → Parts) : (onParts f s).fabric = s.fabric := rfl
@[simp] theorem onParts_reg (f : Parts → Parts) : (onParts f s).reg = s.reg := rfl
@[simp] theorem onParts_faults (f : Parts → Parts) : (onParts f s).faults = s.faults := rfl
@[simp] theorem onParts_trace (f : Parts → Parts) : (onParts f s).trace = s.trace := rfl
@[simp] theorem onParts_curfew (f : Parts → Parts) : (onParts f s).curfew = s.curfew := rfl
@[simp] theorem onParts_ide (f : Parts → Parts) : (onParts f s).ide = s.ide := rfl
@[simp] theorem onParts_jtag (f : Parts → Parts) : (onParts f s).jtag = s.jtag := rfl
@[simp] theorem onParts_inbox (f : Parts → Parts) : (onParts f s).inbox = s.inbox := rfl
@[simp] theorem onParts_out (f : Parts → Parts) : (onParts f s).out = s.out := rfl

/-! ### onBoxes -/

@[simp] theorem onBoxes_pending (f : Mailboxes → Mailboxes) : (onBoxes f s).pending = s.pending := rfl
@[simp] theorem onBoxes_free (f : Mailboxes → Mailboxes) : (onBoxes f s).free = s.free := rfl
@[simp] theorem onBoxes_build (f : Mailboxes → Mailboxes) : (onBoxes f s).build = s.build := rfl
@[simp] theorem onBoxes_trust (f : Mailboxes → Mailboxes) : (onBoxes f s).trust = s.trust := rfl
@[simp] theorem onBoxes_lc (f : Mailboxes → Mailboxes) : (onBoxes f s).lc = s.lc := rfl
@[simp] theorem onBoxes_flash (f : Mailboxes → Mailboxes) : (onBoxes f s).flash = s.flash := rfl
@[simp] theorem onBoxes_ll (f : Mailboxes → Mailboxes) : (onBoxes f s).ll = s.ll := rfl
@[simp] theorem onBoxes_keys (f : Mailboxes → Mailboxes) : (onBoxes f s).keys = s.keys := rfl
@[simp] theorem onBoxes_seam (f : Mailboxes → Mailboxes) : (onBoxes f s).seam = s.seam := rfl
@[simp] theorem onBoxes_time (f : Mailboxes → Mailboxes) : (onBoxes f s).time = s.time := rfl
@[simp] theorem onBoxes_mem (f : Mailboxes → Mailboxes) : (onBoxes f s).mem = s.mem := rfl
@[simp] theorem onBoxes_path (f : Mailboxes → Mailboxes) : (onBoxes f s).path = s.path := rfl
@[simp] theorem onBoxes_tables (f : Mailboxes → Mailboxes) : (onBoxes f s).tables = s.tables := rfl
@[simp] theorem onBoxes_parts (f : Mailboxes → Mailboxes) : (onBoxes f s).parts = s.parts := rfl
@[simp] theorem onBoxes_boxes (f : Mailboxes → Mailboxes) : (onBoxes f s).boxes = f s.boxes := rfl
@[simp] theorem onBoxes_fe (f : Mailboxes → Mailboxes) : (onBoxes f s).fe = s.fe := rfl
@[simp] theorem onBoxes_kv (f : Mailboxes → Mailboxes) : (onBoxes f s).kv = s.kv := rfl
@[simp] theorem onBoxes_experts (f : Mailboxes → Mailboxes) : (onBoxes f s).experts = s.experts := rfl
@[simp] theorem onBoxes_fabric (f : Mailboxes → Mailboxes) : (onBoxes f s).fabric = s.fabric := rfl
@[simp] theorem onBoxes_reg (f : Mailboxes → Mailboxes) : (onBoxes f s).reg = s.reg := rfl
@[simp] theorem onBoxes_faults (f : Mailboxes → Mailboxes) : (onBoxes f s).faults = s.faults := rfl
@[simp] theorem onBoxes_trace (f : Mailboxes → Mailboxes) : (onBoxes f s).trace = s.trace := rfl
@[simp] theorem onBoxes_curfew (f : Mailboxes → Mailboxes) : (onBoxes f s).curfew = s.curfew := rfl
@[simp] theorem onBoxes_ide (f : Mailboxes → Mailboxes) : (onBoxes f s).ide = s.ide := rfl
@[simp] theorem onBoxes_jtag (f : Mailboxes → Mailboxes) : (onBoxes f s).jtag = s.jtag := rfl
@[simp] theorem onBoxes_inbox (f : Mailboxes → Mailboxes) : (onBoxes f s).inbox = s.inbox := rfl
@[simp] theorem onBoxes_out (f : Mailboxes → Mailboxes) : (onBoxes f s).out = s.out := rfl

/-! ### onFe -/

@[simp] theorem onFe_pending (f : FrontEnd → FrontEnd) : (onFe f s).pending = s.pending := rfl
@[simp] theorem onFe_free (f : FrontEnd → FrontEnd) : (onFe f s).free = s.free := rfl
@[simp] theorem onFe_build (f : FrontEnd → FrontEnd) : (onFe f s).build = s.build := rfl
@[simp] theorem onFe_trust (f : FrontEnd → FrontEnd) : (onFe f s).trust = s.trust := rfl
@[simp] theorem onFe_lc (f : FrontEnd → FrontEnd) : (onFe f s).lc = s.lc := rfl
@[simp] theorem onFe_flash (f : FrontEnd → FrontEnd) : (onFe f s).flash = s.flash := rfl
@[simp] theorem onFe_ll (f : FrontEnd → FrontEnd) : (onFe f s).ll = s.ll := rfl
@[simp] theorem onFe_keys (f : FrontEnd → FrontEnd) : (onFe f s).keys = s.keys := rfl
@[simp] theorem onFe_seam (f : FrontEnd → FrontEnd) : (onFe f s).seam = s.seam := rfl
@[simp] theorem onFe_time (f : FrontEnd → FrontEnd) : (onFe f s).time = s.time := rfl
@[simp] theorem onFe_mem (f : FrontEnd → FrontEnd) : (onFe f s).mem = s.mem := rfl
@[simp] theorem onFe_path (f : FrontEnd → FrontEnd) : (onFe f s).path = s.path := rfl
@[simp] theorem onFe_tables (f : FrontEnd → FrontEnd) : (onFe f s).tables = s.tables := rfl
@[simp] theorem onFe_parts (f : FrontEnd → FrontEnd) : (onFe f s).parts = s.parts := rfl
@[simp] theorem onFe_boxes (f : FrontEnd → FrontEnd) : (onFe f s).boxes = s.boxes := rfl
@[simp] theorem onFe_fe (f : FrontEnd → FrontEnd) : (onFe f s).fe = f s.fe := rfl
@[simp] theorem onFe_kv (f : FrontEnd → FrontEnd) : (onFe f s).kv = s.kv := rfl
@[simp] theorem onFe_experts (f : FrontEnd → FrontEnd) : (onFe f s).experts = s.experts := rfl
@[simp] theorem onFe_fabric (f : FrontEnd → FrontEnd) : (onFe f s).fabric = s.fabric := rfl
@[simp] theorem onFe_reg (f : FrontEnd → FrontEnd) : (onFe f s).reg = s.reg := rfl
@[simp] theorem onFe_faults (f : FrontEnd → FrontEnd) : (onFe f s).faults = s.faults := rfl
@[simp] theorem onFe_trace (f : FrontEnd → FrontEnd) : (onFe f s).trace = s.trace := rfl
@[simp] theorem onFe_curfew (f : FrontEnd → FrontEnd) : (onFe f s).curfew = s.curfew := rfl
@[simp] theorem onFe_ide (f : FrontEnd → FrontEnd) : (onFe f s).ide = s.ide := rfl
@[simp] theorem onFe_jtag (f : FrontEnd → FrontEnd) : (onFe f s).jtag = s.jtag := rfl
@[simp] theorem onFe_inbox (f : FrontEnd → FrontEnd) : (onFe f s).inbox = s.inbox := rfl
@[simp] theorem onFe_out (f : FrontEnd → FrontEnd) : (onFe f s).out = s.out := rfl

/-! ### onKv -/

@[simp] theorem onKv_pending (f : KvCache → KvCache) : (onKv f s).pending = s.pending := rfl
@[simp] theorem onKv_free (f : KvCache → KvCache) : (onKv f s).free = s.free := rfl
@[simp] theorem onKv_build (f : KvCache → KvCache) : (onKv f s).build = s.build := rfl
@[simp] theorem onKv_trust (f : KvCache → KvCache) : (onKv f s).trust = s.trust := rfl
@[simp] theorem onKv_lc (f : KvCache → KvCache) : (onKv f s).lc = s.lc := rfl
@[simp] theorem onKv_flash (f : KvCache → KvCache) : (onKv f s).flash = s.flash := rfl
@[simp] theorem onKv_ll (f : KvCache → KvCache) : (onKv f s).ll = s.ll := rfl
@[simp] theorem onKv_keys (f : KvCache → KvCache) : (onKv f s).keys = s.keys := rfl
@[simp] theorem onKv_seam (f : KvCache → KvCache) : (onKv f s).seam = s.seam := rfl
@[simp] theorem onKv_time (f : KvCache → KvCache) : (onKv f s).time = s.time := rfl
@[simp] theorem onKv_mem (f : KvCache → KvCache) : (onKv f s).mem = s.mem := rfl
@[simp] theorem onKv_path (f : KvCache → KvCache) : (onKv f s).path = s.path := rfl
@[simp] theorem onKv_tables (f : KvCache → KvCache) : (onKv f s).tables = s.tables := rfl
@[simp] theorem onKv_parts (f : KvCache → KvCache) : (onKv f s).parts = s.parts := rfl
@[simp] theorem onKv_boxes (f : KvCache → KvCache) : (onKv f s).boxes = s.boxes := rfl
@[simp] theorem onKv_fe (f : KvCache → KvCache) : (onKv f s).fe = s.fe := rfl
@[simp] theorem onKv_kv (f : KvCache → KvCache) : (onKv f s).kv = f s.kv := rfl
@[simp] theorem onKv_experts (f : KvCache → KvCache) : (onKv f s).experts = s.experts := rfl
@[simp] theorem onKv_fabric (f : KvCache → KvCache) : (onKv f s).fabric = s.fabric := rfl
@[simp] theorem onKv_reg (f : KvCache → KvCache) : (onKv f s).reg = s.reg := rfl
@[simp] theorem onKv_faults (f : KvCache → KvCache) : (onKv f s).faults = s.faults := rfl
@[simp] theorem onKv_trace (f : KvCache → KvCache) : (onKv f s).trace = s.trace := rfl
@[simp] theorem onKv_curfew (f : KvCache → KvCache) : (onKv f s).curfew = s.curfew := rfl
@[simp] theorem onKv_ide (f : KvCache → KvCache) : (onKv f s).ide = s.ide := rfl
@[simp] theorem onKv_jtag (f : KvCache → KvCache) : (onKv f s).jtag = s.jtag := rfl
@[simp] theorem onKv_inbox (f : KvCache → KvCache) : (onKv f s).inbox = s.inbox := rfl
@[simp] theorem onKv_out (f : KvCache → KvCache) : (onKv f s).out = s.out := rfl

/-! ### onExperts -/

@[simp] theorem onExperts_pending (f : Experts → Experts) : (onExperts f s).pending = s.pending := rfl
@[simp] theorem onExperts_free (f : Experts → Experts) : (onExperts f s).free = s.free := rfl
@[simp] theorem onExperts_build (f : Experts → Experts) : (onExperts f s).build = s.build := rfl
@[simp] theorem onExperts_trust (f : Experts → Experts) : (onExperts f s).trust = s.trust := rfl
@[simp] theorem onExperts_lc (f : Experts → Experts) : (onExperts f s).lc = s.lc := rfl
@[simp] theorem onExperts_flash (f : Experts → Experts) : (onExperts f s).flash = s.flash := rfl
@[simp] theorem onExperts_ll (f : Experts → Experts) : (onExperts f s).ll = s.ll := rfl
@[simp] theorem onExperts_keys (f : Experts → Experts) : (onExperts f s).keys = s.keys := rfl
@[simp] theorem onExperts_seam (f : Experts → Experts) : (onExperts f s).seam = s.seam := rfl
@[simp] theorem onExperts_time (f : Experts → Experts) : (onExperts f s).time = s.time := rfl
@[simp] theorem onExperts_mem (f : Experts → Experts) : (onExperts f s).mem = s.mem := rfl
@[simp] theorem onExperts_path (f : Experts → Experts) : (onExperts f s).path = s.path := rfl
@[simp] theorem onExperts_tables (f : Experts → Experts) : (onExperts f s).tables = s.tables := rfl
@[simp] theorem onExperts_parts (f : Experts → Experts) : (onExperts f s).parts = s.parts := rfl
@[simp] theorem onExperts_boxes (f : Experts → Experts) : (onExperts f s).boxes = s.boxes := rfl
@[simp] theorem onExperts_fe (f : Experts → Experts) : (onExperts f s).fe = s.fe := rfl
@[simp] theorem onExperts_kv (f : Experts → Experts) : (onExperts f s).kv = s.kv := rfl
@[simp] theorem onExperts_experts (f : Experts → Experts) : (onExperts f s).experts = f s.experts := rfl
@[simp] theorem onExperts_fabric (f : Experts → Experts) : (onExperts f s).fabric = s.fabric := rfl
@[simp] theorem onExperts_reg (f : Experts → Experts) : (onExperts f s).reg = s.reg := rfl
@[simp] theorem onExperts_faults (f : Experts → Experts) : (onExperts f s).faults = s.faults := rfl
@[simp] theorem onExperts_trace (f : Experts → Experts) : (onExperts f s).trace = s.trace := rfl
@[simp] theorem onExperts_curfew (f : Experts → Experts) : (onExperts f s).curfew = s.curfew := rfl
@[simp] theorem onExperts_ide (f : Experts → Experts) : (onExperts f s).ide = s.ide := rfl
@[simp] theorem onExperts_jtag (f : Experts → Experts) : (onExperts f s).jtag = s.jtag := rfl
@[simp] theorem onExperts_inbox (f : Experts → Experts) : (onExperts f s).inbox = s.inbox := rfl
@[simp] theorem onExperts_out (f : Experts → Experts) : (onExperts f s).out = s.out := rfl

/-! ### onFabric -/

@[simp] theorem onFabric_pending (f : Fabric → Fabric) : (onFabric f s).pending = s.pending := rfl
@[simp] theorem onFabric_free (f : Fabric → Fabric) : (onFabric f s).free = s.free := rfl
@[simp] theorem onFabric_build (f : Fabric → Fabric) : (onFabric f s).build = s.build := rfl
@[simp] theorem onFabric_trust (f : Fabric → Fabric) : (onFabric f s).trust = s.trust := rfl
@[simp] theorem onFabric_lc (f : Fabric → Fabric) : (onFabric f s).lc = s.lc := rfl
@[simp] theorem onFabric_flash (f : Fabric → Fabric) : (onFabric f s).flash = s.flash := rfl
@[simp] theorem onFabric_ll (f : Fabric → Fabric) : (onFabric f s).ll = s.ll := rfl
@[simp] theorem onFabric_keys (f : Fabric → Fabric) : (onFabric f s).keys = s.keys := rfl
@[simp] theorem onFabric_seam (f : Fabric → Fabric) : (onFabric f s).seam = s.seam := rfl
@[simp] theorem onFabric_time (f : Fabric → Fabric) : (onFabric f s).time = s.time := rfl
@[simp] theorem onFabric_mem (f : Fabric → Fabric) : (onFabric f s).mem = s.mem := rfl
@[simp] theorem onFabric_path (f : Fabric → Fabric) : (onFabric f s).path = s.path := rfl
@[simp] theorem onFabric_tables (f : Fabric → Fabric) : (onFabric f s).tables = s.tables := rfl
@[simp] theorem onFabric_parts (f : Fabric → Fabric) : (onFabric f s).parts = s.parts := rfl
@[simp] theorem onFabric_boxes (f : Fabric → Fabric) : (onFabric f s).boxes = s.boxes := rfl
@[simp] theorem onFabric_fe (f : Fabric → Fabric) : (onFabric f s).fe = s.fe := rfl
@[simp] theorem onFabric_kv (f : Fabric → Fabric) : (onFabric f s).kv = s.kv := rfl
@[simp] theorem onFabric_experts (f : Fabric → Fabric) : (onFabric f s).experts = s.experts := rfl
@[simp] theorem onFabric_fabric (f : Fabric → Fabric) : (onFabric f s).fabric = f s.fabric := rfl
@[simp] theorem onFabric_reg (f : Fabric → Fabric) : (onFabric f s).reg = s.reg := rfl
@[simp] theorem onFabric_faults (f : Fabric → Fabric) : (onFabric f s).faults = s.faults := rfl
@[simp] theorem onFabric_trace (f : Fabric → Fabric) : (onFabric f s).trace = s.trace := rfl
@[simp] theorem onFabric_curfew (f : Fabric → Fabric) : (onFabric f s).curfew = s.curfew := rfl
@[simp] theorem onFabric_ide (f : Fabric → Fabric) : (onFabric f s).ide = s.ide := rfl
@[simp] theorem onFabric_jtag (f : Fabric → Fabric) : (onFabric f s).jtag = s.jtag := rfl
@[simp] theorem onFabric_inbox (f : Fabric → Fabric) : (onFabric f s).inbox = s.inbox := rfl
@[simp] theorem onFabric_out (f : Fabric → Fabric) : (onFabric f s).out = s.out := rfl

/-! ### onReg -/

@[simp] theorem onReg_pending (f : Regulator → Regulator) : (onReg f s).pending = s.pending := rfl
@[simp] theorem onReg_free (f : Regulator → Regulator) : (onReg f s).free = s.free := rfl
@[simp] theorem onReg_build (f : Regulator → Regulator) : (onReg f s).build = s.build := rfl
@[simp] theorem onReg_trust (f : Regulator → Regulator) : (onReg f s).trust = s.trust := rfl
@[simp] theorem onReg_lc (f : Regulator → Regulator) : (onReg f s).lc = s.lc := rfl
@[simp] theorem onReg_flash (f : Regulator → Regulator) : (onReg f s).flash = s.flash := rfl
@[simp] theorem onReg_ll (f : Regulator → Regulator) : (onReg f s).ll = s.ll := rfl
@[simp] theorem onReg_keys (f : Regulator → Regulator) : (onReg f s).keys = s.keys := rfl
@[simp] theorem onReg_seam (f : Regulator → Regulator) : (onReg f s).seam = s.seam := rfl
@[simp] theorem onReg_time (f : Regulator → Regulator) : (onReg f s).time = s.time := rfl
@[simp] theorem onReg_mem (f : Regulator → Regulator) : (onReg f s).mem = s.mem := rfl
@[simp] theorem onReg_path (f : Regulator → Regulator) : (onReg f s).path = s.path := rfl
@[simp] theorem onReg_tables (f : Regulator → Regulator) : (onReg f s).tables = s.tables := rfl
@[simp] theorem onReg_parts (f : Regulator → Regulator) : (onReg f s).parts = s.parts := rfl
@[simp] theorem onReg_boxes (f : Regulator → Regulator) : (onReg f s).boxes = s.boxes := rfl
@[simp] theorem onReg_fe (f : Regulator → Regulator) : (onReg f s).fe = s.fe := rfl
@[simp] theorem onReg_kv (f : Regulator → Regulator) : (onReg f s).kv = s.kv := rfl
@[simp] theorem onReg_experts (f : Regulator → Regulator) : (onReg f s).experts = s.experts := rfl
@[simp] theorem onReg_fabric (f : Regulator → Regulator) : (onReg f s).fabric = s.fabric := rfl
@[simp] theorem onReg_reg (f : Regulator → Regulator) : (onReg f s).reg = f s.reg := rfl
@[simp] theorem onReg_faults (f : Regulator → Regulator) : (onReg f s).faults = s.faults := rfl
@[simp] theorem onReg_trace (f : Regulator → Regulator) : (onReg f s).trace = s.trace := rfl
@[simp] theorem onReg_curfew (f : Regulator → Regulator) : (onReg f s).curfew = s.curfew := rfl
@[simp] theorem onReg_ide (f : Regulator → Regulator) : (onReg f s).ide = s.ide := rfl
@[simp] theorem onReg_jtag (f : Regulator → Regulator) : (onReg f s).jtag = s.jtag := rfl
@[simp] theorem onReg_inbox (f : Regulator → Regulator) : (onReg f s).inbox = s.inbox := rfl
@[simp] theorem onReg_out (f : Regulator → Regulator) : (onReg f s).out = s.out := rfl

/-! ### onFaults -/

@[simp] theorem onFaults_pending (f : Faults → Faults) : (onFaults f s).pending = s.pending := rfl
@[simp] theorem onFaults_free (f : Faults → Faults) : (onFaults f s).free = s.free := rfl
@[simp] theorem onFaults_build (f : Faults → Faults) : (onFaults f s).build = s.build := rfl
@[simp] theorem onFaults_trust (f : Faults → Faults) : (onFaults f s).trust = s.trust := rfl
@[simp] theorem onFaults_lc (f : Faults → Faults) : (onFaults f s).lc = s.lc := rfl
@[simp] theorem onFaults_flash (f : Faults → Faults) : (onFaults f s).flash = s.flash := rfl
@[simp] theorem onFaults_ll (f : Faults → Faults) : (onFaults f s).ll = s.ll := rfl
@[simp] theorem onFaults_keys (f : Faults → Faults) : (onFaults f s).keys = s.keys := rfl
@[simp] theorem onFaults_seam (f : Faults → Faults) : (onFaults f s).seam = s.seam := rfl
@[simp] theorem onFaults_time (f : Faults → Faults) : (onFaults f s).time = s.time := rfl
@[simp] theorem onFaults_mem (f : Faults → Faults) : (onFaults f s).mem = s.mem := rfl
@[simp] theorem onFaults_path (f : Faults → Faults) : (onFaults f s).path = s.path := rfl
@[simp] theorem onFaults_tables (f : Faults → Faults) : (onFaults f s).tables = s.tables := rfl
@[simp] theorem onFaults_parts (f : Faults → Faults) : (onFaults f s).parts = s.parts := rfl
@[simp] theorem onFaults_boxes (f : Faults → Faults) : (onFaults f s).boxes = s.boxes := rfl
@[simp] theorem onFaults_fe (f : Faults → Faults) : (onFaults f s).fe = s.fe := rfl
@[simp] theorem onFaults_kv (f : Faults → Faults) : (onFaults f s).kv = s.kv := rfl
@[simp] theorem onFaults_experts (f : Faults → Faults) : (onFaults f s).experts = s.experts := rfl
@[simp] theorem onFaults_fabric (f : Faults → Faults) : (onFaults f s).fabric = s.fabric := rfl
@[simp] theorem onFaults_reg (f : Faults → Faults) : (onFaults f s).reg = s.reg := rfl
@[simp] theorem onFaults_faults (f : Faults → Faults) : (onFaults f s).faults = f s.faults := rfl
@[simp] theorem onFaults_trace (f : Faults → Faults) : (onFaults f s).trace = s.trace := rfl
@[simp] theorem onFaults_curfew (f : Faults → Faults) : (onFaults f s).curfew = s.curfew := rfl
@[simp] theorem onFaults_ide (f : Faults → Faults) : (onFaults f s).ide = s.ide := rfl
@[simp] theorem onFaults_jtag (f : Faults → Faults) : (onFaults f s).jtag = s.jtag := rfl
@[simp] theorem onFaults_inbox (f : Faults → Faults) : (onFaults f s).inbox = s.inbox := rfl
@[simp] theorem onFaults_out (f : Faults → Faults) : (onFaults f s).out = s.out := rfl

/-! ### onTrace -/

@[simp] theorem onTrace_pending (f : Trace → Trace) : (onTrace f s).pending = s.pending := rfl
@[simp] theorem onTrace_free (f : Trace → Trace) : (onTrace f s).free = s.free := rfl
@[simp] theorem onTrace_build (f : Trace → Trace) : (onTrace f s).build = s.build := rfl
@[simp] theorem onTrace_trust (f : Trace → Trace) : (onTrace f s).trust = s.trust := rfl
@[simp] theorem onTrace_lc (f : Trace → Trace) : (onTrace f s).lc = s.lc := rfl
@[simp] theorem onTrace_flash (f : Trace → Trace) : (onTrace f s).flash = s.flash := rfl
@[simp] theorem onTrace_ll (f : Trace → Trace) : (onTrace f s).ll = s.ll := rfl
@[simp] theorem onTrace_keys (f : Trace → Trace) : (onTrace f s).keys = s.keys := rfl
@[simp] theorem onTrace_seam (f : Trace → Trace) : (onTrace f s).seam = s.seam := rfl
@[simp] theorem onTrace_time (f : Trace → Trace) : (onTrace f s).time = s.time := rfl
@[simp] theorem onTrace_mem (f : Trace → Trace) : (onTrace f s).mem = s.mem := rfl
@[simp] theorem onTrace_path (f : Trace → Trace) : (onTrace f s).path = s.path := rfl
@[simp] theorem onTrace_tables (f : Trace → Trace) : (onTrace f s).tables = s.tables := rfl
@[simp] theorem onTrace_parts (f : Trace → Trace) : (onTrace f s).parts = s.parts := rfl
@[simp] theorem onTrace_boxes (f : Trace → Trace) : (onTrace f s).boxes = s.boxes := rfl
@[simp] theorem onTrace_fe (f : Trace → Trace) : (onTrace f s).fe = s.fe := rfl
@[simp] theorem onTrace_kv (f : Trace → Trace) : (onTrace f s).kv = s.kv := rfl
@[simp] theorem onTrace_experts (f : Trace → Trace) : (onTrace f s).experts = s.experts := rfl
@[simp] theorem onTrace_fabric (f : Trace → Trace) : (onTrace f s).fabric = s.fabric := rfl
@[simp] theorem onTrace_reg (f : Trace → Trace) : (onTrace f s).reg = s.reg := rfl
@[simp] theorem onTrace_faults (f : Trace → Trace) : (onTrace f s).faults = s.faults := rfl
@[simp] theorem onTrace_trace (f : Trace → Trace) : (onTrace f s).trace = f s.trace := rfl
@[simp] theorem onTrace_curfew (f : Trace → Trace) : (onTrace f s).curfew = s.curfew := rfl
@[simp] theorem onTrace_ide (f : Trace → Trace) : (onTrace f s).ide = s.ide := rfl
@[simp] theorem onTrace_jtag (f : Trace → Trace) : (onTrace f s).jtag = s.jtag := rfl
@[simp] theorem onTrace_inbox (f : Trace → Trace) : (onTrace f s).inbox = s.inbox := rfl
@[simp] theorem onTrace_out (f : Trace → Trace) : (onTrace f s).out = s.out := rfl

/-! ### onCurfew -/

@[simp] theorem onCurfew_pending (f : Curfew → Curfew) : (onCurfew f s).pending = s.pending := rfl
@[simp] theorem onCurfew_free (f : Curfew → Curfew) : (onCurfew f s).free = s.free := rfl
@[simp] theorem onCurfew_build (f : Curfew → Curfew) : (onCurfew f s).build = s.build := rfl
@[simp] theorem onCurfew_trust (f : Curfew → Curfew) : (onCurfew f s).trust = s.trust := rfl
@[simp] theorem onCurfew_lc (f : Curfew → Curfew) : (onCurfew f s).lc = s.lc := rfl
@[simp] theorem onCurfew_flash (f : Curfew → Curfew) : (onCurfew f s).flash = s.flash := rfl
@[simp] theorem onCurfew_ll (f : Curfew → Curfew) : (onCurfew f s).ll = s.ll := rfl
@[simp] theorem onCurfew_keys (f : Curfew → Curfew) : (onCurfew f s).keys = s.keys := rfl
@[simp] theorem onCurfew_seam (f : Curfew → Curfew) : (onCurfew f s).seam = s.seam := rfl
@[simp] theorem onCurfew_time (f : Curfew → Curfew) : (onCurfew f s).time = s.time := rfl
@[simp] theorem onCurfew_mem (f : Curfew → Curfew) : (onCurfew f s).mem = s.mem := rfl
@[simp] theorem onCurfew_path (f : Curfew → Curfew) : (onCurfew f s).path = s.path := rfl
@[simp] theorem onCurfew_tables (f : Curfew → Curfew) : (onCurfew f s).tables = s.tables := rfl
@[simp] theorem onCurfew_parts (f : Curfew → Curfew) : (onCurfew f s).parts = s.parts := rfl
@[simp] theorem onCurfew_boxes (f : Curfew → Curfew) : (onCurfew f s).boxes = s.boxes := rfl
@[simp] theorem onCurfew_fe (f : Curfew → Curfew) : (onCurfew f s).fe = s.fe := rfl
@[simp] theorem onCurfew_kv (f : Curfew → Curfew) : (onCurfew f s).kv = s.kv := rfl
@[simp] theorem onCurfew_experts (f : Curfew → Curfew) : (onCurfew f s).experts = s.experts := rfl
@[simp] theorem onCurfew_fabric (f : Curfew → Curfew) : (onCurfew f s).fabric = s.fabric := rfl
@[simp] theorem onCurfew_reg (f : Curfew → Curfew) : (onCurfew f s).reg = s.reg := rfl
@[simp] theorem onCurfew_faults (f : Curfew → Curfew) : (onCurfew f s).faults = s.faults := rfl
@[simp] theorem onCurfew_trace (f : Curfew → Curfew) : (onCurfew f s).trace = s.trace := rfl
@[simp] theorem onCurfew_curfew (f : Curfew → Curfew) : (onCurfew f s).curfew = f s.curfew := rfl
@[simp] theorem onCurfew_ide (f : Curfew → Curfew) : (onCurfew f s).ide = s.ide := rfl
@[simp] theorem onCurfew_jtag (f : Curfew → Curfew) : (onCurfew f s).jtag = s.jtag := rfl
@[simp] theorem onCurfew_inbox (f : Curfew → Curfew) : (onCurfew f s).inbox = s.inbox := rfl
@[simp] theorem onCurfew_out (f : Curfew → Curfew) : (onCurfew f s).out = s.out := rfl

/-! ### onIde -/

@[simp] theorem onIde_pending (f : IdePort → IdePort) : (onIde f s).pending = s.pending := rfl
@[simp] theorem onIde_free (f : IdePort → IdePort) : (onIde f s).free = s.free := rfl
@[simp] theorem onIde_build (f : IdePort → IdePort) : (onIde f s).build = s.build := rfl
@[simp] theorem onIde_trust (f : IdePort → IdePort) : (onIde f s).trust = s.trust := rfl
@[simp] theorem onIde_lc (f : IdePort → IdePort) : (onIde f s).lc = s.lc := rfl
@[simp] theorem onIde_flash (f : IdePort → IdePort) : (onIde f s).flash = s.flash := rfl
@[simp] theorem onIde_ll (f : IdePort → IdePort) : (onIde f s).ll = s.ll := rfl
@[simp] theorem onIde_keys (f : IdePort → IdePort) : (onIde f s).keys = s.keys := rfl
@[simp] theorem onIde_seam (f : IdePort → IdePort) : (onIde f s).seam = s.seam := rfl
@[simp] theorem onIde_time (f : IdePort → IdePort) : (onIde f s).time = s.time := rfl
@[simp] theorem onIde_mem (f : IdePort → IdePort) : (onIde f s).mem = s.mem := rfl
@[simp] theorem onIde_path (f : IdePort → IdePort) : (onIde f s).path = s.path := rfl
@[simp] theorem onIde_tables (f : IdePort → IdePort) : (onIde f s).tables = s.tables := rfl
@[simp] theorem onIde_parts (f : IdePort → IdePort) : (onIde f s).parts = s.parts := rfl
@[simp] theorem onIde_boxes (f : IdePort → IdePort) : (onIde f s).boxes = s.boxes := rfl
@[simp] theorem onIde_fe (f : IdePort → IdePort) : (onIde f s).fe = s.fe := rfl
@[simp] theorem onIde_kv (f : IdePort → IdePort) : (onIde f s).kv = s.kv := rfl
@[simp] theorem onIde_experts (f : IdePort → IdePort) : (onIde f s).experts = s.experts := rfl
@[simp] theorem onIde_fabric (f : IdePort → IdePort) : (onIde f s).fabric = s.fabric := rfl
@[simp] theorem onIde_reg (f : IdePort → IdePort) : (onIde f s).reg = s.reg := rfl
@[simp] theorem onIde_faults (f : IdePort → IdePort) : (onIde f s).faults = s.faults := rfl
@[simp] theorem onIde_trace (f : IdePort → IdePort) : (onIde f s).trace = s.trace := rfl
@[simp] theorem onIde_curfew (f : IdePort → IdePort) : (onIde f s).curfew = s.curfew := rfl
@[simp] theorem onIde_ide (f : IdePort → IdePort) : (onIde f s).ide = f s.ide := rfl
@[simp] theorem onIde_jtag (f : IdePort → IdePort) : (onIde f s).jtag = s.jtag := rfl
@[simp] theorem onIde_inbox (f : IdePort → IdePort) : (onIde f s).inbox = s.inbox := rfl
@[simp] theorem onIde_out (f : IdePort → IdePort) : (onIde f s).out = s.out := rfl

/-! ### onJtag -/

@[simp] theorem onJtag_pending (f : DebugPorts → DebugPorts) : (onJtag f s).pending = s.pending := rfl
@[simp] theorem onJtag_free (f : DebugPorts → DebugPorts) : (onJtag f s).free = s.free := rfl
@[simp] theorem onJtag_build (f : DebugPorts → DebugPorts) : (onJtag f s).build = s.build := rfl
@[simp] theorem onJtag_trust (f : DebugPorts → DebugPorts) : (onJtag f s).trust = s.trust := rfl
@[simp] theorem onJtag_lc (f : DebugPorts → DebugPorts) : (onJtag f s).lc = s.lc := rfl
@[simp] theorem onJtag_flash (f : DebugPorts → DebugPorts) : (onJtag f s).flash = s.flash := rfl
@[simp] theorem onJtag_ll (f : DebugPorts → DebugPorts) : (onJtag f s).ll = s.ll := rfl
@[simp] theorem onJtag_keys (f : DebugPorts → DebugPorts) : (onJtag f s).keys = s.keys := rfl
@[simp] theorem onJtag_seam (f : DebugPorts → DebugPorts) : (onJtag f s).seam = s.seam := rfl
@[simp] theorem onJtag_time (f : DebugPorts → DebugPorts) : (onJtag f s).time = s.time := rfl
@[simp] theorem onJtag_mem (f : DebugPorts → DebugPorts) : (onJtag f s).mem = s.mem := rfl
@[simp] theorem onJtag_path (f : DebugPorts → DebugPorts) : (onJtag f s).path = s.path := rfl
@[simp] theorem onJtag_tables (f : DebugPorts → DebugPorts) : (onJtag f s).tables = s.tables := rfl
@[simp] theorem onJtag_parts (f : DebugPorts → DebugPorts) : (onJtag f s).parts = s.parts := rfl
@[simp] theorem onJtag_boxes (f : DebugPorts → DebugPorts) : (onJtag f s).boxes = s.boxes := rfl
@[simp] theorem onJtag_fe (f : DebugPorts → DebugPorts) : (onJtag f s).fe = s.fe := rfl
@[simp] theorem onJtag_kv (f : DebugPorts → DebugPorts) : (onJtag f s).kv = s.kv := rfl
@[simp] theorem onJtag_experts (f : DebugPorts → DebugPorts) : (onJtag f s).experts = s.experts := rfl
@[simp] theorem onJtag_fabric (f : DebugPorts → DebugPorts) : (onJtag f s).fabric = s.fabric := rfl
@[simp] theorem onJtag_reg (f : DebugPorts → DebugPorts) : (onJtag f s).reg = s.reg := rfl
@[simp] theorem onJtag_faults (f : DebugPorts → DebugPorts) : (onJtag f s).faults = s.faults := rfl
@[simp] theorem onJtag_trace (f : DebugPorts → DebugPorts) : (onJtag f s).trace = s.trace := rfl
@[simp] theorem onJtag_curfew (f : DebugPorts → DebugPorts) : (onJtag f s).curfew = s.curfew := rfl
@[simp] theorem onJtag_ide (f : DebugPorts → DebugPorts) : (onJtag f s).ide = s.ide := rfl
@[simp] theorem onJtag_jtag (f : DebugPorts → DebugPorts) : (onJtag f s).jtag = f s.jtag := rfl
@[simp] theorem onJtag_inbox (f : DebugPorts → DebugPorts) : (onJtag f s).inbox = s.inbox := rfl
@[simp] theorem onJtag_out (f : DebugPorts → DebugPorts) : (onJtag f s).out = s.out := rfl

/-! ### Output and free values -/

@[simp] theorem emit_pending (o : Out) : (emit o s).pending = s.pending := rfl
@[simp] theorem emit_free (o : Out) : (emit o s).free = s.free := rfl
@[simp] theorem emit_build (o : Out) : (emit o s).build = s.build := rfl
@[simp] theorem emit_trust (o : Out) : (emit o s).trust = s.trust := rfl
@[simp] theorem emit_lc (o : Out) : (emit o s).lc = s.lc := rfl
@[simp] theorem emit_flash (o : Out) : (emit o s).flash = s.flash := rfl
@[simp] theorem emit_ll (o : Out) : (emit o s).ll = s.ll := rfl
@[simp] theorem emit_keys (o : Out) : (emit o s).keys = s.keys := rfl
@[simp] theorem emit_seam (o : Out) : (emit o s).seam = s.seam := rfl
@[simp] theorem emit_time (o : Out) : (emit o s).time = s.time := rfl
@[simp] theorem emit_mem (o : Out) : (emit o s).mem = s.mem := rfl
@[simp] theorem emit_path (o : Out) : (emit o s).path = s.path := rfl
@[simp] theorem emit_tables (o : Out) : (emit o s).tables = s.tables := rfl
@[simp] theorem emit_parts (o : Out) : (emit o s).parts = s.parts := rfl
@[simp] theorem emit_boxes (o : Out) : (emit o s).boxes = s.boxes := rfl
@[simp] theorem emit_fe (o : Out) : (emit o s).fe = s.fe := rfl
@[simp] theorem emit_kv (o : Out) : (emit o s).kv = s.kv := rfl
@[simp] theorem emit_experts (o : Out) : (emit o s).experts = s.experts := rfl
@[simp] theorem emit_fabric (o : Out) : (emit o s).fabric = s.fabric := rfl
@[simp] theorem emit_reg (o : Out) : (emit o s).reg = s.reg := rfl
@[simp] theorem emit_faults (o : Out) : (emit o s).faults = s.faults := rfl
@[simp] theorem emit_trace (o : Out) : (emit o s).trace = s.trace := rfl
@[simp] theorem emit_curfew (o : Out) : (emit o s).curfew = s.curfew := rfl
@[simp] theorem emit_ide (o : Out) : (emit o s).ide = s.ide := rfl
@[simp] theorem emit_jtag (o : Out) : (emit o s).jtag = s.jtag := rfl
@[simp] theorem emit_inbox (o : Out) : (emit o s).inbox = s.inbox := rfl
@[simp] theorem emit_out (o : Out) : (emit o s).out = s.out ++ [o] := rfl
@[simp] theorem drawn_pending (n : Nat) : (drawn n s).pending = s.pending := rfl
@[simp] theorem drawn_free (n : Nat) : (drawn n s).free = s.free + n := rfl
@[simp] theorem drawn_build (n : Nat) : (drawn n s).build = s.build := rfl
@[simp] theorem drawn_trust (n : Nat) : (drawn n s).trust = s.trust := rfl
@[simp] theorem drawn_lc (n : Nat) : (drawn n s).lc = s.lc := rfl
@[simp] theorem drawn_flash (n : Nat) : (drawn n s).flash = s.flash := rfl
@[simp] theorem drawn_ll (n : Nat) : (drawn n s).ll = s.ll := rfl
@[simp] theorem drawn_keys (n : Nat) : (drawn n s).keys = s.keys := rfl
@[simp] theorem drawn_seam (n : Nat) : (drawn n s).seam = s.seam := rfl
@[simp] theorem drawn_time (n : Nat) : (drawn n s).time = s.time := rfl
@[simp] theorem drawn_mem (n : Nat) : (drawn n s).mem = s.mem := rfl
@[simp] theorem drawn_path (n : Nat) : (drawn n s).path = s.path := rfl
@[simp] theorem drawn_tables (n : Nat) : (drawn n s).tables = s.tables := rfl
@[simp] theorem drawn_parts (n : Nat) : (drawn n s).parts = s.parts := rfl
@[simp] theorem drawn_boxes (n : Nat) : (drawn n s).boxes = s.boxes := rfl
@[simp] theorem drawn_fe (n : Nat) : (drawn n s).fe = s.fe := rfl
@[simp] theorem drawn_kv (n : Nat) : (drawn n s).kv = s.kv := rfl
@[simp] theorem drawn_experts (n : Nat) : (drawn n s).experts = s.experts := rfl
@[simp] theorem drawn_fabric (n : Nat) : (drawn n s).fabric = s.fabric := rfl
@[simp] theorem drawn_reg (n : Nat) : (drawn n s).reg = s.reg := rfl
@[simp] theorem drawn_faults (n : Nat) : (drawn n s).faults = s.faults := rfl
@[simp] theorem drawn_trace (n : Nat) : (drawn n s).trace = s.trace := rfl
@[simp] theorem drawn_curfew (n : Nat) : (drawn n s).curfew = s.curfew := rfl
@[simp] theorem drawn_ide (n : Nat) : (drawn n s).ide = s.ide := rfl
@[simp] theorem drawn_jtag (n : Nat) : (drawn n s).jtag = s.jtag := rfl
@[simp] theorem drawn_inbox (n : Nat) : (drawn n s).inbox = s.inbox := rfl
@[simp] theorem drawn_out (n : Nat) : (drawn n s).out = s.out := rfl

/-! ### Frames -/

@[simp] theorem framed_pending (f : State → State) : (framed f s).pending = s.pending := rfl
@[simp] theorem framed_free (f : State → State) : (framed f s).free = (f s).free := rfl
@[simp] theorem framed_build (f : State → State) : (framed f s).build = s.build := rfl
@[simp] theorem framed_trust (f : State → State) : (framed f s).trust = (f s).trust := rfl
@[simp] theorem framed_lc (f : State → State) : (framed f s).lc = (f s).lc := rfl
@[simp] theorem framed_flash (f : State → State) : (framed f s).flash = (f s).flash := rfl
@[simp] theorem framed_ll (f : State → State) : (framed f s).ll = (f s).ll := rfl
@[simp] theorem framed_keys (f : State → State) : (framed f s).keys = (f s).keys := rfl
@[simp] theorem framed_seam (f : State → State) : (framed f s).seam = (f s).seam := rfl
@[simp] theorem framed_time (f : State → State) : (framed f s).time = (f s).time := rfl
@[simp] theorem framed_mem (f : State → State) : (framed f s).mem = (f s).mem := rfl
@[simp] theorem framed_path (f : State → State) : (framed f s).path = (f s).path := rfl
@[simp] theorem framed_tables (f : State → State) : (framed f s).tables = (f s).tables := rfl
@[simp] theorem framed_parts (f : State → State) : (framed f s).parts = (f s).parts := rfl
@[simp] theorem framed_boxes (f : State → State) : (framed f s).boxes = (f s).boxes := rfl
@[simp] theorem framed_fe (f : State → State) : (framed f s).fe = (f s).fe := rfl
@[simp] theorem framed_kv (f : State → State) : (framed f s).kv = (f s).kv := rfl
@[simp] theorem framed_experts (f : State → State) : (framed f s).experts = (f s).experts := rfl
@[simp] theorem framed_fabric (f : State → State) : (framed f s).fabric = (f s).fabric := rfl
@[simp] theorem framed_reg (f : State → State) : (framed f s).reg = (f s).reg := rfl
@[simp] theorem framed_faults (f : State → State) : (framed f s).faults = (f s).faults := rfl
@[simp] theorem framed_trace (f : State → State) : (framed f s).trace = (f s).trace := rfl
@[simp] theorem framed_curfew (f : State → State) : (framed f s).curfew = (f s).curfew := rfl
@[simp] theorem framed_ide (f : State → State) : (framed f s).ide = (f s).ide := rfl
@[simp] theorem framed_jtag (f : State → State) : (framed f s).jtag = (f s).jtag := rfl
@[simp] theorem framed_inbox (f : State → State) : (framed f s).inbox = (f s).inbox := rfl
@[simp] theorem framed_out (f : State → State) : (framed f s).out = (f s).out := rfl
@[simp] theorem inCore_pending (f : State → State) : (inCore f s).pending = (f s).pending := rfl
@[simp] theorem inCore_free (f : State → State) : (inCore f s).free = (f s).free := rfl
@[simp] theorem inCore_build (f : State → State) : (inCore f s).build = (f s).build := rfl
@[simp] theorem inCore_trust (f : State → State) : (inCore f s).trust = (f s).trust := rfl
@[simp] theorem inCore_lc (f : State → State) : (inCore f s).lc = s.lc := rfl
@[simp] theorem inCore_flash (f : State → State) : (inCore f s).flash = s.flash := rfl
@[simp] theorem inCore_ll (f : State → State) : (inCore f s).ll = (f s).ll := rfl
@[simp] theorem inCore_keys (f : State → State) : (inCore f s).keys = (f s).keys := rfl
@[simp] theorem inCore_seam (f : State → State) : (inCore f s).seam = (f s).seam := rfl
@[simp] theorem inCore_time (f : State → State) : (inCore f s).time = s.time := rfl
@[simp] theorem inCore_mem (f : State → State) : (inCore f s).mem = (f s).mem := rfl
@[simp] theorem inCore_path (f : State → State) : (inCore f s).path = (f s).path := rfl
@[simp] theorem inCore_tables (f : State → State) : (inCore f s).tables = (f s).tables := rfl
@[simp] theorem inCore_parts (f : State → State) : (inCore f s).parts = (f s).parts := rfl
@[simp] theorem inCore_boxes (f : State → State) : (inCore f s).boxes = (f s).boxes := rfl
@[simp] theorem inCore_fe (f : State → State) : (inCore f s).fe = (f s).fe := rfl
@[simp] theorem inCore_kv (f : State → State) : (inCore f s).kv = (f s).kv := rfl
@[simp] theorem inCore_experts (f : State → State) : (inCore f s).experts = (f s).experts := rfl
@[simp] theorem inCore_fabric (f : State → State) : (inCore f s).fabric = (f s).fabric := rfl
@[simp] theorem inCore_reg (f : State → State) : (inCore f s).reg = (f s).reg := rfl
@[simp] theorem inCore_faults (f : State → State) : (inCore f s).faults = (f s).faults := rfl
@[simp] theorem inCore_trace (f : State → State) : (inCore f s).trace = (f s).trace := rfl
@[simp] theorem inCore_curfew (f : State → State) : (inCore f s).curfew = (f s).curfew := rfl
@[simp] theorem inCore_ide (f : State → State) : (inCore f s).ide = s.ide := rfl
@[simp] theorem inCore_jtag (f : State → State) : (inCore f s).jtag = s.jtag := rfl
@[simp] theorem inCore_inbox (f : State → State) : (inCore f s).inbox = s.inbox := rfl
@[simp] theorem inCore_out (f : State → State) : (inCore f s).out = (f s).out := rfl
@[simp] theorem keepFuses_pending (f : State → State) : (keepFuses f s).pending = (f s).pending := rfl
@[simp] theorem keepFuses_free (f : State → State) : (keepFuses f s).free = (f s).free := rfl
@[simp] theorem keepFuses_build (f : State → State) : (keepFuses f s).build = (f s).build := rfl
@[simp] theorem keepFuses_trust (f : State → State) : (keepFuses f s).trust = (f s).trust := rfl
@[simp] theorem keepFuses_lc (f : State → State) : (keepFuses f s).lc = s.lc := rfl
@[simp] theorem keepFuses_flash (f : State → State) : (keepFuses f s).flash = (f s).flash := rfl
@[simp] theorem keepFuses_ll (f : State → State) : (keepFuses f s).ll = (f s).ll := rfl
@[simp] theorem keepFuses_keys (f : State → State) : (keepFuses f s).keys = (f s).keys := rfl
@[simp] theorem keepFuses_seam (f : State → State) : (keepFuses f s).seam = (f s).seam := rfl
@[simp] theorem keepFuses_time (f : State → State) : (keepFuses f s).time = (f s).time := rfl
@[simp] theorem keepFuses_mem (f : State → State) : (keepFuses f s).mem = (f s).mem := rfl
@[simp] theorem keepFuses_path (f : State → State) : (keepFuses f s).path = (f s).path := rfl
@[simp] theorem keepFuses_tables (f : State → State) : (keepFuses f s).tables = (f s).tables := rfl
@[simp] theorem keepFuses_parts (f : State → State) : (keepFuses f s).parts = (f s).parts := rfl
@[simp] theorem keepFuses_boxes (f : State → State) : (keepFuses f s).boxes = (f s).boxes := rfl
@[simp] theorem keepFuses_fe (f : State → State) : (keepFuses f s).fe = (f s).fe := rfl
@[simp] theorem keepFuses_kv (f : State → State) : (keepFuses f s).kv = (f s).kv := rfl
@[simp] theorem keepFuses_experts (f : State → State) : (keepFuses f s).experts = (f s).experts := rfl
@[simp] theorem keepFuses_fabric (f : State → State) : (keepFuses f s).fabric = (f s).fabric := rfl
@[simp] theorem keepFuses_reg (f : State → State) : (keepFuses f s).reg = (f s).reg := rfl
@[simp] theorem keepFuses_faults (f : State → State) : (keepFuses f s).faults = (f s).faults := rfl
@[simp] theorem keepFuses_trace (f : State → State) : (keepFuses f s).trace = (f s).trace := rfl
@[simp] theorem keepFuses_curfew (f : State → State) : (keepFuses f s).curfew = (f s).curfew := rfl
@[simp] theorem keepFuses_ide (f : State → State) : (keepFuses f s).ide = (f s).ide := rfl
@[simp] theorem keepFuses_jtag (f : State → State) : (keepFuses f s).jtag = (f s).jtag := rfl
@[simp] theorem keepFuses_inbox (f : State → State) : (keepFuses f s).inbox = (f s).inbox := rfl
@[simp] theorem keepFuses_out (f : State → State) : (keepFuses f s).out = (f s).out := rfl

/-! ### Entries -/

@[simp] theorem slotAt_setSlot (k j : Nat) (v : KeySlot) : slotAt (setSlot k v s) j = if j = k then v else slotAt s j := tget_tset _ _ k j v
@[simp] theorem slotAt_modSlot (k j : Nat) (f : KeySlot → KeySlot) : slotAt (modSlot k f s) j = if j = k then f (slotAt s k) else slotAt s j := tget_tset _ _ k j _
@[simp] theorem mirrorAt_setMirror (k j : Nat) (v : MirrorSlot) : mirrorAt (setMirror k v s) j = if j = k then v else mirrorAt s j := tget_tset _ _ k j v
@[simp] theorem mirrorAt_modMirror (k j : Nat) (f : MirrorSlot → MirrorSlot) : mirrorAt (modMirror k f s) j = if j = k then f (mirrorAt s k) else mirrorAt s j := tget_tset _ _ k j _
@[simp] theorem lanternAt_setLantern (k j : Nat) (v : Lantern) : lanternAt (setLantern k v s) j = if j = k then v else lanternAt s j := tget_tset _ _ k j v
@[simp] theorem lanternAt_modLantern (k j : Nat) (f : Lantern → Lantern) : lanternAt (modLantern k f s) j = if j = k then f (lanternAt s k) else lanternAt s j := tget_tset _ _ k j _
@[simp] theorem capAt_setCap (k j : Nat) (v : Capacity) : capAt (setCap k v s) j = if j = k then v else capAt s j := tget_tset _ _ k j v
@[simp] theorem capAt_modCap (k j : Nat) (f : Capacity → Capacity) : capAt (modCap k f s) j = if j = k then f (capAt s k) else capAt s j := tget_tset _ _ k j _
@[simp] theorem rotationAt_setRotation (k j : Nat) (v : Rotation) : rotationAt (setRotation k v s) j = if j = k then v else rotationAt s j := tget_tset _ _ k j v
@[simp] theorem rotationAt_modRotation (k j : Nat) (f : Rotation → Rotation) : rotationAt (modRotation k f s) j = if j = k then f (rotationAt s k) else rotationAt s j := tget_tset _ _ k j _
@[simp] theorem formatAt_setFormat (k j : Nat) (v : Table) : formatAt (setFormat k v s) j = if j = k then v else formatAt s j := tget_tset _ _ k j v
@[simp] theorem formatAt_modFormat (k j : Nat) (f : Table → Table) : formatAt (modFormat k f s) j = if j = k then f (formatAt s k) else formatAt s j := tget_tset _ _ k j _
@[simp] theorem codebookAt_setCodebook (k j : Nat) (v : Table) : codebookAt (setCodebook k v s) j = if j = k then v else codebookAt s j := tget_tset _ _ k j v
@[simp] theorem codebookAt_modCodebook (k j : Nat) (f : Table → Table) : codebookAt (modCodebook k f s) j = if j = k then f (codebookAt s k) else codebookAt s j := tget_tset _ _ k j _
@[simp] theorem curveAt_setCurve (k j : Nat) (v : Table) : curveAt (setCurve k v s) j = if j = k then v else curveAt s j := tget_tset _ _ k j v
@[simp] theorem curveAt_modCurve (k j : Nat) (f : Table → Table) : curveAt (modCurve k f s) j = if j = k then f (curveAt s k) else curveAt s j := tget_tset _ _ k j _
@[simp] theorem placementAt_setPlacement (k j : Nat) (v : Table) : placementAt (setPlacement k v s) j = if j = k then v else placementAt s j := tget_tset _ _ k j v
@[simp] theorem placementAt_modPlacement (k j : Nat) (f : Table → Table) : placementAt (modPlacement k f s) j = if j = k then f (placementAt s k) else placementAt s j := tget_tset _ _ k j _
@[simp] theorem partAt_setPart (k j : Nat) (v : Partition) : partAt (setPart k v s) j = if j = k then v else partAt s j := tget_tset _ _ k j v
@[simp] theorem partAt_modPart (k j : Nat) (f : Partition → Partition) : partAt (modPart k f s) j = if j = k then f (partAt s k) else partAt s j := tget_tset _ _ k j _
@[simp] theorem pasidAt_setPasid (k j : Nat) (v : PasidEntry) : pasidAt (setPasid k v s) j = if j = k then v else pasidAt s j := tget_tset _ _ k j v
@[simp] theorem pasidAt_modPasid (k j : Nat) (f : PasidEntry → PasidEntry) : pasidAt (modPasid k f s) j = if j = k then f (pasidAt s k) else pasidAt s j := tget_tset _ _ k j _
@[simp] theorem contextAt_setContext (k j : Nat) (v : Context) : contextAt (setContext k v s) j = if j = k then v else contextAt s j := tget_tset _ _ k j v
@[simp] theorem contextAt_modContext (k j : Nat) (f : Context → Context) : contextAt (modContext k f s) j = if j = k then f (contextAt s k) else contextAt s j := tget_tset _ _ k j _
@[simp] theorem objAt_setObj (k j : Nat) (v : ObjSlot) : objAt (setObj k v s) j = if j = k then v else objAt s j := tget_tset _ _ k j v
@[simp] theorem objAt_modObj (k j : Nat) (f : ObjSlot → ObjSlot) : objAt (modObj k f s) j = if j = k then f (objAt s k) else objAt s j := tget_tset _ _ k j _
@[simp] theorem fenceAt_setFence (k j : Nat) (v : FenceSlot) : fenceAt (setFence k v s) j = if j = k then v else fenceAt s j := tget_tset _ _ k j v
@[simp] theorem fenceAt_modFence (k j : Nat) (f : FenceSlot → FenceSlot) : fenceAt (modFence k f s) j = if j = k then f (fenceAt s k) else fenceAt s j := tget_tset _ _ k j _
@[simp] theorem countersAt_setCounters (k j : Nat) (v : PartCounters) : countersAt (setCounters k v s) j = if j = k then v else countersAt s j := tget_tset _ _ k j v
@[simp] theorem countersAt_modCounters (k j : Nat) (f : PartCounters → PartCounters) : countersAt (modCounters k f s) j = if j = k then f (countersAt s k) else countersAt s j := tget_tset _ _ k j _
@[simp] theorem totalsAt_setTotals (k j : Nat) (v : Totals) : totalsAt (setTotals k v s) j = if j = k then v else totalsAt s j := tget_tset _ _ k j v
@[simp] theorem totalsAt_modTotals (k j : Nat) (f : Totals → Totals) : totalsAt (modTotals k f s) j = if j = k then f (totalsAt s k) else totalsAt s j := tget_tset _ _ k j _
@[simp] theorem boxAt_setBox (k j : Nat) (v : Mailbox) : boxAt (setBox k v s) j = if j = k then v else boxAt s j := tget_tset _ _ k j v
@[simp] theorem boxAt_modBox (k j : Nat) (f : Mailbox → Mailbox) : boxAt (modBox k f s) j = if j = k then f (boxAt s k) else boxAt s j := tget_tset _ _ k j _
@[simp] theorem queueAt_setQueue (k j : Nat) (v : Queue) : queueAt (setQueue k v s) j = if j = k then v else queueAt s j := tget_tset _ _ k j v
@[simp] theorem queueAt_modQueue (k j : Nat) (f : Queue → Queue) : queueAt (modQueue k f s) j = if j = k then f (queueAt s k) else queueAt s j := tget_tset _ _ k j _
@[simp] theorem taskAt_setTask (k j : Nat) (v : Task) : taskAt (setTask k v s) j = if j = k then v else taskAt s j := tget_tset _ _ k j v
@[simp] theorem taskAt_modTask (k j : Nat) (f : Task → Task) : taskAt (modTask k f s) j = if j = k then f (taskAt s k) else taskAt s j := tget_tset _ _ k j _
@[simp] theorem pilotAt_setPilot (k j : Nat) (v : Pilot) : pilotAt (setPilot k v s) j = if j = k then v else pilotAt s j := tget_tset _ _ k j v
@[simp] theorem pilotAt_modPilot (k j : Nat) (f : Pilot → Pilot) : pilotAt (modPilot k f s) j = if j = k then f (pilotAt s k) else pilotAt s j := tget_tset _ _ k j _
@[simp] theorem poolAt_setPool (k j : Nat) (v : Pool) : poolAt (setPool k v s) j = if j = k then v else poolAt s j := tget_tset _ _ k j v
@[simp] theorem poolAt_modPool (k j : Nat) (f : Pool → Pool) : poolAt (modPool k f s) j = if j = k then f (poolAt s k) else poolAt s j := tget_tset _ _ k j _
@[simp] theorem seqAt_setSeq (k j : Nat) (v : Sequence) : seqAt (setSeq k v s) j = if j = k then v else seqAt s j := tget_tset _ _ k j v
@[simp] theorem seqAt_modSeq (k j : Nat) (f : Sequence → Sequence) : seqAt (modSeq k f s) j = if j = k then f (seqAt s k) else seqAt s j := tget_tset _ _ k j _
@[simp] theorem groupAt_setGroup (k j : Nat) (v : RGroup) : groupAt (setGroup k v s) j = if j = k then v else groupAt s j := tget_tset _ _ k j v
@[simp] theorem groupAt_modGroup (k j : Nat) (f : RGroup → RGroup) : groupAt (modGroup k f s) j = if j = k then f (groupAt s k) else groupAt s j := tget_tset _ _ k j _
@[simp] theorem combineAt_setCombine (k j : Nat) (v : CombineSlot) : combineAt (setCombine k v s) j = if j = k then v else combineAt s j := tget_tset _ _ k j v
@[simp] theorem combineAt_modCombine (k j : Nat) (f : CombineSlot → CombineSlot) : combineAt (modCombine k f s) j = if j = k then f (combineAt s k) else combineAt s j := tget_tset _ _ k j _
@[simp] theorem serverAt_setServer (k j : Nat) (v : Server) : serverAt (setServer k v s) j = if j = k then v else serverAt s j := tget_tset _ _ k j v
@[simp] theorem serverAt_modServer (k j : Nat) (f : Server → Server) : serverAt (modServer k f s) j = if j = k then f (serverAt s k) else serverAt s j := tget_tset _ _ k j _
@[simp] theorem linkAt_setLink (k j : Nat) (v : Link) : linkAt (setLink k v s) j = if j = k then v else linkAt s j := tget_tset _ _ k j v
@[simp] theorem linkAt_modLink (k j : Nat) (f : Link → Link) : linkAt (modLink k f s) j = if j = k then f (linkAt s k) else linkAt s j := tget_tset _ _ k j _
@[simp] theorem windowAt_setWindow (k j : Nat) (v : Window) : windowAt (setWindow k v s) j = if j = k then v else windowAt s j := tget_tset _ _ k j v
@[simp] theorem windowAt_modWindow (k j : Nat) (f : Window → Window) : windowAt (modWindow k f s) j = if j = k then f (windowAt s k) else windowAt s j := tget_tset _ _ k j _
@[simp] theorem resourceAt_setResource (k j : Nat) (v : Resource) : resourceAt (setResource k v s) j = if j = k then v else resourceAt s j := tget_tset _ _ k j v
@[simp] theorem resourceAt_modResource (k j : Nat) (f : Resource → Resource) : resourceAt (modResource k f s) j = if j = k then f (resourceAt s k) else resourceAt s j := tget_tset _ _ k j _
@[simp] theorem bufAt_setBuf (k j : Nat) (v : TraceBuf) : bufAt (setBuf k v s) j = if j = k then v else bufAt s j := tget_tset _ _ k j v
@[simp] theorem bufAt_modBuf (k j : Nat) (f : TraceBuf → TraceBuf) : bufAt (modBuf k f s) j = if j = k then f (bufAt s k) else bufAt s j := tget_tset _ _ k j _
@[simp] theorem watchAt_setWatch (k j : Nat) (v : Watch) : watchAt (setWatch k v s) j = if j = k then v else watchAt s j := tget_tset _ _ k j v
@[simp] theorem watchAt_modWatch (k j : Nat) (f : Watch → Watch) : watchAt (modWatch k f s) j = if j = k then f (watchAt s k) else watchAt s j := tget_tset _ _ k j _
@[simp] theorem snuffAt_setSnuff (k j : Nat) (v : Snuff) : snuffAt (setSnuff k v s) j = if j = k then v else snuffAt s j := tget_tset _ _ k j v
@[simp] theorem snuffAt_modSnuff (k j : Nat) (f : Snuff → Snuff) : snuffAt (modSnuff k f s) j = if j = k then f (snuffAt s k) else snuffAt s j := tget_tset _ _ k j _

end Sys2Proof.Machine
end

