-- ==== Sys2Proof/Laws/Fault.lean ====
section
/-! SUPPORT. What recording a fault can change: the fault store, mailboxes, the seam, partitions, queues and pilots, trace and output;
everything else stands. -/
namespace Sys2Proof.Machine

/-- The parts of the state that neither a fault nor an event writes. -/
def beyondFaults (s : State) :=
  (s.pending, s.build, s.trust, s.lc, s.flash, s.ll, s.keys, s.time, s.mem, s.path, s.tables, s.kv, s.experts, s.fabric, s.reg, s.curfew,
    s.ide, s.jtag, s.inbox)

/-- A fold of steps that each leave a view of the state alone leaves it alone. -/
theorem foldl_view {α β : Type} (v : State → β) (f : State → α → State) (hf : ∀ s a, v (f s a) = v s) (l : List α) (s : State) :
    v (l.foldl f s) = v s := by
  induction l generalizing s with
  | nil => rfl
  | cons a l ih => rw [List.foldl_cons, ih, hf]

@[simp] theorem beyondFaults_onFaults (f : Faults → Faults) (s : State) : beyondFaults (onFaults f s) = beyondFaults s := rfl
@[simp] theorem beyondFaults_onBoxes (f : Mailboxes → Mailboxes) (s : State) : beyondFaults (onBoxes f s) = beyondFaults s := rfl
@[simp] theorem beyondFaults_onSeam (f : Seam → Seam) (s : State) : beyondFaults (onSeam f s) = beyondFaults s := rfl
@[simp] theorem beyondFaults_onParts (f : Parts → Parts) (s : State) : beyondFaults (onParts f s) = beyondFaults s := rfl
@[simp] theorem beyondFaults_onFe (f : FrontEnd → FrontEnd) (s : State) : beyondFaults (onFe f s) = beyondFaults s := rfl
@[simp] theorem beyondFaults_onTrace (f : Trace → Trace) (s : State) : beyondFaults (onTrace f s) = beyondFaults s := rfl
@[simp] theorem beyondFaults_emit (o : Out) (s : State) : beyondFaults (emit o s) = beyondFaults s := rfl
@[simp] theorem beyondFaults_irq (n : Nat) (s : State) : beyondFaults (irq n s) = beyondFaults s := rfl
@[simp] theorem beyondFaults_drawn (n : Nat) (s : State) : beyondFaults (drawn n s) = beyondFaults s := rfl
@[simp] theorem beyondFaults_setBox (k : Nat) (v : Mailbox) (s : State) : beyondFaults (setBox k v s) = beyondFaults s := rfl
@[simp] theorem beyondFaults_modQueue (k : Nat) (f : Queue → Queue) (s : State) : beyondFaults (modQueue k f s) = beyondFaults s := rfl
@[simp] theorem beyondFaults_modPart (k : Nat) (f : Partition → Partition) (s : State) : beyondFaults (modPart k f s) = beyondFaults s := rfl
@[simp] theorem beyondFaults_setPilot (k : Nat) (v : Pilot) (s : State) : beyondFaults (setPilot k v s) = beyondFaults s := rfl
@[simp] theorem beyondFaults_modTask (k : Nat) (f : Task → Task) (s : State) : beyondFaults (modTask k f s) = beyondFaults s := rfl
@[simp] theorem beyondFaults_modCounters (k : Nat) (f : PartCounters → PartCounters) (s : State) :
    beyondFaults (modCounters k f s) = beyondFaults s := rfl
@[simp] theorem beyondFaults_modSnuff (k : Nat) (f : Snuff → Snuff) (s : State) : beyondFaults (modSnuff k f s) = beyondFaults s := rfl

@[simp] theorem beyondFaults_seamSend (e : Bool) (c : Nat) (b : SeamBody) (s : State) : beyondFaults (seamSend e c b s) = beyondFaults s := by
  unfold seamSend; dsimp only; split <;> rfl

@[simp] theorem beyondFaults_postEvent (mb code : Nat) (a : Bytes) (s : State) : beyondFaults (postEvent mb code a s) = beyondFaults s := by
  unfold postEvent
  split
  · rfl
  · dsimp only
    split
    · rfl
    · split <;> simp

@[simp] theorem beyondFaults_faultEvents (r : FaultRec) (s : State) : beyondFaults (faultEvents r s) = beyondFaults s := by
  unfold faultEvents
  split
  · rfl
  · dsimp only; split <;> simp

@[simp] theorem beyondFaults_storeRecord (r : FaultRec) (s : State) : beyondFaults (storeRecord r s) = beyondFaults s := by
  unfold storeRecord
  dsimp only
  split
  · simp
  · rw [beyondFaults_faultEvents, beyondFaults_onTrace, apply_ite beyondFaults]
    simp

@[simp] theorem beyondFaults_eastRecord (r : FaultRec) (s : State) : beyondFaults (eastRecord r s) = beyondFaults s := by
  unfold eastRecord
  dsimp only
  split
  · simp
  · split
    · simp
    · split <;> simp

@[simp] theorem beyondFaults_failPilot (pi st : Nat) (s : State) : beyondFaults (failPilot pi st s) = beyondFaults s := by
  unfold failPilot
  dsimp only
  split
  · rfl
  · split <;> simp

@[simp] theorem beyondFaults_stopOwner (p : Nat) (s : State) : beyondFaults (stopOwner p s) = beyondFaults s := by
  unfold stopOwner
  rw [foldl_view beyondFaults _ (fun s k => beyondFaults_failPilot k _ s), foldl_view beyondFaults _ (fun s k => by simp)]

@[simp] theorem beyondFaults_haltPartition (p : Nat) (s : State) : beyondFaults (haltPartition p s) = beyondFaults s := by
  unfold haltPartition tdiError
  dsimp only
  split
  · simp
  · simp only [beyondFaults_postEvent]
    exact (beyondFaults_stopOwner p _).trans (by simp)

@[simp] theorem beyondFaults_stopManager (s : State) : beyondFaults (stopManager s) = beyondFaults s := by
  unfold stopManager
  rw [foldl_view beyondFaults _ (fun s k => by simp)]

@[simp] theorem beyondFaults_dueBlockReset (t : Nat) (c : Option FaultRec) (d : Bool) (s : State) :
    beyondFaults (dueBlockReset t c d s) = beyondFaults s := by
  unfold dueBlockReset; split <;> rfl

@[simp] theorem beyondFaults_faultAction (r : FaultRec) (s : State) : beyondFaults (faultAction r s) = beyondFaults s := by
  unfold faultAction
  split
  · split
    · simp
    · split <;> simp
  · simp
  · simp
  · simp
  · rfl

/-- A fault changes nothing beyond its store, the mailboxes, the seam, partitions, queues, pilots, trace and output. -/
@[simp] theorem beyondFaults_recordFault (a : FaultArg) (s : State) : beyondFaults (recordFault a s) = beyondFaults s := by
  unfold recordFault
  cases a.err <;> dsimp only [newErr] <;> rw [beyondFaults_faultAction, apply_ite beyondFaults, beyondFaults_eastRecord,
    beyondFaults_storeRecord, beyondFaults_onFaults, apply_ite beyondFaults, beyondFaults_onFaults, ite_self, ite_self]
  rfl

@[simp] theorem beyondFaults_simpleFault (c k i : Nat) (s : State) : beyondFaults (simpleFault c k i s) = beyondFaults s :=
  beyondFaults_recordFault _ s

/-- A fault leaves memory alone. -/
@[simp] theorem recordFault_mem (a : FaultArg) (s : State) : (recordFault a s).mem = s.mem := by
  have := beyondFaults_recordFault a s; simp only [beyondFaults, Prod.mk.injEq] at this; simp_all

/-- A fault leaves the lanterns, capacity engines and ports alone. -/
@[simp] theorem recordFault_path (a : FaultArg) (s : State) : (recordFault a s).path = s.path := by
  have := beyondFaults_recordFault a s; simp only [beyondFaults, Prod.mk.injEq] at this; simp_all

/-- A fault leaves the fuses and the life cycle alone. -/
@[simp] theorem recordFault_lc (a : FaultArg) (s : State) : (recordFault a s).lc = s.lc := by
  have := beyondFaults_recordFault a s; simp only [beyondFaults, Prod.mk.injEq] at this; simp_all

@[simp] theorem simpleFault_lc (c k i : Nat) (s : State) : (simpleFault c k i s).lc = s.lc := recordFault_lc _ s
@[simp] theorem simpleFault_mem (c k i : Nat) (s : State) : (simpleFault c k i s).mem = s.mem := recordFault_mem _ s
@[simp] theorem postEvent_lc (mb code : Nat) (a : Bytes) (s : State) : (postEvent mb code a s).lc = s.lc := by
  have := beyondFaults_postEvent mb code a s; simp only [beyondFaults, Prod.mk.injEq] at this; simp_all
@[simp] theorem postEvent_mem (mb code : Nat) (a : Bytes) (s : State) : (postEvent mb code a s).mem = s.mem := by
  have := beyondFaults_postEvent mb code a s; simp only [beyondFaults, Prod.mk.injEq] at this; simp_all

end Sys2Proof.Machine
end

