-- ==== Sys2Proof/Laws/Frames.lean ====
section
/-! SUPPORT. What every command leaves as it was, by the way its effect is framed, and what a block that does not run answers. -/
namespace Sys2Proof.Laws

open Sys2Proof.Machine

theorem whenServing_frame {f : State → State} {s t : State} (h : whenServing f s = .next t) : t.build = s.build ∧ t.pending = s.pending ∧ t.lc = s.lc := by
  unfold whenServing whenRunning framed inCore at h
  split at h <;> cases h <;> exact ⟨rfl, rfl, rfl⟩
theorem whenFused_frame {f : State → State} {s t : State} (h : whenFused f s = .next t) : t.build = s.build ∧ t.pending = s.pending ∧ t.lc = s.lc := by
  unfold whenFused whenRunning framed keepFuses at h
  split at h <;> cases h <;> exact ⟨rfl, rfl, rfl⟩
theorem whenRunning_frame {f : State → State} {s t : State} (h : whenRunning f s = .next t) : t.build = s.build ∧ t.pending = s.pending := by
  unfold whenRunning framed at h
  split at h <;> cases h <;> exact ⟨rfl, rfl⟩
theorem step1_frame {f : State → State} {s t : State} (h : step1 f s = .next t) : t.build = s.build ∧ t.pending = s.pending := by
  unfold step1 framed at h
  cases h; exact ⟨rfl, rfl⟩
theorem step1_inCore_frame {f : State → State} {s t : State} (h : step1 (inCore f) s = .next t) : t.build = s.build ∧ t.pending = s.pending ∧ t.lc = s.lc := by
  unfold step1 framed inCore at h
  cases h; exact ⟨rfl, rfl, rfl⟩
theorem step1_keepFuses_frame {f : State → State} {s t : State} (h : step1 (keepFuses f) s = .next t) : t.build = s.build ∧ t.pending = s.pending ∧ t.lc = s.lc := by
  unfold step1 framed keepFuses at h
  cases h; exact ⟨rfl, rfl, rfl⟩
theorem whenServing_stopped {f : State → State} {s : State} (h : running s = false) : whenServing f s = .next s := by simp [whenServing, whenRunning, h]
theorem whenFused_stopped {f : State → State} {s : State} (h : running s = false) : whenFused f s = .next s := by simp [whenFused, whenRunning, h]
theorem whenRunning_stopped {f : State → State} {s : State} (h : running s = false) : whenRunning f s = .next s := by simp [whenRunning, h]

end Sys2Proof.Laws
end

