-- ==== Sys2Proof/Laws/Fuses.lean ====
section
/-! SUPPORT. What the fuse controller, the boot, a tick and the requests that burn do to the OTP rows: each keeps every burned bit. -/
namespace Sys2Proof.Laws

open Sys2Proof.Machine

/-- The OTP rows, and that no bit of them is lost. -/
def otpOf (s : State) : Tab Word32 := s.lc.otp
def RowsGrow (s t : State) : Prop := ∀ k, otpRow s k &&& otpRow t k = otpRow s k
theorem rowsGrow_of {s t : State} (h : otpOf t = otpOf s) : RowsGrow s t := fun k => by
  unfold otpRow; rw [show t.lc.otp = s.lc.otp from h, BitVec.and_self]
theorem rowsGrow_refl (s) : RowsGrow s s := rowsGrow_of rfl
theorem rowsGrow_trans {s t u} (h : RowsGrow s t) (g : RowsGrow t u) : RowsGrow s u := fun k => by
  have e := congrArg (otpRow s k &&& ·) (g k)
  simp only [← BitVec.and_assoc, h k] at e
  exact e
theorem rowsGrow_left {s s' t} (h : otpOf s' = otpOf s) (g : RowsGrow s' t) : RowsGrow s t := rowsGrow_trans (rowsGrow_of h) g
theorem rowsGrow_right {s t t'} (g : RowsGrow s t) (h : otpOf t' = otpOf t) : RowsGrow s t' := rowsGrow_trans g (rowsGrow_of h)
theorem rowsGrow_burnRow (k b s) : RowsGrow s (burnRow k b s) := fun j => by
  show tget 0 s.lc.otp j &&& tget 0 (tset 0 s.lc.otp k (tget 0 s.lc.otp k ||| b)) j = tget 0 s.lc.otp j
  rw [tget_tset]
  split
  · rename_i h; subst h
    ext i; simp
    intro h; exact .inl h
  · exact BitVec.and_self
theorem otpOf_onLl (f s) : otpOf (onLl f s) = otpOf s := rfl
theorem otpOf_onFlash (f s) : otpOf (onFlash f s) = otpOf s := rfl
theorem otpOf_onTrust (f s) : otpOf (onTrust f s) = otpOf s := rfl
theorem otpOf_onFaults (f s) : otpOf (onFaults f s) = otpOf s := rfl
theorem otpOf_onTrace (f s) : otpOf (onTrace f s) = otpOf s := rfl
theorem otpOf_onBoxes (f s) : otpOf (onBoxes f s) = otpOf s := rfl
theorem otpOf_onSeam (f s) : otpOf (onSeam f s) = otpOf s := rfl
theorem otpOf_onKeys (f s) : otpOf (onKeys f s) = otpOf s := rfl
theorem otpOf_onReg (f s) : otpOf (onReg f s) = otpOf s := rfl
theorem otpOf_onJtag (f s) : otpOf (onJtag f s) = otpOf s := rfl
theorem otpOf_onIde (f s) : otpOf (onIde f s) = otpOf s := rfl
theorem otpOf_keepFuses (f s) : otpOf (keepFuses f s) = otpOf s := rfl
theorem otpOf_drawn (n s) : otpOf (drawn n s) = otpOf s := rfl
theorem otpOf_noteIntent (s) : otpOf (noteIntent s) = otpOf s := rfl
theorem otpOf_toStage (n s) : otpOf (toStage n s) = otpOf s := rfl
theorem otpOf_settle (u s) : otpOf (settle u s) = otpOf s := rfl
theorem otpOf_ops (a b s) : otpOf (onLc (fun l => { l with ops := a, opOn := b }) s) = otpOf s := rfl
theorem otpOf_drbg (n s) : otpOf (drbg n s).2 = otpOf s := rfl
theorem otpOf_dueBlockReset (a b c s) : otpOf (dueBlockReset a b c s) = otpOf s := by unfold dueBlockReset; split <;> rfl
theorem rowsGrow_lcApply (o s) : RowsGrow s (lcApply o s) := by
  unfold lcApply
  split
  · split
    · exact rowsGrow_refl s
    · exact rowsGrow_right (rowsGrow_burnRow _ _ s) (otpOf_noteIntent _)
  · exact rowsGrow_of (otpOf_keepFuses _ _)
  · exact rowsGrow_refl s
  · split
    · exact rowsGrow_refl s
    · exact rowsGrow_left (s' := (drbg 4 s).2) rfl (rowsGrow_burnRow _ _ _)
  · exact rowsGrow_burnRow _ _ _
  · apply rowsGrow_of
    unfold lcDone; dsimp only
    split
    · split
      · rw [otpOf_dueBlockReset]; rfl
      · rw [otpOf_dueBlockReset]; rfl
    · split <;> rfl
theorem otpOf_lcBegin (s) : otpOf (lcBegin s) = otpOf s := by
  unfold lcBegin; split
  · rfl
  · split <;> rfl
theorem rowsGrow_lcRun (n s) : RowsGrow s (lcRun n s) := by
  induction n generalizing s with
  | zero => exact rowsGrow_refl s
  | succ n ih =>
    unfold lcRun
    split
    · exact rowsGrow_refl s
    · rename_i o rest _
      dsimp only
      split
      · exact rowsGrow_of (otpOf_lcBegin s)
      · exact rowsGrow_trans (rowsGrow_left (s' := onLc (fun l => { l with ops := rest, opOn := false }) (lcBegin s)) (otpOf_lcBegin s) (rowsGrow_lcApply o _)) (ih _)
theorem rowsGrow_lcAdvance (s) : RowsGrow s (lcAdvance s) := rowsGrow_lcRun 64 s

theorem otpOf_seamSend (e c b s) : otpOf (seamSend e c b s) = otpOf s := by unfold seamSend; dsimp only; split <;> rfl
theorem otpOf_reachSafe (s) : otpOf (reachSafe s) = otpOf s := by unfold reachSafe; split <;> rfl
theorem otpOf_rtcTick (s) : otpOf (rtcTick s) = otpOf s := by unfold rtcTick onTrust; dsimp only; split <;> rfl
theorem otpOf_steerTick (s) : otpOf (steerTick s) = otpOf s := by
  unfold steerTick; dsimp only
  split
  · rfl
  split
  · unfold tellEast; rw [otpOf_seamSend]; rfl
  · unfold tellEast; rw [otpOf_seamSend]; rfl
theorem otpOf_flashWrite (a b s) : otpOf (flashWrite a b s) = otpOf s := rfl
theorem otpOf_compactRecords (s) : otpOf (compactRecords s) = otpOf s := by
  unfold compactRecords
  show otpOf (List.foldl _ s _) = _
  generalize (liveRecords s).zipIdx = rs
  generalize activeHalf s = h
  generalize hx : (fun (s : State) (r : FlashRecord × Nat) => flashWrite (recordHalf (1 - h) + 64 * r.2) (r.1.bytes s) s) = f
  have hf : ∀ s r, otpOf (f s r) = otpOf s := by subst hx; intros; rfl
  clear hx
  induction rs generalizing s with
  | nil => rfl
  | cons r rs ih => exact (ih _).trans (hf s r)
theorem otpOf_appendRecord (r s) : otpOf (appendRecord r s) = otpOf s := by
  unfold appendRecord; dsimp only
  rw [otpOf_flashWrite]
  split
  · exact otpOf_compactRecords s
  · rfl
theorem otpOf_appendAll (rs : List FlashRecord) (s) : otpOf (rs.foldl (fun s r => appendRecord r s) s) = otpOf s := by
  induction rs generalizing s with
  | nil => rfl
  | cons r rs ih => exact (ih _).trans (otpOf_appendRecord r s)
theorem otpOf_syncRecords (s) : otpOf (syncRecords s) = otpOf s := by
  unfold syncRecords
  split
  · rfl
  · exact otpOf_appendAll _ s
theorem otpOf_recording (f s) : otpOf (recording f s) = otpOf s := otpOf_syncRecords _
theorem rowsGrow_framed (f s) (h : RowsGrow s (f s)) : RowsGrow s (framed f s) := rowsGrow_right h rfl
theorem rowsGrow_tick (s) : RowsGrow s (tick s) := by
  unfold tick
  apply rowsGrow_framed
  have : ∀ x, otpOf x = otpOf s → RowsGrow s (tickRunning x) := fun x h => by
    unfold tickRunning
    split
    · exact rowsGrow_left (s' := syncRecords (keepFuses (fun s => chargeRuns (obsTick s)) x))
        ((otpOf_syncRecords _).trans h) (rowsGrow_right (rowsGrow_lcAdvance _) (by rw [otpOf_keepFuses, otpOf_reachSafe]))
    · exact rowsGrow_of h
  unfold tickBody
  split
  · apply this; rw [otpOf_steerTick]
    have : ∀ x, otpOf (countTick x) = otpOf x := fun _ => rfl
    rw [this]; exact otpOf_rtcTick s
  · exact rowsGrow_of (otpOf_rtcTick s)

theorem otpOf_haltBoot (a b s) : otpOf (haltBoot a b s) = otpOf s := rfl
theorem otpOf_writeBootCopy (c b s) : otpOf (writeBootCopy c b s) = otpOf s := by
  unfold writeBootCopy; generalize 0x1000 * c = a; unfold flashWrite flashErase; rw [otpOf_onFlash, otpOf_onFlash]
theorem otpOf_rewriteBoot (f s) : otpOf (rewriteBoot f s) = otpOf s := otpOf_writeBootCopy _ _ s
theorem otpOf_dropTrial (s) : otpOf (dropTrial s) = otpOf s := by
  unfold dropTrial
  split
  · rfl
  · exact otpOf_rewriteBoot _ _
theorem otpOf_clearTrial (s) : otpOf (clearTrial s) = otpOf s := by
  unfold clearTrial
  split
  · rfl
  · exact otpOf_rewriteBoot _ _
theorem otpOf_diceChain (k m s) : otpOf (diceChain k m s) = otpOf s := by
  unfold diceChain; dsimp only; split <;> rfl
theorem otpOf_bootDice (k s) : otpOf (bootDice k s) = otpOf s := by
  unfold bootDice; dsimp only
  rw [otpOf_diceChain]
  split <;> rfl
theorem rowsGrow_foldl (l : List Nat) (f : State → Nat → State) (h : ∀ s k, RowsGrow s (f s k)) (s) : RowsGrow s (l.foldl f s) := by
  induction l generalizing s with
  | nil => exact rowsGrow_refl s
  | cons a l ih => exact rowsGrow_trans (h s a) (ih _)
theorem rowsGrow_completeCode (s) : RowsGrow s (completeCode s) := by
  unfold completeCode; dsimp only
  split
  · exact rowsGrow_refl s
  · apply rowsGrow_foldl; intro s k; split
    · exact rowsGrow_burnRow _ _ _
    · exact rowsGrow_refl _
theorem rowsGrow_bootEntropy (i s) : RowsGrow s (bootEntropy i s) := by
  unfold bootEntropy; dsimp only
  split
  · exact rowsGrow_refl s
  split
  · exact rowsGrow_refl s
  split
  · refine rowsGrow_trans ?_ (rowsGrow_lcAdvance _)
    exact rowsGrow_right (rowsGrow_left (s' := onLl (fun l => { l with drbgRunning := true, drbgRequests := 0 }) (toStage 17 s)) rfl (rowsGrow_completeCode _)) rfl
  · refine rowsGrow_right (rowsGrow_left (s' := onLl (fun l => { l with drbgRunning := true, drbgRequests := 0 }) (toStage 17 s)) rfl (rowsGrow_completeCode _)) ?_
    rw [otpOf_keepFuses, otpOf_onLl]
    split
    · rw [otpOf_keepFuses]
    · rw [otpOf_keepFuses, otpOf_keepFuses]
theorem rowsGrow_bootImage (i s) : RowsGrow s (bootImage i s) := by
  unfold bootImage; dsimp only
  split
  · exact rowsGrow_of (by rw [otpOf_haltBoot]; exact otpOf_dropTrial s)
  · refine rowsGrow_left ?_ (rowsGrow_bootEntropy _ _)
    unfold bootFwStart; dsimp only
    rw [otpOf_onTrust, otpOf_drawn, otpOf_toStage, otpOf_bootDice, otpOf_onLl, otpOf_clearTrial, otpOf_onLl, otpOf_dropTrial]
theorem rowsGrow_bootFrom (i s) : RowsGrow s (bootFrom i s) := by
  unfold bootFrom; dsimp only
  split
  · exact rowsGrow_refl s
  split
  · exact rowsGrow_refl s
  have sel : ∀ x, RowsGrow x (bootSelect i x) := fun x => by
    unfold bootSelect; dsimp only
    split
    · exact rowsGrow_refl _
    split
    · exact rowsGrow_refl _
    · exact rowsGrow_left (otpOf_toStage _ _) (rowsGrow_bootImage _ _)
  have lif : ∀ x, otpOf (bootLifecycle x) = otpOf x := fun _ => by
    unfold bootLifecycle; dsimp only; rw [otpOf_noteIntent]; rfl
  exact rowsGrow_left (by rw [lif, otpOf_toStage, otpOf_onLl]) (sel _)
theorem rowsGrow_resumeBoot (s) : RowsGrow s (resumeBoot s) := by
  unfold resumeBoot
  split
  · exact rowsGrow_refl s
  split
  · exact rowsGrow_bootImage _ _
  split
  · exact rowsGrow_bootEntropy _ _
  · exact rowsGrow_refl s
theorem otpOf_coreLost (s) : otpOf (coreLost s) = otpOf s := rfl
theorem rowsGrow_powerOn (v i s) : RowsGrow s (powerOn v i s) := by
  unfold powerOn; dsimp only
  split
  · exact rowsGrow_refl s
  · refine rowsGrow_left ?_ (rowsGrow_bootFrom _ _)
    cases v <;> rfl
theorem rowsGrow_duskEnds (s) : RowsGrow s (duskEnds s) := by
  unfold duskEnds; dsimp only
  split
  · exact rowsGrow_refl s
  split
  · exact rowsGrow_of rfl
  · refine rowsGrow_right ?_ (rfl : otpOf (settle _ _) = otpOf _)
    refine rowsGrow_trans ?_ (rowsGrow_resumeBoot _)
    exact rowsGrow_left (by exact (rfl : otpOf (keepFuses _ _) = _)) (rowsGrow_lcAdvance _)
theorem rowsGrow_blockReset (i t s) : RowsGrow s (blockReset_ i t s) := by
  unfold blockReset_; dsimp only
  refine rowsGrow_left ?_ (rowsGrow_bootFrom _ _)
  unfold clearAndRecord; dsimp only
  rw [otpOf_keepFuses]
  have cb : ∀ x, otpOf (clearBlock x) = otpOf x := fun x => by
    unfold clearBlock; dsimp only
    have ei : ∀ x, otpOf (emptyInbox x) = otpOf x := fun _ => rfl
    rw [ei]; unfold clearBoxes
    rw [otpOf_onIde, otpOf_onBoxes, otpOf_onTrace, otpOf_onSeam, otpOf_onReg]
    unfold clearLamp; dsimp only
    rw [otpOf_onJtag]
    have ol : ∀ (f : LifeCycle → LifeCycle) x, (∀ l, (f l).otp = l.otp) → otpOf (onLc f x) = otpOf x := fun f x h => h _
    refine (ol _ _ (fun _ => rfl)).trans ?_
    rw [otpOf_keepFuses]
  split
  · rw [otpOf_keepFuses, otpOf_onFaults, cb, otpOf_keepFuses, otpOf_keepFuses]
  · rw [otpOf_onFaults, cb, otpOf_keepFuses, otpOf_keepFuses]
theorem otpOf_traceEmit (r s) : otpOf (traceEmit r s) = otpOf s := by
  unfold traceEmit; dsimp only
  split
  · rfl
  rw [otpOf_keepFuses]
  have lr : ∀ (a b c d e : Nat) s, otpOf (loseRecord a b c d e s) = otpOf s := by
    intro a b c d e s; unfold loseRecord; dsimp only; split <;> rfl
  have fo : ∀ (l : List Nat) (f : State → Nat → State) x, (∀ s k, otpOf (f s k) = otpOf s) → otpOf (l.foldl f x) = otpOf x := by
    intro l f x h
    induction l generalizing x with
    | nil => rfl
    | cons a l ih => exact (ih _).trans (h x a)
  repeat' split
  all_goals first
    | exact fo _ _ _ (fun s k => lr _ _ _ _ _ _)
    | rfl
theorem otpOf_mctpSend (a b c s) : otpOf (mctpSend a b c s) = otpOf s := by
  unfold mctpSend; dsimp only; split <;> split <;> rfl
theorem otpOf_respond (a b c d s) : otpOf (respond a b c d s) = otpOf s := by
  unfold respond; dsimp only
  split
  · rfl
  split
  · rw [otpOf_mctpSend]; rfl
  · split <;> rfl
theorem otpOf_reply (a b c d s) : otpOf (reply a b c d s) = otpOf s := by
  unfold reply; dsimp only; rw [otpOf_traceEmit, otpOf_respond]
theorem otpOf_markStarted (a b s) : otpOf (markStarted a b s) = otpOf s := by
  unfold markStarted; dsimp only; rw [otpOf_traceEmit]; rfl
theorem rowsGrow_serve (op sub : Nat) (f : Call → State → Answer × State) (r s) (h : ∀ c s, RowsGrow s (f c s).2) : RowsGrow s (serve op sub f r s) := by
  unfold serve; dsimp only
  split
  · exact rowsGrow_refl s
  split
  · exact rowsGrow_of (by rw [show ∀ u x, otpOf (settle u x) = otpOf x from fun _ _ => rfl, otpOf_reply, otpOf_markStarted])
  have m : ∀ c, RowsGrow s (f c (markStarted r.mb r.slot s)).2 := fun c => rowsGrow_left (otpOf_markStarted _ _ _) (h c _)
  have m := m ⟨r.mb, r.slot, mbRequest s r.mb r.slot, r.ue⟩
  generalize f _ _ = q at m
  split
  · exact rowsGrow_right m (by rw [otpOf_settle, otpOf_reply])
  · exact rowsGrow_right m rfl
  · exact rowsGrow_refl s
  · exact rowsGrow_right m rfl
theorem rowsGrow_lcTransition (c s) : RowsGrow s (lcTransition c s).2 := by
  unfold lcTransition; dsimp only
  repeat (first | (split; exact rowsGrow_refl s) )
  all_goals
    unfold beginTransition
    refine rowsGrow_left ?_ (rowsGrow_lcAdvance _)
    have ol : ∀ (f : LifeCycle → LifeCycle) x, (∀ l, (f l).otp = l.otp) → otpOf (onLc f x) = otpOf x := fun f x h => h _
    have uc : ∀ x, otpOf (useChallenge x) = otpOf x := fun _ => rfl
    rw [ol _ _ (by intro l; rfl)]
    by_cases q : shadowState s = 2
    · rw [if_pos q]; exact uc s
    · rw [if_neg q]
theorem rowsGrow_debugChallenge (c s) : RowsGrow s (debugChallenge c s).2 := by
  unfold debugChallenge; split <;> exact rowsGrow_of rfl
theorem rowsGrow_debugUnlock (c s) : RowsGrow s (debugUnlock c s).2 := by
  apply rowsGrow_of
  have a : ∀ c s, otpOf (acceptUnlock c s).2 = otpOf s := by intro c s; unfold acceptUnlock accept; dsimp only; rw [otpOf_dueBlockReset]; rfl
  unfold debugUnlock; dsimp only
  split
  · split
    · exact a _ _
    · rfl
  split
  · rfl
  split
  · exact a _ _
  · rfl
theorem rowsGrow_fwCommit (c s) : RowsGrow s (fwCommit c s).2 := by
  unfold fwCommit; dsimp only
  split
  · exact rowsGrow_refl s
  split
  · exact rowsGrow_refl s
  split
  · exact rowsGrow_refl s
  refine rowsGrow_left ?_ (rowsGrow_lcAdvance _)
  have ol : ∀ (f : LifeCycle → LifeCycle) x, (∀ l, (f l).otp = l.otp) → otpOf (onLc f x) = otpOf x := fun f x h => h _
  rw [ol, otpOf_onLl, otpOf_rewriteBoot]
  intro l; rfl

end Sys2Proof.Laws
end

