-- ==== Sys2Proof/Laws/Memory.lean ====
section
/-! SUPPORT. Memory: reads of the stacked tier write none, and every operation that stores keeps the canonical form of both tiers. -/
namespace Sys2Proof.Machine

/-! ## What stores nothing -/

@[simp] theorem modLantern_mem (l : Nat) (f : Lantern → Lantern) (s : State) : (modLantern l f s).mem = s.mem := rfl
@[simp] theorem modCap_mem (c : Nat) (f : Capacity → Capacity) (s : State) : (modCap c f s).mem = s.mem := rfl
@[simp] theorem modSlot_mem (k : Nat) (f : KeySlot → KeySlot) (s : State) : (modSlot k f s).mem = s.mem := rfl
@[simp] theorem modTgen_mem (l c : Nat) (f : Tgen → Tgen) (s : State) : (modTgen l c f s).mem = s.mem := rfl
@[simp] theorem modTotals_mem (k : Nat) (f : Totals → Totals) (s : State) : (modTotals k f s).mem = s.mem := rfl

@[simp] theorem clearPoison_mem (l la : Nat) (s : State) : (clearPoison l la s).mem = s.mem := by
  unfold clearPoison; split <;> rfl

@[simp] theorem dropEntries_mem (l : Nat) (f : BufEntry → Bool) (s : State) : (dropEntries l f s).mem = s.mem := by
  unfold dropEntries; split <;> rfl

@[simp] theorem fillBuffer_mem (r : Req) (l a k : Nat) (d : Bytes) (s : State) : (fillBuffer r l a k d s).mem = s.mem := by
  unfold fillBuffer; split <;> rfl

@[simp] theorem changeSlot_mem (k : Nat) (f : KeySlot → KeySlot) (s : State) : (changeSlot k f s).mem = s.mem := rfl

@[simp] theorem stackedFault_mem (r : Req) (l la addr : Nat) (e : Option Nat) (i : Bool) (s : State) :
    (stackedFault r l la addr e i s).mem = s.mem := recordFault_mem _ s

@[simp] theorem newQuarantine_mem (r : Req) (l la addr : Nat) (i : Bool) (s : State) : (newQuarantine r l la addr i s).mem = s.mem :=
  stackedFault_mem _ _ _ _ _ _ _

@[simp] theorem hitQuarantine_mem (r : Req) (l la addr : Nat) (s : State) : (hitQuarantine r l la addr s).mem = s.mem := by
  unfold hitQuarantine
  split
  · rfl
  · split
    · rfl
    · exact stackedFault_mem _ _ _ _ _ _ _

@[simp] theorem takeInjection_mem (a b c d e : Nat) (s : State) : (takeInjection a b c d e s).2.mem = s.mem := by
  unfold takeInjection; split <;> rfl

@[simp] theorem injectCheck_mem (a b c d e : Nat) (s : State) : (injectCheck a b c d e s).2.mem = s.mem := by
  unfold injectCheck; dsimp only; split <;> simp

@[simp] theorem recordDenied_mem (r : Req) (a : Nat) (c : Checked) (s : State) : (recordDenied r a c s).mem = s.mem := by
  unfold recordDenied; split <;> simp

@[simp] theorem countBytes_mem (k : Nat) (p : Place) (n : Nat) (s : State) : (countBytes k p n s).mem = s.mem := by
  unfold countBytes; split <;> rfl

@[simp] theorem countDeadline_mem (r : Req) (p : Place) (s : State) : (countDeadline r p s).mem = s.mem := by
  unfold countDeadline
  dsimp only
  generalize clock s _ = t
  split
  · rfl
  · show State.mem (if _ then _ else _) = _
    split <;> rfl

@[simp] theorem countUnit_mem (r : Req) (a : Nat) (p : Place) (n : Nat) (s : State) : (countUnit r a p n s).mem = s.mem :=
  (countDeadline_mem _ _ _).trans (countBytes_mem _ _ _ _)

@[simp] theorem capUeFault_mem (r : Req) (c l p a : Nat) (s : State) : (capUeFault r c l p a s).mem = s.mem := recordFault_mem _ s
@[simp] theorem capTagFault_mem (r : Req) (c a : Nat) (s : State) : (capTagFault r c a s).mem = s.mem := recordFault_mem _ s
@[simp] theorem counterEndFault_mem (r : Req) (c a : Nat) (s : State) : (counterEndFault r c a s).mem = s.mem := recordFault_mem _ s

@[simp] theorem markDue_mem (k c : Nat) (s : State) : (markDue k c s).mem = s.mem := by
  unfold markDue rotationDueEvent; dsimp only; split <;> simp

@[simp] theorem flaggedPart_mem (ue : Ue) (c pa a : Nat) (s : State) : (flaggedPart ue c pa a s).2.mem = s.mem := by
  unfold flaggedPart; simp

/-- Reading a sector writes no memory. -/
@[simp] theorem readSector_mem (r : Req) (ue : Ue) (s0 : State) (l la a addr : Nat) (s : State) :
    (readSector r ue s0 l la a addr s).2.2.mem = s.mem := by
  unfold readSector
  dsimp only
  split
  · simp
  split
  · rfl
  · have h1 := takeInjection_mem clsStackedUe kindLantern l (channelOf s l la).1 addr s
    generalize takeInjection clsStackedUe kindLantern l (channelOf s l la).1 addr s = x at h1 ⊢
    rcases x with ⟨b, t⟩
    have h2 : (if b = true then (false, t) else takeInjection clsStackedUeShared kindLantern l (channelOf t l la).1 addr t).2.mem = s.mem := by
      split
      · exact h1
      · exact (takeInjection_mem _ _ _ _ _ _).trans h1
    generalize (if b = true then (false, t) else takeInjection clsStackedUeShared kindLantern l (channelOf t l la).1 addr t) = y at h2 ⊢
    rcases y with ⟨c, u⟩
    dsimp only at h2 ⊢
    split
    · dsimp only
      split
      · exact (hitQuarantine_mem _ _ _ _ _).trans h2
      · exact (newQuarantine_mem _ _ _ _ _ _).trans h2
    · split
      · exact h2
      · exact (fillBuffer_mem _ _ _ _ _ _).trans h2

/-! ## What stores keeps the form -/

/-- Both tiers of a state's memory are canonical. -/
def MemWf (s : State) : Prop := s.mem.wf

theorem MemWf.of_eq {s t : State} (h : MemWf s) (e : t.mem = s.mem) : MemWf t := by
  unfold MemWf; rw [e]; exact h

theorem MemWf.capTagFault {s : State} (h : MemWf s) (r : Req) (c a : Nat) : MemWf (capTagFault r c a s) := h.of_eq (capTagFault_mem r c a s)

theorem MemWf.clearPoison {s : State} (h : MemWf s) (l la : Nat) : MemWf (clearPoison l la s) := h.of_eq (clearPoison_mem l la s)

theorem MemWf.foldl {α : Type} {f : State → α → State} (hf : ∀ s a, MemWf s → MemWf (f s a)) (l : List α) :
    ∀ {s : State}, MemWf s → MemWf (l.foldl f s) := by
  induction l with
  | nil => exact id
  | cons a l ih => intro s h; exact ih (hf s a h)

/-- A store in the stacked tier. -/
theorem MemWf.storeStacked {s : State} (h : MemWf s) (k : Nat) (v : Bytes) :
    MemWf { s with mem := { s.mem with stacked := twrites 0 s.mem.stacked k v } } := ⟨h.1.twrites k, h.2⟩

/-- A store in the capacity tier. -/
theorem MemWf.storeCapacity {s : State} (h : MemWf s) (k : Nat) (v : Bytes) :
    MemWf { s with mem := { s.mem with capacity := twrites 0 s.mem.capacity k v } } := ⟨h.1, h.2.twrites k⟩

theorem MemWf.ite {s t : State} {q : Prop} [Decidable q] (hs : MemWf s) (ht : MemWf t) : MemWf (if q then s else t) := by
  split
  · exact hs
  · exact ht

/-- A line verdict answers a state of memory as its read left it, or with a fault recorded. -/
theorem MemWf.verdict {s t : State} {α : Type} {q : Prop} [Decidable q] (h : MemWf s) (a b : α) (ht : MemWf t) :
    MemWf (if q then (a, s) else (b, t)).2 := by
  split
  · exact h
  · exact ht

/-- Any canonical change of the capacity tier. -/
theorem MemWf.mapCapacity {s : State} (h : MemWf s) {f : Tab Byte → Tab Byte} (hf : ∀ t, TabWf 0 t → TabWf 0 (f t)) :
    MemWf (onMem (fun m => { m with capacity := f m.capacity }) s) := ⟨h.1, hf _ h.2⟩

theorem MemWf.storeSector {s : State} (h : MemWf s) (l la a k : Nat) (d : Bytes) : MemWf (storeSector l la a k d s) := by
  unfold Machine.storeSector
  dsimp only
  refine MemWf.clearPoison ?_ _ _
  exact MemWf.of_eq (h.storeStacked (stackAddr s l la) (sealSector s l a k d)) (by rw [dropEntries_mem])

theorem MemWf.writeSector {s : State} (h : MemWf s) (l la a k : Nat) (d : Bytes) : MemWf (writeSector l la a k d s) := by
  unfold Machine.writeSector
  dsimp only
  refine MemWf.storeSector ?_ _ _ _ _ _
  split
  · exact h.of_eq (modLantern_mem _ _ _)
  · exact h

theorem MemWf.writeMeta {s : State} (h : MemWf s) (c : Nat) (m : MetaLine) : MemWf (writeMeta c m s) := by
  unfold Machine.writeMeta
  split
  · exact h
  · exact h.storeCapacity _ _

theorem MemWf.cacheLine {s : State} (h : MemWf s) (c : Nat) (m : MetaLine) : MemWf (cacheLine c m s) := by
  unfold Machine.cacheLine
  dsimp only
  refine MemWf.of_eq (MemWf.foldl (fun s x h => h.writeMeta c x) _ ?_) (modCap_mem _ _ _)
  split
  · exact h.writeMeta c m
  · exact h

theorem MemWf.flushMeta {s : State} (h : MemWf s) (c : Nat) : MemWf (flushMeta c s) :=
  MemWf.of_eq (MemWf.foldl (fun _ x h => h.writeMeta c x) _ h) (modCap_mem _ _ _)

theorem MemWf.loadMeta {s : State} (h : MemWf s) (r : Req) (ue : Ue) (c pa addr : Nat) : MemWf (loadMeta r ue c pa addr s).2.2 := by
  unfold Machine.loadMeta
  dsimp only
  split
  · exact h.cacheLine c _
  · split
    · exact (h.cacheLine c ⟨pa / 1024, List.replicate 4 lostEntry, true⟩).of_eq (by simp)
    · exact h.cacheLine c _

theorem MemWf.sealLine {s : State} (h : MemWf s) (c pa a k n : Nat) (d : Bytes) : MemWf (sealLine c pa a k n d s) := by
  unfold Machine.sealLine
  dsimp only
  refine MemWf.ite ((h.storeCapacity _ _).cacheLine c _) ?_
  exact ((h.storeCapacity _ _).cacheLine c _).of_eq (changeSlot_mem _ _ _)

theorem MemWf.readLine {s : State} (h : MemWf s) (r : Req) (ue : Ue) (c pa addr : Nat) : MemWf (readLine r ue c pa addr s).2 := by
  have hl := h.loadMeta r ue c pa addr
  unfold Machine.readLine
  dsimp only
  split
  · exact hl
  · split
    · exact hl.of_eq (by simp)
    · exact hl.of_eq (by simp)

theorem MemWf.writeLine {s : State} (h : MemWf s) (r : Req) (ue : Ue) (c pa addr : Nat) (d : Bytes) (be : List Bool) :
    MemWf (writeLine r ue c pa addr d be s).2 := by
  have hl := h.loadMeta r ue c pa addr
  have fin : ∀ (t : State) (n : Nat) (p : Bytes) (q : Prop) [Decidable q], MemWf t → MemWf (if q then
      markDue (effectiveKey s (keyOf addr) (.capacity c pa)) 0 (Machine.sealLine c pa (domainOf addr) (effectiveKey s (keyOf addr) (.capacity c pa)) n p t)
      else Machine.sealLine c pa (domainOf addr) (effectiveKey s (keyOf addr) (.capacity c pa)) n p t) := by
    intro t n p q _ ht
    split
    · exact (ht.sealLine _ _ _ _ _ _).of_eq (markDue_mem _ _ _)
    · exact ht.sealLine _ _ _ _ _ _
  unfold Machine.writeLine
  dsimp only
  split
  · exact hl.of_eq (by simp)
  · split
    · exact fin _ _ _ _ hl
    · split
      · exact hl.of_eq (by simp)
      · split
        · exact hl.of_eq (by simp)
        · exact fin _ _ _ _ (hl.of_eq (by simp))

theorem MemWf.readUnit {s : State} (h : MemWf s) (r : Req) (prov : Bool) (ue : Ue) (s0 : State) (addr n : Nat) :
    MemWf (readUnit r prov ue s0 addr n s).2 := by
  unfold Machine.readUnit
  dsimp only
  split
  · exact h.of_eq (by simp)
  · have hc := h.of_eq (countUnit_mem r addr (checkReq s r addr false).pl n s)
    split
    · exact hc.of_eq (by simp)
    · split
      · exact hc.readLine r ue _ _ _
      · split
        · exact hc.readLine r ue _ _ _
        · exact (hc.readLine r ue _ _ _).verdict _ _ ((hc.readLine r ue _ _ _).capTagFault _ _ _)

theorem MemWf.readLoop (r : Req) (prov : Bool) (ue : Ue) (s0 : State) :
    ∀ (fuel addr len : Nat) {s : State}, MemWf s → MemWf (readLoop r prov ue s0 fuel addr len s).2
  | 0, _, _, _, h => h
  | fuel + 1, addr, len, s, h => by
    unfold Machine.readLoop
    dsimp only
    split
    · exact h
    · exact MemWf.readLoop r prov ue s0 fuel _ _ (h.readUnit r prov ue s0 _ _)

/-- A read of memory keeps the canonical form (it may write metadata back). -/
theorem MemWf.memRead {s : State} (h : MemWf s) (r : Req) (ue : Ue) (addr len : Nat) : MemWf (memRead r ue addr len s).2 :=
  MemWf.readLoop r false ue s _ _ _ h

/-- A wick's read of memory keeps the canonical form. -/
theorem MemWf.memReadProv {s : State} (h : MemWf s) (r : Req) (ue : Ue) (addr len : Nat) : MemWf (memReadProv r ue addr len s).2 :=
  MemWf.readLoop r true ue s _ _ _ h

theorem MemWf.writeUnit {s : State} (h : MemWf s) (r : Req) (ue : Ue) (addr : Nat) (d : Bytes) (be : List Bool) :
    MemWf (writeUnit r ue addr d be s).2 := by
  unfold Machine.writeUnit
  dsimp only
  split
  · exact h.of_eq (by simp)
  · have hc := h.of_eq (countUnit_mem r addr (checkReq s r addr true).pl d.length s)
    split
    · split
      · exact hc
      · split
        · exact hc.writeSector _ _ _ _ _
        · split
          · exact hc.of_eq (by simp)
          · exact (hc.of_eq (readSector_mem r ue _ _ _ _ _ _)).writeSector _ _ _ _ _
    · split
      · exact hc
      · exact hc.writeLine r ue _ _ _ _ _

theorem MemWf.writeLoop (r : Req) (ue : Ue) :
    ∀ (fuel addr : Nat) (d : Bytes) (be : List Bool) {s : State}, MemWf s → MemWf (writeLoop r ue fuel addr d be s).2
  | 0, _, _, _, _, h => h
  | fuel + 1, addr, d, be, s, h => by
    unfold Machine.writeLoop
    dsimp only
    split
    · exact h
    · exact MemWf.writeLoop r ue fuel _ _ _ (h.writeUnit r ue _ _ _)

/-- A write keeps the canonical form. -/
theorem MemWf.memWrite {s : State} (h : MemWf s) (r : Req) (ue : Ue) (addr : Nat) (d : Bytes) : MemWf (memWrite r ue addr d s).2 :=
  MemWf.writeLoop r ue _ _ _ _ h

/-- A write with byte enables keeps the canonical form. -/
theorem MemWf.memWriteBe {s : State} (h : MemWf s) (r : Req) (ue : Ue) (addr : Nat) (d : Bytes) (be : List Bool) :
    MemWf (memWriteBe r ue addr d be s).2 := MemWf.writeLoop r ue _ _ _ _ h

/-! ## Boot, sweeps, repair, generators -/

/-- Formatting a capacity port keeps the canonical form. -/
theorem MemWf.formatCap {s : State} (h : MemWf s) (c : Nat) : MemWf (formatCap c s) := by
  unfold Machine.formatCap
  generalize metaAddr 0 + capKey c 0 = a
  generalize headerKey c = b
  exact h.mapCapacity (f := fun t => twrites 0 (tclear t a b) b ([1#8] ++ le 1 c ++ zeros 62)) (fun t ht => (ht.tclear a b).twrites b)

/-- Marking sectors poison keeps the canonical form: a full table writes zeros. -/
theorem MemWf.addPoison {s : State} (h : MemWf s) (l p k : Nat) (m : BitVec 64) : MemWf (addPoison l p k m s) := by
  unfold Machine.addPoison
  dsimp only
  split
  · exact h
  replace h := h.of_eq (dropEntries_mem l (fun e => e.addr / 4096 == domainOfLocal s l (p * 4096) / 4096) s)
  generalize dropEntries l (fun e => e.addr / 4096 == domainOfLocal s l (p * 4096) / 4096) s = s' at h ⊢
  · split
    · exact h.of_eq (modLantern_mem _ _ _)
    · split
      · exact h.of_eq (modLantern_mem _ _ _)
      · refine MemWf.foldl (fun s p h => h.of_eq (recordFault_mem _ s)) _ ?_
        exact (MemWf.foldl (fun s i h => h.storeSector _ _ _ _ _) _ h).of_eq rfl

theorem sweepSectors_mem (r : Rotation) (ue : Ue) (l : Nat) (las : List Nat) (s : State) :
    (sweepSectors r ue l las s).2.mem = s.mem := by
  induction las generalizing s with
  | nil => rfl
  | cons la las ih =>
    have h1 : (sweepSector r ue l la s).2.2.mem = s.mem := by
      unfold sweepSector
      dsimp only
      split
      · rfl
      · split
        · exact newQuarantine_mem _ _ _ _ _ _
        · split <;> rfl
    unfold sweepSectors
    exact (ih _).trans h1

/-- A stacked chunk of a sweep keeps the canonical form. -/
theorem MemWf.sweepStacked {s : State} (h : MemWf s) (r : Rotation) (ue : Ue) (l base : Nat) : MemWf (sweepStacked r ue l base s) := by
  have hs := h.of_eq (sweepSectors_mem r ue l ((List.range 64).map (fun i => base + 64 * i)) s)
  unfold Machine.sweepStacked
  dsimp only
  split
  · refine MemWf.addPoison ?_ _ _ _ _
    split
    · exact hs
    · exact hs.of_eq (modLantern_mem _ _ _)
  · exact MemWf.foldl (fun s x h => h.storeStacked _ _) _ hs

/-- A line of a sweep keeps the canonical form. -/
theorem MemWf.sweepLine {s : State} (h : MemWf s) (r : Rotation) (ue : Ue) (c pa : Nat) : MemWf (sweepLine r ue c pa s) := by
  have hl := h.loadMeta (sweepReq r kindCapacity c) ue c pa (reqAddr r.a (domainOfPort s c pa))
  unfold Machine.sweepLine
  dsimp only
  split
  · exact hl.sealLine _ _ _ _ _ _
  · refine MemWf.of_eq (?_ : MemWf _) (capUeFault_mem _ _ _ _ _ _)
    split
    · exact (hl.sealLine _ _ _ _ _ _).capTagFault _ _ _
    · exact hl.sealLine _ _ _ _ _ _

@[simp] theorem tgenWrite_wf {s : State} (h : MemWf s) (l c k a : Nat) (d : Bytes) : MemWf (tgenWrite l c k a d s) := by
  unfold tgenWrite
  dsimp only
  have hd := MemWf.of_eq (h.storeStacked (stackKey l c a) (if k = 0xFFF then d else
    xtsEncrypt (tgenSecret s l c k a).1.1 (tgenSecret s l c k a).1.2 (tgenSecret s l c k a).2 d)) (dropEntries_mem l (fun e => e.addr == (tgenSecret s l c k a).2 * 64) _)
  exact MemWf.ite (hd.clearPoison _ _) hd

@[simp] theorem tgenMismatch_mem (l c a : Nat) (s : State) : (tgenMismatch l c a s).mem = s.mem := rfl
@[simp] theorem tgenFlagged_mem (l c a : Nat) (s : State) : (tgenFlagged l c a s).mem = s.mem := rfl

/-- A read of a generator leaves memory alone. -/
@[simp] theorem tgenCheck_mem (l c a : Nat) (t : Tgen) (d : Bytes) (s : State) : (tgenCheck l c a t d s).mem = s.mem := by
  unfold tgenCheck
  dsimp only
  split
  · rfl
  · split <;> rfl

/-- A unit of a traffic generator keeps the canonical form. -/
theorem MemWf.tgenUnit {s : State} (h : MemWf s) (l c : Nat) : MemWf (tgenUnit l c s) := by
  unfold Machine.tgenUnit
  dsimp only
  refine MemWf.of_eq (?_ : MemWf _) (modTgen_mem _ _ _ _)
  refine MemWf.ite ?_ (MemWf.foldl (fun s i h => h.of_eq (tgenCheck_mem _ _ _ _ _ _)) _ ?_) <;>
    refine MemWf.ite (MemWf.foldl (fun s i h => tgenWrite_wf h _ _ _ _ _) _ ?_) ?_ <;> exact MemWf.ite (h.of_eq (modLantern_mem _ _ _)) h

@[simp] theorem endQuarantine_mem (l page : Nat) (s : State) : (endQuarantine l page s).mem = s.mem := rfl

/-- A page's remap keeps the canonical form. -/
theorem MemWf.remapPage {s : State} (h : MemWf s) (ue : Ue) (l page : Nat) (rep : Option (RepairEntry × Bytes)) :
    MemWf (remapPage ue l page rep s) := by
  unfold Machine.remapPage
  dsimp only
  split
  · exact h.of_eq (recordFault_mem _ _)
  · rename_i t ht
    have hm : t.mem = s.mem := by
      unfold takeSpare at ht
      split at ht
      · exact nomatch ht
      · exact (Option.some.inj ht) ▸ rfl
    have h1 := h.of_eq hm
    split
    · exact (h1.memWrite _ _ _ _).of_eq (endQuarantine_mem _ _ _)
    · refine MemWf.of_eq (MemWf.addPoison (MemWf.foldl (fun s x h => h.storeStacked _ _) _ h1) _ _ _ _) (endQuarantine_mem _ _ _)

/-- Memory after reset is canonical: it lists nothing. -/
theorem reset_memWf : MemWf State.reset := ⟨TabWf.nil 0, TabWf.nil 0⟩

end Sys2Proof.Machine
end

