-- ==== Sys2Proof/Tests/Slice0.lean ====
section
/-! SUPPORT. Tests: ill-formed commands that the checks refuse, small steps, and for every statement concrete states and operands that
meet what it asks. -/
namespace Sys2Proof.Tests

open Sys2Proof Sys2Proof.Machine Sys2Proof.Safety

set_option Elab.async false

/-- A request by mailbox, slot 0. -/
abbrev from_ (mb : Nat) : MbReq := ⟨mb, 0, {}⟩

/-- A request waits in slot 0 of a mailbox. -/
def ask (mb op : Nat) (payload : Bytes) (s : State) : State :=
  modBox mb (fun b => { b with major := 1, minor := 3
                               slots := [(0, { state := .pending, request := fit 256 ([1#8, if op ≤ 2 then 0#8 else 3#8] ++ le 2 op ++ le 2 7 ++ le 2 payload.length ++ zeros 8 ++ payload) })] }) s

/-- Whether a running block meets a condition. -/
def meets (cond : State → Bool) (s : State) : Bool := running s && cond s

/-- A block that runs, in Mission, paired. -/
def up : State :=
  { State.reset with
    build := { lanterns := 2, wicks := 16, spares := 0, links := 2, caps := 2, parts := 4 }
    trust := { pwrOk := true, isolated := false, shadow := [1, 1, 1], dawn := true }
    ll := { stage := 0x1F, ready := true, drbgRunning := true, paired := true, protoMax := 3, image := 1 }
    seam := { paired := true }
    time := { now := 1000000000, east := 1000000000 }
    path := { lanterns := [(0, { ready := true }), (1, { ready := true })] }
    boxes := { homeGib := 1 } }

/-- A definition of a partition: key IDs, context tags, counts, its carve-outs in units of 2 MiB. -/
def defn (key ctx : Nat) (il home cap : Nat × Nat) : Bytes :=
  fit 240 ([1#8, 0#8, 0#8, 0#8, 4#8, 2#8, 2#8, 2#8] ++ le 2 key ++ le 2 8 ++ le 2 ctx ++ le 2 8 ++ le 2 16 ++ le 2 16 ++ le 2 16 ++ le 2 16 ++ le 2 4 ++
    le 2 100 ++ le 2 100 ++ le 2 100 ++ le 4 il.1 ++ le 4 il.2 ++ le 4 home.1 ++ le 4 home.2 ++ le 4 cap.1 ++ le 4 cap.2 ++ zeros 8 ++
    [4#8, 4#8] ++ zeros 14 ++ [1#8, 1#8])

/-- The manager's carve-out and partition 0 are there. -/
def parted : State :=
  setPart 0 { state := .active, definition := defn 16 16 (16, 16) (16, 16) (16, 1) }
    (setPart 16 { state := .active, definition := defn 1 0 (0, 16) (0, 16) (0, 1) } up)

/-- Memory key IDs 1 of the manager and 16 of partition 0 stand in both halves. -/
def keyed : State :=
  let k : KeySlot := { key := zeros 64, cls := .memory, state := .active, owner := 16, engines := 0xFF }
  setMirror 1 { key := zeros 64, held := true } (setMirror 16 { key := zeros 64, held := true } (setSlot 1 k (setSlot 16 { k with owner := 0 } parted)))

/-- Object 0 of partition 0 and object 1 of the manager, 2 MiB each in the interleaved window; fences 0 and 1 of partition 0 at 5,
one on the host, one in object 0; fence 2 of the manager in object 1. -/
def stocked : State :=
  setFence 0 { state := .active, owner := 0, value := 5, host := true, word := 0x1000, hostQ := 0, ctx := 16 }
    (setFence 2 { state := .active, owner := 16, value := 5, word := 0x40, obj := 1, ctx := 0 } (setFence 1 { state := .active, owner := 0, value := 5, word := 0x2000040, obj := 0, ctx := 16 }
      (setObj 0 { state := .live, owner := 0, key := 16, ctx := 16, length := 0x200000, base := 0x2000000 }
        (setObj 1 { state := .live, owner := 16, key := 1, ctx := 0, length := 0x200000, base := 0 } keyed))))

/-- A request address under partition 0's key ID. -/
def at0 (a : Nat) : Bytes := le 8 (reqAddr 16 a)

/-- The same under the manager's. -/
def at16 (a : Nat) : Bytes := le 8 (reqAddr 1 a)

/-- A request address under the key ID that encrypts nothing, for the manager. -/
def bare (a : Nat) : Nat := reqAddr 0xFFF a

/-- The manager's bytes at an address, in the clear. -/
def holding (a : Nat) (d : Bytes) (s : State) : State := (memWrite { part := 16 } {} (bare a) d s).2

/-- A program with nothing but END, its argument block behind it. -/
def endProgram (argc : Nat) : Bytes := fit 256 (fit 64 ([1#8, 0#8] ++ le 2 1 ++ [BitVec.ofNat 8 argc]) ++ [1#8, 1#8])

/-- Object 2 of partition 0 lies in the home windows of both lanterns, 4 MiB in each; pool 0 in it, of 4 frames. -/
def pooled : State :=
  setPool 0 { live := true, part := 0, layers := 1, heads := 1, mask := 3, maxTokens := 128, seqSlots := 2, key := 16, frames := 4, obj := 2, base := 0x2000000 }
    (setObj 2 { state := .live, owner := 0, placement := 1, mask := 3, key := 16, ctx := 16, length := 0x400000, base := 0x2000000, bindings := 1 } stocked)

/-- The block with the halves not paired. -/
def apart (s : State) : State := onSeam (fun x => { x with paired := false }) s

/-- An image reference of R342 to the manager's bytes. -/
def imageRef (a : Nat) (d : Bytes) : Bytes := le 8 (bare a) ++ le 4 d.length ++ zeros 4 ++ sha384 d

/-! ## Wicks -/

/-- A descriptor with nothing but END. -/
def endDescriptor : Bytes := [1#8, 1#8] ++ zeros 30

/-- Task 1 of the manager in some lanterns, `n` wicks in each: the first stands before descriptor `d`, the others wait as given. -/
def taskOf (ls : List Nat) (n : Nat) (d : Bytes) (others : WickWait) : Task :=
  let args : List Word64 := [0xFFF000000010000#64, 0xFFF000000020000#64, 0x10FFF#64, 0#64]
  { live := true, purpose := .command 0 0, part := 16, program := [d, endDescriptor], lanterns := ls, w := n, sheetUnits := [64, 64, 0, 0, 0, 0, 0, 0], args := args
    wicks := ls.flatMap (fun l => (List.range n).map (fun r =>
      (wickKey l r, { phys := r, started := true, args := args, waiting := if l + r = 0 then .none else others }))) }

/-- A block with that task. -/
def before (ls : List Nat) (n : Nat) (d : Bytes) (others : WickWait) (s : State) : State := setTask 1 (taskOf ls n d others) s

/-- One wick before a descriptor. -/
def alone (d : Bytes) : State := before [0] 1 d .none stocked

/-- The first wick of task 1. -/
abbrev firstWick : WickRef := ⟨1, 0, 0⟩

/-- What wickTakes asks. -/
def takesWit (ue : Ue) (mine : Bytes → Bool) (cond : Wk → Bytes → State → Bool) (effect : Wk → Bytes → State → State) (s : State) (d : Bytes) : Bool :=
  let w := wkOf firstWick ue
  standsBefore s w mine d && takesUp s w d && cond w d s && noMeeting (effect w d s) w

/-- What wickSkips asks. -/
def skipsWit (ue : Ue) (mine : Bytes → Bool) (s : State) (d : Bytes) : Bool :=
  let w := wkOf firstWick ue
  standsBefore s w mine d && skipped (wickOf s w) d && noMeeting (endDesc w s s) w

/-- What wicksShare asks: of a wick that comes early, and of the last one. -/
def shareWit (ue : Ue) (mine : Bytes → Bool) (set : Bool) (cond : List Wk → Wk → Bytes → State → Bool) (act : List Wk → Wk → Bytes → State → State)
    (d : Bytes) (s1 s2 : State) (ws : List Wk) : Bool :=
  let w := wkOf firstWick ue
  let t := waitsAt w (ownPlace s2 w) s2
  takesWit ue mine (fun _ _ _ => true) (fun w _ s => waitsAt w (ownPlace s w) s) s1 d &&
    standsBefore s2 w mine d && takesUp s2 w d && (!set || (gathered t w.t w.ue false [w.l]).isNone) &&
    gathered t w.t w.ue set (scopeOf t w set) == some (ws, (wickOf s2 w).pc) && cond ws w d t &&
    (set || (gathered (allGoOn ws t (act ws w d t)) w.t w.ue true (taskAt (allGoOn ws t (act ws w d t)) w.t).lanterns).isNone)

/-- What wicksMeet asks, of both. -/
def meetWit (ue : Ue) (mine : Bytes → Bool) (set : Bytes → Bool) (place : State → Wk → Bytes → WickWait) (cond : Wk → Bytes → State → State → Bool)
    (act : Wk → Bytes → State → State) (d : Bytes) (s1 s2 : State) : Bool :=
  takesWit ue mine (fun w d s => !mismatch (taskAt s w.t) w.l (place s w d) (set d) &&
      !allAt (waitsAt w (place s w d) s) (wicksIn s w.t w.ue (scopeOf s w (set d))) (place s w d))
    (fun w d s => waitsAt w (place s w d) s) s1 d &&
  takesWit ue mine (fun w d s => !mismatch (taskAt s w.t) w.l (place s w d) (set d) &&
      allAt (waitsAt w (place s w d) s) (wicksIn s w.t w.ue (scopeOf s w (set d))) (place s w d) && cond w d s (waitsAt w (place s w d) s))
    (fun w d s => allGoOn (wicksIn s w.t w.ue (scopeOf s w (set d))) s (act w d (waitsAt w (place s w d) s))) s2 d

/-- What wickPoisoned asks. -/
def poisonWit (ue : Ue) (mine : Bytes → Bool) (s : State) (d : Bytes) : Bool :=
  let w := wkOf firstWick ue
  standsBefore s w mine d && !skipped (wickOf s w) d && readsPoison s w d

/-- What wicksGive asks: the round of the last wick to come sends, and waits. -/
def giveWit (ue : Ue) (mine : Bytes → Bool) (cond : State → Wk → Bytes → Bool) (rounds : Wk → Bytes → State → WOut Unit) (d : Bytes) (s : State) : Bool :=
  let w := wkOf firstWick ue
  let t := waitsAt w (ownPlace s w) s
  standsBefore s w mine d && takesUp s w d && !mismatch (taskAt s w.t) w.l (ownPlace s w) true &&
    allAt t (wicksIn s w.t w.ue (scopeOf s w true)) (ownPlace s w) && cond s w d &&
    (match rounds w d t with
      | .stays _ => true
      | _ => false)

/-- Operand references: sheet `n`, argument `n`, ACT. -/
def inSheet (n off : Nat) : Bytes := le 4 (n * 2 ^ 27 + 3 * 2 ^ 24 + off)
def inMemory (n off : Nat) : Bytes := le 4 (n * 2 ^ 27 + 2 ^ 24 + off)

/-- A descriptor: operation, FLAGS, PRED, operands, and what follows them. -/
def desc (op flags pred : Byte) (rest : Bytes) : Bytes := fit 32 ([1#8, op, flags, pred] ++ rest)

/-- A vector descriptor of `n` elements. -/
def vec (op flags : Byte) (dd a b : Bytes) (n : Nat) (types sub : Byte) (imm aux : Nat) : Bytes :=
  desc op flags 0 (dd ++ a ++ b ++ le 4 n ++ [types, sub, 0#8, 0#8] ++ le 4 imm ++ le 4 aux)

/-- An operand in ACT. -/
def inAct : Bytes := le 4 (4 * 2 ^ 24)

/-- A wick whose first word of ACT is poison stands before a descriptor. -/
def tainted (d : Bytes) : State :=
  modTask 1 (fun x => { x with wicks := x.wicks.map (fun k => (k.1, { k.2 with poison := [(4, 0)] })) }) (alone d)

/-- What the lanterns of task 1 give each other in a round has landed. -/
def sharesIn (round : Nat) (s : State) : State := modTask 1 (fun x => { x with shared := round }) s

/-- A descriptor that predication skips: mask 0 is not clear. -/
def skip (op : Byte) (rest : Bytes) : Bytes := desc op 0 0xC0 rest

/-! ## Well-formedness -/

/-- A message with sixteen payload words, and one with more corrected words than it has. -/
def longMsg : SeamMsg := ⟨true, 0, List.replicate 16 0, 0, false⟩
def overCorrected : SeamMsg := ⟨true, 0, [], 2, false⟩
/-- A frame with a short header, one with a long payload, one with a short tag. -/
def shortHeader : Frame := ⟨List.replicate 31 0, [], List.replicate 16 0⟩
def longPayload : Frame := ⟨List.replicate 32 0, List.replicate 4097 0, List.replicate 16 0⟩
def shortTag : Frame := ⟨List.replicate 32 0, [], List.replicate 15 0⟩
def oddAccess : RegAccess := ⟨16, true, 0x404, true, 0⟩

/-- Every check of form refuses a command that breaks it. -/
theorem test_form_units :
    Instr.wellFormed (.lanternSnuff 16 [] {}) = false ∧ Instr.wellFormed (.lanternSnuff 0 [200] {}) = false ∧
    Instr.wellFormed (.waitDeadline { stacked := [63] }) = false ∧ Instr.wellFormed (.waitDeadline { capacity := [2 ^ 41] }) = false ∧
    Instr.wellFormed (.linkPortSnuff 24) = false ∧ Instr.wellFormed (.snuffDrainTimeout (.linkPort 24)) = false ∧
    Instr.wellFormed (.snuffDrainTimeout (.lantern 16)) = false ∧ Instr.wellFormed (.unitHung (.lantern 16)) = false ∧
    Instr.wellFormed (.wickSelfTest 0 200 true) = false ∧ Instr.wellFormed (.keySlotScrub [1048]) = false ∧
    Instr.wellFormed (.sramScrub (2 ^ 32) false) = false ∧ Instr.wellFormed (.endOp ⟨0, 16, 0⟩) = false ∧
    Instr.wellFormed (.endOp ⟨0, 0, 192⟩) = false ∧ Instr.wellFormed (.curfewStop (.capacity 8)) = false ∧
    Instr.wellFormed (.curfewStop (.link 2)) = false ∧ Instr.wellFormed (.sweepChunkStart 8 (.lantern 0)) = false ∧
    Instr.wellFormed (.sweepChunkStart 0 (.capacity 8)) = false ∧ Instr.wellFormed (.channelTraining (.lantern 0) 64 true) = false := by decide

theorem test_form_messages :
    Instr.wellFormed (.seamCredit longMsg) = false ∧ Instr.wellFormed (.seamCredit overCorrected) = false ∧
    Instr.wellFormed (.efpAck 24 ⟨List.replicate 32 0, [], List.replicate 16 0⟩) = false ∧ Instr.wellFormed (.efpAck 0 shortHeader) = false ∧
    Instr.wellFormed (.efpAck 0 shortTag) = false ∧ Instr.wellFormed (.efpBulk 0 shortHeader) = false ∧
    Instr.wellFormed (.exchangeRecord ⟨32, 0, 0, 1, [], List.replicate 16 0⟩) = false ∧
    Instr.wellFormed (.exchangeRecord ⟨0, 0, 0, 1, [], []⟩) = false ∧ Instr.wellFormed (.transitCrossing true 0 (2 ^ 64) ⟨[], {}⟩ (List.replicate 16 0)) = false ∧
    Instr.wellFormed (.dispatchRecord ⟨2 ^ 64, [], List.replicate 16 0⟩) = false ∧
    Instr.wellFormed (.dispatchRecord ⟨0, [], []⟩) = false ∧ Instr.wellFormed (.completionReport ⟨0, [], []⟩ {}) = false := by decide

theorem test_form_long_payload : Instr.wellFormed (.efpAck 0 longPayload) = false := by decide +kernel

theorem test_form_ports :
    Instr.wellFormed (.requestPortRead ⟨17, 0, 0, 0, 0⟩) = false ∧ Instr.wellFormed (.requestPortRead ⟨0, 0, 128, 0, 0⟩) = false ∧
    Instr.wellFormed (.requestPortRead ⟨0, 0, 0, 4096, 0⟩) = false ∧ Instr.wellFormed (.requestPortRead ⟨0, 0, 0, 0, 32⟩) = false ∧
    Instr.wellFormed (.requestPortWrite ⟨0, 0, 0, 0, 0⟩ [0] [] {}) = false ∧ Instr.wellFormed (.registerWrite oddAccess) = false ∧
    Instr.wellFormed (.registerRead ⟨32, true, 0, true, 0⟩) = false ∧ Instr.wellFormed (.registerRead ⟨0, true, 2 ^ 26, true, 0⟩) = false ∧
    Instr.wellFormed (.getVersion ⟨18, 0, {}⟩) = false ∧ Instr.wellFormed (.getVersion ⟨0, 4, {}⟩) = false ∧
    Instr.wellFormed (.sensorRead ⟨0, 0, {}⟩ [32768]) = false ∧ Instr.wellFormed (.windowAdjust (.lantern 0) [16] false) = false ∧
    Instr.wellFormed (.keyProg ⟨32, 0, 0, 0, 0⟩ (List.replicate 32 0) (List.replicate 8 0)) = false ∧
    Instr.wellFormed (.keyProg ⟨0, 0, 0, 0, 0⟩ [] (List.replicate 8 0)) = false ∧ Instr.wellFormed (.startInterfaceRequest 0 []) = false ∧
    Instr.wellFormed (.i3cCcc (.entdaa 128)) = false ∧ Instr.wellFormed (.mctpMessage ⟨true, 0, 256, 0, []⟩) = false ∧
    Instr.wellFormed (.jtagInstruction 2 0) = false := by decide

/-- No word spells a command: the table gives its rows no bits. -/
theorem test_no_word (n w : Nat) : decodeTableWord n w = none := rfl

/-! ## Small steps -/

/-- A block right after reset is without power, and one nanosecond leaves it so. -/
theorem test_tick : (match step State.reset with
    | .next t => t.trust.pwrOk == false && t.pending == []
    | _ => false) = true := by decide

/-- A command without power changes nothing (R490). -/
theorem test_no_power : (match exec (.getVersion ⟨0, 0, {}⟩) State.reset with
    | .next t => t == State.reset
    | _ => false) = true := by decide

/-- The payload of a POOL_CREATE. -/
def poolReq : Bytes := fit 64 ([1#8, 0#8] ++ le 2 1 ++ [1#8, 0#8] ++ le 2 3 ++ le 4 128 ++ le 2 2 ++ le 2 16 ++ le 4 4 ++ le 4 0x10002 ++ le 8 0)

/-- A queue of partition 0, STOPPED. -/
def queued (st : QueueState) : State := setQueue 5 { state := st, part := 0, q := 63, head := 3, tail := 7 } stocked

/-- States and operands that meet what Obligations.VersionAndSettingRequestsComplete asks, clause by clause. -/
theorem met_VersionAndSettingRequestsComplete :
  (metBy 0x0001 0 (fun _ _ => true) (from_ 0) (ask 0 0x0001 ([]) (parted))) = true ∧
  (metBy 0x0002 0 (fun c s => arg c.req 0 1 == 1 && decide (arg c.req 1 1 ≤ s.ll.protoMax) && (pendingSlots s c.mb).all (fun e => e.1 == c.slot)) (from_ 16) (ask 16 0x0002 ([1#8, 3#8] ++ zeros 6) (up))) = true ∧
  (metBy 0x0010 0 (fun c s => settingKnown s (arg c.req 0 2) (arg c.req 2 2)) (from_ 16) (ask 16 0x0010 (le 2 0x20 ++ zeros 6) (up))) = true ∧
  (metBy 0x0011 0 (fun c s => settingKnown s (arg c.req 0 2) (arg c.req 2 2) && settingOpen s (arg c.req 0 2) (arg c.req 2 2) &&
      decide ((settingRange (arg c.req 0 2)).1 ≤ arg c.req 8 8 ∧ arg c.req 8 8 ≤ (settingRange (arg c.req 0 2)).2)) (from_ 16) (ask 16 0x0011 (le 2 1 ++ zeros 6 ++ le 8 48) (up))) = true := by decide +kernel

/-- States and operands that meet what Obligations.PartitionRequestsComplete asks, clause by clause. -/
theorem met_PartitionRequestsComplete :
  (metBy 0x0100 0 (fun c s => createOk c s && decide (arg c.req 1 1 < 16)) (from_ 16) (ask 16 0x0100 (put (put (defn 24 24 (32, 16) (32, 16) (32, 0)) 0 [1#8]) 1 [3#8]) (parted))) = true ∧
  (metBy 0x0100 0 (fun c s => createOk c s && arg c.req 1 1 == 0xFE) (from_ 16) (ask 16 0x0100 (put (defn 1 0 (0, 16) (0, 16) (0, 0)) 1 [0xFE#8]) (up))) = true ∧
  (metBy 0x0101 0 (fun c s => decide (arg c.req 0 1 ≤ 15) && partExists s (arg c.req 0 1) && partOpen s (arg c.req 0 1) && partSettled s (arg c.req 0 1)) (from_ 16) (ask 16 0x0101 (zeros 8) (parted))) = true ∧
  (metBy 0x0102 0 (fun c s => (if c.mb < 16 then arg c.req 0 1 == 0xFF else decide (arg c.req 0 1 ≤ 15)) &&
      partExists s (if c.mb < 16 then c.mb else arg c.req 0 1) && partSettled s (if c.mb < 16 then c.mb else arg c.req 0 1)) (from_ 0) (ask 0 0x0102 ([0xFF#8] ++ zeros 7) (parted))) = true ∧
  (let k : Nat := 0; metBy 0x0103 0 (fun c s => arg c.req 0 1 == 1 && bindOk s (arg c.req 1 1) (arg c.req 4 4 % 2 ^ 20) (arg c.req 8 8) && partOpen s (arg c.req 1 1) &&
      decide ((entriesOf s (arg c.req 1 1)).length < pdef s (arg c.req 1 1) 24 2) && (maskQueues s (arg c.req 1 1) (arg c.req 8 8)).all queueEmpty &&
      tfind {} s.parts.pasids 1024 (fun e => !e.bound) == some k) (from_ 16) (ask 16 0x0103 ([1#8, 0#8, 0#8, 0#8] ++ le 4 0x12345 ++ zeros 8) (parted))) = true ∧
  (metBy 0x0104 0 (fun c s => decide (arg c.req 0 2 < 1024) && (pasidAt s (arg c.req 0 2)).bound && partOpen s (pasidAt s (arg c.req 0 2)).part &&
      (maskQueues s (pasidAt s (arg c.req 0 2)).part (pasidAt s (arg c.req 0 2)).mask.toNat).all queueEmpty) (from_ 16) (ask 16 0x0104 (le 2 1023 ++ zeros 6) (setPasid 1023 { bound := true, part := 0, pasid := 5 } parted))) = true ∧
  (metBy 0x0105 0 (fun c s => mayQuery s c.mb (arg c.req 0 2)) (from_ 0) (ask 0 0x0105 (le 2 16 ++ [1#8] ++ zeros 5) (parted))) = true := by decide +kernel

/-- States and operands that meet what Obligations.ObjectAndFenceRequestsComplete asks, clause by clause. -/
theorem met_ObjectAndFenceRequestsComplete :
  (let base : Nat := 0x2000000; let k : Nat := 0; metBy 0x0110 0 (fun c s => arg c.req 0 1 == 1 && objFieldsOk s c.mb c.req && decide (objsHeld s c.mb < pdef s c.mb 16 2) && objPlace s c.mb c.req == some base &&
      freeObjSlot s == some k && !fillWaits s c.req base && (fillObject c.ue c.mb c.req base s).1 == stOk) (from_ 0) (ask 0 0x0110 ([1#8, 0#8, 0#8, 0#8] ++ le 2 0 ++ le 2 16 ++ le 2 16 ++ zeros 6 ++ le 8 0x200000 ++ zeros 8) (setObj 0 {} (setObj 1 {} stocked)))) = true ∧
  (let k : Nat := 0; metBy 0x0111 0 (fun c s => gives (objHandle s c.mb (arg c.req 0 4)) k && (objAt s k).bindings == 0) (from_ 0) (ask 0 0x0111 (le 4 0x10000 ++ zeros 4) (stocked))) = true ∧
  (let k : Nat := 3; let o : Option Nat := some 0; metBy 0x0118 0 (fun c s => arg c.req 8 8 % 8 == 0 && ctxOk s c.mb (arg c.req 20 2) && decide (arg c.req 0 8 < 2 ^ 63) && gives (wordPlace s c.mb c.req) o &&
      decide (fencesHeld s c.mb < pdef s c.mb 18 2) && tfind {} s.parts.fences 2048 (fun f => f.state == .free) == some k && wordsOpen s &&
      !(o.isSome && rangeWaits s true (arg c.req 8 8) 8)) (from_ 0) (ask 0 0x0118 (le 8 (2 ^ 63 - 1) ++ at0 0x2000080 ++ le 4 0x10000 ++ le 2 16 ++ [0xFF#8, 0#8] ++ zeros 8) (stocked))) = true ∧
  (let k : Nat := 1; metBy 0x0119 0 (fun c s => gives (fenceHandle s c.mb (arg c.req 0 4)) k && !wordWaits s k) (from_ 0) (ask 0 0x0119 (le 4 0x10001 ++ zeros 4) (stocked))) = true ∧
  (let k : Nat := 1; metBy 0x011A 0 (fun c s => gives (fenceHandle s c.mb (arg c.req 0 4)) k && decide (arg c.req 8 8 < 2 ^ 63)) (from_ 0) (ask 0 0x011A (le 4 0x10001 ++ zeros 4 ++ le 8 (2 ^ 63 - 1)) (stocked))) = true ∧
  (let k : Nat := 0; metBy 0x011B 0 (fun c s => gives (fenceHandle s c.mb (arg c.req 0 4)) k) (from_ 0) (ask 0 0x011B (le 4 0x10000 ++ zeros 4) (stocked))) = true ∧
  (let k : Nat := 0; metBy 0x011C 0 (fun c s => gives (fenceHandle s c.mb (arg c.req 0 4)) k && decide (arg c.req 8 8 < 2 ^ 63) &&
      decide (arg c.req 16 8 ≠ 0 ∧ arg c.req 16 8 ≤ now s + 10000000000) && (fenceAt s k).state == .active && !(fenceAt s k).value.msb &&
      decide (arg c.req 8 8 ≤ (fenceAt s k).value.toNat)) (from_ 0) (ask 0 0x011C (le 4 0x10000 ++ zeros 4 ++ le 8 5 ++ le 8 11000000000) (stocked))) = true ∧
  (let k : Nat := 0; metBy 0x011C 0 (fun c s => gives (fenceHandle s c.mb (arg c.req 0 4)) k && decide (arg c.req 8 8 < 2 ^ 63) &&
      decide (arg c.req 16 8 ≠ 0 ∧ arg c.req 16 8 ≤ now s + 10000000000) && (fenceAt s k).state == .active && !(fenceAt s k).value.msb &&
      decide ((fenceAt s k).value.toNat < arg c.req 8 8)) (from_ 0) (ask 0 0x011C (le 4 0x10000 ++ zeros 4 ++ le 8 6 ++ le 8 11000000000) (stocked))) = true := by decide +kernel

/-- States and operands that meet what Obligations.QueueAndPilotRequestsComplete asks, clause by clause. -/
theorem met_QueueAndPilotRequestsComplete :
  (let k : Nat := 0; let o : Option Nat := some 0; metBy 0x0120 0 (fun c s => arg c.req 0 1 == 1 && queueFieldsOk c.req && (queueNamed s c.mb (arg c.req 1 1)).isNone && gives (queueRingObj s c.mb c.req) o &&
      decide (queuesHeld s c.mb < pdef s c.mb 4 1) &&
      (arg c.req 2 1 != 1 || (decide (rtQueues s (fun q => q.part == c.mb) < pdef s c.mb 5 1) && decide (rtQueues s (fun _ => true) < 16))) &&
      tfind {} s.fe.queues 256 (fun q => q.state == .absent) == some k) (from_ 0) (ask 0 0x0120 (fit 64 ([1#8, 63#8, 1#8, 6#8, 1#8] ++ zeros 3 ++ at0 0x2000000 ++ le 4 0x10000)) (stocked))) = true ∧
  (let k : Nat := 5; metBy 0x0121 0 (fun c s => queueNamed s c.mb (arg c.req 0 1) == some k && (queueAt s k).state != .destroying) (from_ 0) (ask 0 0x0121 ([63#8, 1#8] ++ zeros 6) (queued .stopped))) = true ∧
  (let k : Nat := 5; metBy 0x0122 0 (fun c s => queueNamed s c.mb (arg c.req 0 1) == some k && (queueAt s k).state == .stopped && queueDrained (queueAt s k)) (from_ 0) (ask 0 0x0122 ([63#8] ++ zeros 7) (queued .stopped))) = true ∧
  (let pi : Nat := 0; let ring : Nat := 1; let objs : List Nat := []; metBy 0x0128 0 (fun c s =>
      let a := pilotAsk c.owner pi c.req
      let f := fetchProgram c.ue a s
      gives (pilotRingObj s c.owner c.req) ring && decide ((pilotsOf s c.owner).length < pdef s c.owner 6 1) &&
        tfind {} s.fe.pilots 64 (fun x => x.state == .absent) == some pi && !rangeWaits s false a.prog 64 && !rangeWaits s false a.argsAddr 368 &&
        setOk s c.owner a.mask a.w && gives (resolveObjs f.2 c.owner f.1.objs) objs && taskStatus f.2 a f.1 == stOk &&
        resourcesFree f.2 a (sheetUnits f.1.header).sum [] &&
        !(progTables f.2 (progOf a f.1 (maskLanterns f.2 a.mask).length)).any (fun k => tableLoading f.2 k.1 k.2)) (from_ 16) (ask 16 0x0128 (fit 64 ([63#8, 1#8] ++ le 2 1 ++ le 2 0 ++ [4#8, 0#8] ++ le 8 (bare 0x100) ++ le 8 (bare 0x180) ++ le 4 0x10002 ++ le 4 0x10001 ++ le 8 (2 ^ 63 - 1) ++ at16 0x1000)) (holding 0x100 (endProgram 8) stocked))) = true ∧
  (let pi : Nat := 3; metBy 0x0129 0 (fun c s => pilotNamed s c.mb (arg c.req 0 1) == some pi && (pilotAt s pi).state != .stopping) (from_ 0) (ask 0 0x0129 ([63#8] ++ zeros 7) (setPilot 3 { state := .running, n := 63 } stocked))) = true := by decide +kernel

/-- States and operands that meet what Obligations.PoolAndSequenceRequestsComplete asks, clause by clause. -/
theorem met_PoolAndSequenceRequestsComplete :
  (let pool : Pool := poolOf 0 2 0x2000000 (zeros 16 ++ poolReq); let k : Nat := 1; metBy 0x0130 0 (fun c s => arg c.req 0 1 == 1 && gives (poolAsked s c.mb c.req) pool &&
      decide ((s.kv.pools.filter (fun e => e.2.live && e.2.part == c.mb)).length < min 4 (pdef s c.mb 7 1)) &&
      tfind {} s.kv.pools 64 (fun x => !x.live) == some k && !(poolLanterns s pool).any (fun l => rangeWaits s true (poolAddr s pool l 0) 64)) (from_ 0) (ask 0 0x0130 (poolReq) (pooled))) = true ∧
  (metBy 0x0131 0 (fun c s => poolHere s c.mb (arg c.req 0 1)) (from_ 0) (ask 0 0x0131 (zeros 8) (pooled))) = true ∧
  (let s := ask 0 0x0132 (zeros 4 ++ le 4 64) pooled; let s1 := begun (from_ 0) s; let q := modSeq 0 (fun q => { live := true, gen := q.gen, c := 64 }) s1; admitted s 0x0132 0 (from_ 0) && poolHere s1 0 0 && decide (64 ≤ (poolAt s1 0).maxTokens - 64 ∧ seqsHeld s1 0 < pdef s1 0 20 2) && tfind {} s1.kv.seqs 4096 (fun q => !q.live) == some 0 && freePoolSlot s1 0 == some 0 && !framesWait q 0 64 && (allotFrames {} 0 (List.range 1) q).isSome) = true ∧
  (let k : Nat := 4095; metBy 0x0133 0 (fun c s => gives (seqHandleStatus s c.mb (arg c.req 0 4)) k && (seqAt s k).state != .revoked) (from_ 0) (ask 0 0x0133 (le 4 0x10FFF) (setSeq 4095 { live := true } pooled))) = true ∧
  (let k : Nat := 4095; metBy 0x0134 0 (fun c s => gives (seqHandleStatus s c.mb (arg c.req 0 4)) k) (from_ 0) (ask 0 0x0134 (le 4 0x10FFF) (setSeq 4095 { live := true } pooled))) = true := by decide +kernel

/-- A wrapped MODEL key of zeros, sealed to the device whose import key is 1. -/
def envelope : Bytes := be 224 0x0102000000000000010000000000000000000000000000000000000000000000000000000000000000000000000000000000000000000000000000000000000000000000000000000000000000000000aa87ca22be8b05378eb1c71ef320ad746e1d3b628ba79b9859f741e082542a385502f25dbf55296c3a545e3872760ab73617de4a96262c6f5d9e98bf9292dc29f8f41dbd289a147ce9da3113b5f0b8c00a60b1ce1d7e819d7a431d7c90ea0e5f347f2d6d8b812c83845e5dcff16f90092b2d7c79d43dd6f985a0d1e120bf36ec8cb2e4323d83b3b5c19bb62437576d29

/-- The device remembers the report the envelope names. -/
def reported : State := onLl (fun l => { l with importPriv := 1, digests := [⟨zeros 48, 1000000000⟩] }) keyed

/-- Partition 0 is admitted to the manager's key ID 1. -/
def shared_ : State := onKeys (fun k => { k with grants := [⟨1, 0, true, false⟩] }) keyed

/-- Key ID 17 stands beside 16. -/
def twoKeys : State := setSlot 17 { key := zeros 64, cls := .memory, state := .active, owner := 0, engines := 0xFF } keyed

/-- A trust list of one entry. -/
def trustList : Bytes := [1#8, 1#8] ++ zeros 62

/-- A MEMORY window of partition 0 that is OWNED, in object 0, over region-owner entry 65535. -/
def windowEntry : Bytes := [1#8, 1#8, 0x20#8, 0#8, 0xFF#8, 0#8] ++ le 2 16 ++ le 8 0x2000000 ++ le 8 0x200000 ++ le 4 65535 ++ zeros 4

/-- Window 255 holds it. -/
def windowed : State := setWindow 255 { entry := windowEntry, obj := 0 } stocked

/-- A group table that names no group. -/
def groupTable : Bytes := 1#8 :: zeros 8255

/-- A placement table of one expert in one layer. -/
def placementImage : Bytes := fit 64 ([1#8, 0#8] ++ le 2 1 ++ le 2 1) ++ fit 16 [1#8]

/-- Codebooks 254 and 255 of the manager are loaded. -/
def tabled : State := setCodebook 254 { loaded := true, owner := 16 } (setCodebook 255 { loaded := true, owner := 16, grants := [0] } stocked)

/-- Object 3 of the manager, in the home windows; group 15 of the manager. -/
def grouped : State :=
  setGroup 15 { live := true, owner := 16 } (setObj 3 { state := .live, owner := 16, placement := 1, mask := 3, key := 1, length := 0x200000 } stocked)

/-- Pilot 2 of the manager runs a task with a sheet; server 15 is live. -/
def serving : State :=
  setServer 15 { live := true, part := 16 } (setTask 1 { live := true, sheetUnits := [1] } (setPilot 2 { state := .running, part := 16, n := 63, task := 1 } stocked))

/-- States and operands that meet what Obligations.KeyRequestsComplete asks, clause by clause. -/
theorem met_KeyRequestsComplete :
  (metBy 0x0200 0 (fun c s => (fun c s => lcPermits s && arg c.req 2 1 == 2 && inPool s c.mb (arg c.req 0 2) && (slotAt s (arg c.req 0 2)).state == .empty && s.ll.drbgRunning) c s && (newMemorySlot c s).seam.paired) (from_ 0) (ask 0 0x0200 (le 2 23 ++ [2#8, 63#8, 1#8, 0#8, 0#8, 0#8] ++ zeros 8) (keyed)) &&
    metBy 0x0200 0 (fun c s => (fun c s => lcPermits s && arg c.req 2 1 == 2 && inPool s c.mb (arg c.req 0 2) && (slotAt s (arg c.req 0 2)).state == .empty && s.ll.drbgRunning) c s && !(newMemorySlot c s).seam.paired) (from_ 0) (ask 0 0x0200 (le 2 23 ++ [2#8, 63#8, 1#8, 0#8, 0#8, 0#8] ++ zeros 8) (apart (keyed)))) = true ∧
  (metBy 0x0200 0 (fun c s => (fun c s => lcPermits s && arg c.req 2 1 == 8 && decide (c.mb < 16) && s.ll.drbgRunning) c s && ((fun c s => drawSeed c.mb (BitVec.ofNat 8 (arg c.req 4 1 % 2)) s) c s).seam.paired) (from_ 0) (ask 0 0x0200 (le 2 0 ++ [8#8] ++ zeros 13) (keyed)) &&
    metBy 0x0200 0 (fun c s => (fun c s => lcPermits s && arg c.req 2 1 == 8 && decide (c.mb < 16) && s.ll.drbgRunning) c s && !((fun c s => drawSeed c.mb (BitVec.ofNat 8 (arg c.req 4 1 % 2)) s) c s).seam.paired) (from_ 0) (ask 0 0x0200 (le 2 0 ++ [8#8] ++ zeros 13) (apart (keyed)))) = true ∧
  (let key : Bytes := zeros 32; metBy 0x0201 0 (fun c s => (fun c s => (c.mb != 17 || envKind (argBytes c.req 8 224) == 3) && lcPermits s &&
      decide (importCheck s c (arg c.req 0 2) (argBytes c.req 8 224) = (stOk, key)) &&
      !(envKind (argBytes c.req 8 224) == 3 && (s.flash.extAck || s.trust.dusk))) c s && ((fun c s => (installKey c (arg c.req 0 2) (argBytes c.req 8 224) key s).2) c s).seam.paired) (from_ 0) (ask 0 0x0201 (le 2 23 ++ zeros 6 ++ envelope) (reported)) &&
    metBy 0x0201 0 (fun c s => (fun c s => (c.mb != 17 || envKind (argBytes c.req 8 224) == 3) && lcPermits s &&
      decide (importCheck s c (arg c.req 0 2) (argBytes c.req 8 224) = (stOk, key)) &&
      !(envKind (argBytes c.req 8 224) == 3 && (s.flash.extAck || s.trust.dusk))) c s && !((fun c s => (installKey c (arg c.req 0 2) (argBytes c.req 8 224) key s).2) c s).seam.paired) (from_ 0) (ask 0 0x0201 (le 2 23 ++ zeros 6 ++ envelope) (apart (reported)))) = true ∧
  (metBy 0x0202 0 (fun c s => clearable s c.mb (arg c.req 0 2) && !clearing s (arg c.req 0 2) && (slotAt s (arg c.req 0 2)).state == .empty) (from_ 0) (ask 0 0x0202 (le 2 23 ++ zeros 6) (keyed))) = true ∧
  (metBy 0x0202 0 (fun c s => clearable s c.mb (arg c.req 0 2) && !clearing s (arg c.req 0 2) && (slotAt s (arg c.req 0 2)).state != .empty &&
      ((slotAt s (arg c.req 0 2)).owner == c.mb || (slotAt s (arg c.req 0 2)).spent) && !rotating s (arg c.req 0 2) &&
      !s.keys.grants.any (fun g => g.slot == arg c.req 0 2 && !partOpen s g.part)) (from_ 0) (ask 0 0x0202 (le 2 16 ++ zeros 6) (keyed))) = true ∧
  (metBy 0x0203 0 (fun c s => grantable s (arg c.req 0 2) && decide (arg c.req 2 1 ≤ 15) && partExists s (arg c.req 2 1) && decide (arg c.req 3 1 ≤ 1) &&
      partOpen s (arg c.req 2 1)) (from_ 16) (ask 16 0x0203 (le 2 1 ++ [0#8, 1#8] ++ zeros 4) (keyed))) = true ∧
  (metBy 0x0204 0 (fun c s => grantable s (arg c.req 0 2) && decide (arg c.req 2 1 ≤ 15) && partExists s (arg c.req 2 1) &&
      s.keys.grants.any (fun g => g.slot == arg c.req 0 2 && g.part == arg c.req 2 1) && partOpen s (arg c.req 2 1)) (from_ 16) (ask 16 0x0204 (le 2 1 ++ zeros 6) (shared_))) = true ∧
  (metBy 0x0204 0 (fun c s => grantable s (arg c.req 0 2) && decide (arg c.req 2 1 ≤ 15) && partExists s (arg c.req 2 1) &&
      !s.keys.grants.any (fun g => g.slot == arg c.req 0 2 && g.part == arg c.req 2 1)) (from_ 16) (ask 16 0x0204 (le 2 1 ++ zeros 6) (keyed))) = true ∧
  (metBy 0x0205 0 (fun c s => rotatable s c.mb (arg c.req 0 2) && !(slotAt s (arg c.req 0 2)).capUsed) (from_ 0) (ask 0 0x0205 (le 2 16 ++ zeros 6) (keyed))) = true ∧
  (let n : Nat := 0; metBy 0x0206 0 (fun c s => !rotating s (arg c.req 0 2) && !rotating s (arg c.req 2 2) &&
      rotateOk s c.mb (arg c.req 0 2) (arg c.req 2 2) (arg c.req 4 1) (arg c.req 8 8) (arg c.req 16 8) && freeRotation s == some n) (from_ 0) (ask 0 0x0206 (le 2 16 ++ le 2 17 ++ [25#8, 0#8, 0#8, 0#8] ++ le 8 0x2000000 ++ le 8 0x200000) (twoKeys))) = true ∧
  (let n : Nat := 7; let x : Rotation := { active := true, a := 16, b := 17, aliased := true }; metBy 0x0207 0 (fun c s => decide (0 < arg c.req 0 2 ∧ arg c.req 0 2 < 0x400) && (slotAt s (arg c.req 0 2)).state == .aliased &&
      ((slotAt s (arg c.req 0 2)).owner == c.mb || c.mb == 16) && s.path.rotations.find? (fun e => e.2.active && e.2.a == arg c.req 0 2) == some (n, x)) (from_ 0) (ask 0 0x0207 (le 2 16 ++ zeros 6) (setRotation 7 { active := true, a := 16, b := 17, aliased := true } (modSlot 16 (fun v => { v with state := .aliased }) twoKeys)))) = true := by decide +kernel

/-- States and operands that meet what Obligations.DomainRequestsComplete asks, clause by clause. -/
theorem met_DomainRequestsComplete :
  (metBy 0x0300 0 (fun c s => lcPermits s && s.fabric.domState == 0 && decide (arg c.req 16 2 < 16384) && !imageWaits s c 32 &&
      (readImage c 32 trustLen s).1 == stOk && fld (readImage c 32 trustLen s).2.1 0 1 == 1 &&
      (readImage c 32 trustLen s).2.1.length == 16 + 48 * fld (readImage c 32 trustLen s).2.1 1 1) (from_ 16) (ask 16 0x0300 (fit 96 (List.replicate 16 0xDD#8 ++ le 2 16383 ++ zeros 14 ++ imageRef 0x100 trustList)) (holding 0x100 trustList keyed))) = true ∧
  (metBy 0x0301 0 (fun c s => s.fabric.domState == 2 && arg c.req 0 4 == s.fabric.epoch) (from_ 16) (ask 16 0x0301 (le 4 5 ++ zeros 4) (onFabric (fun f => { f with domState := 2, epoch := 5, sendEpoch := 4 }) keyed))) = true ∧
  (metBy 0x0302 0 (fun c s => (fun _ _ => true) c s && ((fun _ s => onFabric (fun f => { f with havePrev := false }) (wipeSlot 1030 (wipeSlot 1028 s))) c s).seam.paired) (from_ 16) (ask 16 0x0302 ([]) (keyed)) &&
    metBy 0x0302 0 (fun c s => (fun _ _ => true) c s && !((fun _ s => onFabric (fun f => { f with havePrev := false }) (wipeSlot 1030 (wipeSlot 1028 s))) c s).seam.paired) (from_ 16) (ask 16 0x0302 ([]) (apart (keyed)))) = true ∧
  (metBy 0x0303 0 (fun c s => (fun _ _ => true) c s && ((fun _ s =>
      let t := failAllOps false stFabricDenied (failAllOps true stFabricDenied s)
      let u := (List.range t.build.links).foldl (fun s p => closePort p s) t
      onFabric (fun f => { f with domState := 0, trust := [], epoch := 0, sendEpoch := 0, prevEpoch := 0, havePrev := false, haveCur := false
                                  west := { f.west with replay := [], owed := [] }, east := { f.east with replay := [], owed := [] } })
        ([1027, 1028, 1029, 1030].foldl (fun s k => wipeSlot k s) u)) c s).seam.paired) (from_ 16) (ask 16 0x0303 ([]) (onFabric (fun f => { f with domState := 2, epoch := 5, sendEpoch := 4 }) keyed)) &&
    metBy 0x0303 0 (fun c s => (fun _ _ => true) c s && !((fun _ s =>
      let t := failAllOps false stFabricDenied (failAllOps true stFabricDenied s)
      let u := (List.range t.build.links).foldl (fun s p => closePort p s) t
      onFabric (fun f => { f with domState := 0, trust := [], epoch := 0, sendEpoch := 0, prevEpoch := 0, havePrev := false, haveCur := false
                                  west := { f.west with replay := [], owed := [] }, east := { f.east with replay := [], owed := [] } })
        ([1027, 1028, 1029, 1030].foldl (fun s k => wipeSlot k s) u)) c s).seam.paired) (from_ 16) (ask 16 0x0303 ([]) (apart (onFabric (fun f => { f with domState := 2, epoch := 5, sendEpoch := 4 }) keyed)))) = true := by decide +kernel

/-- States and operands that meet what Obligations.WindowAndRouteRequestsComplete asks, clause by clause. -/
theorem met_WindowAndRouteRequestsComplete :
  (let k : Nat := 0; let o : Nat := 0; metBy 0x0310 0 (fun c s =>
      let w := askedWindow c.req
      fld w.entry 0 1 == 1 && decide (w.part ≤ 16) && (w.part != 16 || fld w.entry 3 1 == 0xFF) && (decide (w.peer ≤ 15) || w.peer == 0xFF) &&
        windowFieldsOk w && windowRegionsOk s w && mayWindow c.mb w.part && partExists s w.part && !lockedFor s c.mb w.part &&
        (arg c.req 0 1 == 0xFF || (windowAt s (arg c.req 0 1)).kind == 0) && gives (windowObj s w (arg c.req 40 4)) o &&
        (if arg c.req 0 1 = 0xFF then freeWindow s else some (arg c.req 0 1)) == some k) (from_ 0) (ask 0 0x0310 ([0xFF#8] ++ zeros 7 ++ windowEntry ++ le 4 0x10000 ++ zeros 4) (stocked))) = true ∧
  (metBy 0x0311 0 (fun c s => (windowAt s (arg c.req 0 1)).kind != 0 && mayWindow c.mb (windowAt s (arg c.req 0 1)).part &&
      !lockedFor s c.mb (windowAt s (arg c.req 0 1)).part) (from_ 0) (ask 0 0x0311 ([255#8] ++ zeros 7) (windowed))) = true ∧
  (metBy 0x0312 0 (fun c s =>
      let w := windowAt s (arg c.req 0 1)
      w.kind != 0 && w.owned && w.part == c.mb && decide (arg c.req 4 4 + arg c.req 8 4 ≤ w.regions) &&
        (decide (arg c.req 12 2 < 16384) || arg c.req 12 2 == 0xFFFF || arg c.req 12 2 == 0xFFFE) && !windowInbound s (arg c.req 0 1)) (from_ 0) (ask 0 0x0312 ([255#8] ++ zeros 3 ++ le 4 0 ++ le 4 1 ++ le 2 16383 ++ zeros 2) (windowed))) = true ∧
  (metBy 0x031A 0 (fun c s => decide (arg c.req 0 1 < s.build.links)) (from_ 16) (ask 16 0x031A ([1#8] ++ zeros 7) (stocked))) = true := by decide +kernel

/-- States and operands that meet what Obligations.TableGroupAndServerRequestsComplete asks, clause by clause. -/
theorem met_TableGroupAndServerRequestsComplete :
  (metBy 0x0400 0 (fun c s =>
      let kind := arg c.req 0 1
      let i := arg c.req 1 1
      let len := arg c.req 4 4
      let x := memRead { part := c.mb, kind := kindFrontEnd, access := 1, master := 7 } c.ue (arg c.req 8 8) len s
      tableIndexOk kind i && tableLength kind i len && !(targets i (tableSpan kind len)).any (othersTable s c.mb kind) &&
        !(targets i (tableSpan kind len)).any (pinned s kind) && !(targets i (tableSpan kind len)).any (tableLoading s kind) && !rangeWaits s false (arg c.req 8 8) len && x.1.status == stOk &&
        sha384 x.1.data == argBytes c.req 16 48 && fld x.1.data 0 1 == 1 && tableValid kind i x.1.data) (from_ 16) (ask 16 0x0400 ([3#8, 0#8, 0#8, 0#8] ++ le 4 80 ++ le 8 (bare 0x1000) ++ sha384 placementImage) (holding 0x1000 placementImage tabled))) = true ∧
  (metBy 0x0401 0 (fun c s =>
      let is := targets (arg c.req 1 1) (namedSpan c.req)
      namedOk c.req && !is.any (pinned s (arg c.req 0 1)) && !is.any (tableLoading s (arg c.req 0 1)) && !is.any (fun i => (tableAt s (arg c.req 0 1) i).loaded)) (from_ 16) (ask 16 0x0401 ([1#8, 254#8, 0#8, 0#8] ++ le 2 2 ++ zeros 2) (stocked))) = true ∧
  (metBy 0x0401 0 (fun c s =>
      let is := targets (arg c.req 1 1) (namedSpan c.req)
      let on := is.filter (fun i => (tableAt s (arg c.req 0 1) i).loaded)
      namedOk c.req && (c.mb == 16 || !on.any (othersTable s c.mb (arg c.req 0 1))) && !is.any (pinned s (arg c.req 0 1)) &&
        !is.any (tableLoading s (arg c.req 0 1)) && on != [] && !on.any (fun i => (tableAt s (arg c.req 0 1) i).grants.any (fun p => !partOpen s p))) (from_ 16) (ask 16 0x0401 ([1#8, 254#8, 0#8, 0#8] ++ le 2 2 ++ zeros 2) (tabled))) = true ∧
  (metBy 0x0402 0 (fun c s => namedOk c.req && decide (arg c.req 2 1 < 16) && partExists s (arg c.req 2 1) && partOpen s (arg c.req 2 1) &&
      (targets (arg c.req 1 1) (namedSpan c.req)).all (fun i => (tableAt s (arg c.req 0 1) i).loaded && (tableAt s (arg c.req 0 1) i).owner == 16)) (from_ 16) (ask 16 0x0402 ([1#8, 254#8, 0#8, 0#8] ++ le 2 2 ++ zeros 2) (tabled))) = true ∧
  (metBy 0x0403 0 (fun c s => namedOk c.req && decide (arg c.req 2 1 < 16) && partExists s (arg c.req 2 1) && partOpen s (arg c.req 2 1) &&
      (targets (arg c.req 1 1) (namedSpan c.req)).all (fun i => (tableAt s (arg c.req 0 1) i).loaded && (tableAt s (arg c.req 0 1) i).owner == 16)) (from_ 16) (ask 16 0x0403 ([1#8, 254#8, 0#8, 0#8] ++ le 2 2 ++ zeros 2) (tabled))) = true ∧
  (let o : Nat := 3; metBy 0x0410 0 (fun c s =>
      let g := groupOfReq c.mb o (now s) c.req
      let x := readImage c 48 (fun n => decide (2 ≤ n ∧ n ≤ 32768) && n % 2 == 0) s
      groupFieldsOk s c.mb c.req && gives (objHandle s c.mb (arg c.req 32 4)) o && regionFits s g && !imageWaits s c 48 &&
        !(allLanterns s).any (fun l => rangeWaits s true (regionAddr s g l 0) g.regionBytes) && x.1 == stOk &&
        ((chunks 2 x.2.1).map leNat).contains g.leader && ((chunks 2 x.2.1).map leNat).all (fun m => decide (m < 16384))) (from_ 16) (ask 16 0x0410 (fit 48 ([0#8, 7#8, 8#8, 0#8] ++ le 2 2 ++ le 2 1 ++ le 4 100 ++ le 4 0x3F800000 ++ le 4 0x42800000 ++ le 4 0x3F800000 ++ le 4 10 ++ le 2 16383 ++ le 2 0 ++ le 4 0x10003 ++ le 2 1) ++ imageRef 0x1000 (le 2 16383)) (holding 0x1000 (le 2 16383) grouped))) = true ∧
  (metBy 0x0411 0 (fun c s => decide (arg c.req 0 1 < 16) && (groupAt s (arg c.req 0 1)).live && (groupAt s (arg c.req 0 1)).owner == c.mb) (from_ 16) (ask 16 0x0411 ([15#8] ++ zeros 7) (grouped))) = true ∧
  (let ps : List Nat := [2]; metBy 0x0418 0 (fun c s =>
      decide (arg c.req 0 1 < 16) && !(serverAt s (arg c.req 0 1)).live && decide (arg c.req 1 1 ≠ 0 ∧ arg c.req 1 1 ≤ 4) &&
        serverPilots s c.mb c.req == some ps && serverOk s c.req ps && !imageWaits s c 32 &&
        (readImage c 32 (fun n => decide (16 ≤ n ∧ n ≤ 262144) && n % 16 == 0) s).1 == stOk) (from_ 16) (ask 16 0x0418 (fit 32 ([0#8, 1#8, 0#8, 0#8, 63#8] ++ zeros 3 ++ le 4 0x03000000 ++ le 4 252 ++ le 4 10000) ++ imageRef 0x1000 (zeros 16)) (serving))) = true ∧
  (metBy 0x0419 0 (fun c s => decide (arg c.req 0 1 < 16) && (serverAt s (arg c.req 0 1)).live && (serverAt s (arg c.req 0 1)).part == c.mb &&
      !(serverAt s (arg c.req 0 1)).closing) (from_ 16) (ask 16 0x0419 ([15#8] ++ zeros 7) (serving))) = true := by decide +kernel

/-- A management session stands. -/
def session : State := onLl (fun l => { l with mgmtActive := true }) up

/-- A fault record of partition 0, of level 2. -/
def degradedRec : FaultRec :=
  { severity := 2, cls := 0x20, flags := 0, kind := kindFrontEnd, inst := 0, sub := 0, status := 0, part := 0, master := 0, access := 0, time := 0, addr := 0
    masterId := 0, count := 1, seq := 9, origin := 9, err := 1, detail := [] }

/-- Trace buffer 31 of partition 0 runs in object 0; watch 31 writes to it. -/
def traced : State :=
  setWatch 31 { on := true, owner := 0, ctx := 16, buf := 31 }
    (setBuf 31 { owner := some 0, obj := 0, length := 131072, west := { state := 1 } } stocked)

/-- Object 4095 of the manager, 64 MiB, and a curfew armed for 20 µs on; or one in force. -/
def curfewed (c : Curfew) : State :=
  onCurfew (fun _ => c) (setObj 4095 { state := .live, owner := 16, key := 1, length := 2 ^ 26, base := 0 } stocked)

/-- Bytes in erased flash. -/
def flashed (a : Nat) (d : Bytes) (s : State) : State := onFlash (fun f => { f with bytes := (d.zipIdx.filter (fun e => e.1 ≠ 0xFF#8)).map (fun e => (a + e.2, e.1)) }) s

/-- Flash key and fuses of a debug authority whose private key is 1, a live nonce, a life-cycle state. -/
def authorised (st : Nat) : State :=
  flashed 0x20000 (fit 32 [1#8] ++ pointBytes p384G)
    (onLc (fun l => { l with nonceLive := true, nonceTime := 1000000000, nonce := zeros 32
                             otp := ((chunks 4 (sha384 (pointBytes p384G))).map (fun b => BitVec.ofNat 32 (leNat b))).zipIdx.map (fun e => (16 + e.2, e.1)) })
      (onTrust (fun t => { t with shadow := [st, st, st] }) up))

/-- A token for a chip whose DEVICE_ID is zero. -/
def token (purpose cats : Byte) : Bytes :=
  let h := [1#8, purpose, cats] ++ zeros 61
  h ++ ecdsaSign 1 2 (sha384 h)

/-- A boot record whose slot 0 is VALID, and one that holds a firmware-signing key whose private key is 1. -/
def stagedRecord : Bytes :=
  [1#8, 0#8, 0#8, 1#8] ++ zeros 12 ++ List.replicate 448 0xFF#8 ++ be 48 0xa0627515f11bc93b6d97094ddea0580a197446704ac03e219a44b7ebf44c270bfb3c00bf7f5e8fdd6211bc93ab13b578
def signedRecord : Bytes :=
  [1#8] ++ zeros 15 ++ pointBytes p384G ++ List.replicate 352 0xFF#8 ++ be 48 0xa38ee7e1d5efd535464f98498ff9b51bd8d6a6f3ea28c9365042f4f75a508f5ae5566ebcb3611a51fc94e76064b24100

/-- The digest of that key, as a boot ROM may hold it. -/
def keyDigest : Bytes := be 48 0xa19d4db171b582eb8052b0cfe555e17894aa22d1c8a9770950697dd8f796d2fa4bf0a56ad80006b7ea08e1191f814b65

/-- An image without code, signed with that key: the fields of its header up to the signature. -/
def signedImage : Bytes :=
  put (put (put (zeros 96) 0 [1#8, 1#8, 0#8, 1#8]) 24 [1#8]) 32
    (be 48 0x38b060a751ac96384cd9327eb1b1e36a21fdb71114be07434c0cc7bf63f6e1da274edebfe76f65fbd51ad2f14898b95b) ++
  be 96 0x8d999057ba3d2d969260045c55b97f089025959a6f434d651d207d19fb96e9e4fe0e86ebe0e64f85b96a9c75295df611c257104b286f4689ca3b95450f80b71932a688ab7aefb24299f39179909df8b1a39cbc251bf8b9281f4f9b4ebbead0b

/-- What R318 asks of an image beside its key. -/
def imageRest (s : State) (slot : Nat) (p : Bytes) : Bool :=
  let h := imageHeader s slot
  let msg := h.take 96 ++ imageBody s slot
  !decide (fld h 0 1 ≠ 1 ∨ fld h 3 1 ≠ 1 ∨ fld h 8 4 > 262144 ∨ fld h 12 4 > 262144 ∨ 0 > 3 ∨ fwRevoked s 0) &&
    (fld h 1 1 % 2 == 1 && sub h 32 48 == sha384 (imageBody s slot) && ecdsaVerify p (sha384 msg) (sub h 96 96) &&
      (if fld h 1 1 / 2 % 2 = 1 then false else !s.build.mldsa) && decide (fld h 4 4 ≥ svnCount s) && fld h 24 1 == 1 && fld h 25 1 == 0)

/-- An image under the first key is accepted where the boot ROM holds that key's digest. -/
theorem imageOk_first {s : State} {slot : Nat} {p d : Bytes} (hd : romBytes 48 48 = d) (hp : sha384 p = d) (hk : fld (imageHeader s slot) 2 1 = 0)
    (hs : (bootRecord s).map (fun r => sub r.2 16 96) = some p) (hr : imageRest s slot p = true) : imageOk s slot = true := by
  obtain ⟨r, h1, h2⟩ := Option.map_eq_some_iff.mp hs
  have hg : signKey s 0 = some p := by
    unfold signKey
    rw [h1]
    show (if sha384 (sub r.2 16 96) = romBytes 48 48 then some (sub r.2 16 96) else none) = some p
    rw [h2, hd, if_pos hp]
  unfold imageRest at hr
  unfold imageOk
  simp only [hk, hg] at hr ⊢
  rw [Bool.and_eq_true, Bool.not_eq_true', decide_eq_false_iff_not] at hr
  rw [if_neg hr.1]
  by_cases h5 : fld (imageHeader s slot) 1 1 / 2 % 2 = 1
  · rw [if_pos h5] at hr
    simp at hr
  · rw [if_neg h5] at hr ⊢
    exact hr.2

/-- Where the chip's DEVICE_ID is zero, a token admits the transition to Return. -/
theorem met_LcTransition_token (h : romBytes 240 16 = zeros 16) :
    metBy 0x0520 0 (fun c s => arg c.req 0 1 == 3 && shadowState s == 2 && s.lc.intent == 0 && decide (s.lc.ops = []) && !s.flash.extAck &&
      tokenOk s 2 0 (argBytes c.req 56 160)) (from_ 16) (ask 16 0x0520 ([3#8] ++ zeros 55 ++ token 2#8 0#8) (authorised 2)) = true := by
  unfold metBy tokenOk
  rw [h]
  decide +kernel

/-- And the unlock of every category in Production. -/
theorem met_DebugUnlock_token (h : romBytes 240 16 = zeros 16) :
    metBy 0x0521 1 (fun c s => lcState s == 2 && arg c.req 1 1 != 0 && !s.flash.extAck && tokenOk s 1 (arg c.req 1 1) (argBytes c.req 8 160))
      (from_ 16) (ask 16 0x0521 ([1#8, 31#8] ++ zeros 6 ++ token 1#8 31#8) (authorised 2)) = true := by
  unfold metBy tokenOk
  rw [h]
  decide +kernel

/-- States and operands that meet what Obligations.PowerAndFaultRequestsComplete asks, clause by clause. -/
theorem met_PowerAndFaultRequestsComplete :
  (metBy 0x0500 0 (fun c s => arg c.req 0 4 == 0 || decide (s.build.capMin ≤ arg c.req 0 4 ∧ arg c.req 0 4 ≤ s.build.capMax)) (from_ 17) (ask 17 0x0500 (le 4 80000 ++ zeros 4) (session))) = true ∧
  (metBy 0x0501 0 (fun _ _ => true) (from_ 16) (ask 16 0x0501 ([]) (up))) = true ∧
  (metBy 0x0502 0 (fun _ _ => true) (from_ 16) (ask 16 0x0502 ([]) (up))) = true ∧
  (let p : Nat := 0; metBy 0x0503 0 (fun c s => gives (queriedOwner s c) p && decide (arg c.req 1 1 ≤ 2 ∧ arg c.req 2 1 < resCount s (arg c.req 1 1))) (from_ 0) (ask 0 0x0503 ([0xFF#8, 2#8, 1#8] ++ zeros 5) (parted))) = true ∧
  (metBy 0x0508 0 (fun c _ => decide (1 ≤ arg c.req 4 1 ∧ arg c.req 4 1 ≤ 3)) (from_ 0) (ask 0 0x0508 (zeros 4 ++ [3#8] ++ zeros 3) (parted))) = true ∧
  (let x : FaultRec := degradedRec; metBy 0x0509 0 (fun c s => decide ((storedRecords s).find? (fun r => r.seq == arg c.req 0 4) = some x) && mayAck c.mb x) (from_ 0) (ask 0 0x0509 (le 4 9 ++ zeros 4) (onFaults (fun f => { f with records := [degradedRec] }) parted))) = true ∧
  (metBy 0x050A 0 (fun _ _ => true) (from_ 16) (ask 16 0x050A ([]) (up))) = true ∧
  (metBy 0x050B 0 (fun c s => s.faults.injectEn && lcState s != 0 &&
      (lcState s == 1 || !(arg c.req 1 1 == kindKeyStore || arg c.req 1 1 == kindKeyMirror || arg c.req 1 1 == kindTrust || arg c.req 0 1 == clsLcCorrupt)) &&
      arg c.req 0 1 != 0 && (classKinds (arg c.req 0 1)).contains (arg c.req 1 1) && sourceExists s (arg c.req 1 1) (arg c.req 2 1) &&
      decide (arg c.req 3 1 ≤ 1) && arg c.req 6 2 != 0) (from_ 16) (ask 16 0x050B ([1#8, BitVec.ofNat 8 kindLantern, 1#8, 1#8, 0#8, 0#8, 1#8, 0#8] ++ zeros 8) (onFaults (fun f => { f with injectEn := true }) up))) = true ∧
  (metBy 0x0510 0 (fun _ _ => true) (from_ 16) (ask 16 0x0510 ([]) (up))) = true ∧
  (metBy 0x0511 0 (fun _ _ => true) (from_ 16) (ask 16 0x0511 ([1#8] ++ zeros 7) (up))) = true := by decide +kernel

/-- States and operands that meet what Obligations.TraceRequestsComplete asks, clause by clause. -/
theorem met_TraceRequestsComplete :
  (let o : Option Nat := some 0; metBy 0x0518 0 (fun c s => decide (arg c.req 1 1 < 32) && bufFieldsOk c.req && mayBuf s c.mb (arg c.req 1 1) && !bufEnabled s (arg c.req 1 1) &&
      gives (bufPlace s c.mb c.req) o) (from_ 0) (ask 0 0x0518 ([0#8, 31#8, 2#8, 0#8] ++ le 4 0x10000 ++ le 8 0x1E0000 ++ le 4 131072 ++ le 4 32768 ++ zeros 8) (stocked))) = true ∧
  (metBy 0x0518 1 (fun c s => decide (arg c.req 1 1 < 32 ∧ arg c.req 16 4 ≠ 0 ∧ arg c.req 16 4 ≤ 65536) && mayBuf s c.mb (arg c.req 1 1) &&
      (arg c.req 20 4 == 0xFFFF || ctxOk s ((bufAt s (arg c.req 1 1)).owner.getD c.mb) (arg c.req 20 4))) (from_ 0) (ask 0 0x0518 (fit 32 ([1#8, 31#8] ++ zeros 14 ++ le 4 65536 ++ le 4 23)) (stocked))) = true ∧
  (metBy 0x0518 2 (fun c s => decide (arg c.req 1 1 < 32 ∧ arg c.req 2 1 ≤ 6) && (arg c.req 2 1 != 4 || decide (arg c.req 4 4 < 32)) && mayBuf s c.mb (arg c.req 1 1) &&
      (decide (16 ≤ c.mb) || condConcerns s c.mb (arg c.req 2 1) (arg c.req 4 4))) (from_ 0) (ask 0 0x0518 (fit 32 ([2#8, 31#8, 4#8, 0#8] ++ le 4 31)) (traced))) = true ∧
  (metBy 0x0518 3 (fun c s => decide (arg c.req 1 1 < 32 ∧ arg c.req 2 1 = 0) && mayWatch s c.mb (arg c.req 1 1)) (from_ 0) (ask 0 0x0518 (fit 32 [3#8, 31#8, 0#8]) (traced))) = true ∧
  (metBy 0x0518 3 (fun c s => decide (arg c.req 1 1 < 32 ∧ arg c.req 2 1 = 1 ∧ arg c.req 3 1 < 32 ∧ arg c.req 8 4 ≠ 0 ∧ arg c.req 8 4 ≤ 65536) &&
      mayWatch s c.mb (arg c.req 1 1) && ctxOk s c.mb (arg c.req 4 2) && (bufAt s (arg c.req 3 1)).owner == some c.mb) (from_ 0) (ask 0 0x0518 (fit 32 ([3#8, 31#8, 1#8, 31#8] ++ le 2 16 ++ zeros 2 ++ le 4 65536)) (traced))) = true ∧
  (metBy 0x0518 4 (fun c s => decide (arg c.req 1 1 < 32) && mayBuf s c.mb (arg c.req 1 1) && bufEnabled s (arg c.req 1 1)) (from_ 0) (ask 0 0x0518 (fit 32 [4#8, 31#8]) (traced))) = true ∧
  (metBy 0x0518 5 (fun c s => decide (arg c.req 1 1 < 32) && mayBuf s c.mb (arg c.req 1 1) && bufEnabled s (arg c.req 1 1)) (from_ 0) (ask 0 0x0518 (fit 32 [5#8, 31#8]) (traced))) = true ∧
  (metBy 0x0518 6 (fun c s => decide (arg c.req 1 1 < 32) && mayBuf s c.mb (arg c.req 1 1) && bufEnabled s (arg c.req 1 1) &&
      ((bufAt s (arg c.req 1 1)).remote || (bufAt s (arg c.req 1 1)).obj != noObj)) (from_ 0) (ask 0 0x0518 (fit 32 [6#8, 31#8]) (traced))) = true ∧
  (metBy 0x0518 7 (fun c s => decide (arg c.req 1 1 < 32) && mayBuf s c.mb (arg c.req 1 1)) (from_ 0) (ask 0 0x0518 (fit 32 [7#8, 31#8]) (traced))) = true := by decide +kernel

/-- States and operands that meet what Obligations.CurfewRequestsComplete asks, clause by clause. -/
theorem met_CurfewRequestsComplete :
  (let k : Nat := 4095; metBy 0x0519 0 (fun c s => areaOf s (arg c.req 16 4) == some k && decide (now s + 100000 ≤ arg c.req 8 8) && decide (arg c.req 4 4 ≠ 0 ∧ arg c.req 4 4 ≤ 60000) &&
      !curfewBusy s) (from_ 16) (ask 16 0x0519 (zeros 4 ++ le 4 60000 ++ le 8 1000100000 ++ le 4 0x10FFF ++ zeros 4) (curfewed {}))) = true ∧
  (metBy 0x0519 1 (fun _ s => curfewBusy s && s.curfew.state == 1 && decide (now s + 20000 ≤ s.curfew.t)) (from_ 16) (ask 16 0x0519 ([1#8] ++ zeros 23) (curfewed { state := 1, t := 1000020000 }))) = true ∧
  (metBy 0x051A 0 (fun c s => s.curfew.inForce && decide (now s + 100000 ≤ arg c.req 8 8 ∧ arg c.req 8 8 < s.curfew.maxDawn)) (from_ 16) (ask 16 0x051A (zeros 8 ++ le 8 1000100000) (curfewed { state := 3, inForce := true, maxDawn := 1000100001 }))) = true := by decide +kernel

/-- States and operands that meet what Obligations.LifeCycleAndFirmwareRequestsComplete asks, clause by clause. -/
theorem met_LifeCycleAndFirmwareRequestsComplete :
  (metBy 0x0520 0 (fun c s =>
      let target := arg c.req 0 1
      decide (target ≠ 0 ∧ target ≤ 3) && targetAllowed (shadowState s) target && shadowState s != 2 && s.lc.intent == 0 && decide (s.lc.ops = []) &&
        (target != 2 || argBytes c.req 8 48 != zeros 48)) (from_ 16) (ask 16 0x0520 (fit 216 ([2#8] ++ zeros 7 ++ [1#8])) (up))) = true ∧
  (metBy 0x0521 0 (fun _ s => s.ll.drbgRunning) (from_ 16) (ask 16 0x0521 ([0#8] ++ zeros 7) (up))) = true ∧
  (metBy 0x0521 1 (fun c s => (lcState s != 2 || arg c.req 1 1 == 0) && argBytes c.req 8 160 == zeros 160) (from_ 16) (ask 16 0x0521 (fit 168 [1#8, 31#8]) (up))) = true ∧
  (metBy 0x0600 0 (fun c s =>
      let n := arg c.req 4 2
      c.mb == 17 && (if arg c.req 0 4 = 0 then !s.ll.fwStage.active else s.ll.fwStage.active) && !flashHeld s &&
        decide (n < 2 ^ 15 ∧ n ≠ 0 ∧ n ≤ 192 ∧ 8 + n = reqLen c.req ∧ arg c.req 0 4 + n ≤ 0x100000)) (from_ 17) (ask 17 0x0600 (le 4 0 ++ le 2 192 ++ zeros 2 ++ zeros 192) (session))) = true ∧
  (metBy 0x0601 0 (fun _ s => slotStateOf s (otherSlot s) == 1 && !flashHeld s) (from_ 16) (ask 16 0x0601 ([]) (flashed 0x1000 stagedRecord up))) = true ∧
  (metBy 0x0602 0 (fun c s => s.ll.trial && decide (s.lc.ops = []) && (arg c.req 0 1 % 4 == 0 || lcPermits s) && !flashHeld s) (from_ 16) (ask 16 0x0602 ([3#8]) (onLl (fun l => { l with trial := true }) up))) = true ∧
  (metBy 0x0603 0 (fun _ s => !flashHeld s) (from_ 16) (ask 16 0x0603 ([]) (up))) = true := by decide +kernel

/-- States and operands that meet what Obligations.ReportAndSessionRequestsComplete asks, clause by clause. -/
theorem met_ReportAndSessionRequestsComplete :
  (metBy 0x0208 0 (fun c s => lcPermits s && c.mb != 17 && s.ll.drbgRunning && decide ((askedReport c s).1.length ≤ arg c.req 40 4) &&
      !rangeWaits s true (arg c.req 32 8) (askedReport c s).1.length && (putReport c (askedReport c s)).1 == stOk) (from_ 16) (ask 16 0x0208 (zeros 32 ++ le 8 (bare 0x1000) ++ le 4 8192 ++ zeros 4) (keyed))) = true ∧
  (metBy 0x0208 0 (fun c s => lcPermits s && c.mb == 17 && arg c.req 32 4 == 0 && s.ll.drbgRunning) (from_ 17) (ask 17 0x0208 (zeros 40) (up))) = true ∧
  (metBy 0x0208 0 (fun c s => lcPermits s && c.mb == 17 && arg c.req 32 4 != 0 && s.ll.heldReport != [] && argBytes c.req 0 32 == s.ll.heldNonce &&
      decide (arg c.req 32 4 < s.ll.heldReport.length)) (from_ 17) (ask 17 0x0208 (zeros 32 ++ le 4 299 ++ zeros 4) (onLl (fun l => { l with heldReport := zeros 300, heldNonce := zeros 32 }) up))) = true ∧
  (metBy 0x0209 0 (fun c s => arg c.req 0 2 == 0 && arg c.req 2 1 == 0 && decide (arg c.req 4 4 < s.ll.spdmReply.length)) (from_ 16) (ask 16 0x0209 (zeros 4 ++ le 4 299) (onLl (fun l => { l with spdmReply := zeros 300 }) up))) = true ∧
  (metBy 0x0209 0 (fun c s =>
      let b := argBytes c.req 8 (reqLen c.req - 8)
      !(arg c.req 0 2 == 0 && arg c.req 2 1 == 0) && b != [] && (arg c.req 4 4 == 0 || arg c.req 4 4 == s.ll.spdmBuffer.length) &&
        decide (arg c.req 4 4 + b.length ≤ arg c.req 0 2) && !bit (arg c.req 2 1) 1) (from_ 16) (ask 16 0x0209 (le 2 300 ++ zeros 6 ++ zeros 4) (up))) = true ∧
  (metBy 0x0209 0 (fun c s =>
      let b := argBytes c.req 8 (reqLen c.req - 8)
      b != [] && (arg c.req 4 4 == 0 || arg c.req 4 4 == s.ll.spdmBuffer.length) && arg c.req 4 4 + b.length == arg c.req 0 2 && bit (arg c.req 2 1) 1) (from_ 16) (ask 16 0x0209 (le 2 4 ++ [2#8] ++ zeros 5 ++ zeros 4) (up))) = true ∧
  (metBy 0x0700 0 (fun _ s => s.ll.drbgRunning) (from_ 17) (ask 17 0x0700 ([]) (up))) = true ∧
  (metBy 0x0701 0 (fun c s =>
      let u := useSlot 1031 s
      decide (s.ll.mgmtLockEnd ≤ now s) && !s.flash.extAck && !s.trust.dusk && nonceLive s && u.1 == stOk && (useSlot 1031 u.2).1 == stOk &&
        authMac u.2 c == argBytes c.req 32 48) (from_ 17) (ask 17 0x0701 (zeros 32 ++ be 48 0xac0c0efbaf180dc633c0631b9c7f5aa422a0a03945d29fe4fe859533508af12acd575c007cbfa32c4abfcfde2916d29d) (onLl (fun l => { l with mgmtNonce := zeros 32, mgmtNonceOn := true, mgmtNonceAt := 1000000000 }) (setSlot 1031 { key := zeros 32, cls := .management, state := .active, owner := 17, engines := 16#8, uses := uncounted, tag := be 16 0x22234ee1b1cf59fb8d2104ee9844ec71 } up)))) = true ∧
  (metBy 0x0702 0 (fun _ _ => true) (from_ 17) (ask 17 0x0702 ([]) (session))) = true := by decide +kernel

/-- States and operands that meet what Obligations.WickControlCompletes asks, clause by clause. -/
theorem met_WickControlCompletes :
  (let d := endDescriptor; let s := alone d; let w := wkOf firstWick {}; let t := modWick w (fun k => { k with ended := true, waiting := .none }) (endDesc w s s); running s && wickReady s w && (wickDesc s w).all (fun d => isOp 0x01 d && !skipped (wickOf s w) d) && !othersWait (taskAt (endDesc w s s) w.t) w.l && noMeeting t w) = true ∧
  ( let d : Bytes := desc 2 0 0 ([1#8, 0#8] ++ le 2 1 ++ inSheet 0 0); takesWit {} (isOp 0x02) (fun w d s => loopTimes s w d == 0) (fun w d s => endDescBy (fun k => Wick.next (taskAt s w.t).program { k with pc := k.pc + fld d 4 1 }) w s s) (alone d) d) = true ∧
  ( let d : Bytes := desc 2 0 0 ([1#8, 0#8] ++ le 2 65535); takesWit {} (isOp 0x02) (fun w d s => loopTimes s w d != 0) (fun w d s => endDescBy (fun k => Wick.next (taskAt s w.t).program
      { k with loops := ⟨k.pc + 1, k.pc + fld d 4 1, loopTimes s w d, 0, k.args⟩ :: k.loops }) w s s) (alone d) d) = true ∧
  ( let d : Bytes := desc 3 0 0 ([7#8, 0#8, 0#8, 0#8] ++ zeros 4 ++ le 4 255); takesWit {} (isOp 0x03) (fun _ _ _ => true) (fun w d s => endDesc w s (modWick w (fun k => { k with masks := k.masks.set (fld d 4 1) (predValue s w d) }) s)) (alone d) d) = true ∧
  ( let d : Bytes := desc 4 0 0 [1#8, 255#8]; meetWit {} (isOp 0x04) (fun d => fld d 4 1 == 1) (fun _ _ d => .explicit (fld d 4 1 == 1) (fld d 5 1)) (fun w d s _ => fld d 4 1 != 1 || (taskAt s w.t).exch.isEmpty) (fun _ _ t => t) d (before [0, 1] 1 d .none stocked) (before [0, 1] 1 d (.explicit true 255) stocked)) = true ∧
  ( let d : Bytes := skip 2 ([1#8, 0#8] ++ le 2 1); skipsWit {} (isOp 0x02) (alone d) d) = true ∧
  ( let d : Bytes := skip 3 []; skipsWit {} (isOp 0x03) (alone d) d) = true ∧
  ( let d : Bytes := skip 4 []; skipsWit {} (isOp 0x04) (alone d) d) = true ∧
  ( let d : Bytes := desc 2 0 0 ([1#8, 1#8] ++ le 2 1 ++ inAct); poisonWit {} (isOp 0x02) (tainted d) d) = true ∧
  ( let d : Bytes := desc 3 0 0 ([7#8, 1#8, 0#8, 0#8] ++ inAct); poisonWit {} (isOp 0x03) (tainted d) d) = true ∧
  (let s := modTask 1 (fun x => { x with aborting := true }) (alone endDescriptor); running s && (taskAt s 1).live && (taskAt s 1).aborting && (taskAt s 1).lanterns.contains 0 && decide (0 < (taskAt s 1).w) && !islandStopped s (.wicks 0)) = true := by decide +kernel

/-- States and operands that meet what Obligations.DataMovementCompletes asks, clause by clause. -/
theorem met_DataMovementCompletes :
  (let ue : Ue := {}; let d : Bytes := vec 8 0 (inMemory 1 0) (inMemory 0 0) (zeros 4) 64 0 0 0 0; takesWit ue (isOp 0x08) (fun w d s => fld d 2 1 == 0 && finishes (moveRead w d s) && finishes (moveWrite w d s)) (fun w d s => endDesc w s (leaves (leaves s (moveRead w d s)) (moveWrite w d s))) (alone d) d) = true ∧
  (let ue : Ue := {}; let d : Bytes := vec 8 1 (inSheet 0 0) (inMemory 0 0) (zeros 4) 64 0 0 0 64; takesWit ue (isOp 0x08) (fun w d s => fld d 2 1 != 0 && moveLen s w d != 0 && finishes (moveSure w d s)) (fun w d s =>
      let t := leaves s (moveSure w d s)
      let b := result (moveSure w d s)
      let off := moveAllOff w d s t
      endDesc w s (((taskAt t w.t).lanterns.filter (· ≠ w.l)).foldl (fun s l => sendSheet w.t w.l l (opndAt d 4).arg off b s)
        (writeSheet w.t w.l (opndAt d 4).arg off b t))) (before [0, 1] 1 d .none stocked) d) = true ∧
  (let ue : Ue := {}; let d : Bytes := vec 9 0 (inMemory 1 0) (inMemory 0 0) (inSheet 0 0) 1 0 0 1 64; takesWit ue (isOp 0x09) (fun w d s => idxOk w d s && finishes (rowsAfter gatherRow w d s)) (fun w d s => endDesc w s (leaves s (rowsAfter gatherRow w d s))) (alone d) d) = true ∧
  (let ue : Ue := {}; let d : Bytes := vec 10 0 (inMemory 1 0) (inMemory 0 0) (inSheet 0 0) 1 0 0 1 64; takesWit ue (isOp 0x0A) (fun w d s => fld d 21 1 == 0 && idxOk w d s && finishes (rowsAfter scatterRow w d s)) (fun w d s => endDesc w s (leaves s (rowsAfter scatterRow w d s))) (alone d) d) = true ∧
  (let ue : Ue := {}; let d : Bytes := vec 10 0 (inSheet 1 0) (inMemory 0 0) (inSheet 0 0) 1 0 1 1 64; takesWit ue (isOp 0x0A) (fun w d s => fld d 21 1 != 0 && idxOk w d s && finishes (rowsAfter scatterAdd w d s)) (fun w d s => endDesc w s (leaves s (rowsAfter scatterAdd w d s))) (alone d) d) = true ∧
  (let ue : Ue := {}; let d : Bytes := skip 8 []; skipsWit ue (isOp 0x08) (alone d) d) = true ∧
  (let ue : Ue := {}; let d : Bytes := skip 9 []; skipsWit ue (isOp 0x09) (alone d) d) = true ∧
  (let ue : Ue := {}; let d : Bytes := skip 10 []; skipsWit ue (isOp 0x0A) (alone d) d) = true := by decide +kernel

/-- States and operands that meet what Obligations.ProductsComplete asks, clause by clause. -/
theorem met_ProductsComplete :
  (let ue : Ue := {}; let d : Bytes := desc 16 0 0 (inMemory 0 0 ++ inSheet 0 0 ++ inSheet 1 0 ++ [0#8, 0#8, 0#8, 0#8] ++ le 4 1 ++ le 2 32 ++ le 2 1); takesWit ue (isOp 0x10) (fun w d s => finishes (gemvReads w d s)) (fun w d s =>
      let t := leaves s (gemvReads w d s)
      endDesc w s (gemvScratch w (opndAt d 8) (gemvStore w (gemvOf s w d) (opndAt d 12) (fld d 2 1 == 1) (laneMask (wickOf s w) d)
        (gemvSums w d s t (result (gemvReads w d s))) t))) (alone d) d) = true ∧
  (let ue : Ue := {}; let d : Bytes := desc 17 0 0 (inMemory 0 0 ++ inSheet 0 0 ++ inSheet 1 0 ++ inMemory 1 0 ++ [0#8, 0#8, 1#8, 0#8] ++ le 4 1 ++ le 2 32 ++ le 2 1); takesWit ue (isOp 0x11) (fun w d s => finishes (sparseTable w d s) && finishes (sparseSums w d s)) (fun w d s =>
      endDesc w s (gemvScratch w (opndAt d 8) (gemvStore w (sparseOf s w d) (opndAt d 12) (fld d 2 1 == 1) (laneMask (wickOf s w) d)
        (result (sparseSums w d s)) (leaves s (sparseSums w d s))))) (alone d) d) = true ∧
  (let ue : Ue := {}; let d : Bytes := skip 16 []; skipsWit ue (isOp 0x10) (alone d) d) = true ∧
  (let ue : Ue := {}; let d : Bytes := skip 17 []; skipsWit ue (isOp 0x11) (alone d) d) = true ∧
  (let ue : Ue := {}; let d : Bytes := desc 16 0 0 (inMemory 0 0 ++ inAct ++ inSheet 1 0 ++ [0#8, 0#8, 0#8, 0#8] ++ le 4 1 ++ le 2 32 ++ le 2 1); poisonWit ue (isOp 0x10) (tainted d) d) = true ∧
  (let ue : Ue := {}; let d : Bytes := desc 17 0 0 (inMemory 0 0 ++ inAct ++ inSheet 1 0 ++ inMemory 1 0 ++ [0#8, 0#8, 1#8, 0#8] ++ le 4 1 ++ le 2 32 ++ le 2 1); poisonWit ue (isOp 0x11) (tainted d) d) = true := by decide +kernel

/-- Object 3 of the manager lies in the home windows; pool 1 in it holds sequence 4095, a draft beyond its end; group 15 stands over it with
placement table 0. -/
def lit : State :=
  setPool 1 { live := true, part := 16, layers := 1, heads := 1, mask := 3, maxTokens := 128, seqSlots := 1, key := 0xFFF, frames := 4, obj := 3 }
    (setSeq 4095 { live := true, part := 16, pool := 1, d := 1 }
      (setPlacement 0 { loaded := true, owner := 16, image := fit 64 ([1#8, 0#8] ++ le 2 1 ++ le 2 2) ++ fit 16 [1#8] ++ fit 16 [1#8] }
        (setGroup 15 { live := true, owner := 16, experts := 2, layers := 1, k := 1, obj := 3, key := 0xFFF, offset := 0x100000 }
          (setObj 3 { state := .live, owner := 16, placement := 1, mask := 3, key := 1, length := 0x200000 } stocked))))

/-- Batch 3 of task 1 holds combine slot 1023, in a state. -/
def batched (st : CombineState) (deg : Bool) (s : State) : State :=
  modTask 1 (fun x => { x with batches := [(3, 1024)] }) (setCombine 1023 { state := st, task := 1, batch := 3, degrade := deg } s)

/-- Two wicks of lantern 0 before `d`, and one in each of two lanterns. -/
def two (d : Bytes) (others : WickWait) : State := before [0] 2 d others lit
def both (d : Bytes) (others : WickWait) : State := before [0, 1] 1 d others lit

/-- The wicks that meet. -/
def meetTwo : List Wk := [⟨1, 0, 0, {}⟩, ⟨1, 0, 1, {}⟩]
def meetBoth : List Wk := [⟨1, 0, 0, {}⟩, ⟨1, 1, 0, {}⟩]

/-- A norm or reduction of one element in a lantern, or over the set. -/
def normal (op set : Byte) : Bytes := desc op 0 0 (inSheet 0 0 ++ inSheet 0 0 ++ inSheet 1 0 ++ le 4 1 ++ [0#8, 0#8, 0#8, set])

/-- The last position of page 0, in lantern 0, is committed; a marked draft of sequence 4095 stands first in page 1, in lantern 1. -/
def drafted (s : State) : State :=
  let t := modSeq 4095 (fun q => { q with c := 63, d := 2, e := 1 }) s
  let u := (allotFrames {} 4095 [0, 1] t).getD t
  (memWrite { part := 16 } {} (frameAddr u (poolAt u 1) 1 0 0) (fit 64 ([1#8] ++ zeros 3 ++ le 4 1 ++ le 8 1)) u).2

/-- States and operands that meet what Obligations.VectorOperationsComplete asks, clause by clause. -/
theorem met_VectorOperationsComplete :
  ( let d : Bytes := vec 0x18 0 (inSheet 0 0) (inSheet 0 0) (inSheet 1 0) 1 0 0 0 0; takesWit {} (isOp 0x18) (fun _ _ _ => true) (fun w d s =>
      let p := wickShare s w (vecN d)
      let a := getRows s w (opndAt d 8) (typeA d) p.1 p.2
      let b := if elemB (fld d 21 1) then getRows s w (opndAt d 12) (typeB d) p.1 p.2 else a
      endDesc w s (putRows w (opndAt d 4) (typeD d) (laneMask (wickOf s w) d) p.1
        ((a.zip b).map (fun r => (r.1.zip r.2).map (fun v => elemOp (fld d 21 1) (storeImage s w.l 2 (fld d 22 1)) (vecImm d) v.1 v.2))) s)) (alone d) d) = true ∧
  ( let d : Bytes := vec 0x19 0 (inSheet 0 0) (inSheet 0 0) (zeros 4) 1 0 0 0 0; takesWit {} (isOp 0x19) (fun _ _ _ => true) (fun w d s =>
      let p := wickShare s w (vecN d)
      endDesc w s (putRows w (opndAt d 4) (typeD d) (laneMask (wickOf s w) d) p.1
        ((getRows s w (opndAt d 8) (typeA d) p.1 p.2).map (fun r => r.map (curveEval (storeImage s w.l 2 (fld d 22 1))))) s)) (alone d) d) = true ∧
  ( let d : Bytes := vec 0x1B 0 (inSheet 1 0) (inSheet 0 0) (zeros 4) 64 0 0 0 128; takesWit {} (isOp 0x1B) (fun w d s => fld d 21 1 == 0 && finishes (seqTiles w d s)) (fun w d s => endDesc w s (leaves s (seqTiles w d s))) (alone d) d) = true ∧
  ( let d : Bytes := vec 0x1B 0 (inMemory 0 0) (inSheet 0 0) (zeros 4) 4 0x40 1 0 0; takesWit {} (isOp 0x1B) (fun w d s => fld d 21 1 != 0 && (opndAt d 4).isMem && finishes (unitWrite w d s)) (fun w d s => endDesc w s (leaves s (unitWrite w d s))) (alone d) d) = true ∧
  ( let d : Bytes := vec 0x1B 0 (inSheet 1 0) (inSheet 0 0) (zeros 4) 4 0x40 1 0 0; takesWit {} (isOp 0x1B) (fun _ d _ => fld d 21 1 != 0 && !(opndAt d 4).isMem) (fun w d s => endDesc w s (putRows w (opndAt d 4) 1 (laneMask (wickOf s w) d) (unitStart s w d) (unitRows s w d) s)) (alone d) d) = true ∧
  ( let d : Bytes := normal 0x1A 0; shareWit {} (fun d => isOp 0x1A d && !setOp d) false (fun _ _ _ _ => true) (fun ws _ d t => doNorm ws d t) d (two d .none) (two d (.implicit 0)) meetTwo) = true ∧
  ( let d : Bytes := normal 0x1A 1; meetWit {} (fun d => isOp 0x1A d && setOp d) (fun _ => true) (fun s w _ => ownPlace s w) (fun w d s t => !setBusy s w.t && finishes (normRounds w d t)) (fun w d t =>
      let u := leaves t (normRounds w d t)
      endShares w.t ((setWicks w t).foldl (fun s e => normOut e.2 (setMeans w d t s e.1)
        (normDen d (setMean s w.t 2 (taskAt t w.t).lanterns ((taskAt t w.t).lanterns.length * vecN d) e.1)) d s) u)) d (both d .none) (sharesIn 2 (both d (.implicit 0)))) = true ∧
  ( let d : Bytes := normal 0x1A 1; giveWit {} (fun d => isOp 0x1A d && setOp d) (fun s w _ => !setBusy s w.t) normRounds d (both d (.implicit 0))) = true ∧
  ( let d : Bytes := normal 0x1C 0; shareWit {} (fun d => isOp 0x1C d && !setOp d) false (fun _ _ _ _ => true) (fun ws _ d t => doReduce ws d t) d (two d .none) (two d (.implicit 0)) meetTwo) = true ∧
  ( let d : Bytes := normal 0x1C 1; meetWit {} (fun d => isOp 0x1C d && setOp d) (fun _ => true) (fun s w _ => ownPlace s w) (fun w d s t => !setBusy s w.t && finishes (reduceRound w d t)) (fun w d t =>
      let u := leaves t (reduceRound w d t)
      endShares w.t ((setWicks w t).foldl (fun s e => e.2.foldl (putReduced d (reducedIn w d t s e.1)) s) u)) d (both d .none) (sharesIn 1 (both d (.implicit 0)))) = true ∧
  ( let d : Bytes := normal 0x1C 1; giveWit {} (fun d => isOp 0x1C d && setOp d) (fun s w _ => !setBusy s w.t) reduceRound d (both d (.implicit 0))) = true ∧
  ( let d : Bytes := normal 0x1D 0; shareWit {} (isOp 0x1D) false (fun _ _ _ _ => true) (fun ws w d t =>
      let v := digestOf (digestKey t (taskAt t w.t).part (lanternWest t w.l)) (ws.flatMap (fun x => digestIn t x d))
      (if (opndAt d 4).space = spSheet then ws.take 1 else ws).foldl (fun s x => putLocal x (opndAt d 4) 0 (le 8 v) s) t) d (two d .none) (two d (.implicit 0)) meetTwo) = true ∧
  ( let d : Bytes := skip 0x18 []; skipsWit {} (isOp 0x18) (alone d) d) = true ∧
  ( let d : Bytes := skip 0x19 []; skipsWit {} (isOp 0x19) (alone d) d) = true ∧
  ( let d : Bytes := skip 0x1B []; skipsWit {} (isOp 0x1B) (alone d) d) = true ∧
  ( let d : Bytes := skip 0x1A []; skipsWit {} (isOp 0x1A) (alone d) d) = true ∧
  ( let d : Bytes := skip 0x1C []; skipsWit {} (isOp 0x1C) (alone d) d) = true ∧
  ( let d : Bytes := skip 0x1D []; skipsWit {} (isOp 0x1D) (alone d) d) = true ∧
  ( let d : Bytes := vec 0x18 0 (inSheet 0 0) inAct (inSheet 1 0) 1 0 0 0 0; poisonWit {} (isOp 0x18) (tainted d) d) = true ∧
  ( let d : Bytes := vec 0x19 0 (inSheet 0 0) inAct (zeros 4) 1 0 0 0 0; poisonWit {} (isOp 0x19) (tainted d) d) = true ∧
  ( let d : Bytes := vec 0x1B 0 (inSheet 1 0) inAct (zeros 4) 64 0 0 0 128; poisonWit {} (isOp 0x1B) (tainted d) d) = true ∧
  ( let d : Bytes := vec 0x1A 0 (inSheet 0 0) inAct (inSheet 1 0) 1 0 0 0 0; poisonWit {} (isOp 0x1A) (tainted d) d) = true ∧
  ( let d : Bytes := vec 0x1C 0 (inSheet 0 0) inAct (zeros 4) 1 0 0 0 0; poisonWit {} (isOp 0x1C) (tainted d) d) = true ∧
  ( let d : Bytes := vec 0x1D 0 (inSheet 0 0) inAct (zeros 4) 1 0 0 0 0; poisonWit {} (isOp 0x1D) (tainted d) d) = true := by decide +kernel

/-- States and operands that meet what Obligations.AttentionAndCacheComplete asks, clause by clause. -/
theorem met_AttentionAndCacheComplete :
  (let ue : Ue := {}; let d : Bytes := desc 0x20 0 0 ([2#8, 1#8, 0#8, 0#8] ++ inSheet 0 0 ++ inSheet 1 0); shareWit ue (isOp 0x20) false (fun ws _ d t => finishes (attReads ws d t)) (fun ws w d t => ws.foldl (fun s x => attScratch x s) (attStore ws w.l d (result (attReads ws d t)) (leaves t (attReads ws d t)))) d (two d .none) (two d (.implicit 0)) meetTwo) = true ∧
  ( let d : Bytes := desc 0x21 0 0 (inSheet 0 0 ++ inSheet 1 0 ++ [1#8, 1#8]); meetWit {} (isOp 0x21) (fun _ => true) (fun s w _ => ownPlace s w) (fun w d s t => !setBusy s w.t && finishes (mergeRounds w d t)) (fun w d t =>
      let u := leaves t (mergeRounds w d t)
      let ls := (taskAt u w.t).lanterns
      endShares w.t (ls.zipIdx.foldl (fun s o => (if fld d 2 1 = 1 then ls else [o.1]).foldl (fun s l => mergeWrite w.t d w.ue o.1 o.2 l s) s) u)) d (both d .none) (sharesIn 2 (both d (.implicit 0)))) = true ∧
  ( let d : Bytes := desc 0x21 0 0 (inSheet 0 0 ++ inSheet 1 0 ++ [1#8, 1#8]); giveWit {} (isOp 0x21) (fun s w _ => !setBusy s w.t) mergeRounds d (both d (.implicit 0))) = true ∧
  (let ue : Ue := {}; let d : Bytes := desc 0x22 0 0 ([2#8, 0#8, 0#8, 0#8] ++ inSheet 0 0 ++ [63#8, 1#8]); meetWit ue (isSub 0x22 5 0) (fun _ => true) (fun s w _ => ownPlace s w) (fun w d s t => (taskAt s w.t).exch.isEmpty &&
      decide (appendPos t w d (fld d 13 1 - 1) < (poolAt t (seqAt t (seqOf t w.t d)).pool).maxTokens) && (appendFrames t w d).isSome &&
      finishes (appendDrafts t w d)) (fun w d t => modSeq (seqOf t w.t d) (fun q => { q with d := max q.d (fld d 12 1 + fld d 13 1) }) (leaves t (appendDrafts t w d))) d (both d .none) (both d (.implicit 0))) = true ∧
  (let ue : Ue := {}; let d : Bytes := desc 0x22 0 0 [2#8, 1#8]; meetWit ue (isSub 0x22 5 1) (fun _ => true) (fun s w _ => ownPlace s w) (fun w d s t => !setBusy s w.t && (accepted d).all (fun a => decide (a < (seqAt t (seqOf t w.t d)).d)) && finishes (commitMarks t w d) &&
      !(result (commitMarks t w d)).contains false && finishes (commitRound w d t) && finishes (commitLands w d t)) (fun w d t => endShares w.t (advanceEpoch w.ue (seqOf t w.t d)
      (modSeq (seqOf t w.t d) (fun q => { q with c := q.c + fld d 14 1 }) (leaves t (commitLands w d t))))) d (both d .none) (sharesIn 1 (both d (.implicit 0)))) = true ∧
  (let ue : Ue := {}; let d : Bytes := desc 0x22 0 0 ([2#8, 1#8] ++ zeros 8 ++ [1#8, 0#8, 1#8]); giveWit ue (isSub 0x22 5 1) (fun s w d => !setBusy s w.t && (accepted d).all (fun a => decide (a < (seqAt s (seqOf s w.t d)).d)) &&
      finishes (commitMarks (waitsAt w (ownPlace s w) s) w d) && !(result (commitMarks (waitsAt w (ownPlace s w) s) w d)).contains false) commitRound d (drafted (both d (.implicit 0)))) = true ∧
  (let ue : Ue := {}; let d : Bytes := desc 0x22 0 0 [2#8, 2#8]; meetWit ue (isSub 0x22 5 2) (fun _ => true) (fun s w _ => ownPlace s w) (fun w _ s _ => !setBusy s w.t) (fun w d t => advanceEpoch w.ue (seqOf t w.t d) t) d (both d .none) (both d (.implicit 0))) = true ∧
  (let ue : Ue := {}; let d : Bytes := skip 0x20 []; skipsWit ue (isOp 0x20) (alone d) d) = true ∧
  ( let d : Bytes := skip 0x21 []; skipsWit {} (isOp 0x21) (alone d) d) = true ∧
  (let ue : Ue := {}; let d : Bytes := skip 0x22 []; skipsWit ue (isSub 0x22 5 0) (alone d) d) = true ∧
  (let ue : Ue := {}; let d : Bytes := skip 0x22 [2#8, 1#8]; skipsWit ue (isSub 0x22 5 1) (alone d) d) = true ∧
  (let ue : Ue := {}; let d : Bytes := skip 0x22 [2#8, 2#8]; skipsWit ue (isSub 0x22 5 2) (alone d) d) = true := by decide +kernel

/-- States and operands that meet what Obligations.ExpertDescriptorsComplete asks, clause by clause. -/
theorem met_ExpertDescriptorsComplete :
  (let ue : Ue := {}; let d : Bytes := desc 0x28 0 0 (inSheet 0 0 ++ inSheet 1 0 ++ [0#8, 0#8, 15#8, 0#8] ++ le 4 0); shareWit ue (fun d => isOp 0x28 d && !setOp d) false (fun _ w d t => !(setBusy t w.t && decide ((taskAt t w.t).lanterns.length > 1)) && finishes (topkRead w.t d w.ue t)) (fun _ w d t => topkStore w.t d w.ue (fun _ => result (topkRead w.t d w.ue t)) (leaves t (topkRead w.t d w.ue t))) d (two d .none) (two d (.implicit 0)) meetTwo) = true ∧
  (let ue : Ue := {}; let d : Bytes := desc 0x28 0 0 (inSheet 0 0 ++ inSheet 1 0 ++ [0#8, 0#8, 15#8, 0#8] ++ le 2 1 ++ [1#8, 0#8]); meetWit ue (fun d => isOp 0x28 d && setOp d) (fun _ => true) (fun s w _ => ownPlace s w) (fun w d s t => !setBusy s w.t && finishes (topkRound w d t)) (fun w d t =>
      let u := leaves t (topkRound w d t)
      endShares w.t (topkStore w.t d w.ue (fun l => (taskAt u w.t).lanterns.map (fun a => candsOf (groupAt u (fld d 14 1)).k (shareAtOf u w.t 1 a l))) u)) d (both d .none) (sharesIn 1 (both d (.implicit 0)))) = true ∧
  (let ue : Ue := {}; let d : Bytes := desc 0x28 0 0 (inSheet 0 0 ++ inSheet 1 0 ++ [0#8, 0#8, 15#8, 0#8] ++ le 2 1 ++ [1#8, 0#8]); giveWit ue (fun d => isOp 0x28 d && setOp d) (fun s w _ => !setBusy s w.t) topkRound d (both d (.implicit 0))) = true ∧
  (let ue : Ue := {}; let d : Bytes := desc 0x29 0 0 (inSheet 0 0 ++ inSheet 1 0 ++ inSheet 1 0x2000 ++ [0#8, 3#8, 15#8, 0#8, 0#8, 0#8] ++ le 2 64 ++ le 2 64 ++ le 2 0 ++ le 4 1); shareWit ue (isSub 0x29 16 0) true (fun _ w d t => !setBusy t w.t &&
      !(heldBatch t w d != 0 && decide ((combineAt t (heldBatch t w d - 1)).state = .open_) && (combineAt t (heldBatch t w d - 1)).task == w.t) &&
      (batchPairs w.t d w.ue t).isSome && (openableSlot (freeBatch w.t (heldBatch t w d) t) (taskAt t w.t).part).isSome) (fun _ w d t =>
      let u := freeBatch w.t (heldBatch t w d) t
      openBatch w.t ((openableSlot u (taskAt t w.t).part).getD 0) d w.ue ((batchPairs w.t d w.ue t).getD []) t u) d (both d .none) (both d (.implicit 0)) meetBoth) = true ∧
  ( let d : Bytes := desc 0x29 0 0 (inSheet 0 0 ++ le 2 1 ++ zeros 6 ++ [1#8]); shareWit {} (isSub 0x29 16 1) false (fun _ w _ t => depsOf t w.t w.l == [] && forCommand (taskAt t w.t)) (fun _ _ _ t => t) d (two d .none) (two d (.implicit 0)) meetTwo) = true ∧
  (let pi : Nat := 2; let d : Bytes := desc 0x29 0 0 (inSheet 0 0 ++ le 2 1 ++ zeros 6 ++ [1#8]); shareWit {} (isSub 0x29 16 1) false (fun _ w _ t => depsOf t w.t w.l == [] && decide ((taskAt t w.t).purpose = .pilot pi)) (fun _ w d t => driveFabric w.ue ((lanesOf t pi).foldl
      (fun s lane => sendAnswers w.t w.l (laneMask (wickOf t (lead w.t w.l w.ue)) d) pi d lane s) t)) d (modTask 1 (fun x => { x with purpose := .pilot 2 }) (two d .none)) (modTask 1 (fun x => { x with purpose := .pilot 2 }) (two d (.implicit 0))) meetTwo) = true ∧
  ( let d : Bytes := desc 0x29 0 0 (zeros 12 ++ [2#8, 3#8]); shareWit {} (isSub 0x29 16 2) true (fun _ w d t => heldBatch t w d == 0) (fun _ _ _ t => t) d (both d .none) (both d (.implicit 0)) meetBoth) = true ∧
  ( let d : Bytes := desc 0x29 0 0 (zeros 12 ++ [2#8, 3#8]); shareWit {} (isSub 0x29 16 2) true (fun _ w d t => heldBatch t w d != 0) (fun _ w d t => modTask w.t (fun x => { x with batches := tset 0 x.batches (fld d 17 1) 0, cancelled := fld d 17 1 :: x.cancelled })
      (if (combineAt t (heldBatch t w d - 1)).task = w.t then freeSlot (heldBatch t w d - 1) t else t)) d (both d .none) (batched .open_ false (both d (.implicit 0))) meetBoth) = true ∧
  ( let d : Bytes := desc 0x2A 0 0 [3#8]; meetWit {} (isOp 0x2A) (fun _ => true) (fun s w _ => ownPlace s w) (fun w d s t =>
      let k := tget 0 (taskAt t w.t).batches (fld d 4 1)
      (taskAt s w.t).exch.isEmpty && !(taskAt t w.t).cancelled.contains (fld d 4 1) && k != 0 && (combineAt t (k - 1)).task == w.t &&
        decide ((combineAt t (k - 1)).state = .complete ∨ ((combineAt t (k - 1)).state = .expired ∧ (combineAt t (k - 1)).degrade = true)) &&
        ((combineAt t (k - 1)).state != .expired || !(combineAt t (k - 1)).parts.any (fun p => p.state = .open_))) (fun w d t =>
      let x := taskAt t w.t
      let k := tget 0 x.batches (fld d 4 1)
      let u := if (combineAt t (k - 1)).state = .complete then t
        else modCounters x.part (fun y => { y with degraded := satTo 64 (y.degraded + (missingPairs (combineAt t (k - 1))).length) }) t
      freeSlot (k - 1) (modTask w.t (fun x => { x with batches := tset 0 x.batches (fld d 4 1) 0 }) u)) d (both d .none) (batched .expired true (both d (.implicit 0)))) = true ∧
  (let ue : Ue := {}; let d : Bytes := skip 0x28 []; skipsWit ue (isOp 0x28) (alone d) d) = true ∧
  (let ue : Ue := {}; let d : Bytes := skip 0x29 []; skipsWit ue (isSub 0x29 16 0) (alone d) d) = true ∧
  ( let d : Bytes := skip 0x29 (zeros 12 ++ [1#8]); skipsWit {} (isSub 0x29 16 1) (alone d) d) = true ∧
  ( let d : Bytes := skip 0x29 (zeros 12 ++ [2#8]); skipsWit {} (isSub 0x29 16 2) (alone d) d) = true ∧
  ( let d : Bytes := skip 0x2A []; skipsWit {} (isOp 0x2A) (alone d) d) = true := by decide +kernel

/-! ## Queues -/

/-- A command of a type under context tag 0: its own fields stand from byte 40 on. -/
def command (ty flags : Byte) (rest : Bytes) : Bytes := fit 64 ([1#8, ty, flags, 0#8] ++ zeros 36 ++ rest)

/-- Queue 5, ACTIVE, number 63 of an owner, changed as given. -/
def fed (p : Nat) (f : Queue → Queue) (s : State) : State := setQueue 5 (f { state := .active, part := p, q := 63, head := 3, tail := 7 }) s

/-- A command of the manager that is dispatched and held. -/
def held (c : InFlight) (s : State) : State := fed 16 (fun q => { q with inflight := [c], serial := 10 }) s

/-- A command of the manager that stands at dispatch. -/
def standing (c : Bytes) (s : State) : State := fed 16 (fun q => { q with atDispatch := some ⟨c, [], [], []⟩, serial := 9 }) s

/-- A doorbell of that queue of partition 0. -/
def bell (v : Word64) : RegAccess := { func := 0, tee := true, offset := 0x1011F8, size8 := true, data := v }

/-- A TASK of the program with nothing but END, in lantern 0, one wick. -/
def taskCmd : Bytes := command 1 0 (le 8 (bare 0x100) ++ le 8 (bare 0x180) ++ le 2 1 ++ [1#8, 0#8])
def withProgram : State := holding 0x100 (endProgram 8) stocked

/-- The task of that command, made ready. -/
def readied : Nat × State :=
  let a : TaskAsk := taskAskOf (held { cmd := taskCmd, serial := 9 } stocked) 5 taskCmd 9
  let s := held { cmd := taskCmd, serial := 9, task := some 1 } withProgram
  prepareTask a (fetchProgram {} a s).1 s

/-- A COPY of 64 bytes in the clear. -/
def copyCmd (hostEnds : Byte) : Bytes := command 2 0 (le 8 (bare 0x1000) ++ le 8 (bare 0x2000) ++ le 6 64 ++ [hostEnds])

/-- A WAIT for a value of fence 2. -/
def waitCmd (v : Nat) : Bytes := command 6 0 (le 4 0x10002 ++ zeros 4 ++ le 8 v)

/-- The internal dispatch key of both halves is zeros. -/
def linked : State :=
  setMirror 1024 { key := zeros 32, held := true } (setSlot 1024 { key := zeros 32, cls := .internal, state := .active, owner := 17, uses := uncounted } stocked)

/-- The first records under it: a copy's chunk for the agent, a copy's end for the front end. -/
def toAgent : SealedRecord := let x := sealRecord linked true 1 (DispatchBody.copyChunk 5).bytes; ⟨1, x.1, x.2⟩
def toFrontEnd : SealedRecord := let x := sealRecord linked false 1 (ReportBody.copyDone 5).bytes; ⟨1, x.1, x.2⟩

/-- Node 3 is reached by the East port 1, which is UP; a FABRIC command to it. -/
def eastward : Bytes := command 4 0 (le 8 (3 * 2 ^ 48) ++ zeros 8 ++ le 4 1 ++ [1#8])
def routedEast (s : State) : State :=
  onFabric (fun f => { f with domState := 2, node := 5, west := { f.west with routes := [(3, 0xA010000000000001#64)] }
                              links := [(1, { state := .up, trained := true, peer := 3, major := 1, rxKey := zeros 32, txKey := zeros 32 })] }) s

/-- An IMPORT of one chunk under MODEL key 40, which is the manager's, and the chunk it reads. -/
def importCmd_ : Bytes := command 3 0 (le 8 (bare 0x1000) ++ le 8 (bare 0x2000) ++ le 2 40 ++ le 2 1)
def chunkHeader : Bytes := fit 64 ([1#8] ++ zeros 15 ++ le 4 64)
def sealedChunk : Bytes := le 80 0x6c2366f50c51659d3915675f5d824e421f3a0cabe31d7c61307fbb81e1cb4147f7360c472459e8417be14a4d28b14add8e3506758ef5a2d1742aa637ca036072189df3bad3c54e076e6b604d3d40a7ce
def importing : State :=
  setSlot 40 { tag := le 16 0x98657d446569689a5cb5be5a8e63a836, key := zeros 32, cls := .model, state := .active, owner := 16, engines := 8, uses := uncounted }
    (holding 0x1000 (chunkHeader ++ sealedChunk) (held { cmd := importCmd_, serial := 9, started := true, flying := 1 } stocked))

/-- The key slot of that IMPORT stands its check, and its use changes nothing: it is not counted. -/
theorem importing_sound : slotSound importing 40 = true := by decide +kernel
theorem importing_key : partKey 5 { cmd := importCmd_, serial := 9, started := true, flying := 1 } importing = (stOk, importing) := by
  have h : checkSlot 40 importing = importing := by
    have hs : (slotAt importing 40).state ≠ .bad := by decide +kernel
    have hi : injectCheck clsSlotBad kindKeyStore 0 40 0 importing = (false, importing) := by
      have hn : importing.faults.inject = [] := by decide +kernel
      simp only [injectCheck, takeInjection, hn, List.find?_nil, Bool.false_eq_true, if_false]
    simp [checkSlot, hs, hi, importing_sound]
  have hu : useModel 40 16 importing = useSlot 40 importing := by
    have hm : ((slotAt importing 40).state = .empty ∨ (slotAt importing 40).cls ≠ .model ∨ (slotAt importing 40).owner ≠ 16 ∨
      ¬ (slotAt importing 40).engines.toNat.testBit 3) ↔ False := by decide +kernel
    simp only [useModel, hm, if_false]
  have hk : useSlot 40 importing = (stOk, importing) := by
    have h1 : slotStatus (slotAt importing 40) = stOk := by decide +kernel
    have h2 : (slotAt importing 40).uses = uncounted := by decide +kernel
    simp [useSlot, h, h1, h2]
  have hf : fld importCmd_ 56 2 = 40 := by decide +kernel
  have hq : (queueAt importing 5).part = 16 := by decide +kernel
  simp only [partKey, hf, hq, hu, hk]
/-- The command as it stands, and what its reads give. -/
def importFlying : InFlight := { cmd := importCmd_, serial := 9, started := true, flying := 1 }
theorem importing_head : (partHead 5 {} importFlying importing).1.status = stOk ∧ (partHead 5 {} importFlying importing).1.data = chunkHeader := by
  simp only [importFlying, partHead, importing_key]; decide +kernel
theorem importing_body : (partBody 5 {} importFlying importing).1.status = stOk ∧ (partBody 5 {} importFlying importing).1.data = sealedChunk := by
  simp only [importFlying, partBody, partHead, importing_key]; decide +kernel
theorem importing_plain : partPlain 5 {} importFlying importing = some (zeros 64) := by
  have hn : wcLength chunkHeader = 64 := by decide +kernel
  have hk : slotKey importing (lanternWest importing (partLantern importing importFlying)) (fld importFlying.cmd 56 2) = zeros 32 := by decide +kernel
  simp only [partPlain, importing_head, importing_body, hk, hn]; decide +kernel

/-- Where no rotation runs nothing waits to be read; where no page is quarantined either, nothing waits at all. -/
theorem quiet_range (s : State) (w : Bool) (a n : Nat) (h : ∀ k pl, chunkOpen s k pl = false) (hq : ∀ l p, quarantined s l p = false) :
    rangeWaits s w a n = false := by
  have hr (x : Nat) : readWaits s x = false := by
    unfold readWaits
    generalize place s (domainOf x) = o
    cases o with
    | none => exact rfl
    | some pl => exact h _ _
  have hw (x : Nat) : writeWaits s x = false := by
    unfold writeWaits
    generalize place s (domainOf x) = o
    match o with
    | none => exact rfl
    | some (.stacked l la) => simp only [h, hq, Bool.or_false]
    | some (.capacity c ca) => simp only [h, Bool.or_false]
  rw [rangeWaits, List.any_eq_false]
  intro i _
  cases w <;> simp only [hr, hw, if_true, if_false, Bool.false_eq_true, Bool.and_false, not_false_eq_true]

theorem importing_quiet (w : Bool) (a n : Nat) : rangeWaits importing w a n = false := by
  have hr : importing.path.rotations = [] := by decide +kernel
  have hl : importing.path.lanterns.all (fun e => e.2.quarantine.isEmpty) = true := by decide +kernel
  refine quiet_range _ w a n (fun k pl => ?_) (fun l p => ?_)
  · simp only [chunkOpen, Machine.rotationOf, hr, List.find?_nil, Option.bind_none]
  · have he : (lanternAt importing l).quarantine = [] := by
      unfold lanternAt
      generalize importing.path.lanterns = t at hl
      induction t with
      | nil => rfl
      | cons e t ih =>
        simp only [List.all_cons, Bool.and_eq_true, List.isEmpty_iff] at hl
        simp only [tget]
        split
        · exact hl.1
        · exact ih hl.2
    simp only [quarantined, he, List.any_nil]

/-- A chunk of an IMPORT that deciphers. -/
theorem met_importChunk : meets (fun s =>
    decide (flyingCommand s 5 3 = some importFlying) && !importFlying.storing && !islandStopped s .copyEngine && !islandStopped s (.crypto (partLantern s importFlying)) &&
      !rangeWaits s false (partSrc importFlying) 1048704 && !rangeWaits s true (partDst importFlying) 1048576 &&
      !lanternSnuffed s (partLantern s importFlying) && (partKey 5 importFlying s).1 == stOk && (partHead 5 {} importFlying s).1.status == stOk &&
      wcOk (partHead 5 {} importFlying s).1.data (partIndex importFlying) && (partBody 5 {} importFlying s).1.status == stOk &&
      partPlain 5 {} importFlying s == some (zeros 64)) importing = true := by
  simp only [meets, importing_head, importing_body, importing_plain, importing_quiet]
  simp only [importFlying, importing_key]
  decide +kernel

/-- States and operands that meet what Obligations.SubmissionCommandsComplete asks, clause by clause. -/
theorem met_SubmissionCommandsComplete :
  (let a : RegAccess := bell 67; let p : Nat := 0; let off : Nat := 0x11F8; let qi : Nat := 5; meets (fun s => bellReaches a p off qi s && doorbellOk (queueAt s qi) (a.data.setWidth 32)) (fed 0 id stocked)) = true ∧
  (let a : RegAccess := bell 68; let p : Nat := 0; let off : Nat := 0x11F8; let qi : Nat := 5; meets (fun s => bellReaches a p off qi s && !doorbellOk (queueAt s qi) (a.data.setWidth 32)) (fed 0 id stocked)) = true ∧
  (let k : Nat := 5; meets (fun s => dispatchOpen s && decide (nextServed s = some k)) (fed 0 (fun q => { q with rung := true }) stocked)) = true ∧
  ( meets (fun s => dispatchOpen s && decide (nextServed s = none)) (fed 0 (fun q => { q with tail := 3 }) stocked)) = true ∧
  (let qi : Nat := 5; let h : HostRead := ⟨stOk, zeros 64⟩; meets (fun s => (queueAt s qi).fetching != 0 && queueServed s (queueAt s qi) && !(queueAt s qi).device && h.status == stOk) (fed 0 (fun q => { q with fetching := 1 }) stocked)) = true ∧
  (let qi : Nat := 5; let ue : Ue := {}; meets (fun s =>
      let q := queueAt s qi
      q.fetching != 0 && queueServed s q && q.device && !rangeWaits s false (ringAddr s q) (64 * q.fetching) &&
        (memRead (ringReq q) ue (ringAddr s q) (64 * q.fetching) s).1.status == stOk) (fed 16 (fun q => { q with fetching := 1, device := true, ringObj := 5, ring := BitVec.ofNat 64 (bare 0) }) (setObj 5 { state := .live, owner := 16, key := 0xFFF, length := 0x200000 } stocked))) = true ∧
  (let qi : Nat := 5; let ue : Ue := {}; let c : Bytes := command 5 0 []; let rest : List Bytes := []; meets (fun s => decide ((queueAt s qi).fetched = c :: rest) && dispatchReady s (queueAt s qi) && (checkCommand ue qi c s).status == stOk) (fed 16 (fun q => { q with fetched := [command 5 0 []] }) stocked)) = true ∧
  (let qi : Nat := 5; let ue : Ue := {}; let c : Bytes := zeros 64; let rest : List Bytes := []; meets (fun s => decide ((queueAt s qi).fetched = c :: rest) && dispatchReady s (queueAt s qi) && (checkCommand ue qi c s).status != stOk) (fed 16 (fun q => { q with fetched := [zeros 64] }) stocked)) = true := by decide +kernel

/-- States and operands that meet what Obligations.HeldCommandsStart asks, clause by clause. -/
theorem met_HeldCommandsStart :
  (let qi : Nat := 5; let t : Nat := 1; let c : InFlight := { cmd := taskCmd, serial := 9, task := some 1 }; meets (fun s =>
      let a := taskAskOf s qi c.cmd c.serial
      let p := progOf a (fetchedOf (taskAt s t)) (taskAt s t).lanterns.length
      mayStart s qi c && cmdType c.cmd == 1 && c.task == some t && taskChecks s a (fetchedOf (taskAt s t)) == stOk && !outranked s qi c &&
        resourcesFree s a (taskAt s t).sheetUnits.sum (progSeqs p) && !(progPins s p).any (fun k => tableLoading s k.1 k.2)) (readied.2)) = true ∧
  (let qi : Nat := 5; let c : InFlight := { cmd := copyCmd 0, serial := 9 }; meets (fun s => mayStart s qi c && (cmdType c.cmd == 2 || cmdType c.cmd == 3) && copySpace s) (held { cmd := copyCmd 0, serial := 9 } stocked)) = true ∧
  (let qi : Nat := 5; let c : InFlight := { cmd := command 4 0 [], serial := 9 }; meets (fun s => mayStart s qi c && cmdType c.cmd == 4 && !fabricEast s c) (held { cmd := command 4 0 [], serial := 9 } stocked)) = true ∧
  (let qi : Nat := 5; let c : InFlight := { cmd := eastward, serial := 9 }; meets (fun s => mayStart s qi c && cmdType c.cmd == 4 && fabricEast s c) (routedEast (held { cmd := eastward, serial := 9 } stocked))) = true ∧
  (let qi : Nat := 5; let c : InFlight := { cmd := command 5 0 [], serial := 9 }; meets (fun s => mayStart s qi c && cmdType c.cmd == 5) (held { cmd := command 5 0 [], serial := 9 } stocked)) = true ∧
  (let qi : Nat := 5; let c : InFlight := { cmd := waitCmd 6, serial := 9 }; meets (fun s =>
      let k := fld c.cmd 40 4 % 2048
      mayStart s qi c && cmdType c.cmd == 6 && waitOutcome (marked qi c s) false k (fenceAt (marked qi c s) k).gen (BitVec.ofNat 64 (fld c.cmd 48 8)) 0 == none) (held { cmd := waitCmd 6, serial := 9 } stocked)) = true ∧
  (let qi : Nat := 5; let st : Nat := stOk; let c : InFlight := { cmd := waitCmd 5, serial := 9 }; meets (fun s =>
      let k := fld c.cmd 40 4 % 2048
      mayStart s qi c && cmdType c.cmd == 6 && waitOutcome (marked qi c s) false k (fenceAt (marked qi c s) k).gen (BitVec.ofNat 64 (fld c.cmd 48 8)) 0 == some st) (held { cmd := waitCmd 5, serial := 9 } stocked)) = true ∧
  (let qi : Nat := 5; let ue : Ue := {}; let pi : Nat := 3; let c : InFlight := { cmd := command 7 0 ([63#8] ++ zeros 7 ++ le 8 (bare 0x1000)), serial := 9 }; meets (fun s => mayStart s qi c && cmdType c.cmd == 7 && pilotNamed s (queueAt s qi).part (fld c.cmd 40 1) == some pi && pilotTakes s pi &&
      pilotRoom s pi && !rangeWaits s false (fld c.cmd 48 8) 64 &&
      (memRead (feReq (queueAt s qi).part 6 (queueAt (marked qi c s) qi).q) ue (fld c.cmd 48 8) 64 (marked qi c s)).1.status == stOk) (setPilot 3 { state := .waiting, part := 16, n := 63 } (held { cmd := command 7 0 ([63#8] ++ zeros 7 ++ le 8 (bare 0x1000)), serial := 9 } stocked))) = true := by decide +kernel

/-- States and operands that meet what Obligations.QueueCommandsComplete asks, clause by clause. -/
theorem met_QueueCommandsComplete :
  (let qi : Nat := 5; let ue : Ue := {}; let d : AtDispatch := ⟨taskCmd, [], [], []⟩; meets (fun s =>
      let a := taskAskOf s qi d.cmd (queueAt s qi).serial
      let x := taskFetch qi ue d s
      decide (atType s qi 1 = some d) && taskFieldsOk d.cmd && setOk s a.part a.mask a.w && !rangeWaits s false a.prog 64 &&
        taskChecks x.2 a x.1 == stOk && handlesHold x.2 qi d && handlesHold (prepareTask a x.1 x.2).2 qi d &&
        decide ((queueAt (prepareTask a x.1 x.2).2 qi).state = .active)) (standing taskCmd withProgram)) = true ∧
  (let qi : Nat := 5; let d : AtDispatch := ⟨copyCmd 0, [], [], []⟩; meets (fun s => decide (atType s qi 2 = some d) && copyStatus s (queueAt s qi).part d.cmd == stOk && handlesHold s qi d) (standing (copyCmd 0) stocked)) = true ∧
  (let qi : Nat := 5; let d : AtDispatch := ⟨importCmd_, [], [], []⟩; meets (fun s => decide (atType s qi 3 = some d) && fld d.cmd 58 2 != 0 && handlesHold s qi d) (standing importCmd_ stocked)) = true ∧
  (let qi : Nat := 5; let d : AtDispatch := ⟨command 4 0 (zeros 16 ++ le 4 1 ++ [1#8]), [], [], []⟩; meets (fun s => decide (atType s qi 4 = some d) && fabricStatus d.cmd == stOk && handlesHold s qi d) (standing (command 4 0 (zeros 16 ++ le 4 1 ++ [1#8])) stocked)) = true ∧
  (let qi : Nat := 5; let d : AtDispatch := ⟨command 5 0 [], [], [], []⟩; meets (fun s => decide (atType s qi 5 = some d) && handlesHold s qi d) (standing (command 5 0 []) stocked)) = true ∧
  (let qi : Nat := 5; let d : AtDispatch := ⟨waitCmd (2 ^ 63 - 1), [], [], []⟩; meets (fun s => decide (atType s qi 6 = some d) && decide (fld d.cmd 48 8 < 2 ^ 63) && handlesHold s qi d) (standing (waitCmd (2 ^ 63 - 1)) stocked)) = true ∧
  (let qi : Nat := 5; let d : AtDispatch := ⟨command 7 0 [63#8], [], [], []⟩; meets (fun s => decide (atType s qi 7 = some d) && decide (fld d.cmd 40 1 ≤ 63) && handlesHold s qi d) (standing (command 7 0 [63#8]) stocked)) = true ∧
  (let qi : Nat := 5; let d : AtDispatch := ⟨command 2 0 (zeros 16 ++ le 6 (2 ^ 40 + 64)), [], [], []⟩; meets (fun s => decide (atType s qi 2 = some d) && copyStatus s (queueAt s qi).part d.cmd != stOk && handlesHold s qi d) (standing (command 2 0 (zeros 16 ++ le 6 (2 ^ 40 + 64))) stocked)) = true ∧
  (let qi : Nat := 5; let d : AtDispatch := ⟨command 4 0 (zeros 16 ++ le 4 1 ++ [6#8]), [], [], []⟩; meets (fun s => decide (atType s qi 4 = some d) && fabricStatus d.cmd != stOk && handlesHold s qi d) (standing (command 4 0 (zeros 16 ++ le 4 1 ++ [6#8])) stocked)) = true ∧
  (let qi : Nat := 5; let d : AtDispatch := ⟨waitCmd (2 ^ 63), [], [], []⟩; meets (fun s => decide (atType s qi 6 = some d) && decide (2 ^ 63 ≤ fld d.cmd 48 8) && handlesHold s qi d) (standing (waitCmd (2 ^ 63)) stocked)) = true ∧
  (let qi : Nat := 5; let d : AtDispatch := ⟨command 5 0 [], [9], [], [0x10009]⟩; meets (fun s => decide (atType s qi 5 = some d) && !handlesHold s qi d) (fed 16 (fun q => { q with atDispatch := some ⟨command 5 0 [], [9], [], [0x10009]⟩, serial := 9 }) stocked)) = true := by decide +kernel

/-- States and operands that meet what Obligations.EngineCompletionsComplete asks, clause by clause. -/
theorem met_EngineCompletionsComplete :
  (let qi : Nat := 5; let ue : Ue := {}; let h : HostRead := ⟨stOk, []⟩; let c : InFlight := { cmd := copyCmd 2, serial := 9, started := true, flying := 1 }; meets (fun s => chunkMoves qi h ue c s && dstHost c.cmd) (held { cmd := copyCmd 2, serial := 9, started := true, flying := 1 } stocked)) = true ∧
  (let qi : Nat := 5; let ue : Ue := {}; let h : HostRead := ⟨stOk, []⟩; let c : InFlight := { cmd := copyCmd 1, serial := 9, started := true, flying := 1 }; meets (fun s => chunkMoves qi h ue c s && !dstHost c.cmd) (held { cmd := copyCmd 1, serial := 9, started := true, flying := 1 } stocked)) = true ∧
  (let qi : Nat := 5; let c : InFlight := { cmd := importCmd_, serial := 9, started := true, flying := 1, storing := true }; meets (fun s => decide (flyingCommand s qi 3 = some c) && c.storing && c.exch == []) (held { cmd := importCmd_, serial := 9, started := true, flying := 1, storing := true } stocked)) = true ∧
  (let r : SealedRecord := toAgent; let b : Bytes := (DispatchBody.copyChunk 5).bytes; let body : DispatchBody := .copyChunk 5; meets (fun s =>
      let x := injectCheck clsDispatchPath kindFeAgent 0 0 0 s
      !islandStopped s .feAgent && !x.1 && r.counter == x.2.keys.dispatchRx + 1 && openRecord x.2 true r == some b && dispatchBodyOf b == some body) (linked)) = true ∧
  (let r : SealedRecord := { toAgent with counter := 2 }; meets (fun s =>
      let x := injectCheck clsDispatchPath kindFeAgent 0 0 0 s
      !islandStopped s .feAgent && (x.1 || r.counter != x.2.keys.dispatchRx + 1 || openRecord x.2 true r == none)) (linked)) = true ∧
  (let r : SealedRecord := toFrontEnd; let b : Bytes := (ReportBody.copyDone 5).bytes; let body : ReportBody := .copyDone 5; meets (fun s =>
      let x := injectCheck clsDispatchPath kindFrontEnd 0 0 0 s
      !islandStopped s .frontEnd && !x.1 && r.counter == x.2.keys.reportRx + 1 && openRecord x.2 false r == some b && reportBodyOf b == some body) (linked)) = true ∧
  (let t : Nat := 1; meets (fun s => eastReady s t) (setTask 1 { live := true, eastGo := true, lanterns := [1], w := 1, wicks := [(256, { ended := true, phys := 0 })] } linked)) = true ∧
  (let t : Nat := 1; let qi : Nat := 5; let n : Nat := 9; meets (fun s => !eastReady s t && !islandStopped s .frontEnd && taskEnded s t && decide ((taskAt s t).purpose = .command qi n)) (setTask 1 { live := true, purpose := .command 5 9, lanterns := [0], w := 1, wicks := [(0, { ended := true, phys := 0 })] } stocked)) = true ∧
  (meets (fun _ => true) (up)) = true := by decide +kernel

/-! ## The seam -/

/-- A message of a class with its CLASS_ARG and payload, first in sequence, undamaged. -/
def msg (toEast : Bool) (cls arg : Nat) (payload : List Word64) : SeamMsg := ⟨toEast, seamHeader cls arg 0 payload.length, payload, 0, false⟩

/-- The halves share a session key of zeros. -/
def shared : State := onSeam (fun x => { x with eastKey := zeros 32, sessionKey := zeros 32 }) up

/-- The generator of the curve as a public key, with a nonce of zeros, in payload words. -/
def pairWords : List Word64 := [0x37058bbe22ca87aa#64, 0x74ad20f31ec7b18e#64, 0x989ba78b623b1d6e#64, 0x382a5482e041f759#64, 0x6c2955bf5df20255#64, 0xb70a7672385e543a#64, 0x6f2c26964ade1736#64, 0x29dc9292bf989e5d#64, 0x7c149a28bd1df4f8#64, 0xc0b8f0b51331dae9#64, 0x9d817e1dceb1600a#64, 0x5f0eea907c1d437a#64, 0x0#64, 0x0#64]

/-- East has drawn the private key 1, and the halves are not paired. -/
def unpaired : State := apart (onSeam (fun x => { x with eastPriv := 1 }) up)

/-- Sealed KEY messages of counter 1: a load and a clear of slot 5, a clear of all, an acknowledgement. -/
def loadMsg : SeamMsg := msg true 2 0x1000005 [0x644965b3c98eb166#64, 0xba486610a24a0ca#64, 0x3efd250d1c22d371#64, 0xaa4f65b0def22c56#64, 0xe537240ce1527fde#64, 0x13ab4477b9a965c2#64, 0xdbd0a83399ce0d51#64, 0xd08c95dfb9dfbca4#64]
def clearMsg : SeamMsg := msg true 2 0x2000005 [0x4797b8471b72b24#64, 0xf5967be0dfdd275c#64]
def clearAllMsg : SeamMsg := msg true 2 0x3000000 [0x883523c15575cf8e#64, 0xa6f746e762ed4593#64]
def ackMsg : SeamMsg := msg false 2 0x1000005 [0x97b30bd7593ecf40#64, 0x57a8dbdf816bf755#64]

/-- An exchange record to lantern 1 with nothing in it, sealed under the key of its first incarnation. -/
def exchangeMsg : ExchangeMsg := ⟨0, 1, 0, 1, [], le 16 0x4e1a68cebfc068d811b5784a2abba08f⟩
theorem exchange_key : exchangeKey (exchLook exchangeMsg up).2 1 = le 32 0x575f8660da04a7cf2e0e943270aa986b8b1baff87cb61fd916dd5d7c39c0410b := by decide +kernel
theorem exchange_plain : exchPlain exchangeMsg up = some [] := by
  have h : (exchLook exchangeMsg up).1 = false := by decide +kernel
  have hd : exchangeMsg.dest = 1 := rfl
  simp only [exchPlain, h, hd, exchange_key, Bool.false_eq_true, if_false]
  decide +kernel
/-- Lantern 1 has taken it once already. -/
def again : State := onExperts (fun e => { e with exchRx := [(256, (0, 1))] }) up
theorem exchange_again : exchPlain exchangeMsg again = some [] := by
  have h : (exchLook exchangeMsg again).1 = false := by decide +kernel
  have hd : exchangeMsg.dest = 1 := rfl
  have hk : exchangeKey (exchLook exchangeMsg again).2 1 = exchangeKey (exchLook exchangeMsg up).2 1 := rfl
  simp only [exchPlain, h, hd, hk, exchange_key, Bool.false_eq_true, if_false]
  decide +kernel
def badMsg : ExchangeMsg := ⟨0, 1, 0, 1, [], zeros 16⟩
theorem exchange_none : exchPlain badMsg up = none := by
  have h : (exchLook badMsg up).1 = false := by decide +kernel
  have hs : exchangeKey (exchLook badMsg up).2 1 = exchangeKey (exchLook exchangeMsg up).2 1 := rfl
  have hd : badMsg.dest = 1 := rfl
  simp only [exchPlain, h, hs, hd, exchange_key, Bool.false_eq_true, if_false]
  decide +kernel
theorem met_exchange :
    meets (fun s => exchTaken exchangeMsg s && exchPlain exchangeMsg s == some [] && exchangeNext (exchLook exchangeMsg s).2 exchangeMsg) up = true ∧
      meets (fun s => exchTaken badMsg s && exchPlain badMsg s == none) up = true ∧
      meets (fun s => exchTaken exchangeMsg s && exchPlain exchangeMsg s == some [] && !exchangeNext (exchLook exchangeMsg s).2 exchangeMsg) again = true := by
  simp only [meets, exchange_plain, exchange_none, exchange_again]
  decide +kernel

/-- A crossing to East's port 1 under counter 1: 48 bytes of zeros, sealed. -/
def crossing : Bytes := le 48 0x4eb3d16da71800f7294bf347c40ef3c1447c6106c66ecbd40bc4323fb1320387dcef1cc521d0c29613dbd15862ffa293
def crossingTag : Bytes := le 16 0xf9896d4966fb002eb3f62fb5dab5024d
def crossed : State := onFabric (fun f => { f with linkKeys := [(1026, zeros 32)] }) up

/-- States and operands that meet what Obligations.SeamKeyMessagesComplete asks, clause by clause. -/
theorem met_SeamKeyMessagesComplete :
  (let m : SeamMsg := msg true 1 0 pairWords; let k : Bytes := (pairKey unpaired true ((bytesOf pairWords).take 96) ((bytesOf pairWords).drop 96)).getD []; meets (fun s => sound 1 m s && seamCarries (received 1 m s) 1 && (fun s => !s.seam.paired && m.payload.length == 14 && pairKey s m.toEast ((bytesOf m.payload).take 96) ((bytesOf m.payload).drop 96) == some k) (received 1 m s)) (unpaired)) = true ∧
  (let m : SeamMsg := msg true 1 0 [0xb74c808ff1caf44b#64, 0x6e6ee54f9bc48df8#64]; meets (fun s => sound 1 m s && seamCarries (received 1 m s) 1 && (fun s => !s.seam.paired && m.payload.length == 2 && (if m.toEast then s.seam.eastKey else s.seam.sessionKey) != [] &&
      confirmTag (if m.toEast then s.seam.eastKey else s.seam.sessionKey) m.toEast == bytesOf m.payload) (received 1 m s)) (apart shared)) = true ∧
  (let m : SeamMsg := msg true 1 0 [0#64, 0#64]; meets (fun s => sound 1 m s && seamCarries (received 1 m s) 1 && (fun s => !s.seam.paired && m.payload.length == 2 &&
      confirmTag (if m.toEast then s.seam.eastKey else s.seam.sessionKey) m.toEast != bytesOf m.payload) (received 1 m s)) (apart shared)) = true ∧
  (let m : SeamMsg := loadMsg; let b : Bytes := zeros 48; meets (fun s => sound 2 m s && seamCarries (received 2 m s) 2 && (opens true 1 8 m b) (received 2 m s)) (shared)) = true ∧
  (let m : SeamMsg := clearMsg; let b : Bytes := []; meets (fun s => sound 2 m s && seamCarries (received 2 m s) 2 && (opens true 2 2 m b) (received 2 m s)) (shared)) = true ∧
  (let m : SeamMsg := clearAllMsg; let b : Bytes := []; meets (fun s => sound 2 m s && seamCarries (received 2 m s) 2 && (opens true 3 2 m b) (received 2 m s)) (shared)) = true ∧
  (let m : SeamMsg := ackMsg; let b : Bytes := []; meets (fun s => sound 2 m s && seamCarries (received 2 m s) 2 && (fun s => decide (1 ≤ keySubOf m.header ∧ keySubOf m.header ≤ 3) && opens false (keySubOf m.header) 2 m b s) (received 2 m s)) (shared)) = true ∧
  (let m : SeamMsg := { msg true 2 0 [] with uncorrectable := true }; meets (fun _ => m.uncorrectable) (up)) = true ∧
  (let m : SeamMsg := loadMsg; meets (fun s => sound 2 m s && !seamCarries (received 2 m s) 2) (apart shared)) = true := by decide +kernel

/-- States and operands that meet what Obligations.SeamMessagesComplete asks, clause by clause. -/
theorem met_SeamMessagesComplete :
  (let m : SeamMsg := msg true 3 (snuffArg 1 1 1) []; meets (fun s => sound 3 m s && seamCarries (received 3 m s) 3 && (fun s =>
      let a := hdrArg m.header
      let d := bits a 23 16
      m.toEast && (bits a 31 24 == 1 || bits a 31 24 == 3) && decide ((d = 1 ∧ bits a 15 8 < s.build.lanterns) ∨ (d = 2 ∧ bits a 15 8 < s.build.links) ∨ d = 3)) (received 3 m s)) (up)) = true ∧
  (let m : SeamMsg := msg true 4 0 []; meets (fun s => sound 4 m s && seamCarries (received 4 m s) 4 && (fun _ => m.toEast) (received 4 m s)) (up)) = true ∧
  (let m : SeamMsg := msg false 4 0 []; meets (fun s => sound 4 m s && seamCarries (received 4 m s) 4 && (fun _ => !m.toEast) (received 4 m s)) (up)) = true ∧
  (let m : SeamMsg := msg true 4 0 []; meets (fun s => sound 4 m s && seamCarries (received 4 m s) 4 && (fun _ => m.toEast) (received 4 m s)) (up)) = true ∧
  (let m : SeamMsg := msg true 4 0 []; meets (fun s => sound 4 m s && seamCarries (received 4 m s) 4 && (fun _ => m.toEast) (received 4 m s)) (up)) = true ∧
  (let m : SeamMsg := msg false 4 0 []; meets (fun s => sound 4 m s && seamCarries (received 4 m s) 4 && (fun _ => !m.toEast) (received 4 m s)) (up)) = true ∧
  (let m : SeamMsg := msg true 5 0 []; meets (fun s => sound 5 m s && seamCarries (received 5 m s) 5 && (fun _ => m.toEast) (received 5 m s)) (up)) = true ∧
  (let m : SeamMsg := msg false 5 0 []; meets (fun s => sound 5 m s && seamCarries (received 5 m s) 5 && (fun _ => !m.toEast) (received 5 m s)) (up)) = true ∧
  ( meets (fun s => decide (s.time.lastSync + 4000 ≤ now s)) (up)) = true ∧
  (let m : SeamMsg := msg false 6 0 (List.replicate 8 0); meets (fun s => sound 6 m s && seamCarries (received 6 m s) 6 && (fun _ => !m.toEast && m.payload.length == 8) (received 6 m s)) (up)) = true ∧
  (let m : SeamMsg := msg true 6 0 []; meets (fun s => sound 6 m s && seamCarries (received 6 m s) 6 && (fun _ => m.toEast && decide (m.payload = [])) (received 6 m s)) (up)) = true ∧
  (let m : SeamMsg := msg true 7 0 []; meets (fun s => sound 7 m s && seamCarries (received 7 m s) 7 && (fun _ => m.toEast) (received 7 m s)) (up)) = true ∧
  (let m : SeamMsg := msg true 7 0 []; meets (fun s => sound 7 m s && seamCarries (received 7 m s) 7 && (fun _ => m.toEast) (received 7 m s)) (up)) = true ∧
  (let m : SeamMsg := msg false 7 0 []; meets (fun s => sound 7 m s && seamCarries (received 7 m s) 7 && (fun _ => !m.toEast) (received 7 m s)) (up)) = true ∧
  (let m : SeamMsg := msg true 8 0 []; let k : Nat := 0; meets (fun s => sound 8 m s && seamCarries (received 8 m s) 8 && (fun s => m.toEast && decide ((bufAt s k).owner ≠ none)) (received 8 m s)) (modBuf 0 (fun b => { b with owner := some 0 }) up)) = true ∧
  (let m : SeamMsg := msg true 8 0 []; meets (fun s => sound 8 m s && seamCarries (received 8 m s) 8 && (fun _ => true) (received 8 m s)) (up)) = true ∧
  (let m : SeamMsg := msg true 9 0x102 []; meets (fun s => sound 9 m s && seamCarries (received 9 m s) 9 && (fun _ => true) (received 9 m s)) (up)) = true := by decide +kernel

/-- States and operands that meet what Obligations.RecordsAcrossComplete asks, clause by clause. -/
theorem met_RecordsAcrossComplete :
  (let toEast : Bool := true; let port : Nat := 1; let counter : Nat := 1; let sealed : Bytes := crossing; let tag : Bytes := crossingTag; let p : Bytes := zeros 48; meets (fun s => decide (port < s.build.links) && linkWest s port == !toEast && gcmOpen (engineKey s (!toEast) 1026) (transitIv toEast counter) [] sealed tag == some p &&
      counter == (if toEast then s.keys.transitRxE else s.keys.transitRxW) + 1) (crossed)) = true ∧
  (let toEast : Bool := true; let port : Nat := 0; let counter : Nat := 1; let sealed : Bytes := crossing; let tag : Bytes := crossingTag; let p : Bytes := zeros 48; meets (fun s => decide (port < s.build.links) && linkWest s port == toEast && (!linkStopped s (!toEast) || areaRoom s sealed.length) &&
      gcmOpen (engineKey s (!toEast) 1026) (transitIv toEast counter) [] sealed tag == some p &&
      counter == (if toEast then s.keys.transitRxE else s.keys.transitRxW) + 1) (crossed)) = true ∧
  (let toEast : Bool := true; let port : Nat := 1; let counter : Nat := 1; let sealed : Bytes := crossing; let tag : Bytes := zeros 16; meets (fun s => decide (port < s.build.links) && linkWest s port == !toEast && gcmOpen (engineKey s (!toEast) 1026) (transitIv toEast counter) [] sealed tag == none) (crossed)) = true := by decide +kernel

/-! ## The target sides and the tiers -/

/-- A request of the manager at lantern port 0, ID 3. -/
def portAsk (a len : Nat) : PortReq := ⟨0, BitVec.ofNat 64 a, len, 3, 16⟩

/-- A read held at the port. -/
def heldRead (a : Nat) : PortWait := { req := portAsk a 0, write := false, phase := 0, status := stOk, data := [], poison := [] }

/-- A rotation whose share in lantern 0 covers two chunks. -/
def sharing (o : Bool) : SweepUnit := ⟨.lantern 0, [(0, 8192)], 4096, o, false⟩
def sweeping (o : Bool) : State := setRotation 0 { active := true, a := 1, b := 2, length := 0x200000, owner := 16, units := [sharing o] } stocked

/-- Page 5 of lantern 0 is quarantined since the start; so is page 0, with a repair entry whose replica lies 2 MiB on. -/
def lost (page : Nat) (log : List (Nat × Nat)) (s : State) : State :=
  modLantern 0 (fun x => { x with quarantine := [⟨page, 0, 0, [], false⟩], ueLog := log }) s
def replica : RepairEntry := ⟨0xFFF, 0, 0xFFF, 0x200000, 0x200000⟩
def replicated : State :=
  onFaults (fun f => { f with repairLo := [(0, 0x8FFF000000000000#64)], repairHi := [(0, 0x0FFF000000200001#64)] }) (lost 0 [] stocked)

/-- What a repair of page 0 reads of its replica, and the state once it is written over the page. -/
def replicaRead : MemRead × State := memRead (repairReq 0 1) {} (reqAddr 0xFFF 0x200000) 4096 replicated
def written (d : Bytes) : State :=
  (memWrite (repairReq 0 2) {} (reqAddr 0xFFF 0) d (onParts (fun p => { p with repairBytes := satTo 64 (p.repairBytes + 12288) }) replicaRead.2)).2
set_option maxRecDepth 20000 in
theorem replica_data : replicaRead.1.data = zeros 4096 := by decide +kernel
set_option maxRecDepth 20000 in
theorem written_mem : (written (zeros 4096)).mem.stacked = [] ∧ (written (zeros 4096)).path.rotations = [] := by decide +kernel
set_option maxRecDepth 20000 in
theorem page_zeros : (List.range 64).flatMap (fun _ => zeros 64) = zeros 4096 := by decide +kernel
theorem written_back : readBack 0 0 {} 0xFFF (written (zeros 4096)) = zeros 4096 := by
  have hk (pl : Place) : effectiveKey (written (zeros 4096)) 0xFFF pl = 0xFFF := by
    simp only [effectiveKey, Machine.rotationOf, written_mem.2, List.find?_nil, Option.bind_none]
  have hz (a : Nat) : treads 0 (written (zeros 4096)).mem.stacked a 64 = zeros 64 := by
    rw [written_mem.1]; simp only [treads, tget]; rfl
  have hc (n : Nat) : ([] : List Nat).contains n = false := rfl
  refine Eq.trans ?_ page_zeros
  simp only [readBack, openSector, rawSector, hk, hz, hc, if_true, if_false, Bool.false_eq_true]

/-- A repair that holds. -/
theorem met_pageRepair : meets (fun s =>
    let a := domainOfLocal s 0 (0 * 4096)
    let x := memRead (repairReq 0 1) {} (reqAddr replica.rkey (replica.replica + (a - replica.base))) 4096 s
    let t := (memWrite (repairReq 0 2) {} (reqAddr replica.key a) x.1.data (onParts (fun p => { p with repairBytes := satTo 64 (p.repairBytes + 12288) }) x.2)).2
    quarantined s 0 0 && !unitIdle s (.lantern 0) && repairEntry s a == some replica && decide (recentErrors s 0 0 < 2) && x.1.status == stOk &&
      repairHolds 0 0 {} replica.key x.1.data t) replicated = true := by
  have ha : domainOfLocal replicated 0 (0 * 4096) = 0 := by decide +kernel
  have hr : memRead (repairReq 0 1) {} (reqAddr replica.rkey (replica.replica + (0 - replica.base))) 4096 replicated = replicaRead := by
    have hx : reqAddr replica.rkey (replica.replica + (0 - replica.base)) = reqAddr 0xFFF 0x200000 := by decide +kernel
    rw [hx, replicaRead]
  have hw : (memWrite (repairReq 0 2) {} (reqAddr replica.key 0) (zeros 4096)
      (onParts (fun p => { p with repairBytes := satTo 64 (p.repairBytes + 12288) }) replicaRead.2)).2 = written (zeros 4096) := by
    have hx : replica.key = 0xFFF := rfl
    rw [hx, written]
  have hs : (running replicated && (quarantined replicated 0 0 && !unitIdle replicated (.lantern 0) && repairEntry replicated 0 == some replica &&
      decide (recentErrors replicated 0 0 < 2) && replicaRead.1.status == stOk)) = true := by decide +kernel
  have hh : repairHolds 0 0 {} replica.key (zeros 4096) (written (zeros 4096)) = true := by
    have hk : replica.key = 0xFFF := rfl
    have hc (n : Nat) : ([] : List Nat).contains n = false := rfl
    simp only [repairHolds, hk, written_back, hc, BEq.rfl]
    decide
  simp only [Bool.and_eq_true] at hs
  simp only [meets, ha, hr, replica_data, hw, hh, hs, Bool.and_true]

/-- States and operands that meet what Obligations.PortRequestsComplete asks, clause by clause. -/
theorem met_PortRequestsComplete :
  (let r : PortReq := portAsk (bare 0) 63; meets (fun s => portOpen s r.port && (portStatus s r false).1 == stOk) (parted)) = true ∧
  (let r : PortReq := portAsk (bare 0x41) 63; meets (fun s => portOpen s r.port && (portStatus s r false).1 != stOk) (up)) = true ∧
  (let r : PortReq := portAsk (bare 0xFC0) 0; let d : Bytes := zeros 64; let be : List Bool := List.replicate 64 true; meets (fun s => portOpen s r.port && !portStalls s r.port && (portStatus s r true).1 == stOk && d.length == portBytes r && be.length == portBytes r &&
      enablesOk s r be) (parted)) = true ∧
  (let r : PortReq := portAsk (bare 0) 0; meets (fun s => portOpen s r.port && portStalls s r.port) (onCurfew (fun c => { c with stopped := [.crypto 0] }) up)) = true ∧
  (let port : Nat := 0; let addr : Word64 := 3; let b : Bytes := zeros 4160; meets (fun s => messageTaken s port && messageForm port addr b && decide (addr.toNat % 256 ≤ 3)) (up)) = true ∧
  (let port : Nat := 16; let addr : Word64 := 0x100004; let b : Bytes := zeros 64; meets (fun s => messageTaken s port && messageForm port addr b && decide (3 < addr.toNat % 256)) (up)) = true ∧
  (let port : Nat := 16; let addr : Word64 := 0x100003; let b : Bytes := zeros 63; meets (fun s => messageTaken s port && !messageForm port addr b) (up)) = true ∧
  (let port : Nat := 0; let id : Nat := 3; let k : Nat := 0; let w : PortWait := heldRead (bare 0x40); meets (fun s => returning s port id false == some (k, w)) (setPort 0 [heldRead (bare 0x40)] up)) = true ∧
  (let port : Nat := 0; let id : Nat := 3; let k : Nat := 0; let w : PortWait := heldRead (reqAddr 1 capBase); meets (fun s => returning s port id true == some (k, w)) (setPort 0 [heldRead (reqAddr 1 capBase)] up)) = true ∧
  (let c : Nat := 0; let v : Verdict := ⟨.ticket 0 1, false, 0, 16⟩; let vs : List Verdict := []; let l : Nat := 0; let k : Nat := 1; meets (fun s => (capAt s c).verdicts == v :: vs && decide (v.target = .ticket l k)) (modCap 0 (fun c => { c with verdicts := [⟨.ticket 0 1, false, 0, 16⟩] }) up)) = true ∧
  (let c : Nat := 0; let v : Verdict := ⟨.port 0 3, true, 0, 16⟩; let vs : List Verdict := []; let p : Nat := 0; let id : Nat := 3; meets (fun s => (capAt s c).verdicts == v :: vs && decide (v.target = .port p id)) (modCap 0 (fun c => { c with verdicts := [⟨.port 0 3, true, 0, 16⟩] }) up)) = true := by decide +kernel

/-- States and operands that meet what Obligations.SweepAndRepairComplete asks, clause by clause. -/
theorem met_SweepAndRepairComplete :
  (let k : Nat := 16; meets (fun s =>
      let d := tget {} s.path.due k
      d.on && decide (d.last + 1000000000 ≤ now s) && dueTarget s d.owner == 0xFFFF) (onPath (fun p => { p with due := [(16, { on := true, owner := 0 })] }) stocked)) = true ∧
  (let n : Nat := 0; let u : MemUnit := .lantern 0; let x : SweepUnit := sharing false; meets (fun s => shareAt s n u == some x && (rotationAt s n).active && !(rotationAt s n).aliased && !x.done && !x.open_ && !unitIdle s u &&
      !chunkBusy s (unitDomain s u x.watermark)) (sweeping false)) = true ∧
  (let n : Nat := 0; let u : MemUnit := .lantern 0; let x : SweepUnit := sharing true; meets (fun s => shareAt s n u == some x && (rotationAt s n).active && x.open_ && !unitIdle s u) (sweeping true)) = true ∧
  (let l : Nat := 0; let page : Nat := 5; let q : Quarantine := ⟨5, 0, 0, [], false⟩; meets (fun s => (lanternAt s l).quarantine.find? (fun q => q.page == page) == some q && decide (q.since + 50000 ≤ clock s (lanternWest s l))) (lost 5 [] up)) = true ∧
  (let l : Nat := 0; let page : Nat := 5; meets (fun s => quarantined s l page && !unitIdle s (.lantern l) && repairEntry s (domainOfLocal s l (page * 4096)) == none &&
      decide (2 ≤ recentErrors s l page)) (lost 5 [(5, 1000), (5, 2000)] stocked)) = true := by decide +kernel

/-! ## Experts and pilots -/

/-- A record at link port 0 for server 0 of partition 0. -/
def landed (arrival : Bool) (b : Bytes) : RxRecord := ⟨0, 0, arrival, 0, 0, b, [], [], 0⟩
def withRecord (arrival : Bool) (b : Bytes) (s : State) : State := onExperts (fun e => { e with records := [landed arrival b] }) s
def serverOf (y : Server) (s : State) : State := onExperts (fun e => { e with servers := [(0, y)] }) s

/-- A dispatch record of one pair, 64 values of one byte each. -/
def dispatchBytes : Bytes := fit 128 ([1#8, 1#8, 1#8, 0#8] ++ le 2 64)

/-- An answer record that names slot 0. -/
def answerBytes : Bytes := 1#8 :: zeros 63

/-- It waits while slot 0 is open. -/
def answering : State := setCombine 0 { state := .open_ } (withRecord false answerBytes stocked)

/-- Routing group 0 of this node, one layer of 64 experts, with a newer block waiting where asked. -/
def routedGroup (p : Bool) (b : Bytes) (s : State) : State :=
  onExperts (fun e => { e with groups := [(0, { live := true, experts := 64, layers := 1, leader := s.fabric.node, computeAt := 1, pending := p, waitBlock := b })] }) s
def newBlock : Bytes := fit 320 ([1#8, 0#8] ++ le 2 1 ++ le 2 64 ++ zeros 2 ++ le 8 1)

/-- A pilot of partition 0 on task 1, whose program is nothing but END. -/
def pilotTask : Task :=
  { live := true, purpose := .pilot 0, part := 0, header := (endProgram 8).take 64, program := [fit 32 [1#8, 1#8]], lanterns := [0], w := 1
    args := List.replicate 8 0, wicks := [(0, { phys := 0, ended := true })] }
def piloted (f : Pilot → Pilot) (x : Task) : State :=
  setPilot 0 (f { state := .waiting, part := 0, n := 63, task := 1 }) (setTask 1 x stocked)

/-- States and operands that meet what Obligations.ExpertRecordsComplete asks, clause by clause. -/
theorem met_ExpertRecordsComplete :
  (let p : Nat := 0; let r : RxRecord := landed true []; meets (fun s => !linkStopped s (linkWest s p) && firstRecord s p true == some r && fld r.bytes 0 1 != 1) (withRecord true [] up)) = true ∧
  (let p : Nat := 0; let r : RxRecord := landed true [1#8]; meets (fun s => !linkStopped s (linkWest s p) && firstRecord s p true == some r && fld r.bytes 0 1 == 1 && !dispatchOk r.bytes) (withRecord true [1#8] up)) = true ∧
  (let p : Nat := 0; let r : RxRecord := landed true dispatchBytes; meets (fun s => !linkStopped s (linkWest s p) && firstRecord s p true == some r && fld r.bytes 0 1 == 1 &&
      dispatchOk r.bytes && (serverAt s r.server).live && (serverAt s r.server).closing) (serverOf { live := true, closing := true } (withRecord true dispatchBytes up))) = true ∧
  (let p : Nat := 0; let r : RxRecord := landed true dispatchBytes; meets (fun s => !linkStopped s (linkWest s p) && firstRecord s p true == some r && fld r.bytes 0 1 == 1 &&
      dispatchOk r.bytes && (serverAt s r.server).live && !(serverAt s r.server).closing) (serverOf { live := true } (withRecord true dispatchBytes up))) = true ∧
  (let p : Nat := 0; let r : RxRecord := landed false (zeros 64); meets (fun s => !linkStopped s (linkWest s p) && firstRecord s p false == some r && fld r.bytes 0 1 != 1) (withRecord false (zeros 64) stocked)) = true ∧
  (let p : Nat := 0; let r : RxRecord := landed false answerBytes; meets (fun s => !linkStopped s (linkWest s p) && firstRecord s p false == some r && fld r.bytes 0 1 == 1 && !answerCurrent s r) (withRecord false answerBytes stocked)) = true ∧
  (let p : Nat := 0; let r : RxRecord := landed false answerBytes; let t : State := (applyAnswer (landed false answerBytes) answering).getD up; meets (fun s => !linkStopped s (linkWest s p) && firstRecord s p false == some r && fld r.bytes 0 1 == 1 &&
      answerCurrent s r && decide (applyAnswer r s = some t)) (answering)) = true ∧
  (let k : Nat := 0; let i : Nat := 0; let c : Slice := { bound := some 0, window := 1000000000 }; meets (fun s => (serverAt s k).slices[i]? == some c && c.bound.isSome && !c.posted && decide (c.window ≤ now s)) (serverOf { live := true, slices := [{ bound := some 0, window := 1000000000 }] } up)) = true ∧
  (let k : Nat := 0; let l : Nat := 0; meets (fun s => !islandStopped s (.wicks l) && ((combineAt s k).state == .open_ || (combineAt s k).state == .expired) &&
      decide ((combineAt s k).deadline ≤ clock s (lanternWest s l)) && !s.experts.records.any (landedFor s k l)) (setCombine 0 { state := .open_, deadline := 1000000000 } up)) = true ∧
  (let k : Nat := 0; let l : Nat := 0; meets (fun s => !islandStopped s (.wicks l) && decide ((combineAt s k).deadline ≤ clock s (lanternWest s l)) &&
      !(answersIn k l s).experts.records.any (landedFor (answersIn k l s) k l)) (setCombine 0 { state := .open_, deadline := 1000000000, parts := [⟨0, .open_, []⟩] } (withRecord false answerBytes stocked))) = true ∧
  (let g : Nat := 0; meets (fun s => (groupAt s g).live && !s.curfew.inForce && !s.ll.halted && decide ((groupAt s g).periodEnd ≤ now s)) (routedGroup false [] up)) = true ∧
  (let g : Nat := 0; let ue : Ue := {}; meets (fun s => (groupAt s g).live && (groupAt s g).leader == s.fabric.node && !s.curfew.inForce && !s.ll.halted &&
      (groupAt s g).computeAt != 0 && (decide ((groupAt s g).members.length ≤ (groupAt s g).reported) || decide ((groupAt s g).computeAt ≤ now s)) &&
      (currentBias ue g s).1.status == stOk) (routedGroup true newBlock up)) = true ∧
  (let g : Nat := 0; meets (fun s => (groupAt s g).live && (groupAt s g).pending && (groupAt s g).fetching == 0 && !blockFits (groupAt s g)) (routedGroup true [] up)) = true ∧
  (let g : Nat := 0; meets (fun s => (groupAt s g).live && (groupAt s g).pending && (groupAt s g).fetching == 0 && blockFits (groupAt s g) &&
      !biasPinned s g (1 - (groupAt s g).active)) (routedGroup true newBlock up)) = true := by decide +kernel

/-- States and operands that meet what Obligations.PilotItemsComplete asks, clause by clause. -/
theorem met_PilotItemsComplete :
  (let pi : Nat := 0; let item : Bytes := zeros 64; let rest : List Bytes := []; meets (fun s => pilotReady s pi && decide ((pilotAt s pi).items = item :: rest) &&
      itemStatus s (taskAt s (pilotAt s pi).task) (itemArgs (taskAt s (pilotAt s pi).task) item) != stOk) (piloted (fun p => { p with items := [zeros 64] }) { pilotTask with program := [fit 32 [1#8, 0xFF#8]] })) = true ∧
  (let pi : Nat := 0; let item : Bytes := zeros 64; let rest : List Bytes := []; meets (fun s =>
      let x := taskAt s (pilotAt s pi).task
      pilotReady s pi && decide ((pilotAt s pi).items = item :: rest) && itemStatus s x (itemArgs x item) == stOk &&
        seqsFree s (pilotAt s pi).task (progSeqs (itemProg x (itemArgs x item)))) (piloted (fun p => { p with items := [zeros 64] }) pilotTask)) = true ∧
  (let pi : Nat := 0; meets (fun s =>
      let p := pilotAt s pi
      !islandStopped s .frontEnd && p.current.isSome && taskEnded s p.task && !(taskAt s p.task).aborting && answersSent s pi && (taskAt s p.task).failed) (piloted (fun p => { p with current := some [], state := .running }) { pilotTask with failed := true })) = true ∧
  (let pi : Nat := 0; meets (fun s =>
      let p := pilotAt s pi
      !islandStopped s .frontEnd && p.current.isSome && taskEnded s p.task && !(taskAt s p.task).aborting && answersSent s pi && !(taskAt s p.task).failed) (piloted (fun p => { p with current := some [], state := .running }) pilotTask)) = true ∧
  (let pi : Nat := 0; meets (fun s =>
      let p := pilotAt s pi
      !islandStopped s .frontEnd && p.current.isSome && taskEnded s p.task && (taskAt s p.task).aborting && !(taskAt s p.task).failed) (piloted (fun p => { p with current := some [], state := .stopping }) { pilotTask with aborting := true })) = true := by decide +kernel

/-! ## Frames -/

/-- A HOP frame from node 9 to node 5 for window 0, transaction 0x1007, as it stands on the wire. -/
def headOf (op flags : Byte) (len status : Nat) : Bytes :=
  fit 32 ([0x10#8, 0x40#8, op, 1#8] ++ le 2 5 ++ le 2 9 ++ zeros 14 ++ le 2 len ++ le 2 0x1007 ++ [flags, 0#8, 0#8, 0#8] ++ le 2 status)
def sealedAs (op flags : Byte) (status len ct tag : Nat) : Frame := ⟨headOf op flags len status, le len ct, le 16 tag⟩

/-- A NACK of EFP 2.0. -/
def later (op : Byte) (tag : Nat) : Frame := ⟨put (headOf op 0 0 1) 0 [0x20#8], [], le 16 tag⟩

/-- Node 5 of a domain, its port 0 UP to node 9, the receive key zeros. -/
def domained : State :=
  onFabric (fun f => { f with domState := 2, node := 5, links := [(0, { state := .up, trained := true, peer := 9, major := 1, rxKey := zeros 32, txKey := zeros 32 })] }) up

/-- The same with the link engines of West stopped by a curfew and room in the area. -/
def capturing_ : State := onCurfew (fun c => { c with stopped := [.link 0], area := 1 }) (setObj 1 { state := .live, length := 0x200000 } domained)

/-- An operation of this node stands in entry 7 of West with generation 1. -/
def operating (op len : Nat) : State :=
  onFabric (fun f => { f with west := { f.west with ops := [(7, { used := true, gen := 1, op := op, len := len, dst := 9, sent := some 0, issuer := .stolaikor 0 })] } }) domained

/-- What the clauses about frames ask. -/
def arrivesWit (op : Nat) (cond : Nat → Bytes → Bytes → Bool → State → Bool) (f : Frame) (s : State) : Bool :=
  running s && fOp f.header == op && !linkStopped s (linkWest s 0) && (match receiveFrame 0 f s with
    | (.local_ pass plain, t) => cond 0 f.header plain pass t
    | _ => false)
def passesWit (op : Nat) (f : Frame) (s : State) : Bool :=
  running s && fOp f.header == op && !linkStopped s (linkWest s 0) && (receiveFrame 0 f s).1 == .gone
def capturedWit (op : Nat) (f : Frame) (s : State) : Bool :=
  running s && fOp f.header == op && linkStopped s (linkWest s 0) && areaRoom s (32 + f.payload.length) && (match (receiveFrame 0 f s).1 with
    | .local_ pass _ => pass
    | _ => false)
def requestWit (op : Nat) (plain mcast : Frame) : Bool :=
  arrivesWit op (fun _ h _ _ t => (fFlags h &&& flMcast) == 0 && !earlyWindow t h) plain domained &&
    arrivesWit op (fun _ h _ _ _ => (fFlags h &&& flMcast) != 0) mcast domained && passesWit op plain up && capturedWit op plain capturing_

/-- A CONTROL frame of an operation. -/
def control (op : Byte) (payload : Bytes) : Frame := ⟨fit 32 ([0x10#8, 0#8, op, 1#8] ++ le 2 0xFFFF ++ le 2 9), payload, zeros 16⟩
def hello (v : Byte) (node : Nat) : Frame := control 0x20 (fit 32 ([v, v] ++ le 2 node))

/-- Port 0 of node 5 in a step of its handshake, or as given. -/
def shakes (f : Link → Link) : State := modLink 0 (fun l => f { l with state := .handshake, step := 4 }) domained
def mac0 : Bytes := be 48 0xe627c525eae43e257d8214c0c848a77c09ff7657b342515f67d9745ec903d4ffc433b823c9cc254d649c893c4ac6f545

/-- States and operands that meet what Obligations.FrameRequestsComplete asks, clause by clause. -/
theorem met_FrameRequestsComplete :
  requestWit opLoad (sealedAs 1 0 0 0 0 0x182a02a78cce46123afd843b5284db87) (sealedAs 1 8 0 0 0 0xe91eea8010e09a3c8473005b8170a22c) = true ∧
  requestWit opStore (sealedAs 2 0 0 0 0 0xcc9dc2e319efd5d002a611d9e9bbdefc) (sealedAs 2 8 0 0 0 0x3da92ac485c109febc2895b93a4fa757) = true ∧
  requestWit opAtomic (sealedAs 3 0 0 0 0 0x7f0f7d20950f5b91ea90628780aedd6b) (sealedAs 3 8 0 0 0 0x8e3b9507092187bf541ee6e7535aa4c0) = true ∧
  requestWit opReduce (sealedAs 4 0 0 0 0 0x64f2436a33acf35573103b1c9ec4d40a) (sealedAs 4 8 0 0 0 0x95c6ab4daf822f7bcd9ebf7c4d30ada1) = true ∧
  requestWit opTrigger (sealedAs 5 0 0 0 0 0xd760fca9bf4c7d149b264842f7d1d79d) (sealedAs 5 8 0 0 0 0x2654148e2362a13a25a8cc222425ae36) = true ∧
  ( arrivesWit opStore (fun _ h _ _ t => (fFlags h &&& flMcast) == 0 && earlyWindow t h) (sealedAs 2 0 0 0 0 0) (setWindow 0 { entry := [1#8, 2#8] } domained)) = true := by decide +kernel

/-- States and operands that meet what Obligations.FrameResponsesComplete asks, clause by clause. -/
theorem met_FrameResponsesComplete :
  ( arrivesWit opAck (fun p h d pass t => fVer h / 16 == 1 && (fun _ h d _ _ => ackFormed h d) p h d pass t) (sealedAs 16 0 0 2 0xa7c9 0xb2d4443c2d773604b188940b1eb41142) (domained)) = true ∧
  (let o : OutOp := { used := true, gen := 1, op := 1, len := 16, dst := 9, sent := some 0, issuer := .stolaikor 0 }; arrivesWit opData (fun p h d pass t => fVer h / 16 == 1 && (fun _ h d _ t => respondedOp t (fTxn h) == some o && wantsData o && d.length == dataBytes o) p h d pass t) (sealedAs 17 0 0 16 0x189df3bad3c54e076e6b604d3d40a7ce 0x8d31d6495de437dbbe9a23819fea4918) (operating 1 16)) = true ∧
  (arrivesWit opData (fun p h d pass t => fVer h / 16 == 1 && (fun _ h _ _ t => respondedOp t (fTxn h) == none) p h d pass t) (sealedAs 17 0 0 16 0x189df3bad3c54e076e6b604d3d40a7ce 0x8d31d6495de437dbbe9a23819fea4918) (domained)) = true ∧
  (let o : OutOp := { used := true, gen := 1, op := 1, len := 16, dst := 9, sent := some 0, issuer := .stolaikor 0 }; arrivesWit opNack (fun p h d pass t => fVer h / 16 == 1 && (fun _ h _ _ t => respondedOp t (fTxn h) == some o && fStatus h == stBusy) p h d pass t) (sealedAs 18 0 3 0 0x0 0x84385796ad550a7c288b538df0af307d) (operating 1 16)) = true ∧
  (let o : OutOp := { used := true, gen := 1, op := 1, len := 16, dst := 9, sent := some 0, issuer := .stolaikor 0 }; arrivesWit opNack (fun p h d pass t => fVer h / 16 == 1 && (fun _ h _ _ t => respondedOp t (fTxn h) == some o && fStatus h != stBusy && fStatus h != stOk) p h d pass t) (sealedAs 18 0 1 0 0x0 0x2333e01d02762ba41cf60daf07d35a72) (operating 1 16)) = true ∧
  ( arrivesWit opNack (fun p h d pass t => fVer h / 16 == 1 && (fun _ h _ _ t => respondedOp t (fTxn h) == none) p h d pass t) (sealedAs 18 0 1 0 0x0 0x2333e01d02762ba41cf60daf07d35a72) (domained)) = true ∧
  ( arrivesWit opNack (fun _ h _ _ _ => fVer h / 16 != 1) (later 18 0x11c9a460093a7fbd2edf811c52fae46d) (domained)) = true ∧
  ( arrivesWit 0x22 (fun p h d pass t => fVer h / 16 == 1 && (fun _ h d _ _ => fMode h == 1 && d.length == 4) p h d pass t) (sealedAs 34 0 0 4 0x3d40a7cf 0xe00066d9879bd5e5e17f483ce5a5dc07) (domained)) = true ∧
  ( arrivesWit 0x23 (fun p h d pass t => fVer h / 16 == 1 && (fun p h d _ t => d.length == 8 && fMode h == 1 && fSrc h == (linkAt t p).peer) p h d pass t) (sealedAs 35 0 0 8 0x6e6b604d3d40a7ce 0x4010983f42e38f4238c53cc8f792deb7) (domained)) = true ∧
  ( arrivesWit 0x23 (fun p h d pass t => fVer h / 16 == 1 && (fun p h d _ t => d.length == 8 && !(fMode h == 1 && fSrc h == (linkAt t p).peer) && !linkStopped t (linkWest t p)) p h d pass t) (sealedAs 35 0 0 8 0x6e6b604d3d40a7ce 0x4010983f42e38f4238c53cc8f792deb7) (modLink 0 (fun l => { l with peer := 8 }) domained)) = true ∧
  ( arrivesWit 0x24 (fun p h d pass t => fVer h / 16 == 1 && (fun p h d _ t => d.length == 24 && fMode h == 1 && fSrc h == (linkAt t p).peer) p h d pass t) (sealedAs 36 0 0 24 0x742aa637ca036072189df3bad3c54e076e6b604d3d40a7ce 0x22a832a864e827120e9e1240a467b8e5) (domained)) = true ∧
  (let p : Nat := 0; let f : Frame := ⟨fit 32 ([0x10#8, 0#8, 0x30#8, 1#8] ++ le 2 5 ++ le 2 9), [], []⟩; meets (fun s =>
      let t := traceFrame p true f.header s
      fOp f.header == 0x30 && decide (p < t.build.links) && !portFenced t p && f.header.length == 32 && fMode f.header == 0 && roleOf t p == 2 &&
        fDst f.header == t.fabric.node && f.payload.length == fLen f.header) ({ domained with boxes := { domained.boxes with portRole := [(0, 2)] } })) = true := by decide +kernel

/-- States and operands that meet what Obligations.LinkBringupCompletes asks, clause by clause. -/
theorem met_LinkBringupCompletes :
  (let p : Nat := 0; meets (fun s => decide (p < s.build.links) && !(linkAt s p).trained && !(roleOf s p == 0 && failedLately s p)) (up)) = true ∧
  (let p : Nat := 0; meets (fun s => decide (p < s.build.links) && !(linkAt s p).trained && roleOf s p == 0 && failedLately s p) (modLink 0 (fun l => { l with failStep := 3, failedAt := 999999999 }) up)) = true ∧
  (let p : Nat := 0; let f : Frame := hello 0x11 9; let m : Nat := 1; meets (fun s => awaitsHello (traceFrame p true f.header s) p f && commonVersion f.payload == some m && fld f.payload 2 2 != s.fabric.node) (shakes (fun l => { l with step := 2 }))) = true ∧
  (let p : Nat := 0; let f : Frame := hello 0x12 9; meets (fun s => awaitsHello (traceFrame p true f.header s) p f && commonVersion f.payload == none) (shakes (fun l => { l with step := 2 }))) = true ∧
  (let p : Nat := 0; let f : Frame := hello 0x10 5; let m : Nat := 0; meets (fun s => awaitsHello (traceFrame p true f.header s) p f && commonVersion f.payload == some m && fld f.payload 2 2 == s.fabric.node) (shakes (fun l => { l with step := 2 }))) = true ∧
  (let p : Nat := 0; let f : Frame := control 0x21 []; let a : Word32 := 1; let m : Bytes := []; let r : Bytes := [7#8]; let x : Bytes := []; let k : Bytes := []; meets (fun s => established s p f a m r x && domainKey s s.fabric.sendEpoch == some k) (onFabric (fun f => { f with trust := [[7#8]], haveCur := true }) (shakes id))) = true ∧
  (let p : Nat := 0; let f : Frame := control 0x21 []; let a : Word32 := 1; let m : Bytes := []; let r : Bytes := [7#8]; let x : Bytes := []; meets (fun s => established s p f a m r x && domainKey s s.fabric.sendEpoch == none) (onFabric (fun f => { f with trust := [[7#8]] }) (shakes id))) = true ∧
  (let p : Nat := 0; let f : Frame := control 0x21 []; let a : Nat := 9; let b : Nat := 5; let v : Nat := 16; let d : Bytes := []; let e : Nat := 0; let m : Bytes := mac0; let k : Bytes := []; meets (fun s =>
      let t := traceFrame p true f.header s
      let l := linkAt t p
      awaitsSpdm t p f (.confirm a b v d e m) && l.step == 5 && l.rootOk && t.fabric.domState == 2 && a == l.peer && b == t.fabric.node &&
        v == 16 * l.major + l.minor && d == t.fabric.domId && domainKey t e == some k && confirmMac k l.transcript == m) (onFabric (fun f => { f with haveCur := true }) (shakes (fun l => { l with step := 5, rootOk := true })))) = true ∧
  (let p : Nat := 0; let f : Frame := control 0x21 []; let st : Nat := 3; meets (fun s => awaitsSpdm (traceFrame p true f.header s) p f (.failure st)) (shakes id)) = true ∧
  (let p : Nat := 0; let f : Frame := control 0x21 []; meets (fun s => fOp f.header == 0x21 && controlOk (traceFrame p true f.header s) p 0x21 f && asksRenewal (traceFrame p true f.header s) p .progress) (domained)) = true ∧
  (let p : Nat := 0; meets (fun s => decide (p < s.build.links) && (linkAt s p).state == .failed && (linkAt s p).trained && roleOf s p == 0 && !portFenced s p &&
      decide ((linkAt s p).failedAt + 1000000000 ≤ clock s (linkWest s p))) (modLink 0 (fun l => { l with state := .failed, trained := true }) up)) = true ∧
  (let p : Nat := 0; meets (fun s => decide (p < s.build.links) && roleOf s p == 0 && (linkAt s p).state == .up && !linkStopped s (linkWest s p) &&
      (decide (2 ^ 40 ≤ (linkAt s p).txCtr) || decide ((linkAt s p).genStart + 86400000000000 ≤ clock s (linkWest s p)) || rollPending (linkAt s p))) (modLink 0 (fun l => { l with txCtr := 2 ^ 40 }) domained)) = true ∧
  (let p : Nat := 0; meets (fun s => decide (p < s.build.links) && decide (2 ^ 41 ≤ (linkAt s p).txCtr) && !(snuffAt s (100 + p)).due) (modLink 0 (fun l => { l with txCtr := 2 ^ 41 }) domained)) = true ∧
  (let p : Nat := 1; meets (fun s => decide (p < s.build.links)) (up)) = true ∧
  (let p : Nat := 0; let v : FrameVerdict := ⟨1, 0, true, [], []⟩; meets (fun s => s.fabric.verdicts.find? (fun v => v.port == p) == some v && v.pass) (onFabric (fun f => { f with verdicts := [⟨1, 0, true, [], []⟩] }) up)) = true ∧
  (let p : Nat := 0; let v : FrameVerdict := ⟨1, 0, false, [], []⟩; meets (fun s => s.fabric.verdicts.find? (fun v => v.port == p) == some v && !v.pass) (onFabric (fun f => { f with verdicts := [⟨1, 0, false, [], []⟩] }) up)) = true := by decide +kernel

/-- States and operands that meet what Obligations.FabricTimersComplete asks, clause by clause. -/
theorem met_FabricTimersComplete :
  (let h : Nat := 0; let k : Nat := 7; let t : Nat := 0; meets (fun s => (tget {} (halfOf s (halfWest h)).ops k).sent == some t && decide (k < 4096) && (tget {} (halfOf s (halfWest h)).ops k).used &&
      decide (t + 1000 * s.boxes.fabricTimeout ≤ clock s (halfWest h)) && !linkStopped s (halfWest h)) ({ operating 1 16 with boxes := { (operating 1 16).boxes with fabricTimeout := 1000000 } })) = true ∧
  (let h : Nat := 0; let d : Nat := 9; meets (fun s => (tget {} (halfOf s (halfWest h)).backoffs d).active && decide ((tget {} (halfOf s (halfWest h)).backoffs d).until_ ≤ clock s (halfWest h)) && !linkStopped s (halfWest h)) (onHalf true (fun x => { x with backoffs := [(9, { active := true, until_ := 1000000000 })] }) up)) = true ∧
  (let h : Nat := 0; let d : Nat := 9; let a : AckWait := ⟨9, 0, [1], 999999936⟩; meets (fun s => decide ((halfOf s (halfWest h)).acks.filter (fun a => a.node == d && decide (a.since + 64 ≤ now s)) = [a])) (onHalf true (fun x => { x with acks := [⟨9, 0, [1], 999999936⟩] }) up)) = true ∧
  (let h : Nat := 0; let l : Nat := 0; let c : CombLine := ⟨0, 0xFFF, 16, zeros 64, 999999000, true⟩; meets (fun s => combAt s l == some c && lineDue s h l c) (onHalf true (fun x => { x with comb := [⟨0, 0xFFF, 16, zeros 64, 999999000, true⟩] }) up)) = true ∧
  (let p : Nat := 0; let v : Nat := 9; let b : BulkWait := ⟨0, 9, [], 999998000⟩; meets (fun s => (halfOf s (linkWest s p)).bulks.find? (fun b => b.port == p && b.via == v) == some b && decide (b.since + 2000 ≤ clock s (linkWest s p))) (onHalf true (fun x => { x with bulks := [⟨0, 9, [], 999998000⟩] }) up)) = true ∧
  (let p : Nat := 0; meets (fun s =>
      let t := updateTimeState (onTime (fun t => { t with lastProbe := now s }) s)
      decide (s.time.lastProbe + 100000 ≤ now s) && t.fabric.domState == 2 && timeRoot t != t.fabric.node && timeParent t == some p) (onHalf true (fun x => { x with routes := [(3, 0xA000000000000000#64)] }) domained)) = true ∧
  (let ts : List Nat := [1000000001]; meets (fun s => s.fabric.domState == 2 && timeRoot s == s.fabric.node && !s.time.rootSet && !s.faults.inBlockReset && decide (now s < ts.foldl max 0)) (domained)) = true ∧
  (let ts : List Nat := [1000000000]; meets (fun s => s.fabric.domState == 2 && timeRoot s == s.fabric.node && !s.time.rootSet && !s.faults.inBlockReset && decide (ts.foldl max 0 ≤ now s)) (domained)) = true := by decide +kernel

/-! ## Power, trust and recovery -/

/-- The halves agree, 1 s has passed; the watchdog is armed and expects the value that follows 5. -/
def armed (f : Trust → Trust) : State := onTrust (fun t => f { t with vigilArmed := true, vigilValue := 5, vigilKicks := 1 }) up

/-- A snuff of lantern 0, or of port 0, as given, with all channels trained. -/
def snuffs (x : Snuff) (s : State) : State := modLantern 0 (fun y => { y with trained := List.range 64 }) (setSnuff 0 x s)
def portSnuffs (x : Snuff) : State := setSnuff 100 x domained

/-- States and operands that meet what Obligations.PowerAndTamperComplete asks, clause by clause. -/
theorem met_PowerAndTamperComplete :
  (let s : State := State.reset; s.trust.pwrOk == false) = true ∧
  up.trust.pwrOk = true ∧
  ( meets (fun s => !s.trust.dusk) (up)) = true ∧
  ( meets (fun s => s.trust.dusk) (onTrust (fun t => { t with dusk := true, dawn := false }) up)) = true ∧
  (let c : BitVec 16 := 0x0100#16; meets (fun s => c &&& s.trust.tamperEn &&& tamperMask (onTrust (fun t => { t with inputs := c.setWidth 8 }) s) &&& 0x1FFF#16 != 0) (up)) = true ∧
  (let s : State := State.reset; s.trust.pwrOk == false && 0x0100#16 &&& s.trust.tamperEn &&& 0x1BFF#16 != 0) = true ∧
  ( meets (fun s => s.faults.terminalDue) (onFaults (fun f => { f with terminalDue := true }) up)) = true ∧
  ( meets (fun s => lcState s != 2 || (s.ll.stage == 0xFF && s.ll.reason == 2)) (up)) = true ∧
  ( meets (fun _ => true) (up)) = true := by decide +kernel

/-- States and operands that meet what Obligations.WatchesComplete asks, clause by clause. -/
theorem met_WatchesComplete :
  (let v : Word32 := nextKick 5; meets (fun s => s.trust.vigilArmed && v == nextKick s.trust.vigilValue && (s.trust.vigilKicks == 0 || decide (s.trust.vigilLast + 50000 ≤ now s))) (armed id)) = true ∧
  (let v : Word32 := 6; meets (fun s => s.trust.vigilArmed && (v != nextKick s.trust.vigilValue || (s.trust.vigilKicks != 0 && decide (now s < s.trust.vigilLast + 50000)))) (armed id)) = true ∧
  ( meets (fun s => s.trust.vigilArmed && decide (s.trust.vigilLast + 2000000 ≤ now s)) (armed id)) = true ∧
  ( meets (fun _ => true) (up)) = true ∧
  (let u : Bool := false; meets (fun s => !(injectCheck clsLlCe kindLamplighter 0 0 0 s).1 && !u &&
      !(injectCheck clsLlIntegrity kindLamplighter 0 0 0 (injectCheck clsLlCe kindLamplighter 0 0 0 s).2).1) (up)) = true ∧
  (meets (fun _ => true) (up)) = true ∧
  (meets (fun _ => true) (keyed)) = true ∧
  ( meets (fun _ => true) (up)) = true ∧
  (let a : Word32 := 0; let b : Word32 := 0; let c : Word32 := 0; meets (fun s => voteCode a b c == shadowState s) (onTrust (fun t => { t with shadow := [0, 0, 0] }) up)) = true ∧
  (let a : Word32 := 0; let b : Word32 := 0; let c : Word32 := 0; meets (fun s => voteCode a b c != shadowState s && !inTransition s) (up)) = true ∧
  ( meets (fun s => !inTransition s) (up)) = true := by decide +kernel

/-- States and operands that meet what Obligations.RecoveryCompletes asks, clause by clause. -/
theorem met_RecoveryCompletes :
  (let l : Nat := 0; meets (fun s => snuffGoes s l && !(snuffAt s l).fencedW) (snuffs { due := true } up)) = true ∧
  (let l : Nat := 0; meets (fun s => snuffGoes s l && (snuffAt s l).fencedW && (snuffAt s l).fencedE && !(snuffAt s l).cleared && !(snuffAt s l).draining) (snuffs { due := true, fencedW := true, fencedE := true } up)) = true ∧
  (let l : Nat := 0; meets (fun s => snuffGoes s l && (snuffAt s l).fencedW && (snuffAt s l).fencedE && !(snuffAt s l).cleared && (snuffAt s l).draining &&
      (lanternDrained s l || (snuffAt s l).timedOut)) (snuffs { due := true, fencedW := true, fencedE := true, draining := true } up)) = true ∧
  (let l : Nat := 0; meets (fun s => snuffGoes s l && (snuffAt s l).fencedW && (snuffAt s l).fencedE && (snuffAt s l).cleared && decide (64 ≤ (lanternAt s l).trained.length) &&
      (!s.seam.paired || eastHeard s (snuffAt s l).keyMessage)) (apart (snuffs { due := true, fencedW := true, fencedE := true, draining := true, cleared := true } up))) = true ∧
  (let l : Nat := 1; meets (fun s => decide (l < s.build.lanterns) && (snuffAt s l).due && decide (65535 ≤ (lanternAt s l).incarnation)) (modLantern 1 (fun y => { y with incarnation := 65535 }) (setSnuff 1 { due := true } up))) = true ∧
  (let p : Nat := 0; meets (fun s => portSnuffGoes s p && !(snuffAt s (100 + p)).fencedW) (portSnuffs { due := true })) = true ∧
  (let p : Nat := 0; meets (fun s => portSnuffGoes s p && (snuffAt s (100 + p)).fencedW && (snuffAt s (100 + p)).fencedE && !(snuffAt s (100 + p)).draining) (portSnuffs { due := true, fencedW := true, fencedE := true })) = true ∧
  (let p : Nat := 0; meets (fun s => portSnuffGoes s p && (snuffAt s (100 + p)).fencedW && (snuffAt s (100 + p)).fencedE && (snuffAt s (100 + p)).draining &&
      ((snuffAt s (100 + p)).timedOut || (s.fabric.west.ops ++ s.fabric.east.ops).all (fun e => !(e.2.used && e.2.sent.isSome && e.2.port == p)))) (portSnuffs { due := true, fencedW := true, fencedE := true, draining := true })) = true ∧
  (let l : Nat := 0; meets (fun s => (snuffAt s l).draining && decide ((snuffAt s l).since + 100000 ≤ now s)) (snuffs { due := true, fencedW := true, fencedE := true, draining := true, since := 1000 } up)) = true ∧
  (let l : Nat := 0; meets (fun s => decide (l < s.build.lanterns) && holdsWork s (.lantern l)) (alone endDescriptor)) = true ∧
  ( meets (fun s => holdsWork s .copyEngine) (held { cmd := copyCmd 0, serial := 9, started := true, flying := 1 } stocked)) = true ∧
  (let l : Nat := 0; let k : Nat := 15; meets (fun s => decide (l < s.build.lanterns) && decide (k < s.build.wicks + s.build.spares) && !(physUsed s l).contains k) (up)) = true ∧
  (meets (fun _ => true) (up)) = true ∧
  (let l : Nat := 0; let k : Nat := 0; meets (fun s => decide (l < s.build.lanterns) && decide (k < s.build.wicks + s.build.spares) &&
      !(lanternAt s l).scratchLog.any (fun e => e.1 == k && decide (clock s (lanternWest s l) < e.2 + 86400000000000))) (alone endDescriptor)) = true ∧
  (let l : Nat := 0; let k : Nat := 0; meets (fun s => decide (l < s.build.lanterns) && decide (k < s.build.wicks + s.build.spares) &&
      (lanternAt s l).scratchLog.any (fun e => e.1 == k && decide (clock s (lanternWest s l) < e.2 + 86400000000000))) (modLantern 0 (fun x => { x with scratchLog := [(0, 999999999)] }) (alone endDescriptor))) = true ∧
  (let l : Nat := 0; let k : Nat := 0; meets (fun s => decide (l < s.build.lanterns) && decide (k < s.build.wicks + s.build.spares)) (alone endDescriptor)) = true ∧
  (let l : Nat := 0; let c : Nat := 63; meets (fun s => decide (l < s.build.lanterns) && decide (c < 64)) (up)) = true ∧
  (let c : Nat := 1; meets (fun s => decide (c < s.build.caps)) (up)) = true ∧
  (let t : Nat := 5; meets (fun s => s.faults.blockDue == some t) (onFaults (fun f => { f with blockDue := some t }) up)) = true := by decide +kernel

/-! ## Regulation, interfaces and registers -/

/-- A resource or a curfew as given, in a block that runs. -/
def regulated (x : Resource) : State := setResource 3 x up
def stopping (f : Curfew → Curfew) : State := onCurfew f up

/-- A message of the management port, and the mailbox behind it with every slot taken. -/
def message (b : Bytes) : MctpMsg := ⟨true, 0, 9, 5, b⟩
def crowded : State := setBox 17 { boxAt up 17 with slots := (List.range 4).map (fun k => (k, { state := .pending })) } up

/-- The interface of partition 0 in a state; stream 5 bound to its function; an operation of the key port. -/
def interfaced (f : Partition → Partition) : State := modPart 0 f parted
def streamOp (sub dir : Nat) : IdeOp := ⟨0, 5, sub, dir, 0⟩
def bound : State := onIde (fun i => { i with started := [streamOp 0 0, streamOp 0 1, streamOp 1 0, streamOp 1 1, streamOp 2 0, streamOp 2 1] }) parted
def unacked : State := onIde (fun i => { i with current := some { op := 1, which := streamOp 2 1, tsm := true } }) up

/-- An access of a function. -/
def access (func offset : Nat) (v : Word64) : RegAccess := ⟨func, true, offset, true, v⟩

/-- States and operands that meet what Obligations.RegulationCompletes asks, clause by clause. -/
theorem met_RegulationCompletes :
  (meets (fun s => decide (s.reg.lastEval + 10000 ≤ now s)) (up)) = true ∧
  (let r : Nat := 3; let t : Nat := 0; meets (fun s => (resourceAt s r).since == some t && (resourceAt s r).derated && !(resourceAt s r).inReset && decide (t + 1000000 ≤ clock s (resWest s r))) (regulated { since := some 0, derated := true })) = true ∧
  (let l : Nat := 1; let xs : List Nat := [15]; meets (fun s => !xs.isEmpty && decide (l < s.build.lanterns)) (up)) = true ∧
  (let c : Nat := 1; let xs : List Nat := [0, 3]; meets (fun s => !xs.isEmpty && decide (c < s.build.caps)) (up)) = true ∧
  (let e : Nat := 90000; meets (fun s => decide (s.reg.lastPower + 100000 ≤ now s) && nextThrottle s e == s.reg.throttle) (up)) = true ∧
  (let e : Nat := 200000; meets (fun s => decide (s.reg.lastPower + 100000 ≤ now s) && nextThrottle s e != s.reg.throttle) (onReg (fun g => { g with cap := 80000 }) up)) = true := by decide +kernel

/-- States and operands that meet what Obligations.CurfewAndHeadersComplete asks, clause by clause. -/
theorem met_CurfewAndHeadersComplete :
  (let i : Island := .frontEnd; meets (fun s => mayStop s i && (islandsOf s true).contains i && s.curfew.armedW) (stopping (fun c => { c with state := 1, t := 1000000000, armedW := true }))) = true ∧
  (let i : Island := .feAgent; meets (fun s => mayStop s i && !(islandsOf s true).contains i && (islandsOf s false).contains i && s.curfew.armedE) (stopping (fun c => { c with state := 1, t := 1000000000, armedE := true }))) = true ∧
  ( meets (fun s => s.curfew.inForce && decide (s.curfew.dawn ≤ now s)) (stopping (fun c => { c with state := 3, inForce := true, t := 5, dawn := 1000000000 }))) = true ∧
  (let h : Nat := 1; let b : Nat := 31; meets (fun s => decide (h ≤ 1 ∧ b < 32) && headerDue s h b) (modBuf 31 (fun x => { x with east := { x.east with state := 2 } }) up)) = true ∧
  (let h : Nat := 0; let b : Nat := 0; meets (fun s => decide (h ≤ 1 ∧ b < 32) && !headerDue s h b) (up)) = true := by decide +kernel

/-- States and operands that meet what Obligations.ManagementPortCompletes asks, clause by clause. -/
theorem met_ManagementPortCompletes :
  (let m : MctpMsg := message (zeros 16); let k : Nat := 0; meets (fun s => mctpTaken s m && !s.ll.mgmtActive && reqLen m.body + 16 == m.body.length &&
      (List.range 4).find? (fun k => decide ((tget {} (boxAt s 17).slots k).state = .free)) == some k) (up)) = true ∧
  (let m : MctpMsg := message (zeros 16); meets (fun s => mctpTaken s m && !s.ll.mgmtActive && reqLen m.body + 16 == m.body.length &&
      (List.range 4).find? (fun k => decide ((tget {} (boxAt s 17).slots k).state = .free)) == none) (crowded)) = true ∧
  (let m : MctpMsg := message (zeros 15); meets (fun s => boxServed s 17 && !mctpTaken s m) (up)) = true ∧
  (let e : Nat := 0xFE; meets (fun _ => decide (0x08 ≤ e ∧ e ≤ 0xFE)) (up)) = true ∧
  (let e : Nat := 0xFF; meets (fun _ => decide (e < 0x08 ∨ 0xFE < e)) (up)) = true ∧
  ( meets (fun s => s.boxes.i3cAddr == 0) (up)) = true ∧
  ( meets (fun _ => true) (up)) = true ∧
  ( meets (fun s => s.boxes.i3cAddr != 0) (onBoxes (fun b => { b with i3cAddr := 9 }) up)) = true ∧
  ( meets (fun s => s.boxes.i3cAddr != 0) (onBoxes (fun b => { b with i3cAddr := 9 }) up)) = true ∧
  ( meets (fun s => s.ll.mgmtActive && decide (s.ll.mgmtStart + 3600000000000 ≤ now s)) (onLl (fun l => { l with mgmtActive := true, mgmtStart := 0 }) { up with time := { now := 3600000000000, east := 3600000000000 } })) = true ∧
  ( meets (fun _ => true) (up)) = true := by decide +kernel

/-- States and operands that meet what Obligations.InterfacesComplete asks, clause by clause. -/
theorem met_InterfacesComplete :
  (let p : Nat := 0; let sid : Nat := 5; meets (fun s => tsmServed s && decide (p < 16) && partSettled s p && (partAt s p).tdi == .configUnlocked && streamBound s p sid && s.ll.drbgRunning) (bound)) = true ∧
  (let p : Nat := 0; let n : Bytes := [7#8]; meets (fun s => tsmServed s && decide (p < 16) && (partAt s p).tdi == .configLocked && (partAt s p).nonce != [] && n == (partAt s p).nonce) (interfaced (fun x => { x with tdi := .configLocked, nonce := [7#8] }))) = true ∧
  (let p : Nat := 0; meets (fun s => tsmServed s && decide (p < 16) && partExists s p && (partAt s p).tdi != .configUnlocked && partSettled (stopStream p s) p) (interfaced (fun x => { x with tdi := .run, stream := some 5 }))) = true ∧
  (let o : IdeOp := streamOp 2 1; let k : Bytes := zeros 32; let v : Bytes := zeros 8; meets (fun s => ideFree s && ideOpOk s o && k.length == 32 && v.length == 8) (up)) = true ∧
  (let o : IdeOp := ⟨16, 255, 2, 1, 1⟩; meets (fun s => ideFree s && ideOpOk s o) (up)) = true ∧
  (let o : IdeOp := streamOp 0 0; meets (fun s => tsmServed s && ideOpOk s o && s.ide.current.isSome) (unacked)) = true ∧
  (let o : IdeOp := streamOp 0 0; meets (fun s => ideFree s && ideOpOk s o) (up)) = true ∧
  (let r : IdeRequest := { op := 1, which := streamOp 2 1, tsm := true }; meets (fun s => s.ide.current == some r && r.tsm) (unacked)) = true ∧
  (let r : IdeRequest := { op := 1, which := streamOp 2 1, tsm := true }; meets (fun s => s.ide.current == some r && r.tsm && decide (s.ide.since + 10000 ≤ now s)) (unacked)) = true := by decide +kernel

/-- States and operands that meet what Obligations.RegisterAndDebugAccessesComplete asks, clause by clause. -/
theorem met_RegisterAndDebugAccessesComplete :
  (let a : RegAccess := access 16 0x3000 1; meets (fun s => accessGoes s a true) (up)) = true ∧
  (let a : RegAccess := access 17 0x3000 1; meets (fun s => s.trust.pwrOk && formedAccess a && !(decide (a.func ≤ 16) && regAdmits s a true)) (up)) = true ∧
  (let a : RegAccess := access 0 0x100810 1; meets (fun s => accessGoes s a true && mailboxOffset a == some 0x810 && boxThere s a) (parted)) = true ∧
  (let a : RegAccess := access 16 0x1820 1; meets (fun s => accessGoes s a true && mailboxOffset a == some 0x820 && boxThere s a) (up)) = true ∧
  (let a : RegAccess := access 16 0x201000 1; meets (fun s => accessGoes s a true && isTgenCtrl a && setsBit a 0) (up)) = true ∧
  (let a : RegAccess := access 16 0x201000 2; meets (fun s => accessGoes s a true && isTgenCtrl a && setsBit a 1) (up)) = true ∧
  (let a : RegAccess := access 16 0 0; meets (fun s => formedAccess a && decide (a.func ≤ 16) && regAdmits s a false) (up)) = true ∧
  (let a : RegAccess := access 3 8 0; meets (fun s => formedAccess a && !(decide (a.func ≤ 16) && regAdmits s a false)) (up)) = true ∧
  (let h : Nat := 1; let ir : Byte := 0x02; meets (fun s => decide (h < 2) && irDefined h ir && (irCategory h ir).all (fun c => categoryOpen s h c)) (up)) = true ∧
  (let h : Nat := 1; let ir : Byte := 0x11; meets (fun s => decide (h < 2) && (irCategory h ir).any (fun c => !categoryOpen s h c)) (up)) = true ∧
  (let h : Nat := 0; meets (fun s => decide (h < 2) && irOf s h == 0x10#8 && (irCategory h (irOf s h)).any (fun c => categoryOpen s h c)) (onJtag (fun j => { j with irW := 0x10 }) up)) = true ∧
  (let h : Nat := 1; meets (fun s => decide (h < 2) && irOf s h == 0x11#8 && (irCategory h (irOf s h)).any (fun c => categoryOpen s h c)) (onJtag (fun j => { j with irE := 0x11, eastNow := 0x1F }) up)) = true ∧
  (let h : Nat := 0; meets (fun s => decide (h < 2) && irOf s h == 0x12#8 && (irCategory h (irOf s h)).any (fun c => categoryOpen s h c)) (onJtag (fun j => { j with irW := 0x12 }) up)) = true := by decide +kernel

/-! ## Steps, invariants and rules -/

/-- What a step answers where it answers a next state. -/
def stepped (s : State) (f : State → Bool) : Bool :=
  match step s with
  | .next t => f t
  | _ => false

/-- A queue of two commands; a block after a Terminal fault, a command before it; a row of fuses with a bit. -/
def twoWaiting : State := { onLc (fun x => { x with otp := [(40, 1)] }) up with pending := [.entropyFailure, .dusk] }
def ended : State := { enterTerminal up with pending := [.dusk] }

/-- States and commands that meet what the statements about steps ask. -/
theorem met_steps :
    queueLegal twoWaiting = true ∧ twoWaiting.pending = .entropyFailure :: [.dusk] ∧ otpRow twoWaiting 40 = 1 ∧ stepped twoWaiting (fun t => t.pending == [.dusk]) = true ∧
    State.reset.pending = [] ∧ State.reset.trust.pwrOk = false ∧ meets (fun s => s.faults.terminalDue) (onFaults (fun f => { f with terminalDue := true }) up) = true ∧
    ended.trust.pwrOk = true ∧ ended.faults.terminal = true ∧ keysGone ended = true ∧ ended.pending.head? ≠ some .pwrOkFall ∧ stepped ended (fun _ => true) = true ∧
    actsStopped (.getVersion ⟨0, 0, {}⟩) = false ∧ running ended = false ∧ running State.reset = false ∧ mayBurn .entropyFailure = false := by
  decide +kernel

/-- Addresses and formats that meet what the statements about placement and formats ask: the last address of two lanterns, the last of
one, the last offset of a window, a capacity line; an MXFP4 and an MXINT8 block, one of them NaN. -/
theorem met_placement :
    0 < up.build.lanterns ∧ homeGib up ≤ 48 ∧ 2 ^ 30 * 96 - 1 < 2 ^ 30 * (48 * up.build.lanterns) ∧ remapOf up 1 ((48 * 2 ^ 30 - 1) / 4096) = none ∧
    remapOf up 1 ((48 * 2 ^ 30 - 1 + 256) / 4096) = none ∧ 2 ^ 30 - 1 < homeGib up * 2 ^ 30 ∧ 0 < up.build.caps ∧ 0x3BFFFFFFF00 % 256 = 0 ∧
    3 * 4 + 3 ≤ 8 * (zeros 2).length ∧
    (let f : Fmt := ⟨1, 2, 4, 4, 32, 1, 0, 1, 0, 0, 0⟩
     f.kind = 2 ∧ f.scale = 1 ∧ f.sel = 0 ∧ f.group = 32 ∧ f.elem ≠ 8 ∧ fld (List.replicate 32 0xFF) (f.elemRegion + 31 / 32) 1 = 0xFF) ∧
    (let f : Fmt := ⟨1, 2, 8, 8, 32, 1, 0, 1, 0, 0, 0⟩
     f.kind = 2 ∧ f.scale = 1 ∧ f.sel = 0 ∧ f.group = 32 ∧ f.elem = 8) := by decide +kernel

/-- A line of capacity port 1 whose counter stands at its maximum. -/
def spent : State := modCap 1 (fun x => { x with cache := [⟨3, [⟨0, zeros 10⟩, ⟨maxCounter, zeros 10⟩], false⟩] }) up
theorem met_ExhaustedCounterRefusesWrites :
    ((capAt spent 1).cache.find? (fun m => m.group == 0xD00 / 1024)).any (fun m => (m.at 0xD00).counter == maxCounter) = true ∧
      0xD00 < 0x003C00000000 := by decide +kernel

/-- Every ring of a block without queues fits. -/
theorem met_DoorbellsKeepRingsInSize : ringsFit up := fun k => by
  have h : queueAt up k = {} := rfl
  rw [h]; decide +kernel

/-- A mailbox of the manager whose slots 0 and 3 wait and are answered, with 16 unread events. -/
def full_ : State :=
  setBox 16 { boxAt up 16 with slots := [(0, { state := .pending }), (3, { state := .done })], read := 0xFFF8, write := 8 } up
theorem met_MailboxSlotsAndEventRing :
    (tget {} (boxAt full_ 16).slots 0).state ≠ .free ∧ (tget {} (boxAt full_ 16).slots (0x3FF / 256)).state = .done ∧
      (0x8#4).getLsbD 3 = true ∧ 16 ≤ unread (boxAt full_ 16) ∧ partExists parted 0 = true := by decide +kernel

/-- Levels 4 and 5 to a class, a locked class, a record of a partition's slot and of the manager's. -/
theorem met_SeverityIsProgrammed :
    (coverOf ⟨16, true, 0x3200, true, 4⟩).getLsbD 0 = true ∧ (classDefault clsCapUe).2 = false ∧ (4#64).toNat % 8 ≤ 4 ∧ 5 ≤ (5#64).toNat % 8 ∧
      (classDefault clsVigil).2 = true ∧ clsCapUe ≠ clsSlotBad ∧
      (let a : FaultArg := { cls := clsSlotBad, kind := kindKeyStore, inst := 0, part := 15 }
       a.level = none ∧ a.part < 16) ∧
      (let a : FaultArg := { cls := clsSlotBad, kind := kindKeyStore, inst := 0, part := 16 }
       a.level = none ∧ a.cls = clsSlotBad ∧ 16 ≤ a.part) := by decide +kernel

/-- The last lantern and capacity port of the build with all channels full and all empty; reservations that fit and that do not; a
power event, and no cap. -/
theorem met_regulation :
    running up = true ∧ 1 < up.build.lanterns ∧ 1 < up.build.caps ∧ (∀ x ∈ [15, 0], x ≤ 15) ∧ (lanternAt up 1).window = 8192 ∧ (capAt up 1).window = 1024 ∧
      (factorsOf 100 10 20 200).1 ≠ 0 ∧ 10 + 20 ≤ 100 ∧ 25 < 10 + 20 ∧ (onTrust (fun t => { t with dusk := true }) up).trust.dusk = true ∧
      up.trust.dusk = false ∧ up.reg.cap = 0 := by decide +kernel

end Sys2Proof.Tests
end

section
/-! SUPPORT. What the key operations by mailbox answer, case by case (R19, R65, R70, R238, R239, R244), and the statement about them. -/
namespace Sys2Proof.Proofs.Keys

open Sys2Proof Sys2Proof.Machine Sys2Proof.Safety Sys2Proof.Laws

variable {c : Call} {s : State}

/-! ## KEY_GENERATE and KEY_IMPORT -/

/-- Waiting for East leaves the state alone. -/
@[simp] theorem afterEast_snd (s : State) : (afterEast s).2 = s := by
  unfold afterEast
  split <;> rfl

theorem keyGenerate_memory (hlc : lcPermits s = true) (hcls : arg c.req 2 1 = 2) (hpool : inPool s c.mb (arg c.req 0 2) = true)
    (hempty : (slotAt s (arg c.req 0 2)).state = .empty) (hdrbg : s.ll.drbgRunning = true) :
    keyGenerate c s = afterEast (newMemorySlot c s) := by
  simp only [keyGenerate, hlc, hcls, hpool, hempty, hdrbg]
  rfl

theorem keyGenerate_seed (hlc : lcPermits s = true) (hcls : arg c.req 2 1 = 8) (hpart : c.mb < 16) (hdrbg : s.ll.drbgRunning = true) :
    keyGenerate c s = afterEast (drawSeed c.mb (BitVec.ofNat 8 (arg c.req 4 1 % 2)) s) := by
  simp [keyGenerate, hlc, hcls, hpart, hdrbg]

/-- An answer that waits for East is given by the state it leaves. -/
theorem afterEast_of_snd (s : State) : afterEast s = afterEast (afterEast s).2 := by
  rw [afterEast_snd]

/-- A domain key is answered once East holds it. -/
theorem installDomain_afterEast (key e : Bytes) (s : State) : installDomain key e s = afterEast (installDomain key e s).2 :=
  afterEast_of_snd _

/-- Whatever its KIND, an installed key is answered once East holds it. -/
theorem installKey_afterEast (c : Call) (k : Nat) (e key : Bytes) (s : State) :
    installKey c k e key s = afterEast (installKey c k e key s).2 := by
  unfold installKey
  by_cases hmodel : envKind e = 2
  · rw [if_pos hmodel]
    exact afterEast_of_snd _
  rw [if_neg hmodel]
  by_cases hdigest : envKind e = 4
  · rw [if_pos hdigest]
    exact afterEast_of_snd _
  rw [if_neg hdigest]
  by_cases hmgmt : envKind e = 3
  · rw [if_pos hmgmt]
    exact afterEast_of_snd _
  rw [if_neg hmgmt]
  exact installDomain_afterEast key e s

theorem keyImport_installs {key : Bytes} (hmgmt : c.mb = 17 → envKind (argBytes c.req 8 224) = 3) (hlc : lcPermits s = true)
    (hcheck : importCheck s c (arg c.req 0 2) (argBytes c.req 8 224) = (stOk, key))
    (hflash : envKind (argBytes c.req 8 224) = 3 → ¬ (s.flash.extAck = true ∨ s.trust.dusk = true)) :
    keyImport c s = installKey c (arg c.req 0 2) (argBytes c.req 8 224) key s := by
  unfold keyImport
  simp only [hlc, hcheck]
  rw [if_neg (fun h => h.2 (hmgmt h.1)), if_neg (by simp), if_neg (by simp), if_neg (fun h => hflash h.1 h.2)]

/-! ## KEY_CLEAR, KEY_GRANT and KEY_UNGRANT -/

theorem keyClear_empty (hclr : clearable s c.mb (arg c.req 0 2) = true) (hbusy : clearing s (arg c.req 0 2) = false)
    (hempty : (slotAt s (arg c.req 0 2)).state = .empty) : keyClear c s = accept [] s := by
  simp [keyClear, hclr, hbusy, hempty]

theorem keyClear_drains (hclr : clearable s c.mb (arg c.req 0 2) = true) (hbusy : clearing s (arg c.req 0 2) = false)
    (hfull : (slotAt s (arg c.req 0 2)).state ≠ .empty)
    (hown : (slotAt s (arg c.req 0 2)).owner = c.mb ∨ (slotAt s (arg c.req 0 2)).spent = true) (hrot : rotating s (arg c.req 0 2) = false)
    (hopen : s.keys.grants.any (fun g => g.slot == arg c.req 0 2 && !partOpen s g.part) = false) :
    keyClear c s = (.wait (.keyDrain (arg c.req 0 2)) [], onPath (fun p => { p with due := tset {} p.due (arg c.req 0 2) {} })
      (closeGrants (arg c.req 0 2) (fun _ => true) (modSlot (arg c.req 0 2) (fun v => { v with draining := true }) s))) := by
  have hmay : ¬ ((slotAt s (arg c.req 0 2)).owner ≠ c.owner ∧ ¬ (slotAt s (arg c.req 0 2)).spent = true) :=
    fun h => hown.elim h.1 h.2
  simp only [keyClear, hclr, hbusy, hrot, hopen]
  rw [if_neg (by simp), if_neg (by simp), if_neg hfull, if_neg hmay, if_neg (by simp), if_neg (by simp)]

theorem keyGrant_grants (hslot : grantable s (arg c.req 0 2) = true) (hpart : arg c.req 2 1 ≤ 15) (hthere : partExists s (arg c.req 2 1) = true)
    (hmode : arg c.req 3 1 ≤ 1) (hopen : partOpen s (arg c.req 2 1) = true) :
    keyGrant c s = accept [] (onKeys (fun x => { x with grants := x.grants ++ [⟨arg c.req 0 2, arg c.req 2 1, arg c.req 3 1 == 1, false⟩] })
      (endGrants (arg c.req 0 2) (fun g => g.part == arg c.req 2 1) s)) := by
  have hvalid : ¬ (¬ grantable s (arg c.req 0 2) = true ∨ arg c.req 2 1 > 15 ∨ ¬ partExists s (arg c.req 2 1) = true ∨ arg c.req 3 1 > 1) := by
    rintro (h | h | h | h)
    · exact h hslot
    · omega
    · exact h hthere
    · omega
  simp only [keyGrant, if_neg hvalid, if_neg (not_not_intro hopen)]

/-- The operands of KEY_UNGRANT that pass its checks. -/
theorem ungrant_valid (hslot : grantable s (arg c.req 0 2) = true) (hpart : arg c.req 2 1 ≤ 15) (hthere : partExists s (arg c.req 2 1) = true) :
    ¬ (¬ grantable s (arg c.req 0 2) = true ∨ arg c.req 2 1 > 15 ∨ ¬ partExists s (arg c.req 2 1) = true) := by
  rintro (h | h | h)
  · exact h hslot
  · omega
  · exact h hthere

theorem keyUngrant_drains (hslot : grantable s (arg c.req 0 2) = true) (hpart : arg c.req 2 1 ≤ 15) (hthere : partExists s (arg c.req 2 1) = true)
    (hheld : s.keys.grants.any (fun g => g.slot == arg c.req 0 2 && g.part == arg c.req 2 1) = true) (hopen : partOpen s (arg c.req 2 1) = true) :
    keyUngrant c s = (.wait (.grantDrain (arg c.req 0 2) (arg c.req 2 1)) [], closeGrants (arg c.req 0 2) (fun g => g.part == arg c.req 2 1) s) := by
  simp only [keyUngrant, if_neg (ungrant_valid hslot hpart hthere), if_neg (not_not_intro hheld), if_neg (not_not_intro hopen)]

theorem keyUngrant_notGranted (hslot : grantable s (arg c.req 0 2) = true) (hpart : arg c.req 2 1 ≤ 15) (hthere : partExists s (arg c.req 2 1) = true)
    (hnone : s.keys.grants.any (fun g => g.slot == arg c.req 0 2 && g.part == arg c.req 2 1) = false) : keyUngrant c s = accept [] s := by
  simp only [keyUngrant, if_neg (ungrant_valid hslot hpart hthere), if_pos (ne_true_of_eq_false hnone)]

/-! ## Rotation -/

theorem keySetTarget_designates (hslot : rotatable s c.mb (arg c.req 0 2) = true) (hcap : (slotAt s (arg c.req 0 2)).capUsed = false) :
    keySetTarget c s =
      accept [] (onKeys (fun x => { x with targets := tset 0xFFFF x.targets (slotAt s (arg c.req 0 2)).owner (arg c.req 0 2) }) s) := by
  simp [keySetTarget, hslot, hcap]

/-- A rotation starts with the lowest free descriptor; the designation of its target ends with it (R239). -/
theorem keyRotate_starts {n : Nat} (ha : rotating s (arg c.req 0 2) = false) (hb : rotating s (arg c.req 2 2) = false)
    (hok : rotateOk s c.mb (arg c.req 0 2) (arg c.req 2 2) (arg c.req 4 1) (arg c.req 8 8) (arg c.req 16 8) = true)
    (hfree : freeRotation s = some n) :
    keyRotate c s = (.wait (.sweepOpen n) (created n 0),
      let t := startRotation n (arg c.req 0 2) (arg c.req 2 2) (arg c.req 8 8) (arg c.req 16 8) (if arg c.req 4 1 = 0 then 2 else arg c.req 4 1) s
      if tget 0xFFFF t.keys.targets (slotAt s (arg c.req 0 2)).owner = arg c.req 2 2 then
        onKeys (fun x => { x with targets := terase x.targets (slotAt s (arg c.req 0 2)).owner }) t
      else t) := by
  simp only [keyRotate, ha, hb, hok, hfree]
  rw [if_neg (by simp), if_neg (by simp)]

theorem keyConfirm_retires {n : Nat} {x : Rotation} (hslot : 0 < arg c.req 0 2 ∧ arg c.req 0 2 < 0x400)
    (halias : (slotAt s (arg c.req 0 2)).state = .aliased) (hown : (slotAt s (arg c.req 0 2)).owner = c.mb ∨ c.mb = 16)
    (hfind : s.path.rotations.find? (fun e => e.2.active && e.2.a == arg c.req 0 2) = some (n, x)) :
    keyConfirm c s = (.wait (.retireDrain n) [], s) := by
  have hmay : ¬ (¬ (0 < arg c.req 0 2 ∧ arg c.req 0 2 < 0x400) ∨ (slotAt s (arg c.req 0 2)).state ≠ .aliased ∨
      ((slotAt s (arg c.req 0 2)).owner ≠ c.owner ∧ c.owner ≠ 16)) := by
    rintro (h | h | ⟨h, h16⟩)
    · exact h hslot
    · exact h halias
    · exact hown.elim h h16
  simp only [keyConfirm, if_neg hmay, hfind]

/-! ## The statement -/

/-- Settles O13: each clause is one of the operation's cases above, served by the mailbox. -/
theorem keyRequestsComplete : Obligations.KeyRequestsComplete := by
  unfold Obligations.KeyRequestsComplete
  refine ⟨?generateMemory, ?generateSeed, ?importKey, ?clearEmpty, ?clearFull, ?grant, ?ungrant, ?ungrantNone, ?target, ?rotate, ?confirm⟩
  case generateMemory =>
    refine repliesEast_served (fun _ _ => rfl) fun c s h => ?_
    simp only [Bool.and_eq_true, beq_iff_eq] at h
    obtain ⟨⟨⟨⟨hlc, hcls⟩, hpool⟩, hempty⟩, hdrbg⟩ := h
    exact keyGenerate_memory hlc hcls hpool hempty hdrbg
  case generateSeed =>
    refine repliesEast_served (fun _ _ => rfl) fun c s h => ?_
    simp only [Bool.and_eq_true, beq_iff_eq, decide_eq_true_eq] at h
    obtain ⟨⟨⟨hlc, hcls⟩, hpart⟩, hdrbg⟩ := h
    exact keyGenerate_seed hlc hcls hpart hdrbg
  case importKey =>
    intro key
    refine repliesEast_fused (fun _ _ => rfl) fun c s h => ?_
    simp only [Bool.and_eq_true, Bool.or_eq_true, bne_iff_ne, beq_iff_eq, decide_eq_true_eq, Bool.not_eq_true', Bool.and_eq_false_iff,
      beq_eq_false_iff_ne] at h
    obtain ⟨⟨⟨hmgmt, hlc⟩, hcheck⟩, hflash⟩ := h
    rw [keyImport_installs (fun h17 => hmgmt.resolve_left (absurd h17)) hlc hcheck (by simpa using fun h3 => hflash.resolve_left (absurd h3))]
    exact installKey_afterEast ..
  case clearEmpty =>
    refine repliesOk_served (fun _ _ => rfl) fun c s h => ?_
    simp only [Bool.and_eq_true, Bool.not_eq_true', beq_iff_eq] at h
    obtain ⟨⟨hclr, hbusy⟩, hempty⟩ := h
    exact keyClear_empty hclr hbusy hempty
  case clearFull =>
    refine repliesLater_served (fun _ _ => rfl) fun c s h => ?_
    simp only [Bool.and_eq_true, Bool.or_eq_true, Bool.not_eq_true', bne_iff_ne, beq_iff_eq] at h
    obtain ⟨⟨⟨⟨⟨hclr, hbusy⟩, hfull⟩, hown⟩, hrot⟩, hopen⟩ := h
    exact keyClear_drains hclr hbusy hfull hown hrot hopen
  case grant =>
    refine repliesOk_served (fun _ _ => rfl) fun c s h => ?_
    simp only [Bool.and_eq_true, decide_eq_true_eq] at h
    obtain ⟨⟨⟨⟨hslot, hpart⟩, hthere⟩, hmode⟩, hopen⟩ := h
    exact keyGrant_grants hslot hpart hthere hmode hopen
  case ungrant =>
    refine repliesLater_served (fun _ _ => rfl) fun c s h => ?_
    simp only [Bool.and_eq_true, decide_eq_true_eq] at h
    obtain ⟨⟨⟨⟨hslot, hpart⟩, hthere⟩, hheld⟩, hopen⟩ := h
    exact keyUngrant_drains hslot hpart hthere hheld hopen
  case ungrantNone =>
    refine repliesOk_served (fun _ _ => rfl) fun c s h => ?_
    simp only [Bool.and_eq_true, Bool.not_eq_true', decide_eq_true_eq] at h
    obtain ⟨⟨⟨hslot, hpart⟩, hthere⟩, hnone⟩ := h
    exact keyUngrant_notGranted hslot hpart hthere hnone
  case target =>
    refine repliesOk_served (fun _ _ => rfl) fun c s h => ?_
    simp only [Bool.and_eq_true, Bool.not_eq_true'] at h
    exact keySetTarget_designates h.1 h.2
  case rotate =>
    intro n
    refine repliesLater_served (fun _ _ => rfl) fun c s h => ?_
    simp only [Bool.and_eq_true, Bool.not_eq_true', beq_iff_eq] at h
    obtain ⟨⟨⟨ha, hb⟩, hok⟩, hfree⟩ := h
    exact keyRotate_starts ha hb hok hfree
  case confirm =>
    intro n x
    refine repliesLater_served (fun _ _ => rfl) fun c s h => ?_
    simp only [Bool.and_eq_true, Bool.or_eq_true, beq_iff_eq, decide_eq_true_eq] at h
    obtain ⟨⟨⟨hslot, halias⟩, hown⟩, hfind⟩ := h
    exact keyConfirm_retires hslot halias hown hfind

end Sys2Proof.Proofs.Keys
end

section
/-! SUPPORT. What a seam endpoint does with a message (R11 to R16), what the SESSION and KEY messages do (R17 to R20), and the statement
about them. -/
namespace Sys2Proof.Proofs.Seam

open Sys2Proof Sys2Proof.Machine Sys2Proof.Safety Sys2Proof.Laws

variable {cls : Nat} {m : SeamMsg} {f : State → State} {s : State}

/-! ## Receiving (R11 to R16) -/

/-- What a receiving endpoint faults and discards whatever its class and length: damaged words, another version, a reserved class. -/
def seamBad (m : SeamMsg) (s : State) : Bool :=
  (seamLook m s).1 || m.uncorrectable || hdrVer m.header ≠ 1 || hdrCls m.header = 0 || decide (hdrCls m.header ≥ 10)

/-- The state in which a message that is neither bad nor out of sequence has taken its place: its sequence number under the class of its
header has gone by, and its credit goes back. -/
def seamPlaced (cls : Nat) (m : SeamMsg) (s : State) : State :=
  let k := seamKey m.toEast (hdrCls m.header)
  let t := onSeam (fun x => { x with rxSeq := tset 0 x.rxSeq k (tget 0 x.rxSeq k + 1) }) (seamSeen m s)
  if cls = 9 then t else returnCredit m.toEast cls t

/-- A receiving endpoint, in the words of the statements. -/
theorem seamTake_eq (cls : Nat) (m : SeamMsg) (f : State → State) (s : State) :
    seamTake cls m f s =
      if ¬ seamBad m s ∧ (hdrCls m.header ≠ cls ∨ m.payload.length ≠ hdrLen m.header) then (seamLook m s).2
      else if seamBad m s ∨ hdrSeq m.header ≠ (tget 0 (seamSeen m s).seam.rxSeq (seamKey m.toEast (hdrCls m.header))).toNat then
        seamFault m.toEast (seamSeen m s)
      else if seamCarries (seamPlaced cls m s) cls then f (seamPlaced cls m s) else seamPlaced cls m s := by
  rcases hce : injectCheck clsSeamCe kindSeam (b2n m.toEast) 0 0 (wordsTaken m s) with ⟨ce, t⟩
  rcases hue : injectCheck clsSeamUe kindSeam (b2n m.toEast) 0 0 t with ⟨ue, u⟩
  have hfirst : seamCe m s = (ce, t) := hce
  have hlook : seamLook m s = (ue, u) := by rw [seamLook, hfirst, hue]
  simp only [seamTake, hce, hue, seamBad, seamPlaced, seamSeen, hfirst, hlook]

/-- A bad message is a seam fault (R11). -/
theorem seamTake_bad (h : seamBad m s = true) : seamTake cls m f s = seamFault m.toEast (seamSeen m s) := by
  rw [seamTake_eq, if_neg (fun hn => hn.1 h), if_pos (.inl h)]

/-- A sound message gives no reason to discard it, in the words of the receiver. -/
theorem sound_parts (h : sound cls m s = true) : seamBad m s = false ∧ hdrCls m.header = cls ∧ m.payload.length = hdrLen m.header ∧
    hdrSeq m.header = (tget 0 (seamSeen m s).seam.rxSeq (seamKey m.toEast cls)).toNat := by
  simp only [sound, Bool.and_eq_true, Bool.not_eq_true', beq_iff_eq, decide_eq_true_eq] at h
  obtain ⟨⟨⟨⟨⟨⟨hue, hunc⟩, hver⟩, rfl⟩, hrange⟩, hlen⟩, hseq⟩ := h
  have hgood : seamBad m s = false := by
    simp only [seamBad, Bool.or_eq_false_iff, decide_eq_false_iff_not]
    exact ⟨⟨⟨⟨hue, hunc⟩, not_not_intro hver⟩, by omega⟩, by omega⟩
  exact ⟨hgood, rfl, hlen, hseq⟩

/-- A sound message takes effect in the state `received` leaves, where the seam carries its class, and leaves that state otherwise. -/
theorem seamTake_sound (h : sound cls m s = true) :
    seamTake cls m f s = if seamCarries (received cls m s) cls then f (received cls m s) else received cls m s := by
  obtain ⟨hbad, rfl, hlen, hseq⟩ := sound_parts h
  rw [seamTake_eq, if_neg (by simp [hlen]), if_neg (by simp [hbad, hseq])]
  rfl

theorem seamTake_carried (h : sound cls m s = true) (hc : seamCarries (received cls m s) cls = true) :
    seamTake cls m f s = f (received cls m s) := by
  rw [seamTake_sound h, if_pos hc]

theorem seamTake_notCarried (h : sound cls m s = true) (hc : seamCarries (received cls m s) cls = false) :
    seamTake cls m f s = received cls m s := by
  rw [seamTake_sound h, if_neg (by simp [hc])]

/-! ## A row of the seam: the receiver, and what `after` it follows at once -/

section
variable {c : Instr} {cond : State → Bool} {after effect : State → State}

theorem seamDoes_served_then (he : ∀ s, exec c s = whenServing (fun s => after (seamTake cls m f s)) s)
    (hf : ∀ t, cond t = true → after (f t) = effect t) : seamDoes c served cls m cond effect := by
  refine does_served he fun s h => ?_
  simp only [Bool.and_eq_true] at h
  obtain ⟨⟨hs, hcar⟩, hcond⟩ := h
  rw [seamTake_carried hs hcar, hf _ hcond]

theorem seamDoes_served (he : ∀ s, exec c s = whenServing (seamTake cls m f) s) (hf : ∀ t, cond t = true → f t = effect t) :
    seamDoes c served cls m cond effect :=
  seamDoes_served_then (after := fun t => t) he hf

theorem seamDoes_fused_then (he : ∀ s, exec c s = whenFused (fun s => after (seamTake cls m f s)) s)
    (hf : ∀ t, cond t = true → after (f t) = effect t) : seamDoes c fused cls m cond effect := by
  refine does_fused he fun s h => ?_
  simp only [Bool.and_eq_true] at h
  obtain ⟨⟨hs, hcar⟩, hcond⟩ := h
  rw [seamTake_carried hs hcar, hf _ hcond]

theorem seamIdles_served (he : ∀ s, exec c s = whenServing (seamTake cls m f) s) : seamIdles c cls m := by
  refine does_served he fun s h => ?_
  simp only [Bool.and_eq_true, Bool.not_eq_true'] at h
  exact seamTake_notCarried h.1 h.2

end

/-! ## SESSION (R17) -/

theorem takeSession_pairKey {k : Bytes} (hp : s.seam.paired = false) (hlen : m.payload.length = 14)
    (hk : pairKey s m.toEast ((bytesOf m.payload).take 96) ((bytesOf m.payload).drop 96) = some k) :
    takeSession m s = seamSend (!m.toEast) 1 (.words 0 (wordsOf (confirmTag k (!m.toEast))))
      (onSeam (fun x => if m.toEast then { x with eastKey := k } else { x with sessionKey := k }) s) := by
  unfold takeSession
  rw [if_neg (by simp [hp]), if_pos hlen]
  simp only [takePairKey, hk]

/-- A message of two words is the other half's confirmation. -/
theorem takeSession_confirm (hp : s.seam.paired = false) (hlen : m.payload.length = 2) :
    takeSession m s = takeConfirm m.toEast (bytesOf m.payload) s := by
  unfold takeSession
  rw [if_neg (by simp [hp]), if_neg (by omega), if_pos hlen]

theorem takeConfirm_right {toEast : Bool} {b : Bytes} (hk : (if toEast then s.seam.eastKey else s.seam.sessionKey) ≠ [])
    (ht : confirmTag (if toEast then s.seam.eastKey else s.seam.sessionKey) toEast = b) :
    takeConfirm toEast b s = pairIfReady (onSeam (fun x => if toEast then { x with confWest := true } else { x with confEast := true }) s) := by
  unfold takeConfirm
  exact if_neg (fun h => h.elim hk (fun hne => hne ht))

theorem takeConfirm_wrong {toEast : Bool} {b : Bytes}
    (ht : confirmTag (if toEast then s.seam.eastKey else s.seam.sessionKey) toEast ≠ b) : takeConfirm toEast b s = haltBoot 4 stOk s := by
  unfold takeConfirm
  exact if_pos (.inr ht)

/-! ## KEY (R18 to R20) -/

/-- A KEY message that opens takes effect once its counter has gone by. -/
theorem takeKeyMsg_opens {toEast : Bool} {subtype len : Nat} {b : Bytes} {g : Bytes → State → State} (h : opens toEast subtype len m b s = true) :
    takeKeyMsg toEast subtype len m g s = g b (opened m s) := by
  simp only [opens, Bool.and_eq_true, beq_iff_eq, decide_eq_true_eq] at h
  obtain ⟨⟨⟨⟨hdir, hsub⟩, hlen⟩, hslot⟩, hopen⟩ := h
  have hform : ¬ (m.toEast ≠ toEast ∨ keySubOf m.header ≠ subtype ∨ m.payload.length ≠ len ∨ 1056 ≤ keySlotOf m.header) := by
    rintro (h | h | h | h)
    · exact h hdir
    · exact h hsub
    · exact h hlen
    · omega
  simp only [takeKeyMsg, if_neg hform, hopen, opened]

/-! ## The statement -/

/-- Settles O32: every clause is the receiver's case (`seamTake_carried`, `seamTake_bad`, `seamTake_notCarried`) with the message's own. -/
theorem seamKeyMessagesComplete : Obligations.SeamKeyMessagesComplete := by
  unfold Obligations.SeamKeyMessagesComplete
  refine ⟨?pairKey, ?confirmRight, ?confirmWrong, ?load, ?clear, ?clearAll, ?ack, ?damaged, ?idle⟩
  case pairKey =>
    intro m k
    refine seamDoes_fused_then (fun _ => rfl) fun t h => congrArg continueBoot ?_
    simp only [Bool.and_eq_true, Bool.not_eq_true', beq_iff_eq] at h
    obtain ⟨⟨hp, hlen⟩, hk⟩ := h
    exact takeSession_pairKey hp hlen hk
  case confirmRight =>
    intro m
    refine seamDoes_fused_then (fun _ => rfl) fun t h => congrArg continueBoot ?_
    simp only [Bool.and_eq_true, Bool.not_eq_true', beq_iff_eq, bne_iff_ne] at h
    obtain ⟨⟨⟨hp, hlen⟩, hk⟩, ht⟩ := h
    rw [takeSession_confirm hp hlen, takeConfirm_right hk ht]
  case confirmWrong =>
    intro m
    refine seamDoes_fused_then (fun _ => rfl) fun t h => congrArg continueBoot ?_
    simp only [Bool.and_eq_true, Bool.not_eq_true', beq_iff_eq, bne_iff_ne] at h
    obtain ⟨⟨hp, hlen⟩, ht⟩ := h
    rw [takeSession_confirm hp hlen, takeConfirm_wrong ht]
  case load => exact fun m b => seamDoes_served (fun _ => rfl) fun t h => takeKeyMsg_opens h
  case clear => exact fun m b => seamDoes_served (fun _ => rfl) fun t h => takeKeyMsg_opens h
  case clearAll => exact fun m b => seamDoes_served (fun _ => rfl) fun t h => takeKeyMsg_opens h
  case ack =>
    intro m b
    refine seamDoes_served_then (fun _ => rfl) fun t h => congrArg (settle {}) ?_
    simp only [Bool.and_eq_true, decide_eq_true_eq] at h
    obtain ⟨⟨hlow, hhigh⟩, hopen⟩ := h
    rw [if_neg (by omega), takeKeyMsg_opens hopen]
  case damaged =>
    intro m
    refine does_served (fun _ => rfl) fun s h => ?_
    exact seamTake_bad (by simp [seamBad, h])
  case idle => exact fun m => seamIdles_served (fun _ => rfl)

end Sys2Proof.Proofs.Seam
end

section
/-! SUPPORT. Where an address lies (R37 to R39), what `domainOfLocal` gives back of it, and the statements about placement. -/
namespace Sys2Proof.Proofs.Placement

open Sys2Proof Sys2Proof.Machine

variable {s : State} {a l la off ca : Nat}

/-! ## The stacked tier (R37) -/

theorem placeStacked_interleaved (h : a < windowEnd s) :
    placeStacked s a = .stacked (a / 4096 % s.build.lanterns) (a / 4096 / s.build.lanterns * 4096 + a % 4096) := by
  simp only [placeStacked, if_pos h]

theorem placeStacked_home (h : windowEnd s ≤ a) : placeStacked s a =
    .stacked ((a - windowEnd s) / (homeGib s * 2 ^ 30)) ((48 - homeGib s) * 2 ^ 30 + (a - windowEnd s) % (homeGib s * 2 ^ 30)) := by
  simp only [placeStacked, if_neg (Nat.not_lt.2 h)]

theorem domainOfLocal_interleaved (h : la < (48 - homeGib s) * 2 ^ 30) :
    domainOfLocal s l la = (la / 4096 * s.build.lanterns + l) * 4096 + la % 4096 := by
  simp only [domainOfLocal, if_pos h]

theorem domainOfLocal_home (off : Nat) : domainOfLocal s l ((48 - homeGib s) * 2 ^ 30 + off) = homeAddr s l off := by
  simp only [domainOfLocal, homeAddr, if_neg (Nat.not_lt.2 (Nat.le_add_right _ off)), Nat.add_sub_cancel_left]

/-- The window of home placement lies wholly in its lantern. -/
theorem placeStacked_homeAddr (h : off < homeGib s * 2 ^ 30) :
    placeStacked s (homeAddr s l off) = .stacked l ((48 - homeGib s) * 2 ^ 30 + off) := by
  have hw : windowEnd s ≤ homeAddr s l off := by unfold homeAddr; omega
  have hoff : homeAddr s l off - windowEnd s = off + homeGib s * 2 ^ 30 * l := by
    unfold homeAddr
    rw [Nat.mul_comm (homeGib s * 2 ^ 30) l]
    omega
  have hpos : 0 < homeGib s * 2 ^ 30 := Nat.zero_lt_of_lt h
  rw [placeStacked_home hw, hoff, Nat.add_mul_div_left _ _ hpos, Nat.div_eq_of_lt h, Nat.zero_add, Nat.add_mul_mod_self_left,
    Nat.mod_eq_of_lt h]

/-- An interleaved address lies below its lantern's home window, and is the domain address of its place. -/
theorem domainOfLocal_of_interleaved (h : a < windowEnd s) :
    a / 4096 / s.build.lanterns * 4096 + a % 4096 < (48 - homeGib s) * 2 ^ 30 ∧
      domainOfLocal s (a / 4096 % s.build.lanterns) (a / 4096 / s.build.lanterns * 4096 + a % 4096) = a := by
  have hpage : a / 4096 < s.build.lanterns * ((48 - homeGib s) * 2 ^ 18) := by
    unfold windowEnd at h
    rw [← Nat.mul_assoc]
    omega
  have hrow : a / 4096 / s.build.lanterns < (48 - homeGib s) * 2 ^ 18 := Nat.div_lt_of_lt_mul hpage
  have hla : a / 4096 / s.build.lanterns * 4096 + a % 4096 < (48 - homeGib s) * 2 ^ 30 := by omega
  have hsplit := Nat.div_add_mod' (a / 4096) s.build.lanterns
  refine ⟨hla, ?_⟩
  rw [domainOfLocal_interleaved hla, show (a / 4096 / s.build.lanterns * 4096 + a % 4096) / 4096 = a / 4096 / s.build.lanterns by omega,
    hsplit]
  omega

/-- An address above the interleaved window is one of a lantern's home window. -/
theorem exists_homeAddr (hh : homeGib s ≤ 48) (hw : windowEnd s ≤ a) (ha : a < 2 ^ 30 * (48 * s.build.lanterns)) :
    ∃ l off, a = homeAddr s l off ∧ l < s.build.lanterns ∧ off < homeGib s * 2 ^ 30 := by
  have htotal : windowEnd s + homeGib s * 2 ^ 30 * s.build.lanterns = 2 ^ 30 * (48 * s.build.lanterns) := by
    obtain ⟨d, hd⟩ := Nat.exists_eq_add_of_le hh
    rw [windowEnd, hd, Nat.add_sub_cancel_left, Nat.add_mul, Nat.mul_right_comm (homeGib s), Nat.mul_comm d]
    omega
  have hin : a - windowEnd s < homeGib s * 2 ^ 30 * s.build.lanterns := by omega
  have hpos : 0 < homeGib s * 2 ^ 30 := Nat.pos_of_mul_pos_right (Nat.zero_lt_of_lt hin)
  refine ⟨(a - windowEnd s) / (homeGib s * 2 ^ 30), (a - windowEnd s) % (homeGib s * 2 ^ 30), ?_, Nat.div_lt_of_lt_mul hin, Nat.mod_lt _ hpos⟩
  have hsplit := Nat.div_add_mod' (a - windowEnd s) (homeGib s * 2 ^ 30)
  unfold homeAddr
  omega

/-- The place of a stacked address: a lantern of the build, below 48 GiB, whose domain address it is. -/
theorem exists_placeStacked (hn : 0 < s.build.lanterns) (hh : homeGib s ≤ 48) (ha : a < 2 ^ 30 * (48 * s.build.lanterns)) :
    ∃ l la, placeStacked s a = .stacked l la ∧ l < s.build.lanterns ∧ la < 48 * 2 ^ 30 ∧ domainOfLocal s l la = a := by
  rcases Nat.lt_or_ge a (windowEnd s) with hw | hw
  · obtain ⟨hla, hinv⟩ := domainOfLocal_of_interleaved hw
    exact ⟨_, _, placeStacked_interleaved hw, Nat.mod_lt _ hn, Nat.lt_of_lt_of_le hla (Nat.mul_le_mul_right _ (Nat.sub_le _ _)), hinv⟩
  · obtain ⟨l, off, rfl, hl, hoff⟩ := exists_homeAddr hh hw ha
    exact ⟨l, _, placeStacked_homeAddr hoff, hl, by omega, domainOfLocal_home off⟩

/-- Settles O51: `domainOfLocal` takes every place back to its address. -/
theorem stackedPlacementIsOneToOne : Obligations.StackedPlacementIsOneToOne := by
  unfold Obligations.StackedPlacementIsOneToOne
  intro s a b hn hh ha hb
  obtain ⟨l, la, hpa, hl, hla, hinv⟩ := exists_placeStacked hn hh ha
  obtain ⟨l', la', hpb, -, -, hinv'⟩ := exists_placeStacked hn hh hb
  refine ⟨⟨l, la, hpa, hl, hla⟩, fun heq => ?_⟩
  rw [hpa, hpb, Place.stacked.injEq] at heq
  rw [← hinv, ← hinv', heq.1, heq.2]

/-! ## Channels (R38) -/

theorem channelOf_unmapped (h : remapOf s l (la / 4096) = none) : channelOf s l la = (bits la 13 8, la / 2 ^ 14 * 256 + la % 256) := by
  simp only [channelOf, h]

/-- Within a stack the channel-local address is made of bits 35:14 and 7:0. -/
theorem channelLocal_eq_bits (h : la < 48 * 2 ^ 30) : la / 2 ^ 14 * 256 + la % 256 = bits la 35 14 <<< 8 ||| bits la 7 0 := by
  have hhigh : bits la 35 14 = la / 2 ^ 14 := by
    rw [bits, Nat.shiftRight_eq_div_pow, Nat.mod_eq_of_lt (by omega)]
  have hlow : bits la 7 0 = la % 256 := rfl
  rw [hhigh, hlow, ← Nat.shiftLeft_add_eq_or_of_lt (Nat.mod_lt _ (by decide)), Nat.shiftLeft_eq]

theorem bits_next_unit (la : Nat) : bits (la + 256) 13 8 = (bits la 13 8 + 1) % 64 := by
  simp only [bits, Nat.shiftRight_eq_div_pow]
  omega

/-! ## Capacity lines (R38, R39) -/

theorem placeCapacity_offset (s : State) (ca : Nat) : placeCapacity s (capBase + ca) =
    .capacity (ca / 4096 % s.build.caps) (ca / 4096 / s.build.caps * 4096 + ca % 4096) := by
  simp only [placeCapacity, Nat.add_sub_cancel_left]

/-- The bytes of an aligned line follow one another at its port. -/
theorem placeCapacity_line {j : Nat} (hca : ca % 256 = 0) (hj : j < 256) : placeCapacity s (capBase + (ca + j)) =
    .capacity (ca / 4096 % s.build.caps) (ca / 4096 / s.build.caps * 4096 + ca % 4096 + j) := by
  rw [placeCapacity_offset, show (ca + j) / 4096 = ca / 4096 by omega, show (ca + j) % 4096 = ca % 4096 + j by omega, Nat.add_assoc]

/-- The next 4 KiB lie at the next port. -/
theorem placeCapacity_next (s : State) (ca : Nat) : placeCapacity s (capBase + (ca + 4096)) =
    .capacity ((ca / 4096 % s.build.caps + 1) % s.build.caps) ((ca / 4096 + 1) / s.build.caps * 4096 + ca % 4096) := by
  rw [placeCapacity_offset, Nat.add_div_right _ (by decide), Nat.add_mod_right, Nat.mod_add_mod]

/-- Settles O52: the four placements by their equations. -/
theorem channelsFollowTheAddress : Obligations.ChannelsFollowTheAddress := by
  unfold Obligations.ChannelsFollowTheAddress
  refine ⟨?channel, ?nextUnit, ?home, ?capacity⟩
  case channel =>
    intro s l la hla hmap
    rw [channelOf_unmapped hmap]
    exact ⟨rfl, channelLocal_eq_bits hla, by dsimp only; omega⟩
  case nextUnit =>
    intro s l la hmap hmap'
    rw [channelOf_unmapped hmap, channelOf_unmapped hmap']
    exact bits_next_unit la
  case home => exact fun s l off _ hoff => placeStacked_homeAddr hoff
  case capacity =>
    intro s ca hca hn
    exact ⟨_, _, placeCapacity_offset s ca, by omega, Nat.mod_lt _ hn, fun j hj => placeCapacity_line hca hj, _, placeCapacity_next s ca⟩

end Sys2Proof.Proofs.Placement
end

section
/-! SUPPORT. What a metadata line entering the cache leaves of a data line (R48, R54, R56), and the statement about exhausted counters. -/
namespace Sys2Proof.Proofs.Counters

open Sys2Proof Sys2Proof.Machine

variable {s t : State} {c pa : Nat}

/-- A read beside a run of stores finds what stood there. -/
theorem treads_twrites_out {α : Type} [DecidableEq α] (d : α) (t : Tab α) {j n k : Nat} (vs : List α) (h : j + n ≤ k) :
    treads d (twrites d t k vs) j n = treads d t j n := by
  unfold treads
  refine List.map_congr_left fun i hi => ?_
  have hi := List.mem_range.1 hi
  exact tget_twrites_out d vs t k (j + i) (.inl (by omega))

/-- A line's ciphertext is a part of memory. -/
theorem rawLine_congr_mem (c pa : Nat) (h : t.mem = s.mem) : rawLine t c pa = rawLine s c pa := by
  simp only [rawLine, h]

/-- The lines of a port end where its metadata begins (R48). -/
theorem line_below_meta (hpa : pa < 0x003C00000000) (g : Nat) : capKey c (pa / 256 * 256) + 256 ≤ capKey c (metaAddr g) := by
  unfold capKey metaAddr
  omega

theorem rawLine_writeMeta (hpa : pa < 0x003C00000000) (m : MetaLine) (s : State) : rawLine (writeMeta c m s) c pa = rawLine s c pa := by
  unfold writeMeta
  split
  · rfl
  · exact treads_twrites_out 0 s.mem.capacity _ (line_below_meta hpa m.group)

/-- Entering the cache writes metadata only, a line's own or those that give way. -/
theorem rawLine_cacheLine (hpa : pa < 0x003C00000000) (m : MetaLine) (s : State) : rawLine (cacheLine c m s) c pa = rawLine s c pa := by
  unfold cacheLine
  dsimp only
  rw [rawLine_congr_mem c pa (modCap_mem c _ _), foldl_view (fun s => rawLine s c pa) _ (fun s x => rawLine_writeMeta hpa x s)]
  split
  · exact rawLine_writeMeta hpa m s
  · rfl

/-- A metadata line found in the cache becomes the most recent. -/
theorem loadMeta_cached {m : MetaLine} (r : Req) (ue : Ue) (addr : Nat) (h : (capAt s c).cache.find? (fun m => m.group == pa / 1024) = some m) :
    loadMeta r ue c pa addr s = (m, false, cacheLine c m s) := by
  simp only [loadMeta, h]

/-- A write to a line whose counter is at its maximum, as its metadata give it (R54). -/
theorem writeLine_exhausted {r : Req} {ue : Ue} {addr : Nat} {m : MetaLine} {failed : Bool} (d : Bytes) (be : List Bool)
    (hload : loadMeta r ue c pa addr s = (m, failed, t)) (hmax : (m.at pa).counter = maxCounter) :
    (writeLine r ue c pa addr d be s).1 = stCounterExhausted ∧ (writeLine r ue c pa addr d be s).2 = counterEndFault r c addr t := by
  simp only [writeLine, hload, if_pos hmax, and_self]

/-- A refused write leaves the line's bytes: the metadata line's move in the cache reaches no data line, and the fault no memory. -/
theorem rawLine_refused {r : Req} {addr : Nat} (hpa : pa < 0x003C00000000) (m : MetaLine) (s : State) :
    rawLine (counterEndFault r c addr (cacheLine c m s)) c pa = rawLine s c pa :=
  (rawLine_congr_mem c pa (counterEndFault_mem r c addr _)).trans (rawLine_cacheLine hpa m s)

/-- Settles O55: the refusal is `writeLine_exhausted` with the metadata line that the cache holds, the kept bytes are `rawLine_refused`. -/
theorem exhaustedCounterRefusesWrites : Obligations.ExhaustedCounterRefusesWrites := by
  unfold Obligations.ExhaustedCounterRefusesWrites
  refine ⟨fun r ue c pa addr d be s m hfind hmax hpa => ?_, rfl⟩
  obtain ⟨hstatus, hstate⟩ := writeLine_exhausted d be (loadMeta_cached r ue addr hfind) hmax
  exact ⟨hstatus, hstate ▸ rawLine_refused hpa m s, hstate⟩

end Sys2Proof.Proofs.Counters
end

section
/-! SUPPORT. The steps of a sweep, a quarantine and a repair, case by case (R53, R66 to R69, R393, R396, R397), and the statement about
them. -/
namespace Sys2Proof.Proofs.Sweep

open Sys2Proof Sys2Proof.Machine Sys2Proof.Safety Sys2Proof.Laws

variable {s : State} {k n l page : Nat} {u : MemUnit} {ue : Ue}

/-- A command whose effect the records of the flash follow. -/
theorem does_recorded {c : Instr} {f effect : State → State} {cond : State → Bool} (he : ∀ s, exec c s = whenFused (recording f) s)
    (hf : ∀ s, cond s = true → f s = effect s) : does c recorded cond effect := by
  intro s h hc
  rw [he, whenFused_next _ h, recorded, ← hf s hc]
  rfl

/-! ## Rotation (R53, R66 to R69) -/

theorem dueRepeat_due (hon : (tget {} s.path.due k).on = true) (hlast : (tget {} s.path.due k).last + 1000000000 ≤ now s)
    (hnone : dueTarget s (tget {} s.path.due k).owner = 0xFFFF) :
    dueRepeat k s = settle {} (rotationDueEvent k (tget {} s.path.due k).cause
      (onPath (fun p => { p with due := tset {} p.due k { tget {} p.due k with last := now s } }) s)) := by
  have hdue : ¬ (¬ (tget {} s.path.due k).on = true ∨ now s < (tget {} s.path.due k).last + 1000000000 ∨
      dueTarget s (tget {} s.path.due k).owner ≠ 0xFFFF) := by
    rintro (h | h | h)
    · exact h hon
    · omega
    · exact h hnone
  unfold dueRepeat
  exact if_neg hdue

theorem chunkStart_opens {x : SweepUnit} (hshare : shareAt s n u = some x) (hactive : (rotationAt s n).active = true)
    (halias : (rotationAt s n).aliased = false) (hdone : x.done = false) (hopen : x.open_ = false) (hidle : unitIdle s u = false)
    (hbusy : chunkBusy s (unitDomain s u x.watermark) = false) :
    chunkStart n u s = settle {} (modShare n u (fun x => { x with open_ := true }) s) := by
  simp [chunkStart, hshare, hactive, halias, hdone, hopen, hidle, hbusy]

theorem chunkDone_sweeps {x : SweepUnit} (hshare : shareAt s n u = some x) (hactive : (rotationAt s n).active = true) (hopen : x.open_ = true)
    (hidle : unitIdle s u = false) :
    chunkDone n u ue s = pumpHeld ue (finishSweep n (traceSweep n u (modShare n u SweepUnit.swept
      (modTotals (rotationAt s n).owner (fun t => { t with sweep := satTo 64 (t.sweep + 8192) }) (sweepChunk (rotationAt s n) ue u x.watermark s))))) := by
  simp [chunkDone, hshare, hactive, hopen, hidle]

/-! ## Quarantine and repair (R393, R396, R397) -/

theorem quarantineLapse_lapses {q : Quarantine} (hfind : (lanternAt s l).quarantine.find? (fun q => q.page == page) = some q)
    (hsince : q.since + 50000 ≤ clock s (lanternWest s l)) : quarantineLapse l page s = pumpHeld {} (endQuarantine l page s) := by
  simp only [quarantineLapse, hfind, if_neg (Nat.not_lt.2 hsince)]

theorem pageRepair_remaps (hquar : quarantined s l page = true) (hidle : unitIdle s (.lantern l) = false)
    (hnone : repairEntry s (domainOfLocal s l (page * 4096)) = none) (hagain : 2 ≤ recentErrors s l page) :
    pageRepair l page ue s = pumpHeld ue (remapPage ue l page none s) := by
  simp [pageRepair, hquar, hidle, hnone, hagain]

theorem pageRepair_reads {e : RepairEntry} (hquar : quarantined s l page = true) (hidle : unitIdle s (.lantern l) = false)
    (hentry : repairEntry s (domainOfLocal s l (page * 4096)) = some e) (hfirst : recentErrors s l page < 2) :
    pageRepair l page ue s = repairRead l page ue false e s
      (memRead (repairReq l 1) ue (reqAddr e.rkey (e.replica + (domainOfLocal s l (page * 4096) - e.base))) 4096 s) := by
  have hagain : decide (recentErrors s l page ≥ 2) = false := decide_eq_false (Nat.not_le.2 hfirst)
  simp only [pageRepair, hquar, hidle, hentry, hagain]
  rw [if_neg (by simp)]

/-- A repair whose replica, counted and written over the page, reads back. -/
theorem repairRead_holds {e : RepairEntry} {x : MemRead × State} {t : State} (hstatus : x.1.status = stOk)
    (hwrite : (memWrite (repairReq l 2) {} (reqAddr e.key (domainOfLocal s l (page * 4096))) x.1.data
      (onParts (fun p => { p with repairBytes := satTo 64 (p.repairBytes + 12288) }) x.2)).2 = t)
    (hholds : repairHolds l page ue e.key x.1.data t = true) :
    repairRead l page ue false e s x = repairDone l page ue e.key (endQuarantine l page t) := by
  simp only [repairRead, repairChecked, if_neg (not_not_intro hstatus), hwrite, hholds]
  rfl

/-! ## The statement -/

/-- Settles O36: each clause is its step's case above. -/
theorem sweepAndRepairComplete : Obligations.SweepAndRepairComplete := by
  unfold Obligations.SweepAndRepairComplete
  refine ⟨?due, ?opens, ?sweeps, ?lapse, ?remap, ?repair⟩
  case due =>
    intro k
    refine does_served (fun _ => rfl) fun s h => ?_
    simp only [Bool.and_eq_true, beq_iff_eq, decide_eq_true_eq] at h
    obtain ⟨⟨hon, hlast⟩, hnone⟩ := h
    exact dueRepeat_due hon hlast hnone
  case opens =>
    intro n u x
    refine does_served (fun _ => rfl) fun s h => ?_
    simp only [Bool.and_eq_true, Bool.not_eq_true', beq_iff_eq] at h
    obtain ⟨⟨⟨⟨⟨⟨hshare, hactive⟩, halias⟩, hdone⟩, hopen⟩, hidle⟩, hbusy⟩ := h
    exact chunkStart_opens hshare hactive halias hdone hopen hidle hbusy
  case sweeps =>
    intro n u ue x
    refine does_recorded (fun _ => rfl) fun s h => ?_
    simp only [Bool.and_eq_true, Bool.not_eq_true', beq_iff_eq] at h
    obtain ⟨⟨⟨hshare, hactive⟩, hopen⟩, hidle⟩ := h
    exact chunkDone_sweeps hshare hactive hopen hidle
  case lapse =>
    intro l page q
    refine does_served (fun _ => rfl) fun s h => ?_
    simp only [Bool.and_eq_true, beq_iff_eq, decide_eq_true_eq] at h
    exact quarantineLapse_lapses h.1 h.2
  case remap =>
    intro l page ue
    refine does_recorded (fun _ => rfl) fun s h => ?_
    simp only [Bool.and_eq_true, Bool.not_eq_true', beq_iff_eq, decide_eq_true_eq] at h
    obtain ⟨⟨⟨hquar, hidle⟩, hnone⟩, hagain⟩ := h
    exact pageRepair_remaps hquar hidle hnone hagain
  case repair =>
    intro l page ue e
    refine does_recorded (fun _ => rfl) fun s h => ?_
    simp only [Bool.and_eq_true, Bool.not_eq_true', beq_iff_eq, decide_eq_true_eq] at h
    obtain ⟨⟨⟨⟨⟨hquar, hidle⟩, hentry⟩, hfirst⟩, hstatus⟩, hholds⟩ := h
    exact (pageRepair_reads hquar hidle hentry hfirst).trans (repairRead_holds hstatus rfl hholds)

end Sys2Proof.Proofs.Sweep
end

section
/-! SUPPORT. The bits of little-endian numbers and of the element stream (R76), the lane value of a Microscaling weight (R78), and the
statements about number formats. -/
namespace Sys2Proof.Proofs.Formats

open Sys2Proof Sys2Proof.Machine

variable {b : Bytes} {n off k w i j : Nat}

/-! ## The element stream (R76) -/

/-- A byte of a cut or filled string is the string's own, or zero past its end. -/
theorem getD_fit (b : Bytes) (h : k < n) : (fit n b).getD k 0 = b.getD k 0 := by
  simp only [fit, zeros, List.getD_eq_getElem?_getD, List.getElem?_take_of_lt h]
  rcases Nat.lt_or_ge k b.length with hin | hout
  · rw [List.getElem?_append_left hin]
  · rw [List.getElem?_append_right hout, List.getElem?_replicate_of_lt (by omega), List.getElem?_eq_none hout]
    rfl

theorem getD_sub (b : Bytes) (h : k < n) : (sub b off n).getD k 0 = b.getD (off + k) 0 := by
  rw [sub, getD_fit _ h, List.getD_eq_getElem?_getD, List.getElem?_drop, ← List.getD_eq_getElem?_getD]

/-- Bit `k` of a little-endian number is bit `k` mod 8 of its byte `k` div 8. -/
theorem testBit_leNat (b : Bytes) (k : Nat) : (leNat b).testBit k = (b.getD (k / 8) 0).getLsbD (k % 8) := by
  induction b generalizing k with
  | nil => simp [leNat]
  | cons x b ih =>
    rw [leNat, Nat.add_comm, Nat.testBit_two_pow_mul_add (i := 8) _ x.isLt]
    split
    next hlow => rw [Nat.div_eq_of_lt hlow, Nat.mod_eq_of_lt hlow, List.getD_cons_zero, BitVec.getLsbD]
    next hhigh =>
      have hdiv : k / 8 = (k - 8) / 8 + 1 := by omega
      have hmod : k % 8 = (k - 8) % 8 := by omega
      rw [ih, hdiv, hmod, List.getD_cons_succ]

theorem testBit_fld (b : Bytes) (h : k / 8 < n) : (fld b off n).testBit k = (b.getD (off + k / 8) 0).getLsbD (k % 8) := by
  rw [fld, testBit_leNat, getD_sub b h]

/-- The bytes an element is read from hold its bits, wherever in them it begins. -/
theorem testBit_streamElem (b : Bytes) (i : Nat) (hj : j < w) :
    (streamElem b w i).testBit j = (b.getD ((w * i + j) / 8) 0).getLsbD ((w * i + j) % 8) := by
  have hbyte : w * i / 8 + (w * i % 8 + j) / 8 = (w * i + j) / 8 := by omega
  have hbit : (w * i % 8 + j) % 8 = (w * i + j) % 8 := by omega
  simp only [streamElem, Nat.testBit_mod_two_pow, hj, decide_true, Bool.true_and, Nat.testBit_shiftRight]
  rw [testBit_fld b (by omega), hbyte, hbit]

theorem streamElem_lt (b : Bytes) (w i : Nat) : streamElem b w i < 2 ^ w := Nat.mod_lt _ (Nat.two_pow_pos w)

/-- Settles O53: every bit of an element is the stream's, by `testBit_streamElem`. -/
theorem elementsAreStreamBits : Obligations.ElementsAreStreamBits := by
  unfold Obligations.ElementsAreStreamBits
  exact fun b w i j _ _ _ hj => ⟨testBit_streamElem b i hj, streamElem_lt b w i⟩

/-! ## Microscaling blocks (R78) -/

/-- The format entries of OCP Microscaling: blocks of 32 elements under an E8M0 scale. -/
structure Microscaling (f : Fmt) : Prop where
  kind : f.kind = 2
  scale : f.scale = 1
  sel : f.sel = 0
  group : f.group = 32

/-- A Microscaling tile has no selectors: its scale bytes follow its elements, one a block. -/
theorem weightAt_microscaling {f : Fmt} (h : Microscaling f) (s : State) (l : Nat) (tile : Bytes) (i : Nat) :
    weightAt s l f tile i = fMul (decE8m0 (fld tile (f.elemRegion + i / 32) 1))
      (if f.elem = 8 then fMul (decElem f.elem (streamElem tile f.bits i)) (.fin false 1 (-6))
        else decElem f.elem (streamElem tile f.bits i)) := by
  obtain ⟨hkind, hscale, hsel, hgroup⟩ := h
  have hselectors : f.selRegion = 0 := by simp [Fmt.selRegion, hsel]
  have hscaleBytes : scaleBytes 1 = 1 := rfl
  simp only [weightAt, hkind, hscale, hgroup, hselectors, hscaleBytes, scaleVal, Nat.add_zero, Nat.mul_one]

theorem decE8m0_nan : decE8m0 0xFF = .nan := rfl

theorem nan_fMul (v : FVal) : fMul .nan v = .nan := rfl

/-- Settles O54: the three clauses are the cases of the weight's equation, the last one by a scale that is NaN. -/
theorem microscalingBlocksDecode : Obligations.MicroscalingBlocksDecode := by
  unfold Obligations.MicroscalingBlocksDecode
  refine ⟨?others, ?mxint8, ?nanScale⟩
  case others =>
    intro s l f tile i hkind hscale hsel hgroup helem
    rw [weightAt_microscaling ⟨hkind, hscale, hsel, hgroup⟩, if_neg helem]
  case mxint8 =>
    intro s l f tile i hkind hscale hsel hgroup helem
    rw [weightAt_microscaling ⟨hkind, hscale, hsel, hgroup⟩, if_pos helem, helem]
  case nanScale =>
    intro s l f tile i hkind hscale hsel hgroup hnan
    rw [weightAt_microscaling ⟨hkind, hscale, hsel, hgroup⟩, hnan, decE8m0_nan, nan_fMul]

end Sys2Proof.Proofs.Formats
end

section
/-! SUPPORT. What the table, routing-group and server operations by mailbox answer, case by case (R85 to R88, R165, R166, R178, R344), and
the statement about them. -/
namespace Sys2Proof.Proofs.Tables

open Sys2Proof Sys2Proof.Machine Sys2Proof.Safety Sys2Proof.Laws

variable {c : Call} {s t : State}

/-! ## TABLE_LOAD (R85, R87) -/

/-- An image handed to East waits under the next ticket. -/
theorem loadImage_waits (kind index count : Nat) (img : Bytes) (s : State) :
    loadImage kind index count img s = (.wait (.eastFetch (s.seam.tickets + 1) kind index count) [], (loadImage kind index count img s).2) := rfl

/-- The indices that the image of a load fills. -/
abbrev loadTargets (c : Call) : List Nat := targets (arg c.req 1 1) (tableSpan (arg c.req 0 1) (arg c.req 4 4))

/-- An image that the requester may read and that its digest, version and checks admit is handed to East. -/
theorem tableLoad_loads {x : MemRead} (hindex : tableIndexOk (arg c.req 0 1) (arg c.req 1 1) = true)
    (hlen : tableLength (arg c.req 0 1) (arg c.req 1 1) (arg c.req 4 4) = true)
    (hown : (loadTargets c).any (othersTable s c.mb (arg c.req 0 1)) = false)
    (hpin : (loadTargets c).any (pinned s (arg c.req 0 1)) = false)
    (hbusy : (loadTargets c).any (tableLoading s (arg c.req 0 1)) = false)
    (hwait : rangeWaits s false (arg c.req 8 8) (arg c.req 4 4) = false)
    (hread : memRead { part := c.mb, kind := kindFrontEnd, access := 1, master := 7 } c.ue (arg c.req 8 8) (arg c.req 4 4) s = (x, t))
    (hstatus : x.status = stOk) (hdigest : sha384 x.data = argBytes c.req 16 48) (hver : fld x.data 0 1 = 1)
    (hvalid : tableValid (arg c.req 0 1) (arg c.req 1 1) x.data = true) :
    tableLoad c s = loadImage (arg c.req 0 1) (arg c.req 1 1) (tableSpan (arg c.req 0 1) (arg c.req 4 4)) x.data t := by
  simp [tableLoad, hindex, hlen, hown, hpin, hbusy, hwait, hread, hstatus, hdigest, hver, hvalid]

/-! ## TABLE_UNLOAD (R88) -/

/-- The named tables that are loaded. -/
abbrev namedLoaded (c : Call) (s : State) : List Nat :=
  (targets (arg c.req 1 1) (namedSpan c.req)).filter (fun i => (tableAt s (arg c.req 0 1) i).loaded)

/-- The checks of TABLE_UNLOAD, all passed. -/
structure Unloadable (c : Call) (s : State) : Prop where
  named : namedOk c.req = true
  own : c.mb = 16 ∨ (namedLoaded c s).any (othersTable s c.mb (arg c.req 0 1)) = false
  unpinned : (targets (arg c.req 1 1) (namedSpan c.req)).any (pinned s (arg c.req 0 1)) = false
  idle : (targets (arg c.req 1 1) (namedSpan c.req)).any (tableLoading s (arg c.req 0 1)) = false
  unlocked : (namedLoaded c s).any (fun i => (tableAt s (arg c.req 0 1) i).grants.any (fun p => !partOpen s p)) = false

/-- An unload that passes its checks replies at once where nothing it names is loaded, and otherwise clears West and waits for East. -/
theorem tableUnload_passed (h : Unloadable c s) : tableUnload c s =
    if namedLoaded c s = [] then accept [] s
    else
      let x := dropEast (arg c.req 0 1) (arg c.req 1 1) (namedSpan c.req)
        ((namedLoaded c s).foldl (fun s i => unloadWest (arg c.req 0 1) i s) s)
      (.wait (.eastDrop x.1 (arg c.req 0 1) (arg c.req 1 1) (namedSpan c.req)) [], x.2) := by
  obtain ⟨hnamed, hown, hpin, hidle, hopen⟩ := h
  have hmay : ¬ (c.owner ≠ 16 ∧ (namedLoaded c s).any (othersTable s c.owner (arg c.req 0 1)) = true) :=
    fun hn => hown.elim hn.1 (ne_true_of_eq_false · hn.2)
  unfold tableUnload
  rw [if_neg (not_not_intro hnamed), if_neg hmay, if_neg (by simp [hpin]), if_neg (by simp [hidle]), if_neg (by simp [hopen])]

theorem namedLoaded_eq_nil (h : (targets (arg c.req 1 1) (namedSpan c.req)).any (fun i => (tableAt s (arg c.req 0 1) i).loaded) = false) :
    namedLoaded c s = [] :=
  List.filter_eq_nil_iff.2 (List.any_eq_false.1 h)

theorem tableUnload_none (hnamed : namedOk c.req = true)
    (hpin : (targets (arg c.req 1 1) (namedSpan c.req)).any (pinned s (arg c.req 0 1)) = false)
    (hidle : (targets (arg c.req 1 1) (namedSpan c.req)).any (tableLoading s (arg c.req 0 1)) = false)
    (hnone : namedLoaded c s = []) : tableUnload c s = accept [] s := by
  rw [tableUnload_passed ⟨hnamed, .inr (by rw [hnone]; rfl), hpin, hidle, by rw [hnone]; rfl⟩, if_pos hnone]

theorem setTable_seam (kind i : Nat) (v : Table) (s : State) : (setTable kind i v s).seam = s.seam := by
  unfold setTable
  split <;> rfl

theorem storeIn_seam (west : Bool) (kind i : Nat) (img : Bytes) (s : State) : (storeIn west kind i img s).seam = s.seam := by
  unfold storeIn
  refine foldl_view State.seam _ ?_ _ s
  exact fun _ _ => rfl

/-- Clearing West's entries sends nothing to East. -/
theorem unloadWest_seam (kind i : Nat) (s : State) : (unloadWest kind i s).seam = s.seam :=
  (storeIn_seam true kind i [] _).trans (setTable_seam kind i {} s)

/-- An unload of loaded tables waits for East under the ticket that follows those of the state it finds. -/
theorem tableUnload_waits (h : Unloadable c s) (hsome : namedLoaded c s ≠ []) : tableUnload c s =
    (.wait (.eastDrop (s.seam.tickets + 1) (arg c.req 0 1) (arg c.req 1 1) (namedSpan c.req)) [],
      (dropEast (arg c.req 0 1) (arg c.req 1 1) (namedSpan c.req)
        ((namedLoaded c s).foldl (fun s i => unloadWest (arg c.req 0 1) i s) s)).2) := by
  have hseam := foldl_view State.seam _ (fun s i => unloadWest_seam (arg c.req 0 1) i s) (namedLoaded c s) s
  rw [tableUnload_passed h, if_neg hsome]
  simp only [dropEast, hseam]

/-! ## TABLE_GRANT and TABLE_UNGRANT (R86) -/

/-- The manager's loaded tables have their grants to an open partition changed by `f`. -/
theorem tableGrants_changes (f : Nat → List Nat → List Nat) (hnamed : namedOk c.req = true) (hpart : arg c.req 2 1 < 16)
    (hthere : partExists s (arg c.req 2 1) = true) (hopen : partOpen s (arg c.req 2 1) = true)
    (hown : (targets (arg c.req 1 1) (namedSpan c.req)).all
      (fun i => (tableAt s (arg c.req 0 1) i).loaded && (tableAt s (arg c.req 0 1) i).owner == 16) = true) :
    tableGrants f c s = accept [] ((targets (arg c.req 1 1) (namedSpan c.req)).foldl (fun s i => setTable (arg c.req 0 1) i
      { tableAt s (arg c.req 0 1) i with grants := f (arg c.req 2 1) (tableAt s (arg c.req 0 1) i).grants } s) s) := by
  have hvalid : ¬ (¬ namedOk c.req = true ∨ arg c.req 2 1 ≥ 16 ∨ ¬ partExists s (arg c.req 2 1) = true ∨
      (targets (arg c.req 1 1) (namedSpan c.req)).any
        (fun i => !(tableAt s (arg c.req 0 1) i).loaded || (tableAt s (arg c.req 0 1) i).owner ≠ 16) = true) := by
    simpa [hnamed, Nat.not_le.2 hpart, hthere] using hown
  simp only [tableGrants, if_neg hvalid, if_neg (not_not_intro hopen)]

/-! ## Routing groups (R165, R166, R187) -/

/-- The members' table of a group, as its image is read. -/
abbrev readMembers (c : Call) (s : State) : Nat × Bytes × State := readImage c 48 (fun n => decide (2 ≤ n ∧ n ≤ 32768) && n % 2 == 0) s

/-- A group whose fields, object, REGION and members pass is set, and its REGION cleared in every lantern. -/
theorem rgroupCreate_creates {o : Nat} {img : Bytes} (hfields : groupFieldsOk s c.mb c.req = true)
    (hobj : objHandle s c.mb (arg c.req 32 4) = .ok o) (hfits : regionFits s (groupOfReq c.mb o (now s) c.req) = true)
    (himage : imageWaits s c 48 = false)
    (hregion : (allLanterns s).any (fun l => rangeWaits s true (regionAddr s (groupOfReq c.mb o (now s) c.req) l 0)
      (groupOfReq c.mb o (now s) c.req).regionBytes) = false)
    (hread : readMembers c s = (stOk, img, t))
    (hleader : ((chunks 2 img).map leNat).contains (groupOfReq c.mb o (now s) c.req).leader = true)
    (hnodes : ((chunks 2 img).map leNat).all (fun m => decide (m < 16384)) = true) :
    rgroupCreate c s =
      let g := groupOfReq c.mb o (now s) c.req
      let u := bindObj o (setGroup (arg c.req 0 1) { g with members := (chunks 2 img).map leNat } t)
      accept (created (arg c.req 0 1) 0) ((allLanterns u).foldl (fun s l => clearRegion c.ue (arg c.req 0 1) g l s) u) := by
  have hmembers : ¬ (¬ ((chunks 2 img).map leNat).contains (groupOfReq c.mb o (now s) c.req).leader = true ∨
      ((chunks 2 img).map leNat).any (fun m => decide (m ≥ 16384)) = true) := by
    rintro (h | h)
    · exact h hleader
    · obtain ⟨m, hm, hge⟩ := List.any_eq_true.1 h
      have hlt := List.all_eq_true.1 hnodes m hm
      simp only [decide_eq_true_eq] at hge hlt
      omega
  unfold rgroupCreate
  simp only [hfields, hobj, hfits, himage, hregion, hread]
  rw [if_neg (by simp), if_neg (by simp), if_neg (by simp), if_neg (by simp), if_neg hmembers]

theorem rgroupDestroy_drops (hindex : arg c.req 0 1 < 16) (hlive : (groupAt s (arg c.req 0 1)).live = true)
    (hown : (groupAt s (arg c.req 0 1)).owner = c.mb) : rgroupDestroy c s = accept [] (dropGroup (arg c.req 0 1) s) := by
  simp [rgroupDestroy, Nat.not_le.2 hindex, hlive, hown]

/-! ## Expert servers (R178, R344) -/

/-- The table of a server's instances, as its image is read. -/
abbrev readInstances (c : Call) (s : State) : Nat × Bytes × State := readImage c 32 (fun n => decide (16 ≤ n ∧ n ≤ 262144) && n % 16 == 0) s

/-- A server on named pilots that serve no other starts with the table of its instances. -/
theorem serverStart_starts {ps : List Nat} {img : Bytes} (hindex : arg c.req 0 1 < 16) (hfree : (serverAt s (arg c.req 0 1)).live = false)
    (hcount : arg c.req 1 1 ≠ 0 ∧ arg c.req 1 1 ≤ 4) (hpilots : serverPilots s c.mb c.req = some ps) (hok : serverOk s c.req ps = true)
    (himage : imageWaits s c 32 = false) (hread : readInstances c s = (stOk, img, t)) :
    serverStart c s = accept (created (arg c.req 0 1) 0) (setServer (arg c.req 0 1)
      { live := true, part := c.mb, slices := ps.map (fun pi => ({ pilot := pi } : Slice)), inRef := BitVec.ofNat 32 (arg c.req 8 4), cnt := arg c.req 12 4
        gatherNs := arg c.req 16 4, instances := (chunks 16 img).map (fun b => BitVec.ofNat 64 (fld b 0 8)) } t) := by
  have hvalid : ¬ (arg c.req 0 1 ≥ 16 ∨ (serverAt s (arg c.req 0 1)).live = true ∨ arg c.req 1 1 = 0 ∨ arg c.req 1 1 > 4) := by
    rintro (h | h | h | h)
    · omega
    · exact ne_true_of_eq_false hfree h
    · exact hcount.1 h
    · omega
  simp only [serverStart, if_neg hvalid, hpilots, hok, himage, hread]
  rw [if_neg (by simp), if_neg (by simp), if_neg (by simp)]

theorem serverStop_waits (hindex : arg c.req 0 1 < 16) (hlive : (serverAt s (arg c.req 0 1)).live = true)
    (hown : (serverAt s (arg c.req 0 1)).part = c.mb) (hopen : (serverAt s (arg c.req 0 1)).closing = false) :
    serverStop c s = (.wait (.serverQuiet (arg c.req 0 1)) [], stopServer (arg c.req 0 1) (bit (arg c.req 1 1) 0) s) := by
  simp [serverStop, Nat.not_le.2 hindex, hlive, hown, hopen]

/-! ## The statement -/

/-- An image read with status OK, taken apart. -/
theorem readImage_ok {x : Nat × Bytes × State} (h : x.1 = stOk) : x = (stOk, x.2.1, x.2.2) := by
  rw [← h]

/-- Settles O16: each clause is one of the operation's cases above, served by the mailbox. -/
theorem tableGroupAndServerRequestsComplete : Obligations.TableGroupAndServerRequestsComplete := by
  unfold Obligations.TableGroupAndServerRequestsComplete
  refine ⟨?load, ?unloadNone, ?unload, ?grant, ?ungrant, ?groupCreate, ?groupDestroy, ?serverStart, ?serverStop⟩
  case load =>
    refine repliesLater_served (fun _ _ => rfl) fun c s h => ?_
    simp only [Bool.and_eq_true, Bool.not_eq_true', beq_iff_eq] at h
    obtain ⟨⟨⟨⟨⟨⟨⟨⟨⟨hindex, hlen⟩, hown⟩, hpin⟩, hbusy⟩, hwait⟩, hstatus⟩, hdigest⟩, hver⟩, hvalid⟩ := h
    exact (tableLoad_loads hindex hlen hown hpin hbusy hwait rfl hstatus hdigest hver hvalid).trans (loadImage_waits ..)
  case unloadNone =>
    refine repliesOk_served (fun _ _ => rfl) fun c s h => ?_
    simp only [Bool.and_eq_true, Bool.not_eq_true'] at h
    obtain ⟨⟨⟨hnamed, hpin⟩, hidle⟩, hnone⟩ := h
    exact tableUnload_none hnamed hpin hidle (namedLoaded_eq_nil hnone)
  case unload =>
    refine repliesLater_served (fun _ _ => rfl) fun c s h => ?_
    simp only [Bool.and_eq_true, Bool.or_eq_true, Bool.not_eq_true', bne_iff_ne, beq_iff_eq] at h
    obtain ⟨⟨⟨⟨⟨hnamed, hown⟩, hpin⟩, hidle⟩, hsome⟩, hopen⟩ := h
    exact tableUnload_waits ⟨hnamed, hown, hpin, hidle, hopen⟩ hsome
  case grant =>
    refine repliesOk_served (fun _ _ => rfl) fun c s h => ?_
    rw [Bool.and_eq_true, Bool.and_eq_true, Bool.and_eq_true, Bool.and_eq_true, decide_eq_true_eq] at h
    obtain ⟨⟨⟨⟨hnamed, hpart⟩, hthere⟩, hopen⟩, hown⟩ := h
    exact tableGrants_changes _ hnamed hpart hthere hopen hown
  case ungrant =>
    refine repliesOk_served (fun _ _ => rfl) fun c s h => ?_
    rw [Bool.and_eq_true, Bool.and_eq_true, Bool.and_eq_true, Bool.and_eq_true, decide_eq_true_eq] at h
    obtain ⟨⟨⟨⟨hnamed, hpart⟩, hthere⟩, hopen⟩, hown⟩ := h
    exact tableGrants_changes _ hnamed hpart hthere hopen hown
  case groupCreate =>
    intro o
    refine repliesOk_served (fun _ _ => rfl) fun c s h => ?_
    simp only [Bool.and_eq_true, Bool.not_eq_true', beq_iff_eq] at h
    obtain ⟨⟨⟨⟨⟨⟨⟨hfields, hobj⟩, hfits⟩, himage⟩, hregion⟩, hstatus⟩, hleader⟩, hnodes⟩ := h
    exact rgroupCreate_creates hfields (gives_eq hobj) hfits himage hregion (readImage_ok hstatus) hleader hnodes
  case groupDestroy =>
    refine repliesOk_served (fun _ _ => rfl) fun c s h => ?_
    simp only [Bool.and_eq_true, beq_iff_eq, decide_eq_true_eq] at h
    obtain ⟨⟨hindex, hlive⟩, hown⟩ := h
    exact rgroupDestroy_drops hindex hlive hown
  case serverStart =>
    intro ps
    refine repliesOk_served (fun _ _ => rfl) fun c s h => ?_
    simp only [Bool.and_eq_true, Bool.not_eq_true', beq_iff_eq, decide_eq_true_eq] at h
    obtain ⟨⟨⟨⟨⟨⟨hindex, hfree⟩, hcount⟩, hpilots⟩, hok⟩, himage⟩, hstatus⟩ := h
    exact serverStart_starts hindex hfree hcount hpilots hok himage (readImage_ok hstatus)
  case serverStop =>
    refine repliesLater_served (fun _ _ => rfl) fun c s h => ?_
    simp only [Bool.and_eq_true, Bool.not_eq_true', beq_iff_eq, decide_eq_true_eq] at h
    obtain ⟨⟨⟨hindex, hlive⟩, hown⟩, hopen⟩ := h
    exact serverStop_waits hindex hlive hown hopen

end Sys2Proof.Proofs.Tables
end

section
/-! SUPPORT. What a lantern does with an exchange record (R108, R109) and a half with a transit crossing (R193, R213), case by case, and the
statement about them. -/
namespace Sys2Proof.Proofs.Across

open Sys2Proof Sys2Proof.Machine Sys2Proof.Safety Sys2Proof.Laws

variable {s : State}

/-! ## Exchange records (R108, R109) -/

section
variable {m : ExchangeMsg} {p : Bytes}

/-- A lantern's turn with an exchange record that it takes, in the words of the statement. -/
theorem takeExchange_eq (h : exchTaken m s = true) : takeExchange m s =
    match exchPlain m s with
    | none => settle {} (importResume (exchangeFails m stIntegrityFail (tget [] s.experts.exchPart (exchKey m)) (exchLook m s).2))
    | some p =>
      if ¬ exchangeNext (exchLook m s).2 m then
        settle {} (importResume (exchangeFails m stIntegrityFail
          (if (fld p 1 1).testBit 0 then p.drop 16 else tget [] s.experts.exchPart (exchKey m)) (exchLook m s).2))
      else
        settle {} (importResume (exchangePiece m p
          (onExperts (fun e => { e with exchRx := tset (0, 0) e.exchRx (exchKey m) (m.incarnation, m.counter) }) (exchLook m s).2))) := by
  simp only [exchTaken, Bool.and_eq_true, Bool.not_eq_true', decide_eq_true_eq] at h
  obtain ⟨⟨hdest, hsource, hlen⟩, hrun⟩ := h
  have htaken : ¬ (m.dest ≥ s.build.lanterns ∨ m.source ≥ 256 ∨ islandStopped s (.wicks m.dest) = true ∨ m.sealed.length > 4112) := by
    rintro (h | h | h | h)
    · omega
    · omega
    · exact ne_true_of_eq_false hrun h
    · omega
  unfold takeExchange
  exact if_neg htaken

theorem takeExchange_unopened (h : exchTaken m s = true) (hp : exchPlain m s = none) : takeExchange m s =
    settle {} (importResume (exchangeFails m stIntegrityFail (tget [] s.experts.exchPart (exchKey m)) (exchLook m s).2)) := by
  rw [takeExchange_eq h, hp]

theorem takeExchange_next (h : exchTaken m s = true) (hp : exchPlain m s = some p) (hn : exchangeNext (exchLook m s).2 m = true) :
    takeExchange m s = settle {} (importResume (exchangePiece m p
      (onExperts (fun e => { e with exchRx := tset (0, 0) e.exchRx (exchKey m) (m.incarnation, m.counter) }) (exchLook m s).2))) := by
  rw [takeExchange_eq h, hp]
  exact if_neg (not_not_intro hn)

theorem takeExchange_notNext (h : exchTaken m s = true) (hp : exchPlain m s = some p) (hn : exchangeNext (exchLook m s).2 m = false) :
    takeExchange m s = settle {} (importResume (exchangeFails m stIntegrityFail
      (if (fld p 1 1).testBit 0 then p.drop 16 else tget [] s.experts.exchPart (exchKey m)) (exchLook m s).2)) := by
  rw [takeExchange_eq h, hp]
  exact if_pos (ne_true_of_eq_false hn)

end

/-! ## Transit crossings (R193, R213) -/

section
variable {toEast : Bool} {port counter : Nat} {sealed tag p : Bytes} {ue : Ue}

/-- The transit counter of the receiving half moves. -/
abbrev transitCounted (toEast : Bool) (counter : Nat) (s : State) : State :=
  onKeys (fun k => if toEast then { k with transitRxE := counter } else { k with transitRxW := counter }) s

/-- A half takes up a crossing: the port exists, and it lies in this half, or there is room to take the frame in (R428). -/
structure TransitTaken (toEast : Bool) (port : Nat) (sealed : Bytes) (s : State) : Prop where
  port_lt : port < s.build.links
  room : linkWest s port = !toEast ∨ linkStopped s (!toEast) = false ∨ areaRoom s sealed.length = true

/-- A half's turn with a crossing that it takes up. -/
theorem takeTransit_eq (h : TransitTaken toEast port sealed s) : takeTransit toEast port counter sealed tag ue s =
    match gcmOpen (engineKey s (!toEast) 1026) (transitIv toEast counter) [] sealed tag with
    | none => dispatchPathFault (if toEast then kindFeAgent else kindFrontEnd) s
    | some p =>
      if counter ≠ (if toEast then s.keys.transitRxE else s.keys.transitRxW) + 1 then dispatchPathFault (if toEast then kindFeAgent else kindFrontEnd) s
      else crossed ue (!toEast) port (transitFrame p) (transitCounted toEast counter s) := by
  have htaken : ¬ (port ≥ s.build.links ∨ (linkWest s port ≠ (!toEast) ∧ linkStopped s (!toEast) = true ∧ ¬ areaRoom s sealed.length = true)) := by
    rintro (hport | ⟨hother, hstop, hfull⟩)
    · exact Nat.not_lt.2 hport h.port_lt
    · rcases h.room with hhere | hgoes | hroom
      · exact hother hhere
      · exact ne_true_of_eq_false hgoes hstop
      · exact hfull hroom
  unfold takeTransit
  exact if_neg htaken

theorem takeTransit_unopened (h : TransitTaken toEast port sealed s)
    (hopen : gcmOpen (engineKey s (!toEast) 1026) (transitIv toEast counter) [] sealed tag = none) :
    takeTransit toEast port counter sealed tag ue s = dispatchPathFault (if toEast then kindFeAgent else kindFrontEnd) s := by
  rw [takeTransit_eq h, hopen]

theorem takeTransit_opened (h : TransitTaken toEast port sealed s)
    (hopen : gcmOpen (engineKey s (!toEast) 1026) (transitIv toEast counter) [] sealed tag = some p)
    (hnext : counter = (if toEast then s.keys.transitRxE else s.keys.transitRxW) + 1) :
    takeTransit toEast port counter sealed tag ue s =
      crossed ue (!toEast) port (transitFrame p) (transitCounted toEast counter s) := by
  rw [takeTransit_eq h, hopen]
  exact if_neg (not_not_intro hnext)

/-- A frame whose port lies in this half leaves by it, or is dropped at a port that is not up. -/
theorem crossed_leaves {west : Bool} (f : Frame) (h : linkWest s port = west) :
    crossed ue west port f s = if portUp s port then portOut west port f.header f.payload f.tag s else dropFrame port s := by
  rw [crossed, if_pos h, ite_not]

/-- A frame whose port lies in the other half is checked and taken in here. -/
theorem crossed_takenIn {west : Bool} (f : Frame) (h : linkWest s port ≠ west) :
    crossed ue west port f s = settle ue (driveFabric ue (takenIn ue west port f (linkStopped s west) (checkSealed port f s))) := by
  rw [crossed, if_neg h]

end

/-! ## The statement -/

/-- Settles O34: the exchange clauses are the lantern's three cases, the transit clauses the crossing that opens, by either half's port, and
the one that does not. -/
theorem recordsAcrossComplete : Obligations.RecordsAcrossComplete := by
  unfold Obligations.RecordsAcrossComplete
  refine ⟨?next, ?unopened, ?notNext, ?leaves, ?takenIn, ?rejected⟩
  case next =>
    intro m p
    refine does_served (fun _ => rfl) fun s h => ?_
    simp only [Bool.and_eq_true, beq_iff_eq] at h
    obtain ⟨⟨htaken, hplain⟩, hnext⟩ := h
    exact takeExchange_next htaken hplain hnext
  case unopened =>
    intro m
    refine does_served (fun _ => rfl) fun s h => ?_
    simp only [Bool.and_eq_true, beq_iff_eq] at h
    exact takeExchange_unopened h.1 h.2
  case notNext =>
    intro m p
    refine does_served (fun _ => rfl) fun s h => ?_
    simp only [Bool.and_eq_true, Bool.not_eq_true', beq_iff_eq] at h
    obtain ⟨⟨htaken, hplain⟩, hnext⟩ := h
    exact takeExchange_notNext htaken hplain hnext
  case leaves =>
    intro toEast port counter sealed tag ue p
    refine does_served (fun _ => rfl) fun s h => ?_
    simp only [Bool.and_eq_true, beq_iff_eq, decide_eq_true_eq] at h
    obtain ⟨⟨⟨hport, hhere⟩, hopen⟩, hnext⟩ := h
    exact (takeTransit_opened ⟨hport, .inl hhere⟩ hopen hnext).trans (crossed_leaves _ hhere)
  case takenIn =>
    intro toEast port counter sealed tag ue p
    refine does_served (fun _ => rfl) fun s h => ?_
    simp only [Bool.and_eq_true, Bool.or_eq_true, Bool.not_eq_true', beq_iff_eq, decide_eq_true_eq] at h
    obtain ⟨⟨⟨⟨hport, hother⟩, hroom⟩, hopen⟩, hnext⟩ := h
    have hne : linkWest (transitCounted toEast counter s) port ≠ !toEast := by
      show linkWest s port ≠ !toEast
      rw [hother]
      exact (Bool.eq_not_self toEast).1
    exact (takeTransit_opened ⟨hport, .inr hroom⟩ hopen hnext).trans (crossed_takenIn _ hne)
  case rejected =>
    intro toEast port counter sealed tag ue
    refine does_served (fun _ => rfl) fun s h => ?_
    simp only [Bool.and_eq_true, beq_iff_eq, decide_eq_true_eq] at h
    obtain ⟨⟨hport, hhere⟩, hopen⟩ := h
    exact takeTransit_unopened ⟨hport, .inl hhere⟩ hopen

end Sys2Proof.Proofs.Across
end

section
/-! SUPPORT. What a wick's turn comes to with the operations a wick carries out by itself: control (R119 to R123), data movement (R136, R137)
and products (R126, R129), and the statements about them. -/
namespace Sys2Proof.Proofs.Wicks

open Sys2Proof Sys2Proof.Machine Sys2Proof.Safety Sys2Proof.Laws

variable {s : State} {w : Wk} {d : Bytes}

/-! ## Steps that come to their end -/

/-- What follows a step that comes to its end goes on from what the step gives and leaves. -/
theorem andThen_finishes {α β : Type} [Inhabited α] {o : WOut α} (s : State) (f : α → State → WOut β) (h : finishes o = true) :
    o.andThen f = f (result o) (leaves s o) :=
  congrArg (·.andThen f) (finishes_eq s h)

/-- A step that gives nothing and comes to its end. -/
theorem finishes_unit {o : WOut Unit} (s : State) (h : finishes o = true) : o = .done () (leaves s o) :=
  finishes_eq s h

/-- A row of a descriptor that a wick carries out by itself: where its work comes to its end, the descriptor ends. -/
theorem wickTakes_alone {c : WickRef → Instr} {ue : Ue} {op : Nat} {cond : Wk → Bytes → State → Bool} {after : Wk → Bytes → State → State}
    {f : Wk → Bytes → State → WOut Unit}
    (he : ∀ r s, exec (c r) s = whenServing (wickTurn (isOp op) (wkOf r ue) (alone (wkOf r ue) (f (wkOf r ue)))) s)
    (hf : ∀ w d s, cond w d s = true → f w d s = .done () (after w d s)) :
    wickTakes c ue (isOp op) cond (fun w d s => endDesc w s (after w d s)) :=
  wickTakes_of (go := fun w => alone w (f w)) (fun _ h => h) he
    fun w d s _ hc => congrArg (·.andThen fun _ t => .done () (endDesc w s t)) (hf w d s hc)

/-! ## Abort (R119, R153) -/

/-- A wick of an aborting task stops, and a COMMIT that its task was copying ends. -/
theorem exec_wickAbort {r : WickRef} (hrun : running s = true) (habort : (taskAt s r.task).live ∧ (taskAt s r.task).aborting ∧
      (taskAt s r.task).lanterns.contains r.lantern ∧ r.rank < (taskAt s r.task).w ∧ ¬ islandStopped s (.wicks r.lantern)) :
    exec (.wickAbort r) s = .next (served s (settle {} (stopWick (wkOf r {})
      (abortCommit r.task ((wickDesc s (wkOf r {})).getD []) {} s)))) := by
  have hturn : abortTurn (wkOf r {}) s = settle {} (stopWick (wkOf r {}) (abortCommit r.task ((wickDesc s (wkOf r {})).getD []) {} s)) :=
    if_pos habort
  rw [← hturn]
  exact whenServing_next _ hrun

/-- KV_APPEND COMMIT of the sequence in argument 0. -/
def commitDescriptor : Bytes := [1#8, 0x22#8, 0#8, 0#8, 0#8, 1#8] ++ zeros 26

/-- Task 1, which is to abort, has a wick in each of two lanterns, both at a COMMIT of sequence 0 in epoch 1; the lanterns have given
each other the rows to copy, and the wick that came last stands before the descriptor. -/
def abortedCommit : State :=
  setSeq 0 { live := true, d := 1, e := 1 } (setTask 1
    { live := true, purpose := .command 0 0, aborting := true, program := [commitDescriptor], args := [0#64], lanterns := [0, 1], w := 1, shared := 1
      wicks := [(wickKey 0 0, { started := true }), (wickKey 1 0, { started := true, waiting := .implicit 0 })] }
    { State.reset with trust := { State.reset.trust with pwrOk := true } })

/-- That wick. -/
def committer : WickRef := ⟨1, 0, 0⟩

/-- The abort of the wick advances the sequence's epoch (R153). -/
theorem abortedCommit_epoch : (seqAt (settle {} (stopWick (wkOf committer {})
    (abortCommit 1 ((wickDesc abortedCommit (wkOf committer {})).getD []) {} abortedCommit))) 0).e = 2 := by decide +kernel

/-- A wick that only stops leaves the sequence in its epoch. -/
theorem stoppedCommit_epoch : (seqAt (settle {} (stopWick (wkOf committer {}) abortedCommit)) 0).e = 1 := by decide +kernel

/-- Refutes O22: its last clause has a wick of an aborting task stop and nothing else happen, but where the abort finds a COMMIT copying, the
sequence's epoch advances too (R153), so that `abortedCommit` leaves epoch 2. -/
theorem not_wickControlCompletes : ¬ Obligations.WickControlCompletes := by
  unfold Obligations.WickControlCompletes
  rintro ⟨-, -, -, -, -, -, -, -, -, -, habort⟩
  have hstops := habort committer abortedCommit (by decide +kernel) (by decide +kernel)
  rw [exec_wickAbort (by decide +kernel) (by decide +kernel)] at hstops
  have hstate := Host.Outcome.next.inj hstops
  have hepoch : 2 = 1 := abortedCommit_epoch.symm.trans ((congrArg (fun t => (seqAt t 0).e) hstate).trans stoppedCommit_epoch)
  exact absurd hepoch (by decide)

/-! ## Data movement (R136, R137) -/

theorem doMove_one (hone : fld d 2 1 = 0) (hread : finishes (moveRead w d s) = true) (hwrite : finishes (moveWrite w d s) = true) :
    doMove w d s = .done () (leaves (leaves s (moveRead w d s)) (moveWrite w d s)) := by
  have hmove : doMove w d s = (moveRead w d s).andThen fun b t => writeOp w (opndAt d 4) (moveStart s w d) b t := if_pos hone
  rw [hmove, andThen_finishes s _ hread]
  exact finishes_unit _ hwrite

theorem doMove_all (hall : fld d 2 1 ≠ 0) (hlen : moveLen s w d ≠ 0) (hread : finishes (moveSure w d s) = true) :
    doMove w d s =
      let t := leaves s (moveSure w d s)
      let b := result (moveSure w d s)
      let off := moveAllOff w d s t
      .done () (((taskAt t w.t).lanterns.filter (· ≠ w.l)).foldl (fun s l => sendSheet w.t w.l l (opndAt d 4).arg off b s)
        (writeSheet w.t w.l (opndAt d 4).arg off b t)) := by
  have hmove : doMove w d s = (moveSure w d s).andThen fun b t =>
      .done () (((taskAt t w.t).lanterns.filter (· ≠ w.l)).foldl (fun s' l => sendSheet w.t w.l l (opndAt d 4).arg (moveAllOff w d s t) b s')
        (writeSheet w.t w.l (opndAt d 4).arg (moveAllOff w d s t) b t)) := (if_neg hall).trans (if_neg hlen)
  rw [hmove, andThen_finishes s _ hread]

/-- Rows by index, where the indices are read and below the bound and every row is moved. -/
theorem rowsByIndex_done {row : Wk → Bytes → Nat × Nat → State → WOut Unit} (hidx : idxOk w d s = true)
    (hrows : finishes (rowsAfter row w d s) = true) :
    ((readIdx w d s).andThen fun ix t =>
      (WOut.each (fun (x : Nat × Nat) t => if x.2 ≥ vecImm d then .fails stIndexRange t else row w d x t) ix t).andThen fun _ t => .done () t) =
      .done () (leaves s (rowsAfter row w d s)) := by
  simp only [idxOk, Bool.and_eq_true] at hidx
  obtain ⟨hread, hbound⟩ := hidx
  rw [andThen_finishes s _ hread, each_below (g := row w d) hbound fun x t hx => if_neg (Nat.not_le.2 hx)]
  exact andThen_finishes s _ hrows

theorem doGather_done (hidx : idxOk w d s = true) (hrows : finishes (rowsAfter gatherRow w d s) = true) :
    doGather w d s = .done () (leaves s (rowsAfter gatherRow w d s)) :=
  rowsByIndex_done hidx hrows

theorem doScatter_store (hstore : fld d 21 1 = 0) (hidx : idxOk w d s = true) (hrows : finishes (rowsAfter scatterRow w d s) = true) :
    doScatter w d s = .done () (leaves s (rowsAfter scatterRow w d s)) := by
  simp only [doScatter, if_pos hstore]
  exact rowsByIndex_done hidx hrows

theorem doScatter_add (hadd : fld d 21 1 ≠ 0) (hidx : idxOk w d s = true) (hrows : finishes (rowsAfter scatterAdd w d s) = true) :
    doScatter w d s = .done () (leaves s (rowsAfter scatterAdd w d s)) := by
  simp only [doScatter, if_neg hadd]
  exact rowsByIndex_done hidx hrows

/-- Settles O23: each clause is the operation's case above, carried out by the wick alone. -/
theorem dataMovementCompletes : Obligations.DataMovementCompletes := by
  unfold Obligations.DataMovementCompletes
  refine ⟨?moveOne, ?moveAll, ?gather, ?scatterStore, ?scatterAdd, ?skipMove, ?skipGather, ?skipScatter⟩
  case moveOne =>
    refine fun ue => wickTakes_alone (fun _ _ => rfl) fun w d s h => ?_
    simp only [Bool.and_eq_true, beq_iff_eq] at h
    obtain ⟨⟨hone, hread⟩, hwrite⟩ := h
    exact doMove_one hone hread hwrite
  case moveAll =>
    refine fun ue => wickTakes_alone (fun _ _ => rfl) fun w d s h => ?_
    simp only [Bool.and_eq_true, bne_iff_ne] at h
    obtain ⟨⟨hall, hlen⟩, hread⟩ := h
    exact doMove_all hall hlen hread
  case gather =>
    refine fun ue => wickTakes_alone (fun _ _ => rfl) fun w d s h => ?_
    simp only [Bool.and_eq_true] at h
    exact doGather_done h.1 h.2
  case scatterStore =>
    refine fun ue => wickTakes_alone (fun _ _ => rfl) fun w d s h => ?_
    simp only [Bool.and_eq_true, beq_iff_eq] at h
    obtain ⟨⟨hstore, hidx⟩, hrows⟩ := h
    exact doScatter_store hstore hidx hrows
  case scatterAdd =>
    refine fun ue => wickTakes_alone (fun _ _ => rfl) fun w d s h => ?_
    simp only [Bool.and_eq_true, bne_iff_ne] at h
    obtain ⟨⟨hadd, hidx⟩, hrows⟩ := h
    exact doScatter_add hadd hidx hrows
  case skipMove => exact fun ue => wickSkips_of (go := fun w => alone w (doMove w)) fun _ _ => rfl
  case skipGather => exact fun ue => wickSkips_of (go := fun w => alone w (doGather w)) fun _ _ => rfl
  case skipScatter => exact fun ue => wickSkips_of (go := fun w => alone w (doScatter w)) fun _ _ => rfl

/-! ## Products (R126, R127, R129) -/

theorem doGemv_done (h : finishes (gemvReads w d s) = true) : doGemv w d s =
    .done () (gemvScratch w (opndAt d 8) (gemvStore w (gemvOf s w d) (opndAt d 12) (fld d 2 1 == 1) (laneMask (wickOf s w) d)
      (gemvSums w d s (leaves s (gemvReads w d s)) (result (gemvReads w d s))) (leaves s (gemvReads w d s)))) :=
  andThen_finishes s _ h

theorem doSparse_done (htable : finishes (sparseTable w d s) = true) (hsums : finishes (sparseSums w d s) = true) : doSparse w d s =
    .done () (gemvScratch w (opndAt d 8) (gemvStore w (sparseOf s w d) (opndAt d 12) (fld d 2 1 == 1) (laneMask (wickOf s w) d)
      (result (sparseSums w d s)) (leaves s (sparseSums w d s)))) :=
  (andThen_finishes s _ htable).trans (andThen_finishes s _ hsums)

/-- Settles O24: a product that reads what it needs is carried out by the wick alone; skips and poison are every row's. -/
theorem productsComplete : Obligations.ProductsComplete := by
  unfold Obligations.ProductsComplete
  refine ⟨?gemv, ?sparse, ?skipGemv, ?skipSparse, ?poisonGemv, ?poisonSparse⟩
  case gemv => exact fun ue => wickTakes_alone (fun _ _ => rfl) fun w d s h => doGemv_done h
  case sparse =>
    refine fun ue => wickTakes_alone (fun _ _ => rfl) fun w d s h => ?_
    simp only [Bool.and_eq_true] at h
    exact doSparse_done h.1 h.2
  case skipGemv => exact fun ue => wickSkips_of (go := fun w => alone w (doGemv w)) fun _ _ => rfl
  case skipSparse => exact fun ue => wickSkips_of (go := fun w => alone w (doSparse w)) fun _ _ => rfl
  case poisonGemv => exact fun ue => wickPoisoned_of (go := fun w => alone w (doGemv w)) fun _ _ => rfl
  case poisonSparse => exact fun ue => wickPoisoned_of (go := fun w => alone w (doSparse w)) fun _ _ => rfl

end Sys2Proof.Proofs.Wicks
end

section
/-! SUPPORT. What the vector operations come to (R133 to R135): those of a wick alone, those that a lantern's wicks share, and those of the
set with their rounds through the exchange (R110, R123), and the statement about them. -/
namespace Sys2Proof.Proofs.Vector

open Sys2Proof Sys2Proof.Machine Sys2Proof.Safety Sys2Proof.Laws Sys2Proof.Proofs.Wicks

variable {s t : State} {w : Wk} {d : Bytes} {ws : List Wk}

/-! ## QUANTISE (R133, R134) -/

theorem doQuantise_seq (hseq : fld d 21 1 = 0) (h : finishes (seqTiles w d s) = true) :
    doQuantise w d s = .done () (leaves s (seqTiles w d s)) :=
  (if_pos hseq).trans (andThen_finishes s _ h)

theorem doQuantise_units (hunits : fld d 21 1 ≠ 0) (hmem : (opndAt d 4).isMem = true) (h : finishes (unitWrite w d s) = true) :
    doQuantise w d s = .done () (leaves s (unitWrite w d s)) :=
  ((if_neg hunits).trans (if_pos hmem)).trans (finishes_unit s h)

theorem doQuantise_local (hunits : fld d 21 1 ≠ 0) (hlocal : (opndAt d 4).isMem = false) :
    doQuantise w d s = .done () (putRows w (opndAt d 4) 1 (laneMask (wickOf s w) d) (unitStart s w d) (unitRows s w d) s) :=
  (if_neg hunits).trans (if_neg (ne_true_of_eq_false hlocal))

/-! ## What the wicks of a lantern do together -/

theorem meetingAct_norm (h : isOp 0x1A d = true) : meetingAct ws d t = .done () (doNorm ws d t) := by
  simp only [meetingAct, beq_iff_eq.1 h]

theorem meetingAct_reduce (h : isOp 0x1C d = true) : meetingAct ws d t = .done () (doReduce ws d t) := by
  simp only [meetingAct, beq_iff_eq.1 h]

/-- The rows of an operation of a lantern, on which its wicks meet and work together. -/
theorem wicksShare_lantern {c : WickRef → Instr} {op : Nat} {go : Wk → Bytes → State → WOut Unit} {act : List Wk → Bytes → State → State}
    (he : ∀ r s, exec (c r) s = whenServing (wickTurn (isOp op) (wkOf r {}) (go (wkOf r {}))) s)
    (hg : ∀ w d s, setOp d = false → go w d s = comeTo w s)
    (ha : ∀ ws d t, isOp op d = true → meetingAct ws d t = .done () (act ws d t)) :
    wicksShare c {} (fun d => isOp op d && !setOp d) false (fun _ _ _ _ => true) (fun ws _ d t => act ws d t) := by
  refine wicksShare_of (fun d h => (Bool.and_eq_true_iff.1 h).1) he (fun w d s h => hg w d s ?_) fun ws w d t pc h _ _ => ha ws d t ?_
  · exact Bool.not_eq_true' _ ▸ (Bool.and_eq_true_iff.1 h).2
  · exact (Bool.and_eq_true_iff.1 h).1

/-- The wicks that met at a DIGEST are of the lantern of the one that came last. -/
theorem meetingAct_digest {pc : Nat} (h : isOp 0x1D d = true) (hmet : gathered t w.t w.ue false [w.l] = some (ws, pc)) :
    meetingAct ws d t = .done ()
      (let v := digestOf (digestKey t (taskAt t w.t).part (lanternWest t w.l)) (ws.flatMap (fun x => digestIn t x d))
      (if (opndAt d 4).space = spSheet then ws.take 1 else ws).foldl (fun s x => putLocal x (opndAt d 4) 0 (le 8 v) s) t) := by
  obtain ⟨v, vs, rfl, htask, hlantern, -⟩ := gathered_head hmet
  rw [List.mem_singleton] at hlantern
  simp only [meetingAct, beq_iff_eq.1 h, List.headD_cons, doDigest, List.head?_cons, Option.map_some, Option.getD_some, htask, hlantern]

theorem andThen_assoc {α β γ : Type} (o : WOut α) (f : α → State → WOut β) (g : β → State → WOut γ) :
    (o.andThen f).andThen g = o.andThen fun a s => (f a s).andThen g := by
  cases o <;> rfl

/-! ## Rounds of the set through the exchange (R110, R123) -/

/-- A round goes on with what follows it once its shares have landed. -/
theorem withShares_eq {α : Type} (k round : Nat) (mk : State → WOut (List (Nat × Nat × Bytes))) (act : State → WOut α) (s : State) :
    withShares k round mk act s = (given k round mk s).andThen fun _ s => act s := by
  simp only [given, withShares]
  split
  next =>
    split
    next => rfl
    next => rfl
  next =>
    cases mk s with
    | done xs t => simp only [WOut.andThen]; split <;> rfl
    | fails st t => rfl
    | waits ks => rfl
    | stays t => rfl

/-- Waiting at a barrier leaves the set of lanterns. -/
theorem lanterns_waitsAt (w : Wk) (a : WickWait) (s : State) : (taskAt (waitsAt w a s) w.t).lanterns = (taskAt s w.t).lanterns := by
  simp only [waitsAt, modWick, modWickAt, taskAt_modTask, if_true]

/-- A turn of a wick whose descriptor has sent and stands. -/
theorem wickTurn_stays {mine : Bytes → Bool} {go : Bytes → State → WOut Unit} {u : State}
    (h : standsBefore s w mine d = true) (hs : takesUp s w d = true) (hg : go d s = .stays u) : wickTurn mine w go s = turned w w.ue u := by
  obtain ⟨-, hready, hdesc, hmine⟩ := stands_run h
  obtain ⟨hskip, hpoison⟩ := takesUp_run hs
  simp only [wickTurn, hready, hdesc, hmine, hskip, hpoison, hg]
  rfl

/-- The last wick to come to a barrier stands before it again where the barrier's work has sent. -/
theorem arrive_stays {a : WickWait} {set busy : Bool} {act : State → WOut Unit} {u : State} (hmatch : mismatch (taskAt s w.t) w.l a set = false)
    (hall : allAt (waitsAt w a s) (wicksIn s w.t w.ue (scopeOf s w set)) a = true) (hfree : busy = false)
    (hact : act (waitsAt w a s) = .stays u) : arrive w a set busy act s = .stays (waitsAt w .none u) := by
  unfold waitsAt scopeOf at hall
  unfold waitsAt at hact
  simp only [arrive, hfree, hact]
  rw [if_neg (ne_true_of_eq_false hmatch), if_neg (not_not_intro hall), if_neg Bool.false_ne_true]
  rfl

/-- The rows of an operation over the set, worked on by `act` with the wicks of every lantern, which takes `rounds` of shares and then `fin`:
with the last wick to come it takes effect where the rounds have come to their end, and before that gives its shares. -/
theorem setRounds_of {c : WickRef → Instr} {op : Nat} {go : Wk → Bytes → State → WOut Unit}
    {act : Nat → List (Nat × List Wk) → Bytes → State → WOut Unit} {rounds : Wk → Bytes → State → WOut Unit} {fin : Wk → Bytes → State → State → State}
    (he : ∀ r s, exec (c r) s = whenServing (wickTurn (isOp op) (wkOf r {}) (go (wkOf r {}))) s)
    (hg : ∀ w d s, setOp d = true → go w d s = ownBarrier w (setBusy s w.t)
      (fun t => act w.t ((taskAt s w.t).lanterns.map (fun l => (l, wicksIn t w.t w.ue [l]))) d t) s)
    (ha : ∀ w d t, act w.t (setWicks w t) d t = (rounds w d t).andThen fun _ u => .done () (fin w d t u)) :
    wicksMeet c {} (fun d => isOp op d && setOp d) (fun _ => true) (fun s w _ => ownPlace s w)
      (fun w d s t => !setBusy s w.t && finishes (rounds w d t)) (fun w d t => fin w d t (leaves t (rounds w d t))) ∧
    wicksGive c {} (fun d => isOp op d && setOp d) (fun s w _ => !setBusy s w.t) rounds := by
  have hm (d : Bytes) (h : (isOp op d && setOp d) = true) : isOp op d = true := (Bool.and_eq_true_iff.1 h).1
  have hwork (w : Wk) (d : Bytes) (s : State) :
      act w.t ((taskAt s w.t).lanterns.map (fun l => (l, wicksIn (waitsAt w (ownPlace s w) s) w.t w.ue [l]))) d (waitsAt w (ownPlace s w) s) =
        (rounds w d (waitsAt w (ownPlace s w) s)).andThen fun _ u => .done () (fin w d (waitsAt w (ownPlace s w) s) u) := by
    rw [← ha, setWicks, lanterns_waitsAt]
  refine ⟨wicksMeet_of hm he (fun w d s h => hg w d s (Bool.and_eq_true_iff.1 h).2) fun w d s _ h => ?meets, fun r s u d => ?gives⟩
  case meets =>
    simp only [Bool.and_eq_true, Bool.not_eq_true'] at h
    exact ⟨h.1, (hwork w d s).trans (andThen_finishes _ _ h.2)⟩
  case gives =>
    intro w t hstands htakes hmatch hall hfree hrounds
    obtain ⟨hrun, -, -, hmine⟩ := stands_run hstands
    have hstays := hrounds ▸ hwork w d s
    simp only [Bool.not_eq_true'] at hfree
    have hgo : go w d s = .stays (waitsAt w .none u) :=
      (hg w d s (Bool.and_eq_true_iff.1 hmine).2).trans (arrive_stays hmatch hall hfree hstays)
    rw [he, whenServing_next _ hrun, wickTurn_stays (stands_mono hm hstands) htakes hgo]
    rfl

/-! ## NORM and REDUCE of the set (R133) -/

/-- What NORM of the set writes once its rounds are over. -/
def normSettled (w : Wk) (d : Bytes) (t u : State) : State :=
  endShares w.t ((setWicks w t).foldl (fun s e => normOut e.2 (setMeans w d t s e.1)
    (normDen d (setMean s w.t 2 (taskAt t w.t).lanterns ((taskAt t w.t).lanterns.length * vecN d) e.1)) d s) u)

theorem map_fst_setWicks (w : Wk) (t : State) : (setWicks w t).map Prod.fst = (taskAt t w.t).lanterns := by
  simp only [setWicks, List.map_map, Function.comp_def, List.map_id']

theorem length_setWicks (w : Wk) (t : State) : (setWicks w t).length = (taskAt t w.t).lanterns.length := by
  rw [setWicks, List.length_map]

theorem doNormSet_rounds (w : Wk) (d : Bytes) (t : State) :
    doNormSet w.t (setWicks w t) d t = (normRounds w d t).andThen fun _ u => .done () (normSettled w d t u) := by
  by_cases hrms : fld d 21 1 = 0
  · simp only [doNormSet, normRounds, normSettled, setMeans, hrms, map_fst_setWicks, length_setWicks, withShares_eq]
    rfl
  · simp only [doNormSet, normRounds, normSettled, setMeans, beq_iff_eq, hrms, if_false, map_fst_setWicks, length_setWicks, withShares_eq,
      andThen_assoc]

/-- What REDUCE of the set writes once its round is over. -/
def reduceSettled (w : Wk) (d : Bytes) (t u : State) : State :=
  endShares w.t ((setWicks w t).foldl (fun s e => e.2.foldl (putReduced d (reducedIn w d t s e.1)) s) u)

/-- Shares depend on what the lanterns of the set give only. -/
theorem toAll_congr {ls : List Nat} {f g : Nat → Bytes} (h : ∀ a ∈ ls, f a = g a) : toAll ls f = toAll ls g := by
  have hgiven : ls.map (fun a => ls.map (fun b => (a, b, f a))) = ls.map (fun a => ls.map (fun b => (a, b, g a))) :=
    List.map_congr_left fun a ha => by rw [h a ha]
  rw [toAll, toAll, List.flatMap_def, List.flatMap_def, hgiven]

/-- The wicks of a lantern of the set are found under it. -/
theorem find_setWicks {a : Nat} (ha : a ∈ (taskAt t w.t).lanterns) :
    (((setWicks w t).find? (fun e => e.1 == a)).map Prod.snd).getD [] = wicksIn t w.t w.ue [a] := by
  have hfind : (taskAt t w.t).lanterns.find? (· == a) = some a := by
    obtain ⟨b, hb⟩ := Option.isSome_iff_exists.1 (List.find?_isSome (p := (· == a)).2 ⟨a, ha, beq_self_eq_true a⟩)
    exact hb.trans (congrArg some (beq_iff_eq.1 (List.find?_some (p := (· == a)) hb)))
  simp only [setWicks, List.find?_map, Function.comp_def, hfind]
  rfl

theorem doReduceSet_round (w : Wk) (d : Bytes) (t : State) :
    doReduceSet w.t (setWicks w t) d t = (reduceRound w d t).andThen fun _ u => .done () (reduceSettled w d t u) := by
  have hshares (u : State) : toAll (taskAt t w.t).lanterns
      (fun a => reduceShare ((((setWicks w t).find? (fun e => e.1 == a)).map Prod.snd).getD []) d u) =
      toAll (taskAt t w.t).lanterns (fun a => reduceShare (wicksIn t w.t w.ue [a]) d u) :=
    toAll_congr fun a ha => by rw [find_setWicks ha]
  simp only [doReduceSet, map_fst_setWicks, withShares_eq, hshares]
  rfl

/-! ## The statement -/

/-- NORM of the set: its barrier, and the shares it gives before. -/
theorem norm_rounds :
    wicksMeet .norm {} (fun d => isOp 0x1A d && setOp d) (fun _ => true) (fun s w _ => ownPlace s w)
      (fun w d s t => !setBusy s w.t && finishes (normRounds w d t)) (fun w d t => normSettled w d t (leaves t (normRounds w d t))) ∧
    wicksGive .norm {} (fun d => isOp 0x1A d && setOp d) (fun s w _ => !setBusy s w.t) normRounds :=
  setRounds_of (go := goNorm) (fun _ _ => rfl) (fun _ _ _ h => if_pos h) doNormSet_rounds

/-- REDUCE of the set: its barrier, and the shares it gives before. -/
theorem reduce_rounds :
    wicksMeet .reduce {} (fun d => isOp 0x1C d && setOp d) (fun _ => true) (fun s w _ => ownPlace s w)
      (fun w d s t => !setBusy s w.t && finishes (reduceRound w d t)) (fun w d t => reduceSettled w d t (leaves t (reduceRound w d t))) ∧
    wicksGive .reduce {} (fun d => isOp 0x1C d && setOp d) (fun s w _ => !setBusy s w.t) reduceRound :=
  setRounds_of (go := goReduce) (fun _ _ => rfl) (fun _ _ _ h => if_pos h) doReduceSet_round

/-- Settles O25: the operations of a wick alone are their cases above, a lantern's meetings are what its wicks do together, the set's
barriers are `norm_rounds` and `reduce_rounds`; skips and poison are every row's. -/
theorem vectorOperationsComplete : Obligations.VectorOperationsComplete := by
  unfold Obligations.VectorOperationsComplete
  refine ⟨?elemwise, ?curve, ?seq, ?units, ?local_, ?norm, norm_rounds.1, norm_rounds.2, ?reduce, reduce_rounds.1, reduce_rounds.2, ?digest,
    ?skipElemwise, ?skipCurve, ?skipQuantise, ?skipNorm, ?skipReduce, ?skipDigest,
    ?poisonElemwise, ?poisonCurve, ?poisonQuantise, ?poisonNorm, ?poisonReduce, ?poisonDigest⟩
  case elemwise => exact wickTakes_alone (f := doElemwise) (fun _ _ => rfl) fun _ _ _ _ => rfl
  case curve => exact wickTakes_alone (f := doCurve) (fun _ _ => rfl) fun _ _ _ _ => rfl
  case seq =>
    refine wickTakes_alone (fun _ _ => rfl) fun w d s h => ?_
    simp only [Bool.and_eq_true, beq_iff_eq] at h
    exact doQuantise_seq h.1 h.2
  case units =>
    refine wickTakes_alone (fun _ _ => rfl) fun w d s h => ?_
    simp only [Bool.and_eq_true, bne_iff_ne] at h
    obtain ⟨⟨hunits, hmem⟩, hwrite⟩ := h
    exact doQuantise_units hunits hmem hwrite
  case local_ =>
    refine wickTakes_alone (fun _ _ => rfl) fun w d s h => ?_
    simp only [Bool.and_eq_true, Bool.not_eq_true', bne_iff_ne] at h
    exact doQuantise_local h.1 h.2
  case norm =>
    exact wicksShare_lantern (go := goNorm) (fun _ _ => rfl) (fun _ _ _ h => if_neg (ne_true_of_eq_false h)) fun _ _ _ => meetingAct_norm
  case reduce =>
    exact wicksShare_lantern (go := goReduce) (fun _ _ => rfl) (fun _ _ _ h => if_neg (ne_true_of_eq_false h)) fun _ _ _ => meetingAct_reduce
  case digest =>
    exact wicksShare_of (go := fun w _ s => comeTo w s) (fun _ h => h) (fun _ _ => rfl) (fun _ _ _ _ => rfl)
      fun ws w d t pc h hmet _ => meetingAct_digest h hmet
  case skipElemwise => exact wickSkips_of (go := fun w => alone w (doElemwise w)) fun _ _ => rfl
  case skipCurve => exact wickSkips_of (go := fun w => alone w (doCurve w)) fun _ _ => rfl
  case skipQuantise => exact wickSkips_of (go := fun w => alone w (doQuantise w)) fun _ _ => rfl
  case skipNorm => exact wickSkips_of (go := goNorm) fun _ _ => rfl
  case skipReduce => exact wickSkips_of (go := goReduce) fun _ _ => rfl
  case skipDigest => exact wickSkips_of (go := fun w _ s => comeTo w s) fun _ _ => rfl
  case poisonElemwise => exact wickPoisoned_of (go := fun w => alone w (doElemwise w)) fun _ _ => rfl
  case poisonCurve => exact wickPoisoned_of (go := fun w => alone w (doCurve w)) fun _ _ => rfl
  case poisonQuantise => exact wickPoisoned_of (go := fun w => alone w (doQuantise w)) fun _ _ => rfl
  case poisonNorm => exact wickPoisoned_of (go := goNorm) fun _ _ => rfl
  case poisonReduce => exact wickPoisoned_of (go := goReduce) fun _ _ => rfl
  case poisonDigest => exact wickPoisoned_of (go := fun w _ s => comeTo w s) fun _ _ => rfl

end Sys2Proof.Proofs.Vector
end

section
/-! SUPPORT. What the pool and sequence operations by mailbox answer, case by case (R142, R143, R146 to R148, R344), and the statement about
them. -/
namespace Sys2Proof.Proofs.Pools

open Sys2Proof Sys2Proof.Machine Sys2Proof.Safety Sys2Proof.Laws

variable {c : Call} {s : State}

/-! ## Pools (R142, R143, R344) -/

/-- Whether a write of the header into a lantern's share must wait. -/
abbrev headersWait (s : State) (pool : Pool) : Bool := (poolLanterns s pool).any (fun l => rangeWaits s true (poolAddr s pool l 0) 64)

/-- The pool at index `k` with its object bound, and its header in every lantern's share (R143). -/
abbrev withPool (c : Call) (pool : Pool) (k : Nat) (s : State) : State :=
  let t := bindObj pool.obj (setPool k pool s)
  (poolLanterns t pool).foldl (fun s l => poolWrite c.ue pool l (poolAddr s pool l 0) (poolHeader s pool) s) t

theorem poolCreate_creates {pool : Pool} {k : Nat} (hver : arg c.req 0 1 = 1) (hasked : poolAsked s c.mb c.req = .ok pool)
    (hroom : (s.kv.pools.filter (fun e => e.2.live && e.2.part == c.mb)).length < min 4 (pdef s c.mb 7 1))
    (hfree : tfind {} s.kv.pools 64 (fun x => !x.live) = some k) (hwait : headersWait s pool = false) :
    poolCreate c s = accept (created k 0) (withPool c pool k s) := by
  simp only [poolCreate, hver, hasked, hfree, hwait]
  rw [if_neg (not_not_intro rfl), if_neg (Nat.not_le.2 hroom), if_neg Bool.false_ne_true]

theorem poolDestroy_waits (hhere : poolHere s c.mb (arg c.req 0 1) = true) :
    poolDestroy c s = (.wait (.poolQuiet (arg c.req 0 1)) [], closePool (arg c.req 0 1) s) :=
  if_neg (not_not_intro hhere)

/-! ## Sequences (R146 to R148) -/

/-- A new sequence as number `n` at slot `slot` of the requested pool, before its first pages have frames (R147). -/
abbrev newSequence (c : Call) (n slot : Nat) (s : State) : State :=
  modSeq n (fun q => { live := true, gen := q.gen, part := c.mb, pool := arg c.req 0 1, slot := slot
                       start := slot % max 1 (poolLanterns s (poolAt s (arg c.req 0 1))).length, c := arg c.req 4 4 }) s

/-- A sequence whose first pages all get frames is created. -/
theorem sequenceCreate_creates {n slot : Nat} {t : State} (hhere : poolHere s c.mb (arg c.req 0 1) = true)
    (hfits : arg c.req 4 4 ≤ (poolAt s (arg c.req 0 1)).maxTokens - 64) (hroom : seqsHeld s c.mb < pdef s c.mb 20 2)
    (hfree : tfind {} s.kv.seqs 4096 (fun q => !q.live) = some n) (hslot : freePoolSlot s (arg c.req 0 1) = some slot)
    (hwait : framesWait (newSequence c n slot s) n (arg c.req 4 4) = false)
    (hframes : allotFrames c.ue n (List.range ((arg c.req 4 4 + 63) / 64)) (newSequence c n slot s) = some t) :
    sequenceCreate c s = accept (created (seqHandle t n) 0) t := by
  have hvalid : ¬ (¬ poolHere s c.mb (arg c.req 0 1) = true ∨ arg c.req 4 4 > (poolAt s (arg c.req 0 1)).maxTokens - 64) :=
    not_or.2 ⟨not_not_intro hhere, Nat.not_lt.2 hfits⟩
  simp only [sequenceCreate, if_neg hvalid, if_neg (Nat.not_le.2 hroom), hfree, hslot, hwait, hframes]
  rw [if_neg Bool.false_ne_true]

theorem sequenceDestroy_revokes {k : Nat} (hhandle : seqHandleStatus s c.mb (arg c.req 0 4) = .ok k) (hstate : (seqAt s k).state ≠ .revoked) :
    sequenceDestroy c s = accept [] (revokeSeq k s) := by
  simp only [sequenceDestroy, hhandle, if_neg hstate]

theorem sequenceQuery_describes {k : Nat} (hhandle : seqHandleStatus s c.mb (arg c.req 0 4) = .ok k) :
    sequenceQuery c s = accept (seqDescriptor s k) s := by
  simp only [sequenceQuery, hhandle]

/-! ## The statement -/

/-- Settles O12: each clause is one of the operation's cases above, served by the mailbox. -/
theorem poolAndSequenceRequestsComplete : Obligations.PoolAndSequenceRequestsComplete := by
  unfold Obligations.PoolAndSequenceRequestsComplete
  refine ⟨?poolCreate, ?poolDestroy, ?sequenceCreate, ?sequenceDestroy, ?sequenceQuery⟩
  case poolCreate =>
    intro pool k
    refine repliesOk_served (fun _ _ => rfl) fun c s h => ?_
    simp only [Bool.and_eq_true, Bool.not_eq_true', beq_iff_eq, decide_eq_true_eq] at h
    obtain ⟨⟨⟨⟨hver, hasked⟩, hroom⟩, hfree⟩, hwait⟩ := h
    exact poolCreate_creates hver (gives_eq hasked) hroom hfree hwait
  case poolDestroy => exact repliesLater_served (fun _ _ => rfl) fun _ _ h => poolDestroy_waits h
  case sequenceCreate =>
    intro n slot t r s hadmitted c k l0 s1 q hhere hfits hroom hfree hslot hwait hframes
    have hcreates : sequenceCreate c s1 = (.done stOk (created (seqHandle t n) 0), t) :=
      sequenceCreate_creates hhere hfits hroom hfree hslot hwait hframes
    exact (whenServing_next _ (admitted_run hadmitted).1).trans
      (congrArg (fun u => Host.Outcome.next (served s u)) (serve_done hadmitted hcreates))
  case sequenceDestroy =>
    intro k
    refine repliesOk_served (fun _ _ => rfl) fun c s h => ?_
    simp only [Bool.and_eq_true, bne_iff_ne] at h
    exact sequenceDestroy_revokes (gives_eq h.1) h.2
  case sequenceQuery => exact fun k => repliesOk_served (fun _ _ => rfl) fun _ _ h => sequenceQuery_describes (gives_eq h)

end Sys2Proof.Proofs.Pools
end

section
/-! SUPPORT. What attention (R160, R161, R163) and the cache's appends (R152 to R154) come to as barriers of the set, with their rounds
through the exchange (R110, R123), and the statement about them. -/
namespace Sys2Proof.Proofs.Attention

open Sys2Proof Sys2Proof.Machine Sys2Proof.Safety Sys2Proof.Laws Sys2Proof.Proofs.Wicks Sys2Proof.Proofs.Vector

variable {s t : State} {w : Wk} {d : Bytes} {ws : List Wk}

/-! ## Barriers at the descriptor a wick stands before (R123) -/

section
variable {c : WickRef → Instr} {ue : Ue} {mine : Bytes → Bool} {go : Wk → Bytes → State → WOut Unit} {busy : State → Wk → Bool}
  {act : Wk → Bytes → State → WOut Unit}

/-- A row whose operation is the barrier at its own descriptor: with the last wick to come, `act` happens once. -/
theorem wicksMeet_own {cond : Wk → Bytes → State → State → Bool} {effect : Wk → Bytes → State → State}
    (he : ∀ r s, exec (c r) s = whenServing (wickTurn mine (wkOf r ue) (go (wkOf r ue))) s)
    (hg : ∀ w d s, go w d s = ownBarrier w (busy s w) (act w d) s)
    (ha : ∀ w d s t, cond w d s t = true → busy s w = false ∧ act w d t = .done () (effect w d t)) :
    wicksMeet c ue mine (fun _ => true) (fun s w _ => ownPlace s w) cond effect :=
  wicksMeet_of (fun _ h => h) he (fun w d s _ => hg w d s) fun w d s _ h => ha w d s _ h

/-- The same row where the work of the last wick to come sends the shares of a round: it stands before its descriptor again. -/
theorem wicksGive_own {cond : State → Wk → Bytes → Bool} {rounds : Wk → Bytes → State → WOut Unit}
    (he : ∀ r s, exec (c r) s = whenServing (wickTurn mine (wkOf r ue) (go (wkOf r ue))) s)
    (hg : ∀ w d s, go w d s = ownBarrier w (busy s w) (act w d) s)
    (ha : ∀ w d s u, cond s w d = true → rounds w d (waitsAt w (ownPlace s w) s) = .stays u →
      busy s w = false ∧ act w d (waitsAt w (ownPlace s w) s) = .stays u) : wicksGive c ue mine cond rounds := by
  intro r s u d w t hstands htakes hmatch hall hcond hrounds
  obtain ⟨hfree, hact⟩ := ha w d s u hcond hrounds
  have hgo : go w d s = .stays (waitsAt w .none u) := (hg w d s).trans (arrive_stays hmatch hall hfree hact)
  rw [he, whenServing_next _ (stands_run hstands).1, wickTurn_stays hstands htakes hgo]
  rfl

end

/-! ## ATTEND (R160, R161) -/

/-- The wicks that met at an ATTEND are of the lantern of the one that came last. -/
theorem meetingAct_attend {pc : Nat} (h : isOp 0x20 d = true) (hmet : gathered t w.t w.ue false [w.l] = some (ws, pc)) :
    meetingAct ws d t = doAttend ws w.l d t := by
  obtain ⟨v, vs, rfl, -, hlantern, -⟩ := gathered_head hmet
  rw [List.mem_singleton] at hlantern
  simp only [meetingAct, beq_iff_eq.1 h, List.headD_cons, hlantern]

theorem doAttend_done (l : Nat) (h : finishes (attReads ws d t) = true) : doAttend ws l d t =
    .done () (ws.foldl (fun s x => attScratch x s) (attStore ws l d (result (attReads ws d t)) (leaves t (attReads ws d t)))) :=
  andThen_finishes t _ h

/-! ## ATTN_MERGE (R163) -/

/-- What ATTN_MERGE writes once its rounds are over. -/
def mergeSettled (w : Wk) (d : Bytes) (u : State) : State :=
  endShares w.t ((taskAt u w.t).lanterns.zipIdx.foldl (fun s o =>
    (if fld d 2 1 = 1 then (taskAt u w.t).lanterns else [o.1]).foldl (fun s l => mergeWrite w.t d w.ue o.1 o.2 l s) s) u)

theorem doMerge_rounds (w : Wk) (d : Bytes) (t : State) :
    doMerge w.t d w.ue t = (mergeRounds w d t).andThen fun _ u => .done () (mergeSettled w d u) := by
  simp only [doMerge, mergeRounds, withShares_eq, andThen_assoc]
  rfl

/-! ## KV_APPEND APPEND (R152) -/

/-- An APPEND within the pool's positions whose pages all get frames is the writes of its drafts, and D raised after them. -/
theorem doAppend_allotted {u : State} (hfits : appendPos t w d (fld d 13 1 - 1) < (poolAt t (seqAt t (seqOf t w.t d)).pool).maxTokens)
    (hframes : appendFrames t w d = some u) : doAppend w.t d w.ue t = (appendDrafts t w d).andThen fun _ v =>
      .done () (modSeq (seqOf t w.t d) (fun q => { q with d := max q.d (fld d 12 1 + fld d 13 1) }) v) := by
  unfold doAppend appendDrafts
  rw [hframes]
  refine (if_neg (Nat.not_le.2 hfits)).trans ?_
  unfold appendFrames appendLive appendPos at hframes
  simp only [hframes]
  rfl

theorem doAppend_done (hfits : appendPos t w d (fld d 13 1 - 1) < (poolAt t (seqAt t (seqOf t w.t d)).pool).maxTokens)
    (hframes : (appendFrames t w d).isSome = true) (hdrafts : finishes (appendDrafts t w d) = true) :
    doAppend w.t d w.ue t =
      .done () (modSeq (seqOf t w.t d) (fun q => { q with d := max q.d (fld d 12 1 + fld d 13 1) }) (leaves t (appendDrafts t w d))) := by
  obtain ⟨u, hu⟩ := Option.isSome_iff_exists.1 hframes
  exact (doAppend_allotted hfits hu).trans (andThen_finishes t _ hdrafts)

/-! ## KV_APPEND COMMIT (R153) -/

/-- What COMMIT comes to once its copies have landed: C rises and the epoch advances. -/
def commitSettled (w : Wk) (d : Bytes) (t v : State) : State :=
  endShares w.t (advanceEpoch w.ue (seqOf t w.t d) (modSeq (seqOf t w.t d) (fun q => { q with c := q.c + fld d 14 1 }) v))

/-- A COMMIT of drafts below D, all marked in the epoch, is its round through the exchange and then the copies. -/
theorem doCommit_marked (hbelow : (accepted d).all (fun a => decide (a < (seqAt t (seqOf t w.t d)).d)) = true)
    (hread : finishes (commitMarks t w d) = true) (hmarked : (result (commitMarks t w d)).contains false = false) :
    doCommit w.t d w.ue t = (commitRound w d t).andThen fun _ u =>
      (commitWrites w.t (seqOf t w.t d) w.ue (moved t w d) u).andThen fun _ v => .done () (commitSettled w d t v) := by
  unfold doCommit
  refine (if_neg (not_not_intro hbelow)).trans ((andThen_finishes t _ hread).trans ?_)
  exact (if_neg (ne_true_of_eq_false hmarked)).trans (withShares_eq ..)

theorem doCommit_done (hbelow : (accepted d).all (fun a => decide (a < (seqAt t (seqOf t w.t d)).d)) = true)
    (hread : finishes (commitMarks t w d) = true) (hmarked : (result (commitMarks t w d)).contains false = false)
    (hround : finishes (commitRound w d t) = true) (hlands : finishes (commitLands w d t) = true) :
    doCommit w.t d w.ue t = .done () (commitSettled w d t (leaves t (commitLands w d t))) := by
  rw [doCommit_marked hbelow hread hmarked, andThen_finishes t _ hround]
  exact andThen_finishes t _ hlands

theorem doCommit_stays {u : State} (hbelow : (accepted d).all (fun a => decide (a < (seqAt t (seqOf t w.t d)).d)) = true)
    (hread : finishes (commitMarks t w d) = true) (hmarked : (result (commitMarks t w d)).contains false = false)
    (hround : commitRound w d t = .stays u) : doCommit w.t d w.ue t = .stays u := by
  rw [doCommit_marked hbelow hread hmarked, hround]
  rfl

/-- A wick that waits leaves the sequence that a descriptor of its task names. -/
theorem seqOf_waitsAt (w : Wk) (a : WickWait) (d : Bytes) (s : State) : seqOf (waitsAt w a s) w.t d = seqOf s w.t d := by
  simp only [seqOf, waitsAt, modWick, modWickAt, taskAt_modTask, if_true]

/-- A wick that waits leaves every sequence as it was. -/
theorem seqAt_waitsAt (w : Wk) (a : WickWait) (k : Nat) (s : State) : seqAt (waitsAt w a s) k = seqAt s k := rfl

/-! ## The statement -/

/-- Settles O26: ATTEND is what its lantern's wicks do together; the others are barriers of the set at their own descriptor, of which
ATTN_MERGE and COMMIT give shares before they take effect; skips are every row's. -/
theorem attentionAndCacheComplete : Obligations.AttentionAndCacheComplete := by
  unfold Obligations.AttentionAndCacheComplete
  refine ⟨?attend, ?merge, ?mergeGives, ?append, ?commit, ?commitGives, ?rollback, ?skipAttend, ?skipMerge, ?skipAppend, ?skipCommit,
    ?skipRollback⟩
  case attend =>
    exact fun ue => wicksShare_of (go := fun w _ s => comeTo w s) (fun _ h => h) (fun _ _ => rfl) (fun _ _ _ _ => rfl)
      fun ws w d t pc h hmet hreads => (meetingAct_attend h hmet).trans (doAttend_done w.l hreads)
  case merge =>
    refine wicksMeet_own (fun _ _ => rfl) (fun _ _ _ => rfl) fun w d s t h => ?_
    simp only [Bool.and_eq_true, Bool.not_eq_true'] at h
    exact ⟨h.1, (doMerge_rounds w d t).trans (andThen_finishes t _ h.2)⟩
  case mergeGives =>
    refine wicksGive_own (fun _ _ => rfl) (fun _ _ _ => rfl) fun w d s u h hrounds => ⟨(Bool.not_eq_true' _).mp h, ?_⟩
    rw [doMerge_rounds, hrounds]
    rfl
  case append =>
    refine fun ue => wicksMeet_own (busy := fun s w => !(taskAt s w.t).exch.isEmpty) (fun _ _ => rfl) (fun _ _ _ => rfl) fun w d s t h => ?_
    simp only [Bool.and_eq_true, decide_eq_true_eq] at h
    obtain ⟨⟨⟨hempty, hfits⟩, hframes⟩, hdrafts⟩ := h
    exact ⟨congrArg (!·) hempty, doAppend_done hfits hframes hdrafts⟩
  case commit =>
    refine fun ue => wicksMeet_own (busy := fun s w => setBusy s w.t) (fun _ _ => rfl) (fun _ _ _ => rfl) fun w d s t h => ?_
    simp only [Bool.and_eq_true, Bool.not_eq_true'] at h
    obtain ⟨⟨⟨⟨⟨hfree, hbelow⟩, hread⟩, hmarked⟩, hround⟩, hlands⟩ := h
    exact ⟨hfree, doCommit_done hbelow hread hmarked hround hlands⟩
  case commitGives =>
    refine fun ue => wicksGive_own (busy := fun s w => setBusy s w.t) (fun _ _ => rfl) (fun _ _ _ => rfl) fun w d s u h hround => ?_
    simp only [Bool.and_eq_true, Bool.not_eq_true'] at h
    obtain ⟨⟨⟨hfree, hbelow⟩, hread⟩, hmarked⟩ := h
    rw [← seqOf_waitsAt w (ownPlace s w) d s, ← seqAt_waitsAt w (ownPlace s w)] at hbelow
    exact ⟨hfree, doCommit_stays hbelow hread hmarked hround⟩
  case rollback =>
    exact fun ue => wicksMeet_own (busy := fun s w => setBusy s w.t) (fun _ _ => rfl) (fun _ _ _ => rfl) fun w d s t h =>
      ⟨(Bool.not_eq_true' _).mp h, rfl⟩
  case skipAttend => exact fun ue => wickSkips_of (go := fun w _ s => comeTo w s) fun _ _ => rfl
  case skipMerge => exact wickSkips_of (go := goMerge) fun _ _ => rfl
  case skipAppend => exact fun ue => wickSkips_of (go := goAppend 0 doAppend) fun _ _ => rfl
  case skipCommit => exact fun ue => wickSkips_of (go := goAppend 1 doCommit) fun _ _ => rfl
  case skipRollback => exact fun ue => wickSkips_of (go := goAppend 2 doRollback) fun _ _ => rfl

end Sys2Proof.Proofs.Attention
end

section
/-! SUPPORT. What the expert descriptors come to: routing (R168 to R171), the three forms of EXPERT_SEND (R176, R181, R185) and
EXPERT_COMBINE (R184), and the statement about them. -/
namespace Sys2Proof.Proofs.ExpertDescriptors

open Sys2Proof Sys2Proof.Machine Sys2Proof.Safety Sys2Proof.Laws Sys2Proof.Proofs.Wicks Sys2Proof.Proofs.Vector
  Sys2Proof.Proofs.Attention

variable {s t : State} {w : Wk} {d : Bytes} {ws : List Wk} {pc : Nat}

/-- A form of a row's operation that is the barrier at its own descriptor: where the work of the last wick to come sends the shares of a
round, that wick stands before its descriptor again. -/
theorem wicksGive_form {c : WickRef → Instr} {ue : Ue} {mine mine0 : Bytes → Bool} {go : Wk → Bytes → State → WOut Unit}
    {busy : State → Wk → Bool} {act rounds : Wk → Bytes → State → WOut Unit} {cond : State → Wk → Bytes → Bool}
    (hm : ∀ d, mine d = true → mine0 d = true) (he : ∀ r s, exec (c r) s = whenServing (wickTurn mine0 (wkOf r ue) (go (wkOf r ue))) s)
    (hg : ∀ w d s, mine d = true → go w d s = ownBarrier w (busy s w) (act w d) s)
    (ha : ∀ w d s u, cond s w d = true → rounds w d (waitsAt w (ownPlace s w) s) = .stays u →
      busy s w = false ∧ act w d (waitsAt w (ownPlace s w) s) = .stays u) : wicksGive c ue mine cond rounds := by
  intro r s u d w t hstands htakes hmatch hall hcond hrounds
  obtain ⟨hrun, -, -, hmine⟩ := stands_run hstands
  obtain ⟨hfree, hact⟩ := ha w d s u hcond hrounds
  have hgo : go w d s = .stays (waitsAt w .none u) := (hg w d s hmine).trans (arrive_stays hmatch hall hfree hact)
  rw [he, whenServing_next _ hrun, wickTurn_stays (stands_mono hm hstands) htakes hgo]
  rfl

/-- A row at whose descriptor the wicks of a scope meet, whichever of its forms it is. -/
theorem wicksShare_come {c : WickRef → Instr} {ue : Ue} {mine : Bytes → Bool} {set : Bool} {cond : List Wk → Wk → Bytes → State → Bool}
    {act : List Wk → Wk → Bytes → State → State}
    (he : ∀ r s, exec (c r) s = whenServing (wickTurn mine (wkOf r ue) (fun _ s => comeTo (wkOf r ue) s)) s)
    (ha : ∀ ws w d t pc, mine d = true → gathered t w.t w.ue set (scopeOf t w set) = some (ws, pc) → cond ws w d t = true →
      meetingAct ws d t = .done () (act ws w d t)) : wicksShare c ue mine set cond act :=
  wicksShare_of (go := fun w _ s => comeTo w s) (fun _ h => h) he (fun _ _ _ _ => rfl) ha

/-! ## TOPK_ROUTE (R168 to R171) -/

/-- The wicks of a lantern that met at a TOPK_ROUTE route where nothing of their set is under way, or their set is one lantern. -/
theorem meetingAct_topk {set : Bool} (h : isOp 0x28 d = true) (hmet : gathered t w.t w.ue set (scopeOf t w set) = some (ws, pc))
    (hfree : (setBusy t w.t && decide ((taskAt t w.t).lanterns.length > 1)) = false) : meetingAct ws d t = doTopk w.t d w.ue t := by
  obtain ⟨v, vs, rfl, htask, -, hue⟩ := gathered_head hmet
  have hgo : ¬ (setBusy t w.t = true ∧ (taskAt t w.t).lanterns.length > 1) := fun hbusy =>
    ne_true_of_eq_false hfree (Bool.and_eq_true_iff.2 ⟨hbusy.1, decide_eq_true hbusy.2⟩)
  simp only [meetingAct, beq_iff_eq.1 h, List.headD_cons, htask, hue, if_neg hgo]

theorem doTopk_done (h : finishes (topkRead w.t d w.ue t) = true) : doTopk w.t d w.ue t =
    .done () (topkStore w.t d w.ue (fun _ => result (topkRead w.t d w.ue t)) (leaves t (topkRead w.t d w.ue t))) :=
  andThen_finishes t _ h

/-- What TOPK_ROUTE of the set writes once its round is over. -/
def topkSettled (w : Wk) (d : Bytes) (u : State) : State :=
  endShares w.t (topkStore w.t d w.ue (fun l => (taskAt u w.t).lanterns.map (fun a => candsOf (groupAt u (fld d 14 1)).k (shareAtOf u w.t 1 a l))) u)

theorem doTopkSet_round (w : Wk) (d : Bytes) (t : State) :
    doTopkSet w.t d w.ue t = (topkRound w d t).andThen fun _ u => .done () (topkSettled w d u) :=
  withShares_eq ..

/-! ## EXPERT_SEND (R176, R181, R185) -/

/-- A form of EXPERT_SEND is the operation's code and the form's. -/
theorem isSub_send {sub : Nat} (h : isSub 0x29 16 sub d = true) : fld d 1 1 = 0x29 ∧ fld d 16 1 = sub := by
  simpa only [isSub, Bool.and_eq_true, beq_iff_eq] using h

/-- The wicks of a set that met at a DISPATCH send where nothing of the set is under way. -/
theorem meetingAct_dispatch {set : Bool} (h : isSub 0x29 16 0 d = true) (hmet : gathered t w.t w.ue set (scopeOf t w set) = some (ws, pc))
    (hfree : setBusy t w.t = false) : meetingAct ws d t = doDispatch w.t d w.ue t := by
  obtain ⟨v, vs, rfl, htask, -, hue⟩ := gathered_head hmet
  simp only [meetingAct, isSub_send h, List.headD_cons, htask, hue, if_neg (ne_true_of_eq_false hfree)]

/-- The wicks that met at a RETURN are of the lantern of the one that came last. -/
theorem meetingAct_return (h : isSub 0x29 16 1 d = true) (hmet : gathered t w.t w.ue false [w.l] = some (ws, pc)) :
    meetingAct ws d t = doReturn w.t w.l d w.ue t := by
  obtain ⟨v, vs, rfl, htask, hlantern, hue⟩ := gathered_head hmet
  rw [List.mem_singleton] at hlantern
  simp only [meetingAct, isSub_send h, List.headD_cons, htask, hlantern, hue]

theorem meetingAct_cancel {set : Bool} (h : isSub 0x29 16 2 d = true) (hmet : gathered t w.t w.ue set (scopeOf t w set) = some (ws, pc)) :
    meetingAct ws d t = doCancel w.t d t := by
  obtain ⟨v, vs, rfl, htask, -, -⟩ := gathered_head hmet
  simp only [meetingAct, isSub_send h, List.headD_cons, htask]

/-- A DISPATCH whose batch holds no open slot of its task, with its pairs placed and a slot to open, opens it. -/
theorem doDispatch_opens {ps : List SendPair} {k : Nat}
    (hheld : ¬ (heldBatch t w d ≠ 0 ∧ (combineAt t (heldBatch t w d - 1)).state = .open_ ∧ (combineAt t (heldBatch t w d - 1)).task = w.t))
    (hpairs : batchPairs w.t d w.ue t = some ps)
    (hslot : openableSlot (freeBatch w.t (heldBatch t w d) t) (taskAt t w.t).part = some k) :
    doDispatch w.t d w.ue t = .done () (openBatch w.t k d w.ue ps t (freeBatch w.t (heldBatch t w d) t)) := by
  unfold heldBatch at *
  unfold doDispatch
  refine (if_neg hheld).trans ?_
  simp only [hpairs, hslot]

/-- RETURN of a task that is no pilot's does nothing: DEDUCED (notes/assumptions/65.md), not said by R181. -/
theorem doReturn_command (hdeps : depsOf t w.t w.l = []) (hfor : forCommand (taskAt t w.t) = true) : doReturn w.t w.l d w.ue t = .done () t := by
  unfold doReturn
  refine (if_neg (not_not_intro hdeps)).trans ?_
  unfold forCommand at hfor
  cases hpurpose : (taskAt t w.t).purpose with
  | command q n => rfl
  | pilot pi =>
    rw [hpurpose] at hfor
    exact absurd hfor Bool.false_ne_true

theorem doReturn_pilot {pi : Nat} (hdeps : depsOf t w.t w.l = []) (hfor : (taskAt t w.t).purpose = .pilot pi) :
    doReturn w.t w.l d w.ue t = .done () (driveFabric w.ue ((lanesOf t pi).foldl
      (fun s lane => sendAnswers w.t w.l (laneMask (wickOf t (lead w.t w.l w.ue)) d) pi d lane s) t)) := by
  unfold doReturn
  refine (if_neg (not_not_intro hdeps)).trans ?_
  rw [hfor]

theorem doCancel_none (h : heldBatch t w d = 0) : doCancel w.t d t = .done () t :=
  if_pos h

theorem doCancel_held (h : heldBatch t w d ≠ 0) : doCancel w.t d t =
    .done () (modTask w.t (fun x => { x with batches := tset 0 x.batches (fld d 17 1) 0, cancelled := fld d 17 1 :: x.cancelled })
      (if (combineAt t (heldBatch t w d - 1)).task = w.t then freeSlot (heldBatch t w d - 1) t else t)) :=
  if_neg h

/-! ## EXPERT_COMBINE (R184) -/

/-- The slot, counted from 1, of the batch that an EXPERT_COMBINE names. -/
abbrev combineBatch (t : State) (w : Wk) (d : Bytes) : Nat := tget 0 (taskAt t w.t).batches (fld d 4 1)

/-- The batch that an EXPERT_COMBINE names is its task's, and was not cancelled. -/
structure BatchNamed (t : State) (w : Wk) (d : Bytes) : Prop where
  kept : (taskAt t w.t).cancelled.contains (fld d 4 1) = false
  held : combineBatch t w d ≠ 0
  own : (combineAt t (combineBatch t w d - 1)).task = w.t

/-- The batch's slot `k - 1` is free, and the task's no more. -/
abbrev batchGone (w : Wk) (d : Bytes) (k : Nat) (s : State) : State :=
  freeSlot (k - 1) (modTask w.t (fun x => { x with batches := tset 0 x.batches (fld d 4 1) 0 }) s)

theorem doCombine_complete (h : BatchNamed t w d) (hstate : (combineAt t (combineBatch t w d - 1)).state = .complete) :
    doCombine w.t d t = .done () (batchGone w d (combineBatch t w d) t) := by
  unfold doCombine
  refine (if_neg (ne_true_of_eq_false h.kept)).trans ((if_neg (not_or.2 ⟨h.held, not_not_intro h.own⟩)).trans ?_)
  simp only [hstate]

theorem doCombine_degraded (h : BatchNamed t w d) (hstate : (combineAt t (combineBatch t w d - 1)).state = .expired)
    (hdegrade : (combineAt t (combineBatch t w d - 1)).degrade = true)
    (hended : (combineAt t (combineBatch t w d - 1)).parts.any (fun p => p.state = .open_) = false) :
    doCombine w.t d t = .done () (batchGone w d (combineBatch t w d) (modCounters (taskAt t w.t).part
      (fun y => { y with degraded := satTo 64 (y.degraded + (missingPairs (combineAt t (combineBatch t w d - 1))).length) }) t)) := by
  unfold doCombine
  refine (if_neg (ne_true_of_eq_false h.kept)).trans ((if_neg (not_or.2 ⟨h.held, not_not_intro h.own⟩)).trans ?_)
  simp only [hstate]
  exact (if_neg (ne_true_of_eq_false hended)).trans (if_pos hdegrade)

/-! ## The statement -/

/-- Settles O27: what the wicks that met do together is the case above of their operation; TOPK_ROUTE of the set and EXPERT_COMBINE are
barriers of the set, the first with a round of shares before it takes effect; skips are every row's. -/
theorem expertDescriptorsComplete : Obligations.ExpertDescriptorsComplete := by
  unfold Obligations.ExpertDescriptorsComplete
  have routes (d : Bytes) (set : Bool) (h : (isOp 0x28 d && set) = true) : isOp 0x28 d = true := (Bool.and_eq_true_iff.1 h).1
  refine ⟨?topk, ?topkSet, ?topkGives, ?dispatch, ?returnCommand, ?returnPilot, ?cancelNone, ?cancelHeld, ?combine,
    ?skipTopk, ?skipDispatch, ?skipReturn, ?skipCancel, ?skipCombine⟩
  case topk =>
    refine fun ue => wicksShare_of (go := goTopk) (fun d => routes d _) (fun _ _ => rfl)
      (fun w d s h => if_neg (ne_true_of_eq_false ((Bool.not_eq_true' _).mp (Bool.and_eq_true_iff.1 h).2)))
      fun ws w d t pc h hmet hcond => ?_
    simp only [Bool.and_eq_true, Bool.not_eq_true'] at hcond
    exact (meetingAct_topk (routes d _ h) hmet hcond.1).trans (doTopk_done hcond.2)
  case topkSet =>
    refine fun ue => wicksMeet_of (go := goTopk) (fun d => routes d _) (fun _ _ => rfl)
      (fun w d s h => if_pos (Bool.and_eq_true_iff.1 h).2) fun w d s _ h => ?_
    simp only [Bool.and_eq_true, Bool.not_eq_true'] at h
    exact ⟨h.1, (doTopkSet_round w d _).trans (andThen_finishes _ _ h.2)⟩
  case topkGives =>
    refine fun ue => wicksGive_form (go := goTopk) (fun d => routes d _) (fun _ _ => rfl)
      (fun w d s h => if_pos (Bool.and_eq_true_iff.1 h).2) fun w d s u h hround => ⟨(Bool.not_eq_true' _).mp h, ?_⟩
    rw [doTopkSet_round, hround]
    rfl
  case dispatch =>
    refine fun ue => wicksShare_come (fun _ _ => rfl) fun ws w d t pc h hmet hcond => ?_
    simp only [Bool.and_eq_true, Bool.not_eq_true'] at hcond
    obtain ⟨⟨⟨hfree, hheld⟩, hpairs⟩, hslot⟩ := hcond
    obtain ⟨ps, hps⟩ := Option.isSome_iff_exists.1 hpairs
    obtain ⟨k, hk⟩ := Option.isSome_iff_exists.1 hslot
    have hnotOpen : ¬ (heldBatch t w d ≠ 0 ∧ (combineAt t (heldBatch t w d - 1)).state = .open_ ∧
        (combineAt t (heldBatch t w d - 1)).task = w.t) := fun ⟨hsome, hopen, hown⟩ => ne_true_of_eq_false hheld
      (Bool.and_eq_true_iff.2 ⟨Bool.and_eq_true_iff.2 ⟨bne_iff_ne.2 hsome, decide_eq_true hopen⟩, beq_iff_eq.2 hown⟩)
    simp only [hps, hk, Option.getD_some]
    exact (meetingAct_dispatch h hmet hfree).trans (doDispatch_opens hnotOpen hps hk)
  case returnCommand =>
    refine wicksShare_come (fun _ _ => rfl) fun ws w d t pc h hmet hcond => ?_
    simp only [Bool.and_eq_true, beq_iff_eq] at hcond
    exact (meetingAct_return h hmet).trans (doReturn_command hcond.1 hcond.2)
  case returnPilot =>
    refine fun pi => wicksShare_come (fun _ _ => rfl) fun ws w d t pc h hmet hcond => ?_
    simp only [Bool.and_eq_true, beq_iff_eq, decide_eq_true_eq] at hcond
    exact (meetingAct_return h hmet).trans (doReturn_pilot hcond.1 hcond.2)
  case cancelNone =>
    exact wicksShare_come (fun _ _ => rfl) fun ws w d t pc h hmet hcond =>
      (meetingAct_cancel h hmet).trans (doCancel_none (beq_iff_eq.1 hcond))
  case cancelHeld =>
    exact wicksShare_come (fun _ _ => rfl) fun ws w d t pc h hmet hcond =>
      (meetingAct_cancel h hmet).trans (doCancel_held (bne_iff_ne.1 hcond))
  case combine =>
    refine wicksMeet_own (busy := fun s w => !(taskAt s w.t).exch.isEmpty) (fun _ _ => rfl) (fun _ _ _ => rfl) fun w d s t h => ?_
    simp only [Bool.and_eq_true, Bool.or_eq_true, Bool.not_eq_true', bne_iff_ne, beq_iff_eq, decide_eq_true_eq] at h
    obtain ⟨⟨⟨⟨⟨hempty, hkept⟩, hheld⟩, hown⟩, hstate⟩, hended⟩ := h
    refine ⟨congrArg (!·) hempty, ?_⟩
    rcases hstate with hcomplete | ⟨hexpired, hdegrade⟩
    · simp only [if_pos hcomplete]
      exact doCombine_complete ⟨hkept, hheld, hown⟩ hcomplete
    · simp only [hexpired]
      exact doCombine_degraded ⟨hkept, hheld, hown⟩ hexpired hdegrade (hended.resolve_left (not_not_intro hexpired))
  case skipTopk => exact fun ue => wickSkips_of (go := goTopk) fun _ _ => rfl
  case skipDispatch => exact fun ue => wickSkips_of (go := fun w _ s => comeTo w s) fun _ _ => rfl
  case skipReturn => exact wickSkips_of (go := fun w _ s => comeTo w s) fun _ _ => rfl
  case skipCancel => exact wickSkips_of (go := fun w _ s => comeTo w s) fun _ _ => rfl
  case skipCombine => exact wickSkips_of (go := goCombine) fun _ _ => rfl

end Sys2Proof.Proofs.ExpertDescriptors
end

section
/-! SUPPORT. What the units of the expert servers do with the records that landed (R179, R182), with gather windows and deadlines (R180,
R183), and what the trim loop does (R186 to R188), case by case, and the statement about them. -/
namespace Sys2Proof.Proofs.ExpertRecords

open Sys2Proof Sys2Proof.Machine Sys2Proof.Safety Sys2Proof.Laws

variable {s : State} {r : RxRecord}

/-! ## Dispatch records (R179) -/

/-- A record of another version is dropped with a Note, whose class is DESIGN CHOICE (notes/assumptions/79.md). -/
theorem arriveRecord_version (h : fld r.bytes 0 1 ≠ 1) : arriveRecord r s =
    recordGone r (recordFault { cls := clsFabricDeniedIn, kind := kindLink, inst := r.port, status := stVersion, part := r.part } s) :=
  if_pos h

theorem arriveRecord_malformed (hversion : fld r.bytes 0 1 = 1) (h : dispatchOk r.bytes = false) : arriveRecord r s = recordGone r s :=
  (if_neg (not_not_intro hversion)).trans (if_pos (ne_true_of_eq_false h))

/-- A record laid out by R177 is dropped where its server is closing or gone. -/
theorem arriveRecord_unserved (hversion : fld r.bytes 0 1 = 1) (hok : dispatchOk r.bytes = true)
    (h : ¬ (serverAt s r.server).live = true ∨ (serverAt s r.server).closing = true) : arriveRecord r s =
      recordGone r (modServer r.server (fun y => if y.live then { y with dropped := y.dropped + 1 } else y) s) :=
  (if_neg (not_not_intro hversion)).trans ((if_neg (not_not_intro hok)).trans (if_pos h))

theorem arriveRecord_served (hversion : fld r.bytes 0 1 = 1) (hok : dispatchOk r.bytes = true) (hlive : (serverAt s r.server).live = true)
    (hopen : (serverAt s r.server).closing = false) : arriveRecord r s =
      let x := arrivePairs r (fld r.bytes 2 1) 0 (closeBefore r.server r.landed s)
      let t := closeWaiting r.server (forwardRecord r x.2)
      if x.1 = fld r.bytes 2 1 then recordGone r t
      else onExperts (fun e => { e with records := e.records.map (fun y => if y = r then { y with bytes := cutPairs y.bytes x.1 } else y) }) t :=
  (if_neg (not_not_intro hversion)).trans ((if_neg (not_not_intro hok)).trans
    (if_neg (not_or.2 ⟨not_not_intro hlive, ne_true_of_eq_false hopen⟩)))

/-- The arrival unit of a running link takes the oldest dispatch record of its port. -/
theorem takeArrival_first {p : Nat} (hrun : linkStopped s (linkWest s p) = false) (hfirst : firstRecord s p true = some r) :
    takeArrival p s = settle {} (arriveRecord r s) := by
  unfold takeArrival
  refine (if_neg (ne_true_of_eq_false hrun)).trans ?_
  rw [hfirst]

/-- The row of dispatch records: what becomes of the oldest one of a port. -/
theorem arrivalRecord_does (p : Nat) (r : RxRecord) {cond : State → Bool} {effect : State → State} (ha : ∀ s, cond s = true →
    linkStopped s (linkWest s p) = false ∧ firstRecord s p true = some r ∧ arriveRecord r s = effect s) :
    does (.arrivalRecord p) served cond (fun s => settle {} (effect s)) := by
  refine does_served (fun _ => rfl) fun s h => ?_
  obtain ⟨hrun, hfirst, harrive⟩ := ha s h
  rw [takeArrival_first hrun hfirst, harrive]

/-! ## Answer records (R182) -/

/-- An answer of another version is dropped as a malformed one (R6); that its Note has that class is the model's choice, no rule's. -/
theorem applyAnswer_version (h : fld r.bytes 0 1 ≠ 1) : applyAnswer r s = some (malformedAnswer 0 stVersion r s) :=
  if_pos h

theorem applyAnswer_stale (hversion : fld r.bytes 0 1 = 1) (h : answerCurrent s r = false) : applyAnswer r s = some (staleAnswer r s) := by
  have hgone : (combineAt s (answerSlot r)).state ≠ .open_ ∨ bits (fld r.bytes 4 4) 31 20 ≠ (combineAt s (answerSlot r)).gen := by
    simpa only [answerCurrent, Bool.and_eq_false_iff, beq_eq_false_iff_ne] using h
  exact (if_neg (not_not_intro hversion)).trans (if_pos hgone)

/-- The combine units of a running link take the oldest answer record of its port, where its slot takes it. -/
theorem takeAnswer_first {p : Nat} {t : State} (hrun : linkStopped s (linkWest s p) = false) (hfirst : firstRecord s p false = some r)
    (happly : applyAnswer r s = some t) : takeAnswer p s = settle {} (recordGone r t) := by
  unfold takeAnswer
  refine (if_neg (ne_true_of_eq_false hrun)).trans ?_
  simp only [hfirst, happly]
  rfl

/-! ## Gather windows and deadlines (R179, R180, R183) -/

theorem expireWindow_closes {k i : Nat} {c : Slice} (hslice : (serverAt s k).slices[i]? = some c) (hbound : c.bound.isSome = true)
    (hposted : c.posted = false) (hended : c.window ≤ now s) : expireWindow k i s = closeBatch k i
      ((s.experts.records.filter (fun r => r.arrival && r.server == k && decide (r.landed ≤ c.window))).foldl (fun s r => arriveRecord r s) s) := by
  have htaken : ¬ (c.bound.isNone = true ∨ c.posted = true ∨ now s < c.window) := by
    rintro (hnone | hdone | hearly)
    · exact ne_true_of_eq_false (Option.isNone_eq_false_iff.2 hbound) hnone
    · exact ne_true_of_eq_false hposted hdone
    · exact Nat.not_le.2 hearly hended
  simp only [expireWindow, hslice, if_neg htaken]

/-- At a deadline the answers that landed by then are applied first; with all of them applied the lantern's part ends. -/
theorem deadlinePart_ends {k l : Nat} (hdue : (combineAt s k).deadline ≤ clock s (lanternWest s l))
    (hnone : (answersIn k l s).experts.records.any (landedFor (answersIn k l s) k l) = false) :
    deadlinePart k l s = expirePart k l (answersIn k l s) := by
  have hfold : answersIn k l s = (s.experts.records.filter (landedFor s k l)).foldl (fun s r =>
      match applyAnswer r s with
      | none => s
      | some s => recordGone r s) s := by
    unfold answersIn
    congr 1
    funext s r
    cases applyAnswer r s <;> rfl
  rw [hfold] at hnone ⊢
  exact (if_neg (Nat.not_lt.2 hdue)).trans (if_neg (ne_true_of_eq_false hnone))

/-- Where no answer has landed, none is applied. -/
theorem answersIn_none {k l : Nat} (h : s.experts.records.any (landedFor s k l) = false) : answersIn k l s = s := by
  have hfilter : s.experts.records.filter (landedFor s k l) = [] := List.filter_eq_nil_iff.2 (List.any_eq_false.1 h)
  rw [answersIn, hfilter]
  rfl

theorem expirePart_due {k l : Nat} (hstate : (combineAt s k).state = .open_ ∨ (combineAt s k).state = .expired)
    (hdue : (combineAt s k).deadline ≤ clock s (lanternWest s l)) : expirePart k l s = settleSlot k (partExpired k l s) :=
  if_pos ⟨hstate, hdue⟩

/-! ## The trim loop (R186 to R188) -/

theorem periodEnd_due {g : Nat} (ue : Ue) (hlive : (groupAt s g).live = true) (hcurfew : s.curfew.inForce = false) (hrun : s.ll.halted = false)
    (hdue : (groupAt s g).periodEnd ≤ now s) : periodEnd g ue s = periodSummed g ue (groupAt s g) (sumLoads ue (groupAt s g) s) := by
  refine if_neg ?_
  rintro (hgone | hstop | hhalt | hearly)
  · exact hgone hlive
  · exact ne_true_of_eq_false hcurfew hstop
  · exact ne_true_of_eq_false hrun hhalt
  · exact Nat.not_le.2 hearly hdue

/-- The leader computes once every member has reported, or at its time. -/
theorem trimCompute_due {g : Nat} (ue : Ue) (hlive : (groupAt s g).live = true) (hleader : (groupAt s g).leader = s.fabric.node)
    (hcurfew : s.curfew.inForce = false) (hrun : s.ll.halted = false) (hset : (groupAt s g).computeAt ≠ 0)
    (hdue : (groupAt s g).members.length ≤ (groupAt s g).reported ∨ (groupAt s g).computeAt ≤ now s) :
    trimCompute g ue s = blockSent g ue (groupAt s g) (currentBias ue g s) := by
  refine if_neg ?_
  rintro (hgone | hother | hstop | hhalt | hunset | ⟨hshort, hearly⟩)
  · exact hgone hlive
  · exact hother hleader
  · exact ne_true_of_eq_false hcurfew hstop
  · exact ne_true_of_eq_false hrun hhalt
  · exact hset hunset
  · exact hdue.elim (Nat.not_le.2 hshort) (Nat.not_le.2 hearly)

theorem blockSent_read {g : Nat} {ue : Ue} {a : RGroup} {x : MemRead × State} (h : x.1.status = stOk) : blockSent g ue a x =
    multicastBlock ue g (blockHeader g a (blockEpoch x.2 a) ++ (newBias a x.1.data).flatMap (le 4)) (closePeriod g a x.2) :=
  if_neg (not_not_intro h)

/-- A group's waiting block is taken up: no other is under way. -/
structure BlockWaits (g : Nat) (s : State) : Prop where
  live : (groupAt s g).live = true
  pending : (groupAt s g).pending = true
  idle : (groupAt s g).fetching = 0

theorem installBlock_eq {g : Nat} (h : BlockWaits g s) : installBlock g s =
    if ¬ blockFits (groupAt s g) then modGroup g (fun g => { g with pending := false, waitBlock := [] }) s
    else if biasPinned s g (1 - (groupAt s g).active) then s else swapBias g (groupAt s g) s := by
  refine if_neg ?_
  rintro (hgone | hnone | hbusy)
  · exact hgone h.live
  · exact hnone h.pending
  · exact hbusy h.idle

theorem installBlock_drops {g : Nat} (h : BlockWaits g s) (hold : blockFits (groupAt s g) = false) :
    installBlock g s = modGroup g (fun g => { g with pending := false, waitBlock := [] }) s :=
  (installBlock_eq h).trans (if_pos (ne_true_of_eq_false hold))

theorem installBlock_swaps {g : Nat} (h : BlockWaits g s) (hfits : blockFits (groupAt s g) = true)
    (hfree : biasPinned s g (1 - (groupAt s g).active) = false) : installBlock g s = swapBias g (groupAt s g) s :=
  (installBlock_eq h).trans ((if_neg (not_not_intro hfits)).trans (if_neg (ne_true_of_eq_false hfree)))

/-! ## The statement -/

/-- Settles O37: each clause is one of the cases above, served by the unit's row. -/
theorem expertRecordsComplete : Obligations.ExpertRecordsComplete := by
  unfold Obligations.ExpertRecordsComplete
  refine ⟨?version, ?malformed, ?closing, ?served, ?answerVersion, ?stale, ?answer, ?window, ?deadline, ?deadlineAnswers, ?period, ?compute,
    ?dropped, ?installed⟩
  case version =>
    refine fun p r => arrivalRecord_does p r fun s h => ?_
    simp only [Bool.and_eq_true, Bool.not_eq_true', beq_iff_eq, bne_iff_ne] at h
    obtain ⟨⟨hrun, hfirst⟩, hversion⟩ := h
    exact ⟨hrun, hfirst, arriveRecord_version hversion⟩
  case malformed =>
    refine fun p r => arrivalRecord_does p r fun s h => ?_
    simp only [Bool.and_eq_true, Bool.not_eq_true', beq_iff_eq] at h
    obtain ⟨⟨⟨hrun, hfirst⟩, hversion⟩, hbad⟩ := h
    exact ⟨hrun, hfirst, arriveRecord_malformed hversion hbad⟩
  case closing =>
    refine fun p r => arrivalRecord_does p r fun s h => ?_
    simp only [Bool.and_eq_true, Bool.not_eq_true', beq_iff_eq] at h
    obtain ⟨⟨⟨⟨⟨hrun, hfirst⟩, hversion⟩, hok⟩, -⟩, hclosing⟩ := h
    exact ⟨hrun, hfirst, arriveRecord_unserved hversion hok (.inr hclosing)⟩
  case served =>
    refine fun p r => arrivalRecord_does p r fun s h => ?_
    simp only [Bool.and_eq_true, Bool.not_eq_true', beq_iff_eq] at h
    obtain ⟨⟨⟨⟨⟨hrun, hfirst⟩, hversion⟩, hok⟩, hlive⟩, hopen⟩ := h
    exact ⟨hrun, hfirst, arriveRecord_served hversion hok hlive hopen⟩
  case answerVersion =>
    refine fun p r => does_served (fun _ => rfl) fun s h => ?_
    simp only [Bool.and_eq_true, Bool.not_eq_true', beq_iff_eq, bne_iff_ne] at h
    obtain ⟨⟨hrun, hfirst⟩, hversion⟩ := h
    exact takeAnswer_first hrun hfirst (applyAnswer_version hversion)
  case stale =>
    refine fun p r => does_served (fun _ => rfl) fun s h => ?_
    simp only [Bool.and_eq_true, Bool.not_eq_true', beq_iff_eq] at h
    obtain ⟨⟨⟨hrun, hfirst⟩, hversion⟩, hstale⟩ := h
    exact takeAnswer_first hrun hfirst (applyAnswer_stale hversion hstale)
  case answer =>
    refine fun p r t => does_served (fun _ => rfl) fun s h => ?_
    simp only [Bool.and_eq_true, Bool.not_eq_true', beq_iff_eq, decide_eq_true_eq] at h
    obtain ⟨⟨⟨⟨hrun, hfirst⟩, -⟩, -⟩, happly⟩ := h
    exact takeAnswer_first hrun hfirst happly
  case window =>
    refine fun k i c => does_served (fun _ => rfl) fun s h => ?_
    simp only [Bool.and_eq_true, Bool.not_eq_true', beq_iff_eq, decide_eq_true_eq] at h
    obtain ⟨⟨⟨hslice, hbound⟩, hposted⟩, hended⟩ := h
    rw [expireWindow_closes hslice hbound hposted hended]
  case deadline =>
    refine fun k l => does_served (fun _ => rfl) fun s h => ?_
    simp only [Bool.and_eq_true, Bool.or_eq_true, Bool.not_eq_true', beq_iff_eq, decide_eq_true_eq] at h
    obtain ⟨⟨⟨hrun, hstate⟩, hdue⟩, hnone⟩ := h
    have hin : answersIn k l s = s := answersIn_none hnone
    rw [if_neg (ne_true_of_eq_false hrun), deadlinePart_ends hdue (by rw [hin, hnone]), hin, expirePart_due hstate hdue]
  case deadlineAnswers =>
    refine fun k l => does_served (fun _ => rfl) fun s h => ?_
    simp only [Bool.and_eq_true, Bool.not_eq_true', decide_eq_true_eq] at h
    obtain ⟨⟨hrun, hdue⟩, hnone⟩ := h
    rw [if_neg (ne_true_of_eq_false hrun), deadlinePart_ends hdue hnone]
  case period =>
    refine fun g ue => does_served (fun _ => rfl) fun s h => ?_
    simp only [Bool.and_eq_true, Bool.not_eq_true', decide_eq_true_eq] at h
    obtain ⟨⟨⟨hlive, hcurfew⟩, hrun⟩, hdue⟩ := h
    exact periodEnd_due ue hlive hcurfew hrun hdue
  case compute =>
    refine fun g ue => does_served (fun _ => rfl) fun s h => ?_
    simp only [Bool.and_eq_true, Bool.or_eq_true, Bool.not_eq_true', beq_iff_eq, bne_iff_ne, decide_eq_true_eq] at h
    obtain ⟨⟨⟨⟨⟨⟨hlive, hleader⟩, hcurfew⟩, hrun⟩, hset⟩, hdue⟩, hread⟩ := h
    exact (trimCompute_due ue hlive hleader hcurfew hrun hset hdue).trans (blockSent_read hread)
  case dropped =>
    refine fun g => does_served (fun _ => rfl) fun s h => ?_
    simp only [Bool.and_eq_true, Bool.not_eq_true', beq_iff_eq] at h
    obtain ⟨⟨⟨hlive, hpending⟩, hidle⟩, hold⟩ := h
    exact installBlock_drops ⟨hlive, hpending, hidle⟩ hold
  case installed =>
    refine fun g => does_served (fun _ => rfl) fun s h => ?_
    simp only [Bool.and_eq_true, Bool.not_eq_true', beq_iff_eq] at h
    obtain ⟨⟨⟨⟨hlive, hpending⟩, hidle⟩, hfits⟩, hfree⟩ := h
    exact installBlock_swaps ⟨hlive, hpending, hidle⟩ hfits hfree

end Sys2Proof.Proofs.ExpertRecords
end

section
/-! SUPPORT. What the window, routing-table and link requests by mailbox answer, case by case (R190, R191, R201 to R203, R345), and the
statement about them. -/
namespace Sys2Proof.Proofs.Windows

open Sys2Proof Sys2Proof.Machine Sys2Proof.Safety Sys2Proof.Laws Sys2Proof.Proofs.Tables

variable {c : Call} {s : State}

/-! ## Windows (R202, R203) -/

/-- The checks of WINDOW_CREATE on the window a request asks for, all passed. -/
structure WindowAdmitted (c : Call) (s : State) (w : Window) : Prop where
  version : fld w.entry 0 1 = 1
  part : w.part ≤ 16
  shared : w.part ≠ 16 ∨ fld w.entry 3 1 = 0xFF
  peer : w.peer ≤ 15 ∨ w.peer = 0xFF
  fields : windowFieldsOk w = true
  regions : windowRegionsOk s w = true
  caller : mayWindow c.mb w.part = true
  there : partExists s w.part = true
  unlocked : lockedFor s c.mb w.part = false
  unused : arg c.req 0 1 = 0xFF ∨ (windowAt s (arg c.req 0 1)).kind = 0

/-- What a request asks of its window's fields is not refused (R202, R203). -/
theorem WindowAdmitted.valid {w : Window} (h : WindowAdmitted c s w) :
    ¬ (w.part > 16 ∨ (w.part = 16 ∧ fld w.entry 3 1 ≠ 0xFF) ∨ (w.peer > 15 ∧ w.peer ≠ 0xFF) ∨ ¬ windowFieldsOk w = true ∨
      ¬ windowRegionsOk s w = true) := by
  rintro (hpart | ⟨hmanager, hshared⟩ | ⟨hpeer, hnone⟩ | hfields | hregions)
  · exact Nat.not_lt.2 h.part hpart
  · exact h.shared.elim (· hmanager) hshared
  · exact h.peer.elim (Nat.not_le.2 hpeer) hnone
  · exact hfields h.fields
  · exact hregions h.regions

/-- An admitted window is installed at the number asked for, or at the lowest unused one. -/
theorem windowCreate_installs {o k : Nat} (h : WindowAdmitted c s (askedWindow c.req))
    (hobj : windowObj s (askedWindow c.req) (arg c.req 40 4) = .ok o)
    (hnumber : (if arg c.req 0 1 = 0xFF then freeWindow s else some (arg c.req 0 1)) = some k) :
    windowCreate c s = accept (created k 0) (installWindow k { askedWindow c.req with obj := o } s) := by
  have hfree : ¬ (arg c.req 0 1 ≠ 0xFF ∧ (windowAt s (arg c.req 0 1)).kind ≠ 0) := fun hn => h.unused.elim hn.1 hn.2
  unfold windowCreate
  rw [if_neg (not_not_intro h.version), if_neg h.valid, if_neg (not_not_intro h.caller), if_neg (not_not_intro h.there),
    if_neg (ne_true_of_eq_false h.unlocked), if_neg hfree, hobj, hnumber]

theorem windowDestroy_drops (hlive : (windowAt s (arg c.req 0 1)).kind ≠ 0)
    (hmay : mayWindow c.mb (windowAt s (arg c.req 0 1)).part = true)
    (hopen : lockedFor s c.mb (windowAt s (arg c.req 0 1)).part = false) :
    windowDestroy c s = accept [] (dropWindow (arg c.req 0 1) s) := by
  unfold windowDestroy
  rw [if_neg hlive, if_neg (not_not_intro hmay), if_neg (ne_true_of_eq_false hopen)]

/-- The named entries of an OWNED window take their owner once nothing accepted before is left (R203). -/
theorem regionOwnerSet_sets (hlive : (windowAt s (arg c.req 0 1)).kind ≠ 0) (howned : (windowAt s (arg c.req 0 1)).owned = true)
    (hpart : (windowAt s (arg c.req 0 1)).part = c.mb)
    (hrange : arg c.req 4 4 + arg c.req 8 4 ≤ (windowAt s (arg c.req 0 1)).regions)
    (howner : arg c.req 12 2 < 16384 ∨ arg c.req 12 2 = 0xFFFF ∨ arg c.req 12 2 = 0xFFFE)
    (hquiet : windowInbound s (arg c.req 0 1) = false) :
    regionOwnerSet c s = accept [] (onFabric (fun f => { f with owners := (List.range (arg c.req 8 4)).foldl (fun t i =>
      tset 0xFFFE t ((windowAt s (arg c.req 0 1)).ownBase + arg c.req 4 4 + i) (arg c.req 12 2)) f.owners }) s) := by
  have hvalid : ¬ (arg c.req 4 4 + arg c.req 8 4 > (windowAt s (arg c.req 0 1)).regions ∨
      (arg c.req 12 2 ≥ 16384 ∧ arg c.req 12 2 ≠ 0xFFFF ∧ arg c.req 12 2 ≠ 0xFFFE)) := by omega
  unfold regionOwnerSet
  rw [if_neg (not_or.2 ⟨hlive, not_not_intro howned⟩), if_neg (not_not_intro hpart), if_neg hvalid, if_neg (ne_true_of_eq_false hquiet)]

/-! ## Tables of both halves (R190, R191, R201) -/

/-- An image that its read, version and entries let pass is handed to East, and waited for. -/
theorem loadBoth_waits {kind len : Nat} {version : Bytes → Bool} {ok : State → Bytes → Bool} {img : Bytes} {t : State}
    (hthere : imageWaits s c 0 = false) (hread : readImage c 0 (fun n => n == len) s = (stOk, img, t))
    (hfirst : fld img 0 1 = 1) (hversion : version img = true) (hok : ok t img = true) :
    loadBoth kind len version ok c s = (.wait (.eastFetch (t.seam.tickets + 1) kind 0 0) [], (loadImage kind 0 0 img t).2) := by
  unfold loadBoth
  rw [if_neg (ne_true_of_eq_false hthere), hread]
  dsimp only
  rw [if_neg (not_not_intro rfl), if_neg (not_or.2 ⟨not_not_intro hfirst, not_not_intro hversion⟩), if_neg (not_not_intro hok)]
  exact loadImage_waits ..

/-! ## LINK_STATUS (R345) -/

theorem linkStatus_answers (hport : arg c.req 0 1 < s.build.links) : linkStatus c s =
    accept (le 8 (regLink s (arg c.req 0 1)) ++ le 8 (regOffset s (arg c.req 0 1)) ++ le 1 (linkAt s (arg c.req 0 1)).failStep ++ zeros 1 ++
      le 2 (linkAt s (arg c.req 0 1)).failStatus ++ le 4 (linkAt s (arg c.req 0 1)).session.toNat ++ zeros 8) s :=
  if_neg (Nat.not_le.2 hport)

/-! ## The statement -/

/-- Settles O15: each clause is one of the operation's cases above, served by the mailbox. -/
theorem windowAndRouteRequestsComplete : Obligations.WindowAndRouteRequestsComplete := by
  unfold Obligations.WindowAndRouteRequestsComplete
  refine ⟨?create, ?destroy, ?setOwner, ?routes, ?groups, ?status⟩
  case create =>
    intro k o
    refine repliesOk_served (fun _ _ => rfl) fun c s h => ?_
    simp only [Bool.and_eq_true, Bool.or_eq_true, Bool.not_eq_true', bne_iff_ne, beq_iff_eq, decide_eq_true_eq] at h
    obtain ⟨⟨⟨⟨⟨⟨⟨⟨⟨⟨⟨hversion, hpart⟩, hshared⟩, hpeer⟩, hfields⟩, hregions⟩, hcaller⟩, hthere⟩, hunlocked⟩, hunused⟩, hobj⟩, hnumber⟩ := h
    exact windowCreate_installs
      ⟨hversion, hpart, hshared, hpeer, hfields, hregions, hcaller, hthere, hunlocked, hunused⟩ (gives_eq hobj) hnumber
  case destroy =>
    refine repliesOk_served (fun _ _ => rfl) fun c s h => ?_
    simp only [Bool.and_eq_true, Bool.not_eq_true', bne_iff_ne] at h
    obtain ⟨⟨hlive, hmay⟩, hopen⟩ := h
    exact windowDestroy_drops hlive hmay hopen
  case setOwner =>
    refine repliesOk_served (fun _ _ => rfl) fun c s h => ?_
    simp only [Bool.and_eq_true, Bool.or_eq_true, Bool.not_eq_true', bne_iff_ne, beq_iff_eq, decide_eq_true_eq, or_assoc] at h
    obtain ⟨⟨⟨⟨⟨hlive, howned⟩, hpart⟩, hrange⟩, howner⟩, hquiet⟩ := h
    exact regionOwnerSet_sets hlive howned hpart hrange howner hquiet
  case routes =>
    refine repliesLater_served (fun _ _ => rfl) fun c s h => ?_
    simp only [Bool.and_eq_true, Bool.not_eq_true', beq_iff_eq] at h
    obtain ⟨⟨⟨hthere, hread⟩, hfirst⟩, hok⟩ := h
    exact loadBoth_waits hthere (readImage_ok hread) hfirst rfl hok
  case groups =>
    refine repliesLater_served (fun _ _ => rfl) fun c s h => ?_
    rw [Bool.and_eq_true, Bool.and_eq_true, Bool.and_eq_true, Bool.and_eq_true, Bool.not_eq_true', beq_iff_eq, beq_iff_eq] at h
    obtain ⟨⟨⟨⟨hthere, hread⟩, hfirst⟩, hversions⟩, hok⟩ := h
    exact loadBoth_waits hthere (readImage_ok hread) hfirst hversions hok
  case status =>
    refine repliesOk_served (fun _ _ => rfl) fun c s h => ?_
    exact linkStatus_answers (of_decide_eq_true h)

end Sys2Proof.Proofs.Windows
end

section
/-! SUPPORT. What neither a write of memory (R43, R51 to R55) nor a trace record (R410 to R417) touches: the build, the fabric, and the key in
every slot. -/
namespace Sys2Proof.Proofs.Untraced

open Sys2Proof Sys2Proof.Machine

/-- The build, the fabric and the slots' keys: memory and trace write none of them. -/
def untraced (s : State) := (s.build, s.fabric, fun k => (slotAt s k).key)

variable {s t : State}

theorem untraced_build (h : untraced t = untraced s) : t.build = s.build := congrArg Prod.fst h
theorem untraced_fabric (h : untraced t = untraced s) : t.fabric = s.fabric := congrArg (fun x => x.2.1) h
theorem untraced_key (h : untraced t = untraced s) (k : Nat) : (slotAt t k).key = (slotAt s k).key := congrArg (fun x => x.2.2 k) h

/-- What leaves alone all that a fault leaves alone leaves these alone. -/
theorem untraced_of_beyondFaults (h : beyondFaults t = beyondFaults s) : untraced t = untraced s := by
  simp only [beyondFaults, Prod.mk.injEq] at h
  obtain ⟨-, hbuild, -, -, -, -, hkeys, -, -, -, -, -, -, hfabric, -⟩ := h
  simp only [untraced, slotAt, hbuild, hkeys, hfabric]

/-- A choice between two states that both leave them alone leaves them alone. -/
theorem untraced_ite {u : State} {p : Prop} [Decidable p] (ht : untraced t = untraced s) (hu : untraced u = untraced s) :
    untraced (if p then t else u) = untraced s := by
  split
  · exact ht
  · exact hu

/-! ## Parts of the state -/

@[simp] theorem untraced_onReg (f : Regulator → Regulator) (s : State) : untraced (onReg f s) = untraced s := rfl
@[simp] theorem untraced_onFaults (f : Faults → Faults) (s : State) : untraced (onFaults f s) = untraced s := rfl
@[simp] theorem untraced_modCap (c : Nat) (f : Capacity → Capacity) (s : State) : untraced (modCap c f s) = untraced s := rfl
@[simp] theorem untraced_modCounters (k : Nat) (f : PartCounters → PartCounters) (s : State) : untraced (modCounters k f s) = untraced s := rfl
@[simp] theorem untraced_modSub (k h : Nat) (f : SubBuffer → SubBuffer) (s : State) : untraced (modSub k h f s) = untraced s := rfl
@[simp] theorem untraced_recordFault (a : FaultArg) (s : State) : untraced (recordFault a s) = untraced s :=
  untraced_of_beyondFaults (beyondFaults_recordFault a s)
@[simp] theorem untraced_postEvent (mb code : Nat) (a : Bytes) (s : State) : untraced (postEvent mb code a s) = untraced s :=
  untraced_of_beyondFaults (beyondFaults_postEvent mb code a s)
@[simp] theorem untraced_seamSend (e : Bool) (c : Nat) (b : SeamBody) (s : State) : untraced (seamSend e c b s) = untraced s :=
  untraced_of_beyondFaults (beyondFaults_seamSend e c b s)

/-- A slot whose attributes change keeps its key. -/
theorem untraced_changeSlot {k : Nat} {f : KeySlot → KeySlot} (hf : ∀ v, (f v).key = v.key) (s : State) :
    untraced (changeSlot k f s) = untraced s := by
  have hkey : ∀ j, (slotAt (changeSlot k f s) j).key = (slotAt s j).key := fun j => by
    unfold changeSlot putSlot
    rw [slotAt_setSlot]
    split
    next hj => rw [hj]; exact hf _
    next => rfl
  exact congrArg (fun g => (s.build, s.fabric, g)) (funext hkey)

/-! ## Stacked memory -/

@[simp] theorem untraced_clearPoison (l la : Nat) (s : State) : untraced (clearPoison l la s) = untraced s := by
  unfold clearPoison; split <;> rfl

@[simp] theorem untraced_dropEntries (l : Nat) (f : BufEntry → Bool) (s : State) : untraced (dropEntries l f s) = untraced s := by
  unfold dropEntries; split <;> rfl

@[simp] theorem untraced_fillBuffer (r : Req) (l a k : Nat) (d : Bytes) (s : State) : untraced (fillBuffer r l a k d s) = untraced s := by
  unfold fillBuffer; split <;> rfl

@[simp] theorem untraced_newQuarantine (r : Req) (l la addr : Nat) (i : Bool) (s : State) :
    untraced (newQuarantine r l la addr i s) = untraced s := untraced_recordFault _ _

@[simp] theorem untraced_hitQuarantine (r : Req) (l la addr : Nat) (s : State) : untraced (hitQuarantine r l la addr s) = untraced s := by
  unfold hitQuarantine
  split
  · rfl
  · split
    · rfl
    · exact untraced_recordFault _ _

@[simp] theorem untraced_takeInjection (a b c d e : Nat) (s : State) : untraced (takeInjection a b c d e s).2 = untraced s := by
  unfold takeInjection; split <;> rfl

@[simp] theorem untraced_injectCheck (a b c d e : Nat) (s : State) : untraced (injectCheck a b c d e s).2 = untraced s := by
  unfold injectCheck; dsimp only; split <;> simp

@[simp] theorem untraced_recordDenied (r : Req) (a : Nat) (c : Checked) (s : State) : untraced (recordDenied r a c s) = untraced s := by
  unfold recordDenied; split <;> simp

@[simp] theorem untraced_countUnit (r : Req) (a : Nat) (p : Place) (n : Nat) (s : State) : untraced (countUnit r a p n s) = untraced s := by
  have hbytes : untraced (countBytes (keyOf a) p n s) = untraced s := by
    unfold countBytes; split <;> rfl
  unfold countUnit countDeadline
  refine untraced_ite hbytes ((untraced_onReg _ _).trans (untraced_ite ?_ hbytes))
  exact (untraced_modCounters _ _ _).trans hbytes

@[simp] theorem untraced_readSector (r : Req) (ue : Ue) (s0 : State) (l la a addr : Nat) (s : State) :
    untraced (readSector r ue s0 l la a addr s).2.2 = untraced s := by
  unfold readSector
  dsimp only
  split
  · simp
  split
  · rfl
  split
  all_goals
    split
    · exact untraced_ite (by simp) (by simp)
    · split <;> simp

@[simp] theorem untraced_writeSector (l la a k : Nat) (d : Bytes) (s : State) : untraced (writeSector l la a k d s) = untraced s := by
  have hstore : ∀ k t, untraced (storeSector l la a k d t) = untraced t := fun k t =>
    (untraced_clearPoison ..).trans (untraced_dropEntries ..)
  exact (hstore _ _).trans (untraced_ite rfl rfl)

/-! ## Capacity memory -/

@[simp] theorem untraced_writeMeta (c : Nat) (m : MetaLine) (s : State) : untraced (writeMeta c m s) = untraced s := by
  unfold writeMeta; split <;> rfl

@[simp] theorem untraced_cacheLine (c : Nat) (m : MetaLine) (s : State) : untraced (cacheLine c m s) = untraced s := by
  unfold cacheLine
  refine (untraced_modCap ..).trans ((foldl_view untraced _ (fun s m => untraced_writeMeta c m s) _ _).trans ?_)
  exact untraced_ite (untraced_writeMeta c m s) rfl

@[simp] theorem untraced_markDue (k cause : Nat) (s : State) : untraced (markDue k cause s) = untraced s := by
  unfold markDue rotationDueEvent
  refine (untraced_postEvent ..).trans (untraced_ite ?_ rfl)
  exact untraced_postEvent ..

@[simp] theorem untraced_capUeFault (r : Req) (c l p a : Nat) (s : State) : untraced (capUeFault r c l p a s) = untraced s :=
  untraced_recordFault _ _
@[simp] theorem untraced_capTagFault (r : Req) (c a : Nat) (s : State) : untraced (capTagFault r c a s) = untraced s :=
  untraced_recordFault _ _
@[simp] theorem untraced_counterEndFault (r : Req) (c a : Nat) (s : State) : untraced (counterEndFault r c a s) = untraced s :=
  untraced_recordFault _ _

@[simp] theorem untraced_loadMeta (r : Req) (ue : Ue) (c pa addr : Nat) (s : State) :
    untraced (loadMeta r ue c pa addr s).2.2 = untraced s := by
  unfold loadMeta
  dsimp only
  split
  · simp
  · split <;> simp

@[simp] theorem untraced_flaggedPart (ue : Ue) (c pa a : Nat) (s : State) : untraced (flaggedPart ue c pa a s).2 = untraced s :=
  untraced_injectCheck ..

@[simp] theorem untraced_sealLine (c pa a k n : Nat) (d : Bytes) (s : State) : untraced (sealLine c pa a k n d s) = untraced s := by
  have hused : ∀ t, untraced (changeSlot k (fun x => { x with flags := x.flags ||| 2#8 }) t) = untraced t :=
    untraced_changeSlot fun _ => rfl
  unfold sealLine
  refine untraced_ite ?_ ((hused _).trans ?_)
  all_goals exact (untraced_cacheLine ..).trans rfl

@[simp] theorem untraced_writeLine (r : Req) (ue : Ue) (c pa addr : Nat) (d : Bytes) (be : List Bool) (s : State) :
    untraced (writeLine r ue c pa addr d be s).2 = untraced s := by
  have hload := untraced_loadMeta r ue c pa addr s
  have hfinish : ∀ (n : Nat) (p : Bytes) (q : Prop) [Decidable q] (t : State), untraced t = untraced s →
      untraced (if q then
        markDue (effectiveKey s (keyOf addr) (.capacity c pa)) 0
          (sealLine c pa (domainOf addr) (effectiveKey s (keyOf addr) (.capacity c pa)) n p t)
        else sealLine c pa (domainOf addr) (effectiveKey s (keyOf addr) (.capacity c pa)) n p t) = untraced s :=
    fun n p q _ t ht => untraced_ite (by simp [ht]) (by simp [ht])
  unfold writeLine
  dsimp only
  split
  · simp
  split
  · exact hfinish _ _ _ _ hload
  split
  · simp
  split
  · simp
  · exact hfinish _ _ _ _ (by simp)

/-! ## Writes -/

@[simp] theorem untraced_writeUnit (r : Req) (ue : Ue) (addr : Nat) (d : Bytes) (be : List Bool) (s : State) :
    untraced (writeUnit r ue addr d be s).2 = untraced s := by
  unfold writeUnit
  dsimp only
  split
  · simp
  split
  · split
    · simp
    split
    · simp
    split <;> simp
  · split <;> simp

@[simp] theorem untraced_writeLoop (r : Req) (ue : Ue) (fuel addr : Nat) (d : Bytes) (be : List Bool) (s : State) :
    untraced (writeLoop r ue fuel addr d be s).2 = untraced s := by
  induction fuel generalizing addr d be s with
  | zero => rfl
  | succ fuel ih =>
    unfold writeLoop
    dsimp only
    split
    · rfl
    · exact (ih ..).trans (untraced_writeUnit ..)

@[simp] theorem untraced_memWrite (r : Req) (ue : Ue) (addr : Nat) (d : Bytes) (s : State) : untraced (memWrite r ue addr d s).2 = untraced s :=
  untraced_writeLoop ..

/-! ## Trace buffers (R414 to R417) -/

@[simp] theorem untraced_bufWrite (k h off : Nat) (hdr : Bool) (bs : Bytes) (s : State) : untraced (bufWrite k h off hdr bs s) = untraced s := by
  have hspend : ∀ t, untraced (spendObs k h off bs.length t) = untraced t := fun t => by
    unfold spendObs; split <;> rfl
  unfold bufWrite
  refine untraced_ite rfl ?_
  exact (untraced_memWrite ..).trans (hspend _)

@[simp] theorem untraced_ringWrite (k h pos : Nat) (bs : Bytes) (s : State) : untraced (ringWrite k h pos bs s) = untraced s := by
  unfold ringWrite
  refine untraced_ite rfl (untraced_ite ((untraced_bufWrite ..).trans ?_) ?_)
  all_goals exact untraced_bufWrite ..

@[simp] theorem untraced_stopSub (k h reason : Nat) (s : State) : untraced (stopSub k h reason s) = untraced s := by
  unfold stopSub
  exact untraced_ite rfl (untraced_bufWrite ..)

@[simp] theorem untraced_loseRecord (k h src reason time : Nat) (s : State) : untraced (loseRecord k h src reason time s) = untraced s := by
  unfold loseRecord
  dsimp only
  split <;> rfl

@[simp] theorem untraced_placeRecord (k h : Nat) (bs : Bytes) (src : Nat) (s : State) : untraced (placeRecord k h bs src s) = untraced s := by
  unfold placeRecord
  refine untraced_ite (by simp) (untraced_ite (untraced_ite (by simp) (by simp)) (untraced_ite (by simp) (by simp)))

@[simp] theorem untraced_payLosses (k h : Nat) (s : State) : untraced (payLosses k h s) = untraced s := by
  unfold payLosses
  refine untraced_ite rfl ((foldl_view untraced _ (fun s e => ?_) _ _).trans rfl)
  exact untraced_placeRecord ..

@[simp] theorem untraced_giveRecord (k h : Nat) (bs : Bytes) (src : Nat) (s : State) : untraced (giveRecord k h bs src s) = untraced s := by
  unfold giveRecord
  exact untraced_ite (untraced_ite (by simp) (by simp)) (by simp)

@[simp] theorem untraced_deliverRecord (h : Nat) (r : StagedRec) (s : State) : untraced (deliverRecord h r s) = untraced s :=
  foldl_view untraced _ (fun s k => untraced_ite (by simp) (by simp)) _ _

@[simp] theorem untraced_drainFifo (h : Nat) (rs : List StagedRec) (waiting : List Nat) (s : State) :
    untraced (drainFifo h rs waiting s).2 = untraced s := by
  induction rs generalizing waiting s with
  | nil => rfl
  | cons r rs ih =>
    unfold drainFifo
    split
    · exact ih _ _
    · exact (ih _ _).trans (untraced_deliverRecord h r s)

@[simp] theorem untraced_flushTrace (s : State) : untraced (flushTrace s) = untraced s :=
  (untraced_drainFifo ..).trans (untraced_drainFifo ..)

/-! ## Records (R410 to R412, R416) -/

@[simp] theorem untraced_fireTrigger (k h cond argv time : Nat) (s : State) : untraced (fireTrigger k h cond argv time s) = untraced s := by
  have hfreeze : ∀ t, untraced (freezeSub k h time t) = untraced t := fun t => untraced_ite rfl rfl
  unfold fireTrigger
  refine untraced_ite rfl (untraced_ite ((untraced_giveRecord ..).trans ?_) ?_)
  all_goals exact (untraced_seamSend ..).trans (hfreeze _)

@[simp] theorem untraced_recordTriggers (h src : Nat) (bs : Bytes) (s : State) : untraced (recordTriggers h src bs s) = untraced s :=
  foldl_view untraced _ (fun s k => untraced_ite (by simp) (untraced_ite (by simp) rfl)) _ _

/-- A trace record leaves the build, the fabric and the slots' keys alone. -/
@[simp] theorem untraced_traceEmit (r : TraceRec) (s : State) : untraced (traceEmit r s) = untraced s := by
  unfold traceEmit
  refine untraced_ite rfl ?_
  have hstage : ∀ t, untraced (if r.mark = [] then recordTriggers (b2n (kindEast s r.kind r.inst)) (sourceIndex s r.kind r.inst)
      (traceBytes r (clock s (b2n (kindEast s r.kind r.inst) == 0))) (flushTrace t) else flushTrace t) = untraced t :=
    fun t => untraced_ite (by simp) (by simp)
  refine (hstage _).trans (untraced_ite ?_ rfl)
  exact foldl_view untraced _ (fun s k => by simp) _ _

theorem traceFrame_build (p : Nat) (b : Bool) (h : Bytes) (s : State) : (traceFrame p b h s).build = s.build :=
  untraced_build (untraced_traceEmit _ s)

theorem traceFrame_fabric (p : Nat) (b : Bool) (h : Bytes) (s : State) : (traceFrame p b h s).fabric = s.fabric :=
  untraced_fabric (untraced_traceEmit _ s)

theorem traceFrame_key (p : Nat) (b : Bool) (h : Bytes) (s : State) (k : Nat) : (slotAt (traceFrame p b h s) k).key = (slotAt s k).key :=
  untraced_key (untraced_traceEmit _ s) k

end Sys2Proof.Proofs.Untraced
end

section
/-! SUPPORT. What a half does with a frame it has received: the way from its port to its delivery, its delivery by operation (R198 to R201,
R205, R211, R216, R218, R221, R227, R407), and the statements about frames. -/
namespace Sys2Proof.Proofs.Frames

open Sys2Proof Sys2Proof.Machine Sys2Proof.Safety Sys2Proof.Laws Sys2Proof.Proofs.Untraced

variable {ue : Ue} {port op : Nat} {f : Frame} {h plain : Bytes} {pass : Bool} {s t : State}

/-! ## From the port to delivery -/

/-- A frame that its checks deliver has left the build alone; nothing is said of one that is gone. -/
def DeliversInBuild (s : State) (x : Received × State) : Prop := x.1 = .gone ∨ x.2.build = s.build

theorem deliversInBuild_gone : DeliversInBuild s (.gone, t) := .inl rfl

theorem deliversInBuild_ite {p : Prop} [Decidable p] {x y : Received × State} (hx : DeliversInBuild s x) (hy : DeliversInBuild s y) :
    DeliversInBuild s (if p then x else y) := by
  split
  · exact hx
  · exact hy

theorem checkSealed_deliversInBuild (port : Nat) (f : Frame) (s : State) : DeliversInBuild s (checkSealed port f s) := by
  have hinject := untraced_build (untraced_injectCheck clsSealedDrop kindLink port 0 (fDst f.header * 2 ^ 48 + fOffset f.header) s)
  unfold checkSealed
  dsimp only
  split
  · exact deliversInBuild_gone
  refine deliversInBuild_ite deliversInBuild_gone ?_
  split
  · exact .inr hinject
  · exact deliversInBuild_ite (.inr hinject) deliversInBuild_gone

theorem receiveFrame_deliversInBuild (port : Nat) (f : Frame) (s : State) : DeliversInBuild s (receiveFrame port f s) := by
  have htrace := traceFrame_build port true f.header s
  have hinject := (untraced_build (untraced_injectCheck clsLinkTag kindLink port 0 (fDst f.header * 2 ^ 48 + fOffset f.header)
    (traceFrame port true f.header s))).trans htrace
  have hcounted : ∀ (q : Prop) [Decidable q] (g : Link → Link) (u : State), u.build = s.build →
      (if q then modLink port g u else u).build = s.build := fun q _ g u hu => by split <;> exact hu
  have hsealed : DeliversInBuild s (checkSealed port f (traceFrame port true f.header s)) :=
    (checkSealed_deliversInBuild port f _).imp_right (·.trans htrace)
  unfold receiveFrame
  refine deliversInBuild_ite deliversInBuild_gone (deliversInBuild_ite deliversInBuild_gone (deliversInBuild_ite ?hop ?sealed))
  case hop =>
    refine deliversInBuild_ite deliversInBuild_gone (deliversInBuild_ite (.inr ?_) (deliversInBuild_ite deliversInBuild_gone
      (deliversInBuild_ite (.inr ?_) deliversInBuild_gone)))
    all_goals exact hcounted _ _ _ hinject
  case sealed => exact deliversInBuild_ite deliversInBuild_gone (deliversInBuild_ite hsealed deliversInBuild_gone)

/-- The half of a port is the same before and after the frame's way to its delivery. -/
theorem receiveFrame_linkWest (hlocal : receiveFrame port f s = (.local_ pass plain, t)) : linkWest t port = linkWest s port := by
  have hbuild := receiveFrame_deliversInBuild port f s
  rw [hlocal] at hbuild
  unfold linkWest
  rw [hbuild.resolve_left Received.noConfusion]

/-- A half whose engines run takes in a frame as its checks left it. -/
theorem handleFrame_runs {x : Received × State} (hrun : linkStopped s (linkWest s port) = false) (hreceive : receiveFrame port f s = x) :
    handleFrame ue port f s = takenIn ue (linkWest s port) port f false x := by
  unfold handleFrame
  rw [hrun, hreceive]
  exact if_neg (not_and_of_not_left _ Bool.false_ne_true)

/-- A frame for this node is delivered in a half whose engines run. -/
theorem handleFrame_delivers (hrun : linkStopped s (linkWest s port) = false) (hreceive : receiveFrame port f s = (.local_ pass plain, t)) :
    handleFrame ue port f s = deliverFrame ue (linkWest t port) port f.header plain pass t := by
  have hgo : ¬ (false = true ∧ fOp f.header ≠ 0x22) := fun hn => Bool.false_ne_true hn.1
  rw [handleFrame_runs hrun hreceive, receiveFrame_linkWest hreceive]
  dsimp only [takenIn]
  exact if_neg hgo

/-- A verified frame for this node, of an operation other than ROLL, is captured in a stopped half with room for it. -/
theorem handleFrame_captures (hstop : linkStopped s (linkWest s port) = true) (hroom : areaRoom s (32 + f.payload.length) = true)
    (hop : fOp f.header ≠ 0x22) (hreceive : receiveFrame port f s = (.local_ true plain, t)) :
    handleFrame ue port f s = captureFrame (linkWest s port) port f plain t := by
  unfold handleFrame
  rw [if_neg (fun hn => hn.2 hroom), hstop, hreceive]
  exact (if_pos ⟨rfl, hop⟩).trans (if_pos rfl)

/-- A row takes in the frames of its operation. -/
theorem efpRow_own (hop : fOp f.header = op) : efpRow op ue port f s = settle ue (driveFabric ue (handleFrame ue port f s)) :=
  if_neg (not_not_intro hop)

/-- The row of an operation: what becomes of a frame that arrives for this node is what its delivery does. -/
theorem arrives_of {c : Nat → Frame → Instr} {cond : Nat → Bytes → Bytes → Bool → State → Bool}
    {effect : Nat → Bytes → Bytes → Bool → State → State} (he : ∀ p f s, exec (c p f) s = whenFused (efpRow op ue p f) s)
    (hd : ∀ p h d pass t, fOp h = op → cond p h d pass t = true → deliverFrame ue (linkWest t p) p h d pass t = effect p h d pass t) :
    arrives c ue op cond effect := by
  intro port f s pass plain t hrun hop hgo hreceive hcond
  rw [he, whenFused_next _ hrun, efpRow_own hop, handleFrame_delivers hgo hreceive, hd _ _ _ _ _ hop hcond]

/-- The same for a frame that is not for this node or not received. -/
theorem passes_of {c : Nat → Frame → Instr} (he : ∀ p f s, exec (c p f) s = whenFused (efpRow op ue p f) s) : passes c ue op := by
  intro port f s t hrun hop hgo hreceive
  rw [he, whenFused_next _ hrun, efpRow_own hop, handleFrame_runs hgo hreceive]
  rfl

/-- The same for one that comes while the engines of its half stand stopped. -/
theorem isCaptured_of {c : Nat → Frame → Instr} (he : ∀ p f s, exec (c p f) s = whenFused (efpRow op ue p f) s) (hroll : op ≠ 0x22) :
    isCaptured c ue op := by
  intro port f s plain t hrun hop hstop hroom hreceive
  rw [he, whenFused_next _ hrun, efpRow_own hop, handleFrame_captures hstop hroom (hop ▸ hroll) hreceive]

/-! ## Requests (R198 to R201, R205) -/

/-- The operations of requests. -/
abbrev isRequest (op : Nat) : Prop := 1 ≤ op ∧ op ≤ 5

theorem deliverFrame_request {west : Bool} (hop : isRequest (fOp h)) :
    deliverFrame ue west port h plain pass t = takeRequest ue west port h plain pass t :=
  if_pos hop

theorem takeRequest_mcast {west : Bool} (hm : (fFlags h &&& flMcast) ≠ 0) :
    takeRequest ue west port h plain pass t = takeMcast ue west port h plain t :=
  if_pos hm

theorem takeRequest_early {west : Bool} (hm : (fFlags h &&& flMcast) = 0) (hearly : earlyWindow t h = true) :
    takeRequest ue west port h plain pass t =
      answeredEarly west h pass (acceptOp ue west port h plain (some t.fabric.nextVerdict) (oweFrame port h pass t)) :=
  (if_neg (not_not_intro hm)).trans (if_pos hearly)

theorem takeRequest_answers {west : Bool} (hm : (fFlags h &&& flMcast) = 0) (hlate : earlyWindow t h = false) :
    takeRequest ue west port h plain pass t = answered west h (acceptOp ue west port h plain none t) :=
  (if_neg (not_not_intro hm)).trans (if_neg (ne_true_of_eq_false hlate))

/-- The row of a request. -/
theorem requestArrives_of {c : Nat → Frame → Ue → Instr} (hreq : isRequest op)
    (he : ∀ ue p f s, exec (c p f ue) s = whenFused (efpRow op ue p f) s) : requestArrives c op := by
  intro ue
  refine ⟨?answered, ?mcast, ?passes, ?captured⟩
  case answered =>
    refine arrives_of (he ue) fun p h d pass t hop hcond => ?_
    simp only [Bool.and_eq_true, Bool.not_eq_true', beq_iff_eq] at hcond
    exact (deliverFrame_request (hop ▸ hreq)).trans (takeRequest_answers hcond.1 hcond.2)
  case mcast =>
    refine arrives_of (he ue) fun p h d pass t hop hcond => ?_
    exact (deliverFrame_request (hop ▸ hreq)).trans (takeRequest_mcast (bne_iff_ne.1 hcond))
  case passes => exact passes_of (he ue)
  case captured =>
    refine isCaptured_of (he ue) ?_
    rintro rfl
    exact absurd hreq.2 (by decide)

/-- Settles O39: each row is a request's, and a STORE in a window that takes frames before their verdict has its own case (R205). -/
theorem frameRequestsComplete : Obligations.FrameRequestsComplete := by
  unfold Obligations.FrameRequestsComplete
  refine ⟨?load, ?store, ?atomic, ?reduce, ?trigger, ?early⟩
  case load => exact requestArrives_of (by decide) fun _ _ _ _ => rfl
  case store => exact requestArrives_of (by decide) fun _ _ _ _ => rfl
  case atomic => exact requestArrives_of (by decide) fun _ _ _ _ => rfl
  case reduce => exact requestArrives_of (by decide) fun _ _ _ _ => rfl
  case trigger => exact requestArrives_of (by decide) fun _ _ _ _ => rfl
  case early =>
    refine fun ue => arrives_of (fun _ _ _ => rfl) fun p h d pass t hop hcond => ?_
    have hreq : isRequest (fOp h) := hop ▸ ⟨by decide, by decide⟩
    simp only [Bool.and_eq_true, beq_iff_eq] at hcond
    exact (deliverFrame_request hreq).trans (takeRequest_early hcond.1 hcond.2)

end Sys2Proof.Proofs.Frames
end

section
/-! SUPPORT. What a half does with a response or CONTROL frame for this node (R198, R211, R216, R218, R221, R407) and with a container
(R227), case by case, and the statement about them. -/
namespace Sys2Proof.Proofs.Responses

open Sys2Proof Sys2Proof.Machine Sys2Proof.Safety Sys2Proof.Laws Sys2Proof.Proofs.Frames

variable {ue : Ue} {west pass : Bool} {port : Nat} {h plain : Bytes} {s t : State} {o : OutOp}

/-! ## Delivery by operation -/

/-- A response of a later major version is dropped and counted (R216). -/
theorem deliverFrame_later (hop : ¬ isRequest (fOp h)) (hver : fVer h / 16 ≠ 1) :
    deliverFrame ue west port h plain pass t = dropFrame port t :=
  (if_neg hop).trans (if_pos hver)

/-- What the delivery of a frame that is no request does, by its operation. -/
def takeResponse (op : Nat) (ue : Ue) (west : Bool) (port : Nat) (h plain : Bytes) (t : State) : State :=
  if op = opAck then takeAck port h plain t
  else if op = opData then takeData ue h plain t
  else if op = opNack then takeNack h t
  else if op = 0x22 then takeRoll port h plain t
  else if op = 0x23 then takeProbe west port h plain t
  else if op = 0x24 then takeTimeEcho port h plain t
  else dropFrame port t

theorem deliverFrame_response (hop : ¬ isRequest (fOp h)) (hver : fVer h / 16 = 1) :
    deliverFrame ue west port h plain pass t = takeResponse (fOp h) ue west port h plain t :=
  (if_neg hop).trans (if_neg (not_not_intro hver))

/-- The row of a response: what becomes of one that arrives for this node, by its delivery. -/
theorem responds_of {c : Nat → Frame → Instr} {op : Nat} {cond : Nat → Bytes → Bytes → Bool → State → Bool}
    {effect : Nat → Bytes → Bytes → Bool → State → State} (he : ∀ p f s, exec (c p f) s = whenFused (efpRow op ue p f) s)
    (hop : ¬ isRequest op)
    (hd : ∀ p h d pass t, cond p h d pass t = true → takeResponse op ue (linkWest t p) p h d t = effect p h d pass t) :
    responds c ue op cond effect := by
  refine arrives_of he fun p h d pass t heq hcond => ?_
  subst heq
  simp only [Bool.and_eq_true, beq_iff_eq] at hcond
  exact (deliverFrame_response hop hcond.1).trans (hd p h d pass t hcond.2)

/-! ## Responses (R198, R218, R221) -/

theorem takeAck_formed (hform : ackFormed h plain = true) :
    takeAck port h plain t = ((chunks 2 plain).map leNat).foldl (fun s k => takeAckOne k s) t := by
  simp only [ackFormed, Bool.and_eq_true, beq_iff_eq, decide_eq_true_eq] at hform
  obtain ⟨⟨⟨hlow, hhigh⟩, heven⟩, hlen⟩ := hform
  refine if_neg ?_
  omega

theorem takeData_ends (hop : respondedOp t (fTxn h) = some o) (hwants : wantsData o = true) (hlen : plain.length = dataBytes o) :
    takeData ue h plain t = finishOp ue (txnWest (fTxn h)) (txnEntry (fTxn h)) stOk plain t := by
  simp only [takeData, hop]
  exact if_pos ⟨hwants, hlen⟩

theorem takeData_late (hnone : respondedOp t (fTxn h) = none) : takeData ue h plain t = countsLate h t := by
  simp only [takeData, hnone]
  rfl

/-- The operation that a response names is the entry of its transaction number. -/
theorem respondedOp_entry {k : Nat} (hop : respondedOp t k = some o) : tget {} (halfOf t (txnWest k)).ops (txnEntry k) = o := by
  unfold respondedOp at hop
  exact (Option.ite_none_right_eq_some.1 hop).2 |> Option.some.inj

theorem takeNack_busy (hop : respondedOp t (fTxn h) = some o) (hbusy : fStatus h = stBusy) : takeNack h t =
    startBackoff (txnWest (fTxn h)) o.dst (modOp (txnWest (fTxn h)) (txnEntry (fTxn h)) (fun o => { o with refused := true }) t) := by
  simp only [takeNack, hop, if_pos hbusy, refusedOp, respondedOp_entry hop]

theorem takeNack_ends (hop : respondedOp t (fTxn h) = some o) (hbusy : fStatus h ≠ stBusy) (hok : fStatus h ≠ stOk) :
    takeNack h t = finishOp {} (txnWest (fTxn h)) (txnEntry (fTxn h)) (fStatus h) [] t := by
  simp only [takeNack, hop, if_neg hbusy, if_neg hok]

theorem takeNack_late (hnone : respondedOp t (fTxn h) = none) : takeNack h t = countsLate h t := by
  simp only [takeNack, hnone]
  rfl

/-! ## CONTROL frames (R198, R211, R407) -/

theorem takeRoll_switches (hmode : fMode h = 1) (hlen : plain.length = 4) : takeRoll port h plain t = rollReceive port (leNat plain) t :=
  if_neg (not_or.2 ⟨not_not_intro hmode, not_not_intro hlen⟩)

/-- What an echo carries: the probe's time, its receipt and the echo's own sending (R198). -/
abbrev echoed (west : Bool) (plain : Bytes) (t : State) : Bytes := plain ++ le 8 (clock t west) ++ le 8 (clock t west)

theorem takeProbe_peer (hlen : plain.length = 8) (hpeer : fMode h = 1 ∧ fSrc h = (linkAt t port).peer) :
    takeProbe west port h plain t = peerFrame port 0x24 (echoed west plain t) t :=
  (if_neg (not_not_intro hlen)).trans (if_pos hpeer)

theorem takeProbe_far (hlen : plain.length = 8) (hfar : ¬ (fMode h = 1 ∧ fSrc h = (linkAt t port).peer)) (hrun : linkStopped t west = false) :
    takeProbe west port h plain t = (sendFrame west { op := 0x24, dst := fSrc h, len := 24, payload := echoed west plain t } t).2 :=
  (if_neg (not_not_intro hlen)).trans ((if_neg hfar).trans (if_neg (ne_true_of_eq_false hrun)))

theorem takeTimeEcho_peer (hlen : plain.length = 24) (hpeer : fMode h = 1 ∧ fSrc h = (linkAt t port).peer) :
    takeTimeEcho port h plain t = takeEcho port plain t :=
  (if_neg (not_not_intro hlen)).trans (if_pos hpeer)

/-! ## Containers (R227) -/

/-- A container whose port, header and length are in order. -/
structure BulkFormed (port : Nat) (f : Frame) (s : State) : Prop where
  port_lt : port < s.build.links
  unfenced : portFenced s port = false
  header : f.header.length = 32
  mode : fMode f.header = 0
  gateway : roleOf s port = 2
  here : fDst f.header = s.fabric.node
  length : f.payload.length = fLen f.header

/-- A container that is well formed is unpacked, each frame in it taken in, in order. -/
theorem takeBulk_unpacks {f : Frame} (hop : fOp f.header = 0x30) (h : BulkFormed port f (traceFrame port true f.header s)) :
    takeBulk port f s = settle {} (driveFabric {} ((bulkFrames (f.payload.length / 48 + 1) f.payload).foldl (fun s g => handleFrame {} port g s)
      (traceFrame port true f.header s))) := by
  obtain ⟨hport, hfence, hheader, hmode, hrole, hhere, hlen⟩ := h
  refine (if_neg (not_not_intro hop)).trans (if_neg ?_)
  rintro (hn | hn | hn | hn | hn | hn | hn)
  · exact Nat.not_lt.2 hn hport
  · exact ne_true_of_eq_false hfence hn
  · exact hn hheader
  · exact hn hmode
  · exact hn hrole
  · exact hn hhere
  · exact hn hlen

/-! ## The statement -/

/-- Settles O40: each clause is one of the cases above, in the row of its operation. -/
theorem frameResponsesComplete : Obligations.FrameResponsesComplete := by
  unfold Obligations.FrameResponsesComplete
  refine ⟨?ack, ?data, ?dataLate, ?busy, ?nack, ?nackLate, ?version, ?roll, ?probePeer, ?probeFar, ?echo, ?bulk⟩
  case ack => exact responds_of (fun _ _ _ => rfl) (by decide) fun p h d pass t hcond => takeAck_formed hcond
  case data =>
    refine fun ue o => responds_of (fun _ _ _ => rfl) (by decide) fun p h d pass t hcond => ?_
    simp only [Bool.and_eq_true, beq_iff_eq] at hcond
    exact takeData_ends hcond.1.1 hcond.1.2 hcond.2
  case dataLate =>
    exact fun ue => responds_of (fun _ _ _ => rfl) (by decide) fun p h d pass t hcond => takeData_late (beq_iff_eq.1 hcond)
  case busy =>
    refine fun o => responds_of (fun _ _ _ => rfl) (by decide) fun p h d pass t hcond => ?_
    simp only [Bool.and_eq_true, beq_iff_eq] at hcond
    exact takeNack_busy hcond.1 hcond.2
  case nack =>
    refine fun o => responds_of (fun _ _ _ => rfl) (by decide) fun p h d pass t hcond => ?_
    simp only [Bool.and_eq_true, beq_iff_eq, bne_iff_ne] at hcond
    exact takeNack_ends hcond.1.1 hcond.1.2 hcond.2
  case nackLate =>
    exact responds_of (fun _ _ _ => rfl) (by decide) fun p h d pass t hcond => takeNack_late (beq_iff_eq.1 hcond)
  case version =>
    refine arrives_of (fun _ _ _ => rfl) fun p h d pass t hop hcond => ?_
    exact deliverFrame_later (hop ▸ by decide) (bne_iff_ne.1 hcond)
  case roll =>
    refine responds_of (fun _ _ _ => rfl) (by decide) fun p h d pass t hcond => ?_
    simp only [Bool.and_eq_true, beq_iff_eq] at hcond
    exact takeRoll_switches hcond.1 hcond.2
  case probePeer =>
    refine responds_of (fun _ _ _ => rfl) (by decide) fun p h d pass t hcond => ?_
    simp only [Bool.and_eq_true, beq_iff_eq] at hcond
    exact takeProbe_peer hcond.1.1 ⟨hcond.1.2, hcond.2⟩
  case probeFar =>
    refine responds_of (fun _ _ _ => rfl) (by decide) fun p h d pass t hcond => ?_
    simp only [Bool.and_eq_true, Bool.not_eq_true', Bool.and_eq_false_iff, beq_iff_eq, beq_eq_false_iff_ne] at hcond
    exact takeProbe_far hcond.1.1 (fun hpeer => hcond.1.2.elim (· hpeer.1) (· hpeer.2)) hcond.2
  case echo =>
    refine responds_of (fun _ _ _ => rfl) (by decide) fun p h d pass t hcond => ?_
    simp only [Bool.and_eq_true, beq_iff_eq] at hcond
    exact takeTimeEcho_peer hcond.1.1 ⟨hcond.1.2, hcond.2⟩
  case bulk =>
    refine fun p f => does_fused (fun _ => rfl) fun s h => ?_
    simp only [Bool.and_eq_true, Bool.not_eq_true', beq_iff_eq, decide_eq_true_eq] at h
    obtain ⟨⟨⟨⟨⟨⟨⟨hop, hport⟩, hfence⟩, hheader⟩, hmode⟩, hrole⟩, hhere⟩, hlen⟩ := h
    exact takeBulk_unpacks hop ⟨hport, hfence, hheader, hmode, hrole, hhere, hlen⟩

end Sys2Proof.Proofs.Responses
end

section
/-! SUPPORT. What a link port does in its bring-up and in the renewal of its session (R215 to R217), with its rolls (R211), its loss (R223)
and its verdicts (R62, R205), case by case, and the statement about them. -/
namespace Sys2Proof.Proofs.Bringup

open Sys2Proof Sys2Proof.Machine Sys2Proof.Safety Sys2Proof.Laws Sys2Proof.Proofs.Untraced

variable {p : Nat} {f : Frame} {s t : State}

/-! ## Training and retries (R215 steps 1 and 2) -/

/-- A port reports its training: it exists, and was not trained. -/
theorem linkTrainedStep_new (hport : p < s.build.links) (hnew : (linkAt s p).trained = false) : linkTrainedStep p s =
    if roleOf s p = 0 ∧ failedLately s p = true then modLink p (fun l => { l with trained := true, state := .failed }) s
    else
      let t := modLink p (fun l => { l with trained := true, state := .trained, step := 1 }) s
      if roleOf t p = 0 ∧ ¬ portFenced t p = true then startBringup p t else t :=
  if_neg (not_or.2 ⟨Nat.not_le.2 hport, ne_true_of_eq_false hnew⟩)

/-- A FAILED port that may try again. -/
structure RetryDue (p : Nat) (s : State) : Prop where
  port_lt : p < s.build.links
  failed : (linkAt s p).state = .failed
  trained : (linkAt s p).trained = true
  peer : roleOf s p = 0
  unfenced : portFenced s p = false
  waited : (linkAt s p).failedAt + 1000000000 ≤ clock s (linkWest s p)

theorem retryBringup_due (h : RetryDue p s) : retryBringup p s = startBringup p s :=
  if_pos ⟨h.port_lt, h.failed, h.trained, h.peer, ne_true_of_eq_false h.unfenced, h.waited⟩

/-! ## HELLO (R215 steps 2 and 3, R216) -/

/-- A HELLO that the port waits for is taken by the versions and the node it names. -/
theorem takeHello_awaited (h : awaitsHello (traceFrame p true f.header s) p f = true) : takeHello p f s =
    match commonVersion f.payload with
    | none => failPort p stVersion (helloed p (traceFrame p true f.header s))
    | some minor =>
      let t := peerKnown p minor f (helloed p (traceFrame p true f.header s))
      if fld f.payload 2 2 = s.fabric.node then failPort p stBadArg t
      else
        let t := modLink p (fun l => { l with requester := decide (s.fabric.node < fld f.payload 2 2), step := 4 }) t
        if (linkAt t p).requester then emit (.spdm p 4) t else t := by
  simp only [awaitsHello, Bool.and_eq_true, Bool.or_eq_true, beq_iff_eq] at h
  obtain ⟨⟨⟨⟨hop, hcontrol⟩, hlen⟩, htrained⟩, hstate⟩ := h
  have hformed : ¬ (¬ controlOk (traceFrame p true f.header s) p 0x20 f = true ∨ f.payload.length ≠ 32) :=
    not_or.2 ⟨not_not_intro hcontrol, not_not_intro hlen⟩
  have hwaits : ¬ (¬ (linkAt (traceFrame p true f.header s) p).trained = true ∨
      ¬ ((linkAt (traceFrame p true f.header s) p).state = .trained ∨ (linkAt (traceFrame p true f.header s) p).state = .handshake)) :=
    not_or.2 ⟨not_not_intro htrained, not_not_intro hstate⟩
  unfold takeHello
  exact (if_neg (not_not_intro hop)).trans ((if_neg hformed).trans (if_neg hwaits))

theorem takeHello_known {minor : Nat} (h : awaitsHello (traceFrame p true f.header s) p f = true)
    (hversion : commonVersion f.payload = some minor) (hnode : fld f.payload 2 2 ≠ s.fabric.node) : takeHello p f s =
      let t := modLink p (fun l => { l with requester := decide (s.fabric.node < fld f.payload 2 2), step := 4 })
        (peerKnown p minor f (helloed p (traceFrame p true f.header s)))
      if (linkAt t p).requester then emit (.spdm p 4) t else t := by
  rw [takeHello_awaited h, hversion]
  exact if_neg hnode

theorem takeHello_noVersion (h : awaitsHello (traceFrame p true f.header s) p f = true) (hversion : commonVersion f.payload = none) :
    takeHello p f s = failPort p stVersion (helloed p (traceFrame p true f.header s)) := by
  rw [takeHello_awaited h, hversion]

theorem takeHello_ownNode {minor : Nat} (h : awaitsHello (traceFrame p true f.header s) p f = true)
    (hversion : commonVersion f.payload = some minor) (hnode : fld f.payload 2 2 = s.fabric.node) :
    takeHello p f s = failPort p stBadArg (peerKnown p minor f (helloed p (traceFrame p true f.header s))) := by
  rw [takeHello_awaited h, hversion]
  exact if_pos hnode

/-! ## SPDM (R215 steps 4 and 5, R217) -/

/-- A port in steps 4 and 5 takes an SPDM frame as one outcome of its exchange. -/
theorem takeSpdm_awaited {ev : SpdmEvent} (h : awaitsSpdm (traceFrame p true f.header s) p f ev = true) :
    takeSpdm p f ev s = spdmStep p ev (traceFrame p true f.header s) := by
  simp only [awaitsSpdm, Bool.and_eq_true, Bool.not_eq_true', beq_iff_eq] at h
  obtain ⟨⟨⟨hop, hcontrol⟩, hshaking⟩, hrenews⟩ := h
  have hfirst : ¬ (controlOk (traceFrame p true f.header s) p 0x21 f = true ∧ asksRenewal (traceFrame p true f.header s) p ev = true) :=
    fun hn => ne_true_of_eq_false hrenews hn.2
  unfold takeSpdm
  exact (if_neg (not_not_intro hop)).trans ((if_neg hfirst).trans
    (if_neg (not_or.2 ⟨not_not_intro hcontrol, not_not_intro hshaking⟩)))

/-- On a port that is UP such a frame begins the renewal. -/
theorem takeSpdm_renews {ev : SpdmEvent} (hop : fOp f.header = 0x21) (hcontrol : controlOk (traceFrame p true f.header s) p 0x21 f = true)
    (hrenews : asksRenewal (traceFrame p true f.header s) p ev = true) :
    takeSpdm p f ev s = spdmStep p ev (beginRenewal p (traceFrame p true f.header s)) :=
  (if_neg (not_not_intro hop)).trans (if_pos ⟨hcontrol, hrenews⟩)

theorem domainKey_modLink (g : Link → Link) (e : Nat) (s : State) : domainKey (modLink p g s) e = domainKey s e := rfl

/-- Tracing a frame leaves the domain keys as they are. -/
theorem domainKey_traceFrame (b : Bool) (h : Bytes) (e : Nat) (s : State) : domainKey (traceFrame p b h s) e = domainKey s e := by
  simp only [domainKey, traceFrame_fabric, traceFrame_key]

/-- A session on a root that the device trusts takes the port into step 5, where it confirms. -/
theorem takeSpdm_established {a : Word32} {m r x : Bytes} (h : established s p f a m r x = true) :
    takeSpdm p f (.sessionEstablished a m r x) s = sendConfirm p (inSession p a m x (traceFrame p true f.header s)) := by
  simp only [established, Bool.and_eq_true, beq_iff_eq] at h
  obtain ⟨⟨hawaits, hstep⟩, htrusted⟩ := h
  exact (takeSpdm_awaited hawaits).trans ((if_neg (not_not_intro hstep)).trans (if_neg (not_not_intro htrusted)))

/-- In that session the domain key of the epoch that the node sends under is the one it held before the frame. -/
theorem domainKey_inSession (a : Word32) (m x : Bytes) (s : State) :
    domainKey (inSession p a m x (traceFrame p true f.header s)) (inSession p a m x (traceFrame p true f.header s)).fabric.sendEpoch =
      domainKey s s.fabric.sendEpoch := by
  have hepoch : (inSession p a m x (traceFrame p true f.header s)).fabric.sendEpoch = s.fabric.sendEpoch := by
    show (traceFrame p true f.header s).fabric.sendEpoch = s.fabric.sendEpoch
    rw [traceFrame_fabric]
  rw [hepoch, inSession, domainKey_modLink, domainKey_traceFrame]

theorem takeSpdm_confirms {a : Word32} {m r x k : Bytes} (h : established s p f a m r x = true)
    (hkey : domainKey s s.fabric.sendEpoch = some k) : takeSpdm p f (.sessionEstablished a m r x) s =
      let t := inSession p a m x (traceFrame p true f.header s)
      emit (.efpConfirm p t.fabric.node (linkAt t p).peer (16 * (linkAt t p).major + (linkAt t p).minor) t.fabric.domId t.fabric.sendEpoch
        (hmac (hkdf [] k (ascii "EONAL-PEER-1") 48) x)) t := by
  have hscript : (linkAt (inSession p a m x (traceFrame p true f.header s)) p).transcript = x := by
    rw [inSession, linkAt_modLink, if_pos rfl]
  rw [takeSpdm_established h]
  unfold sendConfirm
  simp only [domainKey_inSession, hkey, confirmMac, hscript]

theorem takeSpdm_noDomainKey {a : Word32} {m r x : Bytes} (h : established s p f a m r x = true)
    (hkey : domainKey s s.fabric.sendEpoch = none) :
    takeSpdm p f (.sessionEstablished a m r x) s = failPort p stNotPermitted (inSession p a m x (traceFrame p true f.header s)) := by
  rw [takeSpdm_established h]
  unfold sendConfirm
  simp only [domainKey_inSession, hkey]

/-- A confirmation that names both nodes, the version chosen, the domain and a domain key that is held, with its MAC (R215 step 5). -/
structure Confirmed (p : Nat) (s : State) (selfNode peerNode version : Nat) (domain : Bytes) (epoch : Nat) (mac key : Bytes) : Prop where
  step : (linkAt s p).step = 5
  root : (linkAt s p).rootOk = true
  member : s.fabric.domState = 2
  selfNode_eq : selfNode = (linkAt s p).peer
  peerNode_eq : peerNode = s.fabric.node
  version_eq : version = 16 * (linkAt s p).major + (linkAt s p).minor
  domain_eq : domain = s.fabric.domId
  held : domainKey s epoch = some key
  mac_eq : confirmMac key (linkAt s p).transcript = mac

theorem spdmStep_confirmed {a b v e : Nat} {d m k : Bytes} (h : Confirmed p s a b v d e m k) :
    spdmStep p (.confirm a b v d e m) s = deriveKeys p s := by
  obtain ⟨hstep, hroot, hmember, hself, hpeer, hversion, hdomain, hheld, hmac⟩ := h
  simp [spdmStep, hstep, hroot, hmember, ← hself, ← hpeer, ← hversion, ← hdomain, hheld, hmac]

/-! ## Rolls (R211) -/

/-- A direction that is due for a roll, at a port whose engines run. -/
structure RollDue (p : Nat) (s : State) : Prop where
  port_lt : p < s.build.links
  peer : roleOf s p = 0
  up : (linkAt s p).state = .up
  runs : linkStopped s (linkWest s p) = false
  due : 2 ^ 40 ≤ (linkAt s p).txCtr ∨ (linkAt s p).genStart + 86400000000000 ≤ clock s (linkWest s p) ∨ rollPending (linkAt s p) = true

theorem rollDueStep_rolls (h : RollDue p s) : rollDueStep p s = endRenewal p (rollSend p s) :=
  if_pos ⟨h.port_lt, h.peer, h.up, ne_true_of_eq_false h.runs, h.due⟩

theorem rollOverrunStep_faults (hport : p < s.build.links) (hover : 2 ^ 41 ≤ (linkAt s p).txCtr) (hidle : (snuffAt s (100 + p)).due = false) :
    rollOverrunStep p s = simpleFault clsRollOverrun kindLink p s :=
  if_pos ⟨hport, hover, ne_true_of_eq_false hidle⟩

/-! ## Loss and verdicts (R62, R205, R223) -/

theorem linkLostStep_resets (hport : p < s.build.links) : linkLostStep p s = settle {} (driveFabric {} (resetPort p s)) :=
  if_neg (Nat.not_le.2 hport)

/-- The oldest verdict of a port leaves the list; by its outcome the records that rest on it are cleared or dropped. -/
theorem frameVerdictStep_first {v : FrameVerdict} (hfirst : s.fabric.verdicts.find? (fun v => v.port == p) = some v) : frameVerdictStep p s =
    let t := onFabric (fun f => { f with verdicts := f.verdicts.filter (fun x => x.id ≠ v.id) }) s
    let t := if v.pass then clearRecords v.id t else dropRecords v.id (earlyFailed p v.header t)
    settle {} (v.tickets.foldl (fun s t => ticketVerdict {} t.1 t.2 (fDst v.header * 2 ^ 48 + fOffset v.header) v.pass s) t) := by
  simp only [frameVerdictStep, hfirst]

/-! ## The statement -/

/-- Settles O41: each clause is one of the cases above, in the row of its command. -/
theorem linkBringupCompletes : Obligations.LinkBringupCompletes := by
  unfold Obligations.LinkBringupCompletes
  refine ⟨?trained, ?trainedFailed, ?hello, ?helloVersion, ?helloOwn, ?established, ?noDomainKey, ?confirmed, ?failure, ?renewal, ?retry,
    ?roll, ?overrun, ?lost, ?verdictPass, ?verdictFail⟩
  case trained =>
    refine fun p => does_served (fun _ => rfl) fun s h => ?_
    simp only [Bool.and_eq_true, Bool.not_eq_true', Bool.and_eq_false_iff, beq_eq_false_iff_ne, decide_eq_true_eq] at h
    obtain ⟨⟨hport, hnew⟩, hlately⟩ := h
    rw [linkTrainedStep_new hport hnew, if_neg fun hn => hlately.elim (· hn.1) (ne_true_of_eq_false · hn.2)]
  case trainedFailed =>
    refine fun p => does_served (fun _ => rfl) fun s h => ?_
    simp only [Bool.and_eq_true, Bool.not_eq_true', beq_iff_eq, decide_eq_true_eq] at h
    obtain ⟨⟨⟨hport, hnew⟩, hrole⟩, hlately⟩ := h
    rw [linkTrainedStep_new hport hnew, if_pos ⟨hrole, hlately⟩]
  case hello =>
    refine fun p f m => does_served (fun _ => rfl) fun s h => ?_
    simp only [Bool.and_eq_true, beq_iff_eq, bne_iff_ne] at h
    obtain ⟨⟨hawaits, hversion⟩, hnode⟩ := h
    exact takeHello_known hawaits hversion hnode
  case helloVersion =>
    refine fun p f => does_served (fun _ => rfl) fun s h => ?_
    simp only [Bool.and_eq_true, beq_iff_eq] at h
    exact takeHello_noVersion h.1 h.2
  case helloOwn =>
    refine fun p f m => does_served (fun _ => rfl) fun s h => ?_
    simp only [Bool.and_eq_true, beq_iff_eq] at h
    obtain ⟨⟨hawaits, hversion⟩, hnode⟩ := h
    exact takeHello_ownNode hawaits hversion hnode
  case established =>
    refine fun p f a m r x k => does_served (fun _ => rfl) fun s h => ?_
    simp only [Bool.and_eq_true, beq_iff_eq] at h
    exact takeSpdm_confirms h.1 h.2
  case noDomainKey =>
    refine fun p f a m r x => does_served (fun _ => rfl) fun s h => ?_
    simp only [Bool.and_eq_true, beq_iff_eq] at h
    exact takeSpdm_noDomainKey h.1 h.2
  case confirmed =>
    refine fun p f a b v d e m k => does_served (fun _ => rfl) fun s h => ?_
    simp only [Bool.and_eq_true, beq_iff_eq] at h
    obtain ⟨⟨⟨⟨⟨⟨⟨⟨⟨hawaits, hstep⟩, hroot⟩, hmember⟩, hself⟩, hpeer⟩, hversion⟩, hdomain⟩, hheld⟩, hmac⟩ := h
    exact (takeSpdm_awaited hawaits).trans (spdmStep_confirmed ⟨hstep, hroot, hmember, hself, hpeer, hversion, hdomain, hheld, hmac⟩)
  case failure => exact fun p f st => does_served (fun _ => rfl) fun s h => takeSpdm_awaited h
  case renewal =>
    refine fun p f => does_served (fun _ => rfl) fun s h => ?_
    simp only [Bool.and_eq_true, beq_iff_eq] at h
    obtain ⟨⟨hop, hcontrol⟩, hrenews⟩ := h
    exact takeSpdm_renews hop hcontrol hrenews
  case retry =>
    refine fun p => does_served (fun _ => rfl) fun s h => ?_
    simp only [Bool.and_eq_true, Bool.not_eq_true', beq_iff_eq, decide_eq_true_eq] at h
    obtain ⟨⟨⟨⟨⟨hport, hfailed⟩, htrained⟩, hrole⟩, hfence⟩, hwaited⟩ := h
    exact retryBringup_due ⟨hport, hfailed, htrained, hrole, hfence, hwaited⟩
  case roll =>
    refine fun p => does_served (fun _ => rfl) fun s h => ?_
    simp only [Bool.and_eq_true, Bool.or_eq_true, Bool.not_eq_true', beq_iff_eq, decide_eq_true_eq, or_assoc] at h
    obtain ⟨⟨⟨⟨hport, hrole⟩, hup⟩, hruns⟩, hdue⟩ := h
    exact rollDueStep_rolls ⟨hport, hrole, hup, hruns, hdue⟩
  case overrun =>
    refine fun p => does_served (fun _ => rfl) fun s h => ?_
    simp only [Bool.and_eq_true, Bool.not_eq_true', decide_eq_true_eq] at h
    obtain ⟨⟨hport, hover⟩, hidle⟩ := h
    exact rollOverrunStep_faults hport hover hidle
  case lost => exact fun p => does_served (fun _ => rfl) fun s h => linkLostStep_resets (of_decide_eq_true h)
  case verdictPass =>
    refine fun p v => does_served (fun _ => rfl) fun s h => ?_
    simp only [Bool.and_eq_true, beq_iff_eq] at h
    simp only [frameVerdictStep_first h.1, h.2, if_true]
  case verdictFail =>
    refine fun p v => does_served (fun _ => rfl) fun s h => ?_
    simp only [Bool.and_eq_true, Bool.not_eq_true', beq_iff_eq] at h
    simp only [frameVerdictStep_first h.1, h.2, Bool.false_eq_true, if_false]

end Sys2Proof.Proofs.Bringup
end

section
/-! SUPPORT. When a half's coalesced ACKs leave (R198), and the refutation of the statement about the timers of the fabric. -/
namespace Sys2Proof.Proofs.Timers

open Sys2Proof Sys2Proof.Machine Sys2Proof.Safety Sys2Proof.Laws

/-- Where no waiting ACK toward a node is 64 ns old by the half's own counter, none leaves. -/
theorem ackStep_none {s : State} {half dst : Nat}
    (h : (halfOf s (halfWest half)).acks.filter (fun a => a.node == dst && a.since + 64 ≤ clock s (halfWest half)) = []) :
    ackStep half dst s = s := by
  unfold ackStep
  dsimp only
  rw [h]
  rfl

/-- A powered block without routes: West counts 64 ns, East's follower withholds one (R26, R27), and an ACK toward node 0 that East
began to hold at 0 still waits there. -/
def laggingEast : State :=
  onFabric (fun f => { f with east := { f.east with acks := [⟨0, 0, [1], 0⟩] } })
    (onTime (fun t => { t with now := 64, east := 63, hold := 1 }) (onTrust (fun t => { t with pwrOk := true }) State.reset))

/-- By East's counter the ACK is 63 ns old, and the expiry leaves it. -/
theorem laggingEast_keeps : exec (.ackCoalesceExpiry 1 0) laggingEast = .next (served laggingEast laggingEast) := by
  have hnone : ackStep 1 0 laggingEast = laggingEast := ackStep_none (by decide)
  have hexec : exec (.ackCoalesceExpiry 1 0) laggingEast = .next (served laggingEast (ackStep 1 0 laggingEast)) :=
    whenServing_next _ (by decide)
  rw [hexec, hnone]

/-- Sending it would empty the list of waiting ACKs. -/
theorem laggingEast_flushed : (flushAcks false 0 0 laggingEast).fabric.east.acks = [] := by decide +kernel

/-- Refutes O42: its clause on coalesced ACKs takes their age by West's counter for either half, but East's ACKs go by East's follower
(R27), so that in `laggingEast` an ACK that West's counter makes 64 ns old does not leave. -/
theorem not_fabricTimersComplete : ¬ Obligations.FabricTimersComplete := by
  unfold Obligations.FabricTimersComplete
  rintro ⟨-, -, hacks, -⟩
  have hleaves := hacks 1 0 ⟨0, 0, [1], 0⟩ laggingEast (by decide) (by decide)
  rw [laggingEast_keeps] at hleaves
  have hstate := Host.Outcome.next.inj hleaves
  have hlists : [(⟨0, 0, [1], 0⟩ : AckWait)] = [] := (congrArg (fun t => t.fabric.east.acks) hstate).trans laggingEast_flushed
  exact absurd hlists (List.cons_ne_nil _ _)

end Sys2Proof.Proofs.Timers
end

section
/-! SUPPORT. The Terminal state (R240, R380): its entry, and that nothing but the fall of PWR_OK ends it. -/
namespace Sys2Proof.Proofs.Terminal

open Sys2Proof Sys2Proof.Machine Sys2Proof.Safety Sys2Proof.Laws

variable {s t : State}

/-! ## What the Terminal state is made of -/

/-- A powered block that a Terminal fault has stopped, without its keys. -/
structure TerminalStands (s : State) : Prop where
  powered : s.trust.pwrOk = true
  stopped : s.faults.terminal = true
  keyless : keysGone s = true

/-- The parts of the state that the Terminal state speaks of. -/
def keyView (s : State) :=
  (s.trust.pwrOk, s.faults.terminal, s.keys, s.ll, (s.seam.sessionKey, s.seam.eastKey, s.seam.westPriv, s.seam.eastPriv), s.fabric)

theorem TerminalStands.of_view (hs : TerminalStands s) (h : keyView t = keyView s) : TerminalStands t := by
  simp only [keyView, Prod.mk.injEq] at h
  obtain ⟨hpower, hterminal, hkeys, hll, ⟨hsession, heast, hwestPriv, heastPriv⟩, hfabric⟩ := h
  refine ⟨hpower ▸ hs.powered, hterminal ▸ hs.stopped, ?_⟩
  have hgone := hs.keyless
  simp only [keysGone] at hgone ⊢
  rw [hkeys, hll, hsession, heast, hwestPriv, heastPriv, hfabric]
  exact hgone

theorem TerminalStands.not_running (hs : TerminalStands s) : running s = false := by
  simp [running, hs.stopped]

theorem TerminalStands.ite {p : Prop} [Decidable p] (ht : TerminalStands t) (hs : TerminalStands s) : TerminalStands (if p then t else s) := by
  split
  · exact ht
  · exact hs

/-! ## What leaves the view alone -/

@[simp] theorem keyView_emit (o : Out) (s : State) : keyView (emit o s) = keyView s := rfl
@[simp] theorem keyView_onJtag (f : DebugPorts → DebugPorts) (s : State) : keyView (onJtag f s) = keyView s := rfl
@[simp] theorem keyView_framed (f : State → State) (s : State) : keyView (framed f s) = keyView (f s) := rfl
@[simp] theorem keyView_inCore (f : State → State) (s : State) : keyView (inCore f s) = keyView (f s) := rfl
@[simp] theorem keyView_keepFuses (f : State → State) (s : State) : keyView (keepFuses f s) = keyView (f s) := rfl
@[simp] theorem keyView_drawn (n : Nat) (s : State) : keyView (drawn n s) = keyView s := rfl
@[simp] theorem keyView_onTime (f : Time → Time) (s : State) : keyView (onTime f s) = keyView s := rfl

theorem keyView_onTrust {f : Trust → Trust} (h : (f s.trust).pwrOk = s.trust.pwrOk) : keyView (onTrust f s) = keyView s := by
  simp [keyView, h]

@[simp] theorem keyView_onWire (e : Bool) (f : SeamWire → SeamWire) (s : State) : keyView (onWire e f s) = keyView s := by
  cases e <;> rfl

@[simp] theorem keyView_seamSend (e : Bool) (c : Nat) (b : SeamBody) (s : State) : keyView (seamSend e c b s) = keyView s := by
  unfold seamSend
  dsimp only
  split
  · unfold seamLaunch
    exact (keyView_emit ..).trans ((keyView_onWire ..).trans rfl)
  · rfl

/-- A KEY message changes the seam's counters and wires, and no key. -/
@[simp] theorem keyView_sendKey (e : Bool) (a : Nat) (p : Bytes) (s : State) : keyView (sendKey e a p s) = keyView s := by
  unfold sendKey
  split
  · rfl
  · refine (keyView_seamSend ..).trans ?_
    cases e <;> rfl

theorem sendKey_keys (e : Bool) (a : Nat) (p : Bytes) (s : State) : (sendKey e a p s).keys = s.keys :=
  congrArg (·.2.2.1) (keyView_sendKey e a p s)

theorem sendKey_fabric (e : Bool) (a : Nat) (p : Bytes) (s : State) : (sendKey e a p s).fabric = s.fabric :=
  congrArg (·.2.2.2.2.2) (keyView_sendKey e a p s)

/-! ## Entry (R240, R380) -/

/-- Zeroising empties the key store, the mirror and the link keys. -/
theorem zeroiseKeys_keys (s : State) : (zeroiseKeys s).keys = { s.keys with slots := [], mirror := [], targets := [], captureKey := [] } :=
  sendKey_keys ..

theorem zeroiseKeys_linkKeys (s : State) : (zeroiseKeys s).fabric.linkKeys = [] := by
  unfold zeroiseKeys clearAllEast
  rw [sendKey_fabric]
  rfl

/-- A link engine that holds no key. -/
def linkKeyless (l : Link) : Bool := l.master == [] && l.txKey == [] && l.txNext == [] && l.rxKey == [] && l.rxNext == []

theorem zeroiseKeys_links (s : State) : (zeroiseKeys s).fabric.links.all (fun e => linkKeyless e.2) = true := by
  unfold zeroiseKeys clearAllEast
  rw [sendKey_fabric]
  simp [linkKeyless, tmap]

/-- A running block that enters the Terminal state holds no key, drives the zeroise-all signal and halts the Lamplighter. -/
theorem enterTerminal_stops (h : s.faults.terminal = false) :
    (enterTerminal s).faults.terminal = true ∧ keysGone (enterTerminal s) = true ∧ (enterTerminal s).ide.zeroiseAll = true ∧
      (enterTerminal s).ll.halted = true := by
  unfold enterTerminal
  rw [if_neg (ne_true_of_eq_false h)]
  refine ⟨rfl, ?_, rfl, rfl⟩
  simp only [keysGone, onFaults_keys, onIde_keys, onSeam_keys, onLl_keys, onFabric_keys, zeroiseKeys_keys]
  simpa [zeroiseKeys_linkKeys, linkKeyless] using zeroiseKeys_links s

/-- Settles O5: the entry takes place in a running block with a Terminal fault due. -/
theorem terminalEntryClearsKeys : Obligations.TerminalEntryClearsKeys := by
  unfold Obligations.TerminalEntryClearsKeys
  intro s hrun hdue
  obtain ⟨hterminal, hgone, hzeroise, hhalted⟩ := enterTerminal_stops (running_parts hrun).2
  have hexec : exec .terminalFault s = .next (fused s (enterTerminal s)) :=
    (whenFused_next _ hrun).trans (by rw [if_pos hdue])
  have hstopped : running (fused s (enterTerminal s)) = false := by simp [running, fused, hterminal]
  exact ⟨_, hexec, hterminal, hstopped, hgone, hzeroise, hhalted⟩

/-! ## The clocks -/

theorem keyView_rtcTick (s : State) : keyView (rtcTick s) = keyView s := by
  refine keyView_onTrust ?_
  split <;> rfl

theorem keyView_countTick (s : State) : keyView (countTick s) = keyView s := keyView_onTime ..

theorem keyView_steerTick (s : State) : keyView (steerTick s) = keyView s := by
  unfold steerTick
  dsimp only
  split
  · rfl
  split
  · exact keyView_seamSend ..
  · exact keyView_seamSend ..

/-- In a stopped block nothing but the clocks goes on. -/
theorem TerminalStands.tick (hs : TerminalStands s) : TerminalStands (tick s) := by
  have hrtc : TerminalStands (rtcTick s) := hs.of_view (keyView_rtcTick s)
  have hclocks : TerminalStands (steerTick (countTick (rtcTick s))) := hrtc.of_view (by rw [keyView_steerTick, keyView_countTick])
  have hbody : tickBody s = steerTick (countTick (rtcTick s)) := by
    unfold tickBody tickRunning
    rw [if_pos hrtc.powered, if_neg (ne_true_of_eq_false hclocks.not_running)]
  have hstands : TerminalStands (tickBody s) := hbody ▸ hclocks
  exact hstands.of_view (keyView_framed tickBody s)

/-! ## Power and tamper -/

theorem keyView_duskFalls (h : s.faults.terminal = true) : keyView (duskFalls s) = keyView s := by
  unfold duskFalls
  split
  · rfl
  · dsimp only
    rw [if_pos (by exact h)]
    rfl

theorem keyView_duskEnds (h : s.faults.terminal = true) : keyView (duskEnds s) = keyView s := by
  unfold duskEnds
  split
  · rfl
  · dsimp only
    rw [if_pos (by exact h)]
    rfl

theorem keyView_tamper (causes : BitVec 16) (h : running s = false) : keyView (tamper causes s) = keyView s := by
  unfold tamper
  dsimp only
  split
  · rfl
  · rw [if_neg (ne_true_of_eq_false (by exact h))]
    rfl

/-! ## The register port (R522) -/

/-- What is served after a Terminal fault: the identity page, the Lamplighter's, the fault hub's, the trust island's, and PT_SELF in
the page of a partition. -/
theorem regServed_terminal (h : s.faults.terminal = true) {off : Nat} (hserved : regServed s off = true) :
    off < 0x1000 ∨ (0x2000 ≤ off ∧ off < 0x4000) ∨ (0x5000 ≤ off ∧ off < 0x6000) ∨
      (0x100000 ≤ off ∧ off < 0x200000 ∧ 0x5000 ≤ off % 0x10000 ∧ off % 0x10000 < 0x5020) := by
  unfold regServed pageOf at hserved
  rw [if_pos h] at hserved
  by_cases hpage : 0x100000 ≤ off ∧ off < 0x200000
  · simp only [if_pos hpage, Option.map_some, Option.getD_some, Bool.or_eq_true, decide_eq_true_eq] at hserved
    omega
  · simp only [if_neg hpage, Option.map_none, Option.getD_none, Bool.or_false, decide_eq_true_eq] at hserved
    omega

theorem keyView_writeSeverity (a : RegAccess) (c : Nat) (s : State) : keyView (writeSeverity a c s) = keyView s := by
  unfold writeSeverity
  dsimp only
  split
  · rfl
  · rfl

theorem keyView_writeRepair (a : RegAccess) (n : Nat) (high : Bool) (s : State) : keyView (writeRepair a n high s) = keyView s := by
  cases high
  · rfl
  · rfl

/-- The fault hub's registers hold neither the Terminal state nor a key. -/
theorem keyView_writeFaultHub (a : RegAccess) (off : Nat) (s : State) : keyView (writeFaultHub a off s) = keyView s := by
  unfold writeFaultHub
  split
  · split
    · rfl
    · rfl
  split
  · rfl
  split
  · exact keyView_writeSeverity ..
  split
  · exact keyView_writeRepair ..
  · rfl

theorem keyView_writeTrust (a : RegAccess) (off : Nat) (s : State) : keyView (writeTrust a off s) = keyView s := by
  unfold writeTrust
  split
  · rfl
  · rfl
  · rfl
  · split <;> rfl
  · rfl

/-- What is served after a Terminal fault has registers that can be written in the fault hub and the trust island only. -/
theorem keyView_writeWindow {a : RegAccess} (h : s.faults.terminal = true) (hserved : regServed s a.offset = true) :
    keyView (writeWindow a s) = keyView s := by
  have hoff := regServed_terminal h hserved
  unfold writeWindow registerBase
  dsimp only
  split
  · omega
  split
  · exact keyView_writeFaultHub ..
  split
  · omega
  split
  · exact keyView_writeTrust ..
  split
  · unfold writePartition
    rw [if_neg (show ¬ a.offset % 0x10000 < 0x1000 by omega), if_neg (show ¬ a.offset % 0x10000 < 0x1200 by omega), ite_self]
  split
  · omega
  split
  · omega
  · rfl

theorem keyView_refuseReg (a : RegAccess) (s : State) : keyView (refuseReg a s) = keyView s := by
  unfold refuseReg
  split
  · split <;> rfl
  · rfl

theorem keyView_regWrite (a : RegAccess) (h : s.faults.terminal = true) : keyView (regWrite a s) = keyView s := by
  unfold regWrite
  split
  · rfl
  split
  · exact keyView_refuseReg a s
  split
  · rfl
  · next hserved => exact keyView_writeWindow h (Classical.not_not.1 hserved)

theorem keyView_registerRead (a : RegAccess) (s : State) : keyView (registerRead a s) = keyView s := by
  simp only [registerRead, apply_ite keyView, keyView_emit, keyView_refuseReg, ite_self]

/-! ## The test access ports -/

theorem keyView_captureDr (half : Nat) (s : State) : keyView (captureDr half s) = keyView s := by
  simp only [captureDr, apply_ite keyView, keyView_emit, keyView_drawn, ite_self]

theorem keyView_loadIr (half : Nat) (ir : Byte) (s : State) : keyView (loadIr half ir s) = keyView s :=
  keyView_captureDr ..

theorem keyView_setResult (half : Nat) (r : DebugResult) (s : State) : keyView (setResult half r s) = keyView s := rfl

theorem keyView_llAccess (op addr : Nat) (data : Word64) (h : running s = false) : keyView (llAccess op addr data s).2 = keyView s := by
  unfold llAccess
  split
  · rfl
  split
  · dsimp only
    rw [if_neg (ne_true_of_eq_false (by exact h))]
    rfl
  split
  · rfl
  split
  · rfl
  split
  · dsimp only
    split <;> rfl
  · split <;> rfl

theorem keyView_putBytes (w : Wk) (o : Opnd) (off : Nat) (d : Bytes) (s : State) : keyView (putBytes w o off d s) = keyView s := by
  unfold putBytes
  split
  · rfl
  split
  · rfl
  · rfl

theorem keyView_putLocal (w : Wk) (o : Opnd) (off : Nat) (d : Bytes) (s : State) : keyView (putLocal w o off d s) = keyView s := by
  unfold putLocal
  split
  · exact keyView_putBytes ..
  · exact keyView_putBytes ..

theorem keyView_wickPeek (w : Wk) (op addr : Nat) (data : Word64) (s : State) : keyView (wickPeek w op addr data s).2 = keyView s := by
  unfold wickPeek
  split
  · rfl
  split
  · exact keyView_putLocal ..
  · rfl

theorem keyView_wickTouch (l phys op addr : Nat) (data : Word64) (held : Option Wk) (s : State) :
    keyView (wickTouch l phys op addr data held s).2 = keyView s := by
  unfold wickTouch
  split
  · split <;> rfl
  split
  · rfl
  · exact keyView_wickPeek ..

theorem keyView_wickAccess (half op addr : Nat) (data : Word64) (s : State) : keyView (wickAccess half op addr data s).2 = keyView s := by
  unfold wickAccess
  split
  · rfl
  split
  · rfl
  split
  · rfl
  · exact keyView_wickTouch ..

/-! ## Loopback: a link gets no key -/

/-- An entry of a table holds what the default and every entry of it hold. -/
theorem tget_of_all {α : Type} {d : α} {p : α → Bool} (hd : p d = true) :
    ∀ {t : Tab α} (k : Nat), t.all (fun e => p e.2) = true → p (tget d t k) = true
  | [], _, _ => hd
  | (j, v) :: t, k, h => by
    rw [List.all_cons, Bool.and_eq_true] at h
    unfold tget
    split
    · exact h.1
    · exact tget_of_all hd k h.2

theorem tset_all {α : Type} [DecidableEq α] {d : α} {p : α → Bool} {t : Tab α} {k : Nat} {v : α} (hv : p v = true)
    (h : t.all (fun e => p e.2) = true) : (tset d t k v).all (fun e => p e.2) = true := by
  rw [List.all_eq_true] at h ⊢
  intro e he
  unfold tset at he
  split at he
  · exact h e (List.mem_filter.1 he).1
  · obtain rfl | hold := mem_tinsert he
    · exact hv
    · exact h e hold

/-- A change of a link that brings it no key brings none back. -/
theorem TerminalStands.modLink (hs : TerminalStands s) (k : Nat) {f : Link → Link} (hf : ∀ l, linkKeyless (f l) = linkKeyless l) :
    TerminalStands (modLink k f s) := by
  obtain ⟨hpower, hterminal, hgone⟩ := hs
  refine ⟨hpower, hterminal, ?_⟩
  unfold keysGone at hgone ⊢
  rw [Bool.and_eq_true] at hgone ⊢
  refine ⟨hgone.1, tset_all (p := linkKeyless) ?_ hgone.2⟩
  rw [hf]
  exact tget_of_all rfl k hgone.2

theorem TerminalStands.setLoopback (hs : TerminalStands s) (half bits_ : Nat) : TerminalStands (setLoopback half bits_ s) := by
  unfold Machine.setLoopback
  generalize List.range 16 = ports
  induction ports generalizing s with
  | nil => exact hs
  | cons i ports ih =>
    rw [List.foldl_cons]
    refine ih ?_
    split
    · exact hs
    · exact hs.modLink _ fun l => rfl

theorem TerminalStands.debugScan (hs : TerminalStands s) (half : Nat) (dr : BitVec 96) : TerminalStands (debugScan half dr s) := by
  unfold Machine.debugScan
  have hemit : ∀ v, TerminalStands (emit (.jtag half v) s) := fun v => hs.of_view (keyView_emit _ s)
  dsimp only
  refine .ite hs (.ite ((hemit _).setLoopback ..) (.ite hs ((hemit (captureOf (resultOf s half))).of_view ?_)))
  rw [keyView_setResult]
  split
  · exact keyView_llAccess _ _ _ (hemit _).not_running
  · exact keyView_wickAccess ..

/-! ## Steps -/

/-- A command that asks for a running block does nothing. -/
theorem TerminalStands.whenRunning {f : State → State} (hs : TerminalStands s) (h : whenRunning f s = .next t) : TerminalStands t := by
  rw [whenRunning_stopped hs.not_running] at h
  exact Host.Outcome.next.inj h ▸ hs

/-- The others keep the state where their effects do, whatever they keep back of them. -/
theorem TerminalStands.of_step1 {f : State → State} (hf : TerminalStands (f s)) (h : step1 f s = .next t) : TerminalStands t :=
  Host.Outcome.next.inj h ▸ hf.of_view (keyView_framed f s)

theorem TerminalStands.of_inCore {f : State → State} (hf : TerminalStands (f s)) (h : step1 (inCore f) s = .next t) : TerminalStands t :=
  of_step1 (f := inCore f) (hf.of_view (keyView_inCore f s)) h

theorem TerminalStands.of_keepFuses {f : State → State} (hf : TerminalStands (f s)) (h : step1 (keepFuses f) s = .next t) : TerminalStands t :=
  of_step1 (f := keepFuses f) (hf.of_view (keyView_keepFuses f s)) h

theorem TerminalStands.regWrite (hs : TerminalStands s) (a : RegAccess) : TerminalStands (regWrite a s) :=
  hs.of_view (keyView_regWrite a hs.stopped)

/-- Only the commands that do not ask for a running block act, and of them only the fall of PWR_OK ends the state. -/
theorem TerminalStands.exec {c : Instr} (hs : TerminalStands s) (hc : c ≠ .pwrOkFall) (h : exec c s = .next t) : TerminalStands t := by
  cases c
  case pwrOkFall => exact absurd rfl hc
  case powerOn v inp => exact .of_step1 (f := powerOn v inp) (hs.of_view (congrArg keyView (if_pos hs.powered))) h
  case dusk => exact .of_inCore (hs.of_view (keyView_duskFalls hs.stopped)) h
  case powerEventEnd => exact .of_step1 (hs.of_view (keyView_duskEnds hs.stopped)) h
  case tamperEvent causes => exact .of_keepFuses (hs.of_view (keyView_tamper causes hs.not_running)) h
  case ptMbRelease a => exact .of_inCore (.ite (hs.regWrite a) hs) h
  case ptMbEventPtr a => exact .of_inCore (.ite (hs.regWrite a) hs) h
  case lnTgenStart a => exact .of_inCore (.ite (hs.regWrite a) hs) h
  case lnTgenStop a => exact .of_inCore (.ite (hs.regWrite a) hs) h
  case registerWrite a => exact .of_inCore (hs.regWrite a) h
  case registerRead a => exact .of_inCore (.ite (hs.of_view (keyView_registerRead a s)) hs) h
  case jtagInstruction half ir => exact .of_keepFuses (.ite (hs.of_view (keyView_loadIr half ir s)) hs) h
  case debugAccess half dr => exact .of_keepFuses (.ite (hs.debugScan half dr) hs) h
  all_goals exact hs.whenRunning h

/-- Settles O6: `TerminalStands` is kept by a nanosecond and by every command but PWR_OK_FALL. -/
theorem terminalHolds : Obligations.TerminalHolds := by
  unfold Obligations.TerminalHolds
  intro s t hpower hterminal hgone hhead hstep
  have hs : TerminalStands s := ⟨hpower, hterminal, hgone⟩
  have ht : TerminalStands t := by
    unfold step at hstep
    split at hstep
    · exact Host.Outcome.next.inj hstep ▸ hs.tick
    · next c rest hpending =>
      rw [hpending] at hhead
      exact (hs.of_view (t := { s with pending := rest }) rfl).exec (fun hc => hhead (congrArg some hc)) hstep
  exact ⟨ht.powered, ht.stopped, ht.keyless⟩

end Sys2Proof.Proofs.Terminal
end

section
/-! SUPPORT. What the domain's requests by mailbox answer (R245, R246, R248), case by case, and the statement about them. -/
namespace Sys2Proof.Proofs.Domain

open Sys2Proof Sys2Proof.Machine Sys2Proof.Safety Sys2Proof.Laws

variable {c : Call} {s : State}

/-- A trust list whose version and length are in order takes the device from NONE to PREPARED (R245). -/
theorem domainPrepare_prepares (hlc : lcPermits s = true) (hnone : s.fabric.domState = 0) (hnode : arg c.req 16 2 < 16384)
    (hready : imageWaits s c 32 = false) (hread : (readImage c 32 trustLen s).1 = stOk) (hver : fld (readImage c 32 trustLen s).2.1 0 1 = 1)
    (hlen : (readImage c 32 trustLen s).2.1.length = 16 + 48 * fld (readImage c 32 trustLen s).2.1 1 1) :
    domainPrepare c s = accept [] (onFabric (fun f => { f with domState := 1, domId := argBytes c.req 0 16, node := arg c.req 16 2
                                                               trust := chunks 48 ((readImage c 32 trustLen s).2.1.drop 16) })
      (readImage c 32 trustLen s).2.2) := by
  unfold domainPrepare
  rw [if_neg (not_not_intro hlc), if_neg (not_not_intro hnone), if_neg (Nat.not_le.2 hnode), if_neg (ne_true_of_eq_false hready)]
  exact (if_neg (not_not_intro hread)).trans ((if_neg (not_not_intro hver)).trans (if_neg (not_not_intro hlen)))

/-- A member that names the current epoch sends under it from now on (R246). -/
theorem domainActivate_sends (hmember : s.fabric.domState = 2) (hepoch : arg c.req 0 4 = s.fabric.epoch) :
    domainActivate c s = accept [] (onFabric (fun f => { f with sendEpoch := f.epoch }) s) :=
  if_neg (not_or.2 ⟨not_not_intro hmember, not_not_intro hepoch⟩)

/-- Settles O14: the two requests that clear slots answer once East has cleared them, whatever the state. -/
theorem domainRequestsComplete : Obligations.DomainRequestsComplete := by
  unfold Obligations.DomainRequestsComplete
  refine ⟨?prepare, ?activate, ?retire, ?leave⟩
  case prepare =>
    refine repliesOk_served (fun _ _ => rfl) fun c s h => ?_
    simp only [Bool.and_eq_true, Bool.not_eq_true', beq_iff_eq, decide_eq_true_eq] at h
    obtain ⟨⟨⟨⟨⟨⟨hlc, hnone⟩, hnode⟩, hready⟩, hread⟩, hver⟩, hlen⟩ := h
    exact domainPrepare_prepares hlc hnone hnode hready hread hver hlen
  case activate =>
    refine repliesOk_served (fun _ _ => rfl) fun c s h => ?_
    simp only [Bool.and_eq_true, beq_iff_eq] at h
    exact domainActivate_sends h.1 h.2
  case retire => exact repliesEast_served (fun _ _ => rfl) fun c s _ => rfl
  case leave => exact repliesEast_served (fun _ _ => rfl) fun c s _ => rfl

end Sys2Proof.Proofs.Domain
end

section
/-! SUPPORT. What REPORT_GET (R241, R242, R347), SPDM_MESSAGE (R252, R345) and the requests of the management session (R257, R347)
answer, case by case, and the statement about them. -/
namespace Sys2Proof.Proofs.Reports

open Sys2Proof Sys2Proof.Machine Sys2Proof.Safety Sys2Proof.Laws

variable {c : Call} {s : State}

/-! ## REPORT_GET -/

/-- A report that its buffer holds is written there and issued. -/
theorem reportGet_buffer (hlc : lcPermits s = true) (hbox : c.mb ≠ 17) (hdrbg : s.ll.drbgRunning = true)
    (hfits : (askedReport c s).1.length ≤ arg c.req 40 4) (hready : rangeWaits s true (arg c.req 32 8) (askedReport c s).1.length = false)
    (hput : (putReport c (askedReport c s)).1 = stOk) :
    reportGet c s = accept
      (le 4 (askedReport c s).1.length ++ zeros 4 ++ le 8 ((putReport c (askedReport c s)).2.ll.reportSeq + 1) ++ sha384 (askedReport c s).1)
      (issueReport (askedReport c s).1 (putReport c (askedReport c s)).2) := by
  unfold reportGet
  rw [if_neg (not_not_intro hlc), if_neg hbox, if_neg (not_not_intro hdrbg)]
  unfold reportToBuffer deliverReport
  rw [if_neg (Nat.not_lt.2 hfits), if_neg (ne_true_of_eq_false hready), if_neg (not_not_intro hput)]
  rfl

/-- Through the management mailbox a new report is held, and its first piece replied. -/
theorem reportGet_firstPiece (hlc : lcPermits s = true) (hbox : c.mb = 17) (hoff : arg c.req 32 4 = 0) (hdrbg : s.ll.drbgRunning = true) :
    reportGet c s = reportPiece 0 (holdReport (argBytes c.req 0 32) (makeReport true 16 0xFD (argBytes c.req 0 32) (bit (arg c.req 36 1) 0) s)) := by
  unfold reportGet reportPieces
  rw [if_neg (not_not_intro hlc), if_pos hbox]
  exact (if_pos hoff).trans (if_neg (not_not_intro hdrbg))

/-- The first piece of a held report. -/
theorem reportPiece_held (nonce : Bytes) (m : Bytes × State) :
    reportPiece 0 (holdReport nonce m) = accept (le 4 m.1.length ++ le 4 0 ++ sub m.1 0 (min 232 m.1.length)) (holdReport nonce m) := rfl

/-- A later piece is one of the held report, named by its nonce. -/
theorem reportGet_laterPiece (hlc : lcPermits s = true) (hbox : c.mb = 17) (hoff : arg c.req 32 4 ≠ 0) (hheld : s.ll.heldReport ≠ [])
    (hnonce : argBytes c.req 0 32 = s.ll.heldNonce) (hin : arg c.req 32 4 < s.ll.heldReport.length) :
    reportGet c s = reportPiece (arg c.req 32 4) s := by
  unfold reportGet reportPieces
  rw [if_neg (not_not_intro hlc), if_pos hbox]
  exact (if_neg hoff).trans (if_neg (not_or.2 ⟨hheld, not_or.2 ⟨not_not_intro hnonce, Nat.not_le.2 hin⟩⟩))

/-! ## SPDM_MESSAGE -/

/-- The state in which a piece of a message stands at its offset in the buffer. -/
def spdmTaken (c : Call) (s : State) : State :=
  onLl (fun l => { l with spdmBuffer := l.spdmBuffer.take (arg c.req 4 4) ++ argBytes c.req 8 (reqLen c.req - 8) }) s

/-- A piece that follows those before it and stays within its message. -/
structure SpdmPieceFits (c : Call) (s : State) : Prop where
  nonempty : argBytes c.req 8 (reqLen c.req - 8) ≠ []
  follows : arg c.req 4 4 = 0 ∨ arg c.req 4 4 = s.ll.spdmBuffer.length
  within : arg c.req 4 4 + (argBytes c.req 8 (reqLen c.req - 8)).length ≤ arg c.req 0 2
  ends : bit (arg c.req 2 1) 1 = true → arg c.req 4 4 + (argBytes c.req 8 (reqLen c.req - 8)).length = arg c.req 0 2

/-- With LENGTH and FLAGS 0 it collects a piece of the reply. -/
theorem spdmMessage_collects (hlen : arg c.req 0 2 = 0) (hflags : arg c.req 2 1 = 0) : spdmMessage c s = spdmCollect (arg c.req 4 4) s :=
  if_pos ⟨hlen, hflags⟩

/-- A piece that fits is taken into the buffer; the last one is answered by the responder. -/
theorem spdmMessage_takes (hmsg : ¬ (arg c.req 0 2 = 0 ∧ arg c.req 2 1 = 0)) (h : SpdmPieceFits c s) :
    spdmMessage c s = if bit (arg c.req 2 1) 1 then spdmAnswer (spdmTaken c s) else accept (spdmPiece 0 0 0 []) (spdmTaken c s) := by
  obtain ⟨hnonempty, hfollows, hwithin, hends⟩ := h
  refine (if_neg hmsg).trans (if_neg ?_)
  rintro (hn | hn | hn | hn)
  · exact hnonempty hn
  · exact hfollows.elim hn.1 hn.2
  · exact Nat.not_lt.2 hwithin hn
  · exact hn.2 (hends hn.1)

/-- A piece of the reply that begins within it. -/
theorem spdmCollect_within {off : Nat} (h : off < s.ll.spdmReply.length) :
    spdmCollect off s =
      (let b := sub s.ll.spdmReply off (min 232 (s.ll.spdmReply.length - off))
       accept (spdmPiece s.ll.spdmReply.length (if off + b.length = s.ll.spdmReply.length then 2 else 0) off b) s) :=
  if_neg (Nat.not_le.2 h)

/-! ## The management session -/

/-- A MAC that matches passes the check, where the secret may be used. -/
theorem authAnswer_passes {x : Nat × State} (hcheck : x.1 = stOk) (hmac : authMac x.2 c = argBytes c.req 32 48) :
    authAnswer c x = authPasses c (slotAt x.2 1031).key (argBytes c.req 0 32) x.2 :=
  (if_neg (not_not_intro hcheck)).trans (if_pos hmac)

/-- The session opens, where the secret may be used for the reply too. -/
theorem authPasses_opens {secret nb : Bytes} (hreply : (useSlot 1031 s).1 = stOk) :
    authPasses c secret nb s = (.kept, openSession c secret nb s.ll.mgmtNonce (useSlot 1031 s).2) :=
  if_neg (not_not_intro hreply)

/-- A MGMT_AUTH is checked within the nonce's life, when no lock-out lasts and the flash takes its count. -/
theorem mgmtAuth_checked (hlock : s.ll.mgmtLockEnd ≤ now s) (hbus : s.flash.extAck = false) (hdusk : s.trust.dusk = false)
    (hnonce : nonceLive s = true) : mgmtAuth c s = authAnswer c (useSlot 1031 s) := by
  unfold mgmtAuth
  rw [if_neg (Nat.not_lt.2 hlock), if_neg (by simp [hbus, hdusk]), if_neg (not_not_intro hnonce)]

/-! ## The statement -/

/-- Settles O21: each clause is one of the cases above, served by the mailbox. -/
theorem reportAndSessionRequestsComplete : Obligations.ReportAndSessionRequestsComplete := by
  unfold Obligations.ReportAndSessionRequestsComplete
  refine ⟨?buffer, ?first, ?later, ?collect, ?piece, ?last, ?challenge, ?auth, ?ends⟩
  case buffer =>
    refine repliesOk_served (fun _ _ => rfl) fun c s h => ?_
    simp only [Bool.and_eq_true, Bool.not_eq_true', beq_iff_eq, bne_iff_ne, decide_eq_true_eq] at h
    obtain ⟨⟨⟨⟨⟨hlc, hbox⟩, hdrbg⟩, hfits⟩, hready⟩, hput⟩ := h
    exact reportGet_buffer hlc hbox hdrbg hfits hready hput
  case first =>
    refine repliesOk_served (fun _ _ => rfl) fun c s h => ?_
    simp only [Bool.and_eq_true, beq_iff_eq] at h
    obtain ⟨⟨⟨hlc, hbox⟩, hoff⟩, hdrbg⟩ := h
    rw [reportGet_firstPiece hlc hbox hoff hdrbg, reportPiece_held]
    rfl
  case later =>
    refine repliesOk_served (fun _ _ => rfl) fun c s h => ?_
    simp only [Bool.and_eq_true, beq_iff_eq, bne_iff_ne, decide_eq_true_eq] at h
    obtain ⟨⟨⟨⟨⟨hlc, hbox⟩, hoff⟩, hheld⟩, hnonce⟩, hin⟩ := h
    exact reportGet_laterPiece hlc hbox hoff hheld hnonce hin
  case collect =>
    refine repliesOk_served (fun _ _ => rfl) fun c s h => ?_
    simp only [Bool.and_eq_true, beq_iff_eq, decide_eq_true_eq] at h
    obtain ⟨⟨hlen, hflags⟩, hin⟩ := h
    exact (spdmMessage_collects hlen hflags).trans (spdmCollect_within hin)
  case piece =>
    refine repliesOk_served (fun _ _ => rfl) fun c s h => ?_
    simp only [Bool.and_eq_true, Bool.or_eq_true, Bool.not_eq_true', beq_iff_eq, bne_iff_ne, decide_eq_true_eq] at h
    obtain ⟨⟨⟨⟨hmsg, hnonempty⟩, hfollows⟩, hwithin⟩, hmore⟩ := h
    rw [spdmMessage_takes (by simpa using hmsg) ⟨hnonempty, hfollows, hwithin, fun hlast => absurd hlast (ne_true_of_eq_false hmore)⟩,
      if_neg (ne_true_of_eq_false hmore)]
    rfl
  case last =>
    refine repliesOk_served (fun _ _ => rfl) fun c s h => ?_
    simp only [Bool.and_eq_true, Bool.or_eq_true, beq_iff_eq, bne_iff_ne] at h
    obtain ⟨⟨⟨hnonempty, hfollows⟩, hends⟩, hlast⟩ := h
    have hmsg : ¬ (arg c.req 0 2 = 0 ∧ arg c.req 2 1 = 0) := fun hn => by simp [hn.2, bit] at hlast
    rw [spdmMessage_takes hmsg ⟨hnonempty, hfollows, Nat.le_of_eq hends, fun _ => hends⟩, if_pos hlast]
    exact spdmCollect_first (spdmMade_pos _)
  case challenge => exact repliesOk_served (fun _ _ => rfl) fun c s hdrbg => if_neg (not_not_intro hdrbg)
  case auth =>
    refine takes_fused (fun _ _ => rfl) fun c s h => ?_
    simp only [Bool.and_eq_true, Bool.not_eq_true', beq_iff_eq, decide_eq_true_eq] at h
    obtain ⟨⟨⟨⟨⟨⟨hlock, hbus⟩, hdusk⟩, hnonce⟩, hcheck⟩, hreply⟩, hmac⟩ := h
    rw [mgmtAuth_checked hlock hbus hdusk hnonce, authAnswer_passes hcheck hmac, authPasses_opens hreply]
    rfl
  case ends => exact takes_served (fun _ _ => rfl) fun c s _ => rfl

end Sys2Proof.Proofs.Reports
end

section
/-! SUPPORT. What LOCK, START and STOP of an interface do (R253), and the operations of the IDE key port (R254, R480, R481), case by case,
and the statement about them. -/
namespace Sys2Proof.Proofs.Interfaces

open Sys2Proof Sys2Proof.Machine Sys2Proof.Safety Sys2Proof.Laws

variable {p sid op : Nat} {ue : Ue} {o : IdeOp} {r : IdeRequest} {key iv nonce : Bytes} {s : State}

/-! ## TDISP (R253) -/

/-- A settled, unlocked partition whose stream is bound to its function is locked with a fresh nonce. -/
theorem lockInterface_locks (hserved : tsmServed s = true) (hpart : p < 16) (hsettled : partSettled s p = true)
    (hopen : (partAt s p).tdi = .configUnlocked) (hbound : streamBound s p sid = true) (hdrbg : s.ll.drbgRunning = true) :
    lockInterface p sid s =
      emit (.tdispNonce (drbg 32 s).1) (modPart p (fun x => { x with tdi := .configLocked, nonce := (drbg 32 s).1, stream := some sid }) (drbg 32 s).2) := by
  refine (if_neg (not_not_intro hserved)).trans (if_neg ?_)
  rintro (hn | hn | hn | hn | hn)
  · exact Nat.not_le.2 hpart hn
  · exact hn hsettled
  · exact hn hopen
  · exact hn hbound
  · exact hn hdrbg

/-- START with the nonce of the lock, which is not yet used, runs the interface. -/
theorem startInterface_runs (hserved : tsmServed s = true) (hpart : p < 16) (hlocked : (partAt s p).tdi = .configLocked)
    (hfresh : (partAt s p).nonce ≠ []) (hnonce : nonce = (partAt s p).nonce) :
    startInterface p nonce s = emit (.tdispAnswer true) (modPart p (fun x => { x with tdi := .run, nonce := [] }) s) := by
  refine (if_neg (not_not_intro hserved)).trans (if_neg ?_)
  rintro (hn | hn | hn | hn)
  · exact Nat.not_le.2 hpart hn
  · exact hn hlocked
  · exact hfresh hn
  · exact hn hnonce

/-- STOP begins a partition reset, whose end answers. -/
theorem stopInterface_resets (hserved : tsmServed s = true) (hpart : p < 16) (hthere : partExists s p = true)
    (hlocked : (partAt s p).tdi ≠ .configUnlocked) (hsettled : partSettled (stopStream p s) p = true) :
    stopInterface p ue s = settle ue (holdRequest 18 p (.partQuiet p false) [] (beginPartReset p false (stopStream p s))) := by
  have hstands : ¬ (p ≥ 16 ∨ ¬ partExists s p = true ∨ (partAt s p).tdi = .configUnlocked) :=
    not_or.2 ⟨Nat.not_le.2 hpart, not_or.2 ⟨not_not_intro hthere, hlocked⟩⟩
  refine (if_neg (not_not_intro hserved)).trans ((if_neg hstands).trans ?_)
  dsimp only
  rw [if_pos hsettled]

/-! ## The IDE key port (R254, R480, R481) -/

/-- An operation that names a supported stream, with a key and an IV of their lengths where it programs one, goes to the port. -/
theorem ideKm_sends (hserved : tsmServed s = true) (hstream : ideOpOk s o = true) (hkey : op = 0 → key.length = 32 ∧ iv.length = 8) :
    ideKm op o key iv s = ideSend { op := op, which := o, tsm := true, key := key, iv := iv } s := by
  refine (if_neg (not_not_intro hserved)).trans (if_neg ?_)
  rintro (hn | ⟨hprog, hn⟩)
  · exact hn hstream
  · exact hn.elim (· (hkey hprog).1) (· (hkey hprog).2)

theorem ideSend_free (h : s.ide.current = none) : ideSend r s = ideIssue r s := if_neg (by simp [h])

theorem ideSend_waits (h : s.ide.current.isSome = true) : ideSend r s = onIde (fun i => { i with waiting := i.waiting ++ [r] }) s := if_pos h

/-- A free port takes a supported operation at once. -/
theorem ideKm_issues (hfree : ideFree s = true) (hstream : ideOpOk s o = true) (hkey : op = 0 → key.length = 32 ∧ iv.length = 8) :
    ideKm op o key iv s = ideIssue { op := op, which := o, tsm := true, key := key, iv := iv } s := by
  simp only [ideFree, Bool.and_eq_true, Option.isNone_iff_eq_none] at hfree
  exact (ideKm_sends hfree.1 hstream hkey).trans (ideSend_free hfree.2)

/-- The TSM's unacknowledged operation takes effect with its acknowledgement. -/
theorem ideAcked_ack (hcurrent : s.ide.current = some r) (htsm : r.tsm = true) :
    ideAcked .ack s = ideNext (emit (.ideAnswer true) (streamStopped r.which.func (onIde (ideTakes r) s))) := by
  simp only [ideAcked, hcurrent, htsm, if_true]

/-- It fails 10 µs after it went out. -/
theorem ideAcked_timeout (hcurrent : s.ide.current = some r) (htsm : r.tsm = true) (hdue : s.ide.since + 10000 ≤ now s) :
    ideAcked .timeout s = ideNext (emit (.ideAnswer false) s) := by
  simp only [ideAcked, hcurrent, htsm, if_true, if_neg (Nat.not_lt.2 hdue)]

/-! ## The statement -/

/-- Settles O49: each clause is one of the cases above. -/
theorem interfacesComplete : Obligations.InterfacesComplete := by
  unfold Obligations.InterfacesComplete
  refine ⟨?lock, ?start, ?stop, ?prog, ?go, ?goWaits, ?halt, ?ack, ?timeout⟩
  case lock =>
    refine fun p sid => does_served (fun _ => rfl) fun s h => ?_
    simp only [Bool.and_eq_true, beq_iff_eq, decide_eq_true_eq] at h
    obtain ⟨⟨⟨⟨⟨hserved, hpart⟩, hsettled⟩, hopen⟩, hbound⟩, hdrbg⟩ := h
    exact lockInterface_locks hserved hpart hsettled hopen hbound hdrbg
  case start =>
    refine fun p n => does_served (fun _ => rfl) fun s h => ?_
    simp only [Bool.and_eq_true, beq_iff_eq, bne_iff_ne, decide_eq_true_eq] at h
    obtain ⟨⟨⟨⟨hserved, hpart⟩, hlocked⟩, hfresh⟩, hnonce⟩ := h
    exact startInterface_runs hserved hpart hlocked hfresh hnonce
  case stop =>
    refine fun p ue => does_fused (fun _ => rfl) fun s h => ?_
    simp only [Bool.and_eq_true, bne_iff_ne, decide_eq_true_eq] at h
    obtain ⟨⟨⟨⟨hserved, hpart⟩, hthere⟩, hlocked⟩, hsettled⟩ := h
    exact stopInterface_resets hserved hpart hthere hlocked hsettled
  case prog =>
    refine fun o k v => does_fused (fun _ => rfl) fun s h => ?_
    simp only [Bool.and_eq_true, beq_iff_eq] at h
    obtain ⟨⟨⟨hfree, hstream⟩, hkey⟩, hiv⟩ := h
    exact ideKm_issues hfree hstream fun _ => ⟨hkey, hiv⟩
  case go =>
    refine fun o => does_fused (fun _ => rfl) fun s h => ?_
    simp only [Bool.and_eq_true] at h
    exact ideKm_issues h.1 h.2 (absurd · (by decide))
  case goWaits =>
    refine fun o => does_fused (fun _ => rfl) fun s h => ?_
    simp only [Bool.and_eq_true] at h
    obtain ⟨⟨hserved, hstream⟩, hbusy⟩ := h
    exact (ideKm_sends hserved hstream (absurd · (by decide))).trans (ideSend_waits hbusy)
  case halt =>
    refine fun o => does_fused (fun _ => rfl) fun s h => ?_
    simp only [Bool.and_eq_true] at h
    exact ideKm_issues h.1 h.2 (absurd · (by decide))
  case ack =>
    refine fun r => does_fused (fun _ => rfl) fun s h => ?_
    simp only [Bool.and_eq_true, beq_iff_eq] at h
    exact ideAcked_ack h.1 h.2
  case timeout =>
    refine fun r => does_fused (fun _ => rfl) fun s h => ?_
    simp only [Bool.and_eq_true, beq_iff_eq, decide_eq_true_eq] at h
    obtain ⟨⟨hcurrent, htsm⟩, hdue⟩ := h
    exact ideAcked_timeout hcurrent htsm hdue

end Sys2Proof.Proofs.Interfaces
end

section
/-! SUPPORT. What the partition, PASID and context requests by mailbox answer (R260, R261, R264, R265, R267, R268, R355), case by case, and
the statement about them. -/
namespace Sys2Proof.Proofs.Partitions

open Sys2Proof Sys2Proof.Machine Sys2Proof.Safety Sys2Proof.Laws

variable {c : Call} {s : State}

/-! ## PARTITION_CREATE (R260, R261, R355) -/

theorem ownerIndex_manager : ownerIndex 0xFE = 16 := if_pos rfl

theorem ownerIndex_partition {n : Nat} (h : n < 16) : ownerIndex n = n := if_neg (by omega)

/-- Owner `p` ACTIVE with the requested definition, and its capacity lines initialised. -/
abbrev carvedOut (c : Call) (p : Nat) (s : State) : State :=
  initCarveout c.ue p (setPart p { state := .active, definition := argBytes c.req 0 240 } s)

/-- A definition that the block admits makes its owner; a partition draws a seed, the manager does not. -/
theorem partitionCreate_creates (h : createOk c s = true) :
    partitionCreate c s = accept (created (arg c.req 1 1) 0)
      (if ownerIndex (arg c.req 1 1) < 16 then drawSeed (ownerIndex (arg c.req 1 1)) 0 (carvedOut c (ownerIndex (arg c.req 1 1)) s)
        else carvedOut c (ownerIndex (arg c.req 1 1)) s) := by
  simp only [createOk, Bool.and_eq_true, Bool.or_eq_true, Bool.not_eq_true', beq_iff_eq, decide_eq_true_eq] at h
  obtain ⟨⟨⟨⟨⟨⟨⟨⟨⟨hlc, hver⟩, hnumber⟩, hfresh⟩, hmanager⟩, hfields⟩, hmeets⟩, hbusy⟩, hadmitted⟩, hdrbg⟩ := h
  have hinBuild : ¬ (arg c.req 1 1 ≠ 0xFE ∧ arg c.req 1 1 ≥ s.build.parts) := fun hn => hnumber.elim hn.1 (Nat.not_lt.2 hn.2)
  have hafterManager : ¬ (ownerIndex (arg c.req 1 1) ≠ 16 ∧ ¬ partExists s 16 = true) := fun hn =>
    hmanager.elim (fun he => hn.1 (he ▸ ownerIndex_manager)) hn.2
  have hdisjoint : ¬ (¬ partFieldsOk s c.req = true ∨ partMeets s c.req = true) := not_or.2 ⟨not_not_intro hfields, ne_true_of_eq_false hmeets⟩
  have hentropy : ¬ (ownerIndex (arg c.req 1 1) < 16 ∧ ¬ s.ll.drbgRunning = true) := fun hn =>
    hdrbg.elim (fun he => absurd hn.1 (by simp [he, ownerIndex_manager])) hn.2
  unfold partitionCreate pq
  rw [if_neg (not_not_intro hlc), if_neg (not_not_intro hver), if_neg hinBuild, if_neg (ne_true_of_eq_false hfresh), if_neg hafterManager,
    if_neg hdisjoint, if_neg (ne_true_of_eq_false hbusy), if_neg (not_not_intro hadmitted), if_neg hentropy]

/-! ## PARTITION_DESTROY and PARTITION_RESET (R264, R265) -/

theorem partitionDestroy_begins (hpart : arg c.req 0 1 ≤ 15) (hthere : partExists s (arg c.req 0 1) = true)
    (hopen : (partAt s (arg c.req 0 1)).tdi = .configUnlocked) (hsettled : partSettled s (arg c.req 0 1) = true) :
    partitionDestroy c s = (.wait (.partQuiet (arg c.req 0 1) true) [], beginPartReset (arg c.req 0 1) true s) := by
  unfold partitionDestroy
  rw [if_neg (not_or.2 ⟨Nat.not_lt.2 hpart, not_not_intro hthere⟩), if_neg (not_not_intro hopen), if_neg (not_not_intro hsettled)]

/-- The partition that PARTITION_RESET is about: the requester's own, or the one that the manager names. -/
abbrev resetTarget (c : Call) : Nat := if c.mb < 16 then c.mb else arg c.req 0 1

/-- A partition asks for its own reset with 0xFF. -/
theorem partitionReset_begins (hnamed : if c.mb < 16 then arg c.req 0 1 = 0xFF else arg c.req 0 1 ≤ 15)
    (hthere : partExists s (resetTarget c) = true) (hsettled : partSettled s (resetTarget c) = true) :
    partitionReset c s = (.wait (.partQuiet (resetTarget c) false) [], beginPartReset (resetTarget c) false s) := by
  have hself : ¬ (c.mb < 16 ∧ arg c.req 0 1 ≠ 0xFF) := fun hn => hn.2 ((if_pos hn.1).mp hnamed)
  have hother : ¬ (c.mb = 16 ∧ arg c.req 0 1 > 15) := by
    rintro ⟨hmb, hbig⟩
    rw [if_neg (by omega)] at hnamed
    omega
  unfold partitionReset
  rw [if_neg (not_or.2 ⟨hself, not_or.2 ⟨hother, not_not_intro hthere⟩⟩), if_neg (not_not_intro hsettled)]

/-! ## PASID entries (R267) -/

/-- The refusal of both requests, that a named queue still holds work, does not apply. -/
theorem not_any_busy {qs : List Queue} (h : qs.all queueEmpty = true) : ¬ qs.any (fun q => !queueEmpty q) = true := by
  simpa using h

theorem pasidBind_binds {k : Nat} (hver : arg c.req 0 1 = 1) (hfits : bindOk s (arg c.req 1 1) (arg c.req 4 4 % 2 ^ 20) (arg c.req 8 8) = true)
    (hopen : partOpen s (arg c.req 1 1) = true) (hroom : (entriesOf s (arg c.req 1 1)).length < pdef s (arg c.req 1 1) 24 2)
    (hempty : (maskQueues s (arg c.req 1 1) (arg c.req 8 8)).all queueEmpty = true)
    (hfree : tfind {} s.parts.pasids 1024 (fun e => !e.bound) = some k) :
    pasidBind c s = accept (created k 0)
      (setPasid k { bound := true, part := arg c.req 1 1, pasid := arg c.req 4 4 % 2 ^ 20, mask := BitVec.ofNat 64 (arg c.req 8 8) } s) := by
  simp only [pasidBind, hfree]
  rw [if_neg (not_not_intro hver), if_neg (not_not_intro hfits), if_neg (not_not_intro hopen),
    if_neg (not_or.2 ⟨Nat.not_le.2 hroom, not_any_busy hempty⟩)]

theorem pasidUnbind_frees (hslot : arg c.req 0 2 < 1024) (hbound : (pasidAt s (arg c.req 0 2)).bound = true)
    (hopen : partOpen s (pasidAt s (arg c.req 0 2)).part = true)
    (hempty : (maskQueues s (pasidAt s (arg c.req 0 2)).part (pasidAt s (arg c.req 0 2)).mask.toNat).all queueEmpty = true) :
    pasidUnbind c s = accept [] (setPasid (arg c.req 0 2) {} s) := by
  unfold pasidUnbind
  rw [if_neg (not_or.2 ⟨Nat.not_le.2 hslot, not_not_intro hbound⟩), if_neg (not_not_intro hopen), if_neg (not_any_busy hempty)]

/-! ## The statement -/

/-- Settles O9: each clause is one of the operation's cases above, served by the mailbox. The lowest free slot of PASID_BIND is the model's
choice (notes/assumptions/20.md). -/
theorem partitionRequestsComplete : Obligations.PartitionRequestsComplete := by
  unfold Obligations.PartitionRequestsComplete
  refine ⟨?create, ?createManager, ?destroy, ?reset, ?bind, ?unbind, ?query⟩
  case create =>
    refine repliesOk_served (fun _ _ => rfl) fun c s h => ?_
    simp only [Bool.and_eq_true, decide_eq_true_eq] at h
    obtain ⟨hok, hpart⟩ := h
    rw [partitionCreate_creates hok, ownerIndex_partition hpart, if_pos hpart]
    rfl
  case createManager =>
    refine repliesOk_served (fun _ _ => rfl) fun c s h => ?_
    simp only [Bool.and_eq_true, beq_iff_eq] at h
    obtain ⟨hok, hmanager⟩ := h
    rw [partitionCreate_creates hok, hmanager, ownerIndex_manager, if_neg (Nat.lt_irrefl 16)]
    rfl
  case destroy =>
    refine repliesLater_served (fun _ _ => rfl) fun c s h => ?_
    simp only [Bool.and_eq_true, decide_eq_true_eq] at h
    obtain ⟨⟨⟨hpart, hthere⟩, hopen⟩, hsettled⟩ := h
    exact partitionDestroy_begins hpart hthere (beq_iff_eq.1 hopen) hsettled
  case reset =>
    refine repliesLater_served (fun _ _ => rfl) fun c s h => ?_
    simp only [Bool.and_eq_true] at h
    obtain ⟨⟨hnamed, hthere⟩, hsettled⟩ := h
    exact partitionReset_begins (by simpa [apply_ite (· = true)] using hnamed) hthere hsettled
  case bind =>
    intro k
    refine repliesOk_served (fun _ _ => rfl) fun c s h => ?_
    simp only [Bool.and_eq_true, beq_iff_eq, decide_eq_true_eq] at h
    obtain ⟨⟨⟨⟨⟨hver, hfits⟩, hopen⟩, hroom⟩, hempty⟩, hfree⟩ := h
    exact pasidBind_binds hver hfits hopen hroom hempty hfree
  case unbind =>
    refine repliesOk_served (fun _ _ => rfl) fun c s h => ?_
    simp only [Bool.and_eq_true, decide_eq_true_eq] at h
    obtain ⟨⟨⟨hslot, hbound⟩, hopen⟩, hempty⟩ := h
    exact pasidUnbind_frees hslot hbound hopen hempty
  case query => exact repliesOk_served (fun _ _ => rfl) fun c s hmay => if_neg (not_not_intro hmay)

end Sys2Proof.Proofs.Partitions
end

section
/-! SUPPORT. What the object and fence requests by mailbox answer (R271, R272, R275, R277 to R279, R281 to R283), case by case, and the
statement about them. -/
namespace Sys2Proof.Proofs.Objects

open Sys2Proof Sys2Proof.Machine Sys2Proof.Safety Sys2Proof.Laws

variable {c : Call} {s : State} {k : Nat}

/-! ## Objects (R271, R272, R275) -/

theorem objectCreate_creates {base : Nat} (hver : arg c.req 0 1 = 1) (hfields : objFieldsOk s c.mb c.req = true)
    (hroom : objsHeld s c.mb < pdef s c.mb 16 2) (hplace : objPlace s c.mb c.req = some base) (hfree : freeObjSlot s = some k)
    (hwait : fillWaits s c.req base = false) (hfill : (fillObject c.ue c.mb c.req base s).1 = stOk) :
    objectCreate c s = accept (created (objHandleOf (installObj k c.mb c.req base (fillObject c.ue c.mb c.req base s).2) k) base)
      (installObj k c.mb c.req base (fillObject c.ue c.mb c.req base s).2) := by
  simp only [objectCreate, hplace, hfree]
  rw [if_neg (not_not_intro hver), if_neg (not_not_intro hfields), if_neg (Nat.not_le.2 hroom), if_neg (ne_true_of_eq_false hwait),
    if_neg (not_not_intro hfill)]

theorem objectFree_frees (hhandle : objHandle s c.mb (arg c.req 0 4) = .ok k) (hbound : (objAt s k).bindings = 0) :
    objectFree c s = accept [] (freeObj k (stopBuffersIn k s)) := by
  simp only [objectFree, hhandle]
  exact if_neg (not_not_intro hbound)

/-! ## Fences (R277 to R279, R281) -/

theorem fenceCreate_creates {o : Option Nat} (halign : arg c.req 8 8 % 8 = 0) (hctx : ctxOk s c.mb (arg c.req 20 2) = true)
    (hvalue : arg c.req 0 8 < 2 ^ 63) (hword : wordPlace s c.mb c.req = .ok o) (hroom : fencesHeld s c.mb < pdef s c.mb 18 2)
    (hfree : tfind {} s.parts.fences 2048 (fun f => f.state == .free) = some k) (hopen : wordsOpen s = true)
    (hready : (o.isSome && rangeWaits s true (arg c.req 8 8) 8) = false) :
    fenceCreate c s = accept (created (fenceHandleOf (newFence c k o s) k) 0) (newFence c k o s) := by
  have hvalid : ¬ (arg c.req 8 8 % 8 ≠ 0 ∨ ¬ ctxOk s c.mb (arg c.req 20 2) = true) := not_or.2 ⟨not_not_intro halign, not_not_intro hctx⟩
  have hwrites : ¬ (¬ wordsOpen s = true ∨ (o.isSome = true ∧ rangeWaits s true (arg c.req 8 8) 8 = true)) :=
    not_or.2 ⟨not_not_intro hopen, by simpa using hready⟩
  simp only [fenceCreate, hword, hfree]
  rw [if_neg hvalid, if_neg (Nat.not_le.2 hvalue), if_neg (Nat.not_le.2 hroom), if_neg hwrites]
  cases o <;> rfl

theorem fenceFree_frees (hhandle : fenceHandle s c.mb (arg c.req 0 4) = .ok k) (hready : wordWaits s k = false) :
    fenceFree c s = accept [] (freeFence c.ue k s) := by
  simp only [fenceFree, hhandle]
  exact if_neg (ne_true_of_eq_false hready)

theorem fenceSignal_signals (hhandle : fenceHandle s c.mb (arg c.req 0 4) = .ok k) (hvalue : arg c.req 8 8 < 2 ^ 63) :
    fenceSignal c s = accept (fencePayload (fenceEvent c.ue k (.signal (arg c.req 8 8)) s) k) (fenceEvent c.ue k (.signal (arg c.req 8 8)) s) := by
  simp only [fenceSignal, hhandle]
  exact if_neg (Nat.not_le.2 hvalue)

theorem fenceQuery_describes (hhandle : fenceHandle s c.mb (arg c.req 0 4) = .ok k) : fenceQuery c s = accept (fencePayload s k) s := by
  simp only [fenceQuery, hhandle]

/-! ## Waiting on a fence (R282, R283) -/

/-- A wait without a deadline on an ACTIVE fence of its generation that holds no error has ended exactly when the value has reached the
target. -/
theorem waitOutcome_active {target : Word64} {late : Bool} (hactive : (fenceAt s k).state = .active) (hsound : (fenceAt s k).value.msb = false) :
    waitOutcome s late k (fenceAt s k).gen target 0 = if target.toNat ≤ (fenceAt s k).value.toNat then some stOk else none := by
  simp [waitOutcome, hactive, hsound]

/-- What FENCE_WAIT asks of a request before it looks at the fence's value: a target, and a deadline within ten seconds. -/
structure WaitAsked (c : Call) (s : State) (k : Nat) : Prop where
  handle : fenceHandle s c.mb (arg c.req 0 4) = .ok k
  target : arg c.req 8 8 < 2 ^ 63
  deadline : arg c.req 16 8 ≠ 0 ∧ arg c.req 16 8 ≤ now s + 10000000000
  active : (fenceAt s k).state = .active
  sound : (fenceAt s k).value.msb = false

/-- A wait in order ends at once where the fence's value has reached the target. -/
theorem fenceWait_asked (h : WaitAsked c s k) :
    fenceWait c s = if arg c.req 8 8 ≤ (fenceAt s k).value.toNat then accept (fencePayload s k) s
      else (.wait (.fence k (fenceAt s k).gen (BitVec.ofNat 64 (arg c.req 8 8)) (arg c.req 16 8)) [], s) := by
  obtain ⟨hhandle, htarget, hdeadline, hactive, hsound⟩ := h
  have hexact : (BitVec.ofNat 64 (arg c.req 8 8)).toNat = arg c.req 8 8 := Nat.mod_eq_of_lt (by omega)
  have htime : ¬ (arg c.req 16 8 = 0 ∨ arg c.req 16 8 > now s + 10000000000) := not_or.2 ⟨hdeadline.1, Nat.not_lt.2 hdeadline.2⟩
  simp only [fenceWait, hhandle, waitOutcome_active hactive hsound, hexact]
  rw [if_neg (Nat.not_le.2 htarget), if_neg htime]
  by_cases hreached : arg c.req 8 8 ≤ (fenceAt s k).value.toNat
  · simp only [if_pos hreached, accept]
  · simp only [if_neg hreached]

/-! ## The statement -/

/-- Settles O10: each clause is one of the operation's cases above, served by the mailbox. The lowest FREE slot of an object and of a fence is
the model's choice (notes/assumptions/20.md). -/
theorem objectAndFenceRequestsComplete : Obligations.ObjectAndFenceRequestsComplete := by
  unfold Obligations.ObjectAndFenceRequestsComplete
  refine ⟨?objectCreate, ?objectFree, ?fenceCreate, ?fenceFree, ?fenceSignal, ?fenceQuery, ?waitEnds, ?waitHolds⟩
  case objectCreate =>
    intro base k
    refine repliesOk_served (fun _ _ => rfl) fun c s h => ?_
    simp only [Bool.and_eq_true, Bool.not_eq_true', beq_iff_eq, decide_eq_true_eq] at h
    obtain ⟨⟨⟨⟨⟨⟨hver, hfields⟩, hroom⟩, hplace⟩, hfree⟩, hwait⟩, hfill⟩ := h
    exact objectCreate_creates hver hfields hroom hplace hfree hwait hfill
  case objectFree =>
    intro k
    refine repliesOk_served (fun _ _ => rfl) fun c s h => ?_
    simp only [Bool.and_eq_true, beq_iff_eq] at h
    exact objectFree_frees (gives_eq h.1) h.2
  case fenceCreate =>
    intro k o
    refine repliesOk_served (fun _ _ => rfl) fun c s h => ?_
    simp only [Bool.and_eq_true, Bool.not_eq_true', beq_iff_eq, decide_eq_true_eq] at h
    obtain ⟨⟨⟨⟨⟨⟨⟨halign, hctx⟩, hvalue⟩, hword⟩, hroom⟩, hfree⟩, hopen⟩, hready⟩ := h
    exact fenceCreate_creates halign hctx hvalue (gives_eq hword) hroom hfree hopen hready
  case fenceFree =>
    intro k
    refine repliesOk_served (fun _ _ => rfl) fun c s h => ?_
    simp only [Bool.and_eq_true, Bool.not_eq_true'] at h
    exact fenceFree_frees (gives_eq h.1) h.2
  case fenceSignal =>
    intro k
    refine repliesOk_served (fun _ _ => rfl) fun c s h => ?_
    simp only [Bool.and_eq_true, decide_eq_true_eq] at h
    exact fenceSignal_signals (gives_eq h.1) h.2
  case fenceQuery => exact fun k => repliesOk_served (fun _ _ => rfl) fun _ _ h => fenceQuery_describes (gives_eq h)
  case waitEnds =>
    intro k
    refine repliesOk_served (fun _ _ => rfl) fun c s h => ?_
    simp only [Bool.and_eq_true, Bool.not_eq_true', beq_iff_eq, decide_eq_true_eq] at h
    obtain ⟨⟨⟨⟨⟨hhandle, htarget⟩, hdeadline⟩, hactive⟩, hsound⟩, hreached⟩ := h
    exact (fenceWait_asked ⟨gives_eq hhandle, htarget, hdeadline, hactive, hsound⟩).trans (if_pos hreached)
  case waitHolds =>
    intro k
    refine repliesLater_served (fun _ _ => rfl) fun c s h => ?_
    simp only [Bool.and_eq_true, Bool.not_eq_true', beq_iff_eq, decide_eq_true_eq] at h
    obtain ⟨⟨⟨⟨⟨hhandle, htarget⟩, hdeadline⟩, hactive⟩, hsound⟩, hbelow⟩ := h
    exact (fenceWait_asked ⟨gives_eq hhandle, htarget, hdeadline, hactive, hsound⟩).trans (if_neg (Nat.not_le.2 hbelow))

end Sys2Proof.Proofs.Objects
end

section
/-! SUPPORT. What a doorbell (R290, R291) leaves of the counts of every ring, and the statement about them. -/
namespace Sys2Proof.Proofs.Doorbells

open Sys2Proof Sys2Proof.Machine

variable {s t : State}

/-! ## The counts of the rings, and what leaves them alone -/

/-- HEAD, TAIL and SIZE of every ring. -/
def ringCounts (s : State) := fun k => ((queueAt s k).head, (queueAt s k).tail, (queueAt s k).log2)

/-- A choice between two states that both leave the counts alone leaves them alone. -/
theorem ringCounts_ite {u : State} {p : Prop} [Decidable p] (ht : ringCounts t = ringCounts s) (hu : ringCounts u = ringCounts s) :
    ringCounts (if p then t else u) = ringCounts s := by
  split
  · exact ht
  · exact hu

/-- A queue that keeps its own counts keeps those of all. -/
theorem ringCounts_modQueue {k : Nat} {f : Queue → Queue}
    (hf : ((f (queueAt s k)).head, (f (queueAt s k)).tail, (f (queueAt s k)).log2) = ((queueAt s k).head, (queueAt s k).tail, (queueAt s k).log2)) :
    ringCounts (modQueue k f s) = ringCounts s := by
  funext j
  unfold ringCounts
  rw [queueAt_modQueue]
  split
  next hj => rw [hf, hj]
  next => rfl

theorem ringCounts_seamSend (e : Bool) (c : Nat) (b : SeamBody) (s : State) : ringCounts (seamSend e c b s) = ringCounts s :=
  ringCounts_ite rfl rfl

theorem ringCounts_postEvent (mb code : Nat) (a : Bytes) (s : State) : ringCounts (postEvent mb code a s) = ringCounts s :=
  ringCounts_ite rfl (ringCounts_ite rfl (ringCounts_ite rfl rfl))

/-! ## Recording a fault (R372 to R378) -/

theorem ringCounts_faultEvents (r : FaultRec) (s : State) : ringCounts (faultEvents r s) = ringCounts s := by
  refine ringCounts_ite rfl (ringCounts_ite ?_ (ringCounts_postEvent ..))
  exact (ringCounts_postEvent ..).trans (ringCounts_postEvent ..)

theorem ringCounts_storeRecord (r : FaultRec) (s : State) : ringCounts (storeRecord r s) = ringCounts s := by
  unfold storeRecord
  dsimp only
  split
  next => rfl
  next => exact (ringCounts_faultEvents ..).trans (ringCounts_ite rfl rfl)

theorem ringCounts_eastRecord (r : FaultRec) (s : State) : ringCounts (eastRecord r s) = ringCounts s := by
  refine ringCounts_ite (ringCounts_seamSend ..) (ringCounts_ite rfl ?_)
  dsimp only
  split <;> rfl

theorem ringCounts_failPilot (pi st : Nat) (s : State) : ringCounts (failPilot pi st s) = ringCounts s :=
  ringCounts_ite rfl (ringCounts_ite rfl rfl)

/-- A queue that stops keeps what stands in its ring (R302). -/
theorem ringCounts_stopOwner (p : Nat) (s : State) : ringCounts (stopOwner p s) = ringCounts s := by
  have hqueue : ∀ (s : State) (k : Nat), ringCounts (modQueue k (fun q => if q.inflight = [] ∧ q.undispatched = [] then
      { q with state := if q.state = .active then .stopped else q.state } else q.stop stResetLost 0) s) = ringCounts s :=
    fun s k => ringCounts_modQueue (by split <;> rfl)
  exact (foldl_view ringCounts _ (fun s k => ringCounts_failPilot k _ s) _ _).trans (foldl_view ringCounts _ hqueue _ _)

theorem ringCounts_haltPartition (p : Nat) (s : State) : ringCounts (haltPartition p s) = ringCounts s := by
  refine ringCounts_ite rfl ?_
  exact (ringCounts_postEvent ..).trans ((ringCounts_postEvent ..).trans (ringCounts_stopOwner p (modPart p _ (tdiError p s))))

theorem ringCounts_stopManager (s : State) : ringCounts (stopManager s) = ringCounts s :=
  foldl_view ringCounts _ (fun _ _ => ringCounts_modQueue rfl) _ _

theorem ringCounts_faultAction (r : FaultRec) (s : State) : ringCounts (faultAction r s) = ringCounts s := by
  unfold faultAction
  split
  next => exact ringCounts_ite (ringCounts_haltPartition ..) (ringCounts_ite (ringCounts_stopManager s) rfl)
  next => rfl
  next => exact ringCounts_ite rfl rfl
  next => rfl
  next => rfl

/-- A fault leaves the counts of every ring alone. -/
theorem ringCounts_recordFault (a : FaultArg) (s : State) : ringCounts (recordFault a s) = ringCounts s := by
  have hstored : ∀ (r : FaultRec) (u : State) (east : Bool), ringCounts (if east then eastRecord r u else storeRecord r u) = ringCounts u :=
    fun r u _ => ringCounts_ite (ringCounts_eastRecord r u) (ringCounts_storeRecord r u)
  unfold recordFault
  cases a.err <;> exact (ringCounts_faultAction ..).trans ((hstored ..).trans (ringCounts_ite rfl rfl))

/-! ## A doorbell (R291) -/

/-- A doorbell leaves the counts of every ring alone, or its value is accepted and becomes TAIL of its queue. -/
theorem ringDoorbell_cases (p n : Nat) (t : Word32) (s : State) : ringCounts (ringDoorbell p n t s) = ringCounts s ∨
    ∃ qi, doorbellOk (queueAt s qi) t = true ∧ ringDoorbell p n t s = setQueue qi { queueAt s qi with tail := t, rung := true } s := by
  unfold ringDoorbell
  cases queueNamed s p n with
  | none => exact .inl rfl
  | some qi =>
    dsimp only
    split
    next => exact .inl rfl
    next =>
      split
      next => exact .inl rfl
      next =>
        split
        next => exact .inl rfl
        next =>
          split
          next hok => exact .inr ⟨qi, hok, rfl⟩
          next => exact .inl (ringCounts_recordFault ..)

theorem doorbellOk_iff {q : Queue} {v : Word32} :
    doorbellOk q v = true ↔ countDiff v q.head ≤ 2 ^ q.log2 ∧ countDiff v q.tail < 2 ^ 31 := by
  simp [doorbellOk]

/-- The counts of one ring, where those of all stand. -/
theorem ringCounts_at (h : ringCounts t = ringCounts s) (k : Nat) :
    (queueAt t k).head = (queueAt s k).head ∧ (queueAt t k).tail = (queueAt s k).tail ∧ (queueAt t k).log2 = (queueAt s k).log2 := by
  simpa [ringCounts] using congrFun h k

/-- What a doorbell makes of one ring: HEAD and SIZE stand, and TAIL stands or is the value written, which the ring admits. -/
theorem ringDoorbell_ring (p n : Nat) (t : Word32) (s : State) (k : Nat) :
    (queueAt (ringDoorbell p n t s) k).head = (queueAt s k).head ∧ (queueAt (ringDoorbell p n t s) k).log2 = (queueAt s k).log2 ∧
      ((queueAt (ringDoorbell p n t s) k).tail = (queueAt s k).tail ∨
        ((queueAt (ringDoorbell p n t s) k).tail = t ∧ doorbellOk (queueAt s k) t = true)) := by
  obtain hsame | ⟨qi, hok, hset⟩ := ringDoorbell_cases p n t s
  · obtain ⟨hhead, htail, hsize⟩ := ringCounts_at hsame k
    exact ⟨hhead, hsize, .inl htail⟩
  · rw [hset, queueAt_setQueue]
    split
    next hk =>
      subst hk
      exact ⟨rfl, rfl, .inr ⟨rfl, hok⟩⟩
    next => exact ⟨rfl, rfl, .inl rfl⟩

/-- Settles O56: each ring keeps its counts, or takes a TAIL that its own test admits (`ringDoorbell_ring`). -/
theorem doorbellsKeepRingsInSize : Obligations.DoorbellsKeepRingsInSize := by
  unfold Obligations.DoorbellsKeepRingsInSize
  intro p n t s
  refine ⟨fun hfit k => ?fits, fun k => ?tail, fun k => (ringDoorbell_ring p n t s k).1⟩
  case fits =>
    obtain ⟨hhead, hsize, htail | ⟨htail, hok⟩⟩ := ringDoorbell_ring p n t s k
    · rw [hhead, hsize, htail]
      exact hfit k
    · rw [hhead, hsize, htail]
      exact (doorbellOk_iff.1 hok).1
  case tail =>
    obtain ⟨-, -, htail | ⟨htail, hok⟩⟩ := ringDoorbell_ring p n t s k
    · exact .inl htail
    · exact .inr ⟨htail, (doorbellOk_iff.1 hok).symm⟩

end Sys2Proof.Proofs.Doorbells
end

section
/-! SUPPORT. A PILOT_START whose program pins a placement table that is loading (R87, R173), and the refutation of the statement about queue and
pilot requests. -/
namespace Sys2Proof.Proofs.Pilots

open Sys2Proof Sys2Proof.Machine Sys2Proof.Safety Sys2Proof.Laws

/-! ## A request that is left for later -/

/-- An admitted request whose operation leaves it for later stands in its slot as it was. -/
theorem serve_later {s u : State} {op sub : Nat} {r : MbReq} {f : Call → State → Answer × State} (h : admitted s op sub r = true)
    (hf : f (callOf r s) (begun r s) = (.later, u)) : serve op sub f r s = s := by
  obtain ⟨-, hstart, hprologue⟩ := admitted_run h
  unfold callOf begun at hf
  simp [serve, hstart, hprologue, hf]

/-- A pilot's program that pins a table which is loading starts nothing (R87). -/
theorem pilotChecked_later {c : Call} {pi ring : Nat} {a : TaskAsk} {s : State} {x : Fetched × State} {objs : List Nat}
    (hobjs : resolveObjs x.2 c.owner x.1.objs = .ok objs) (hstatus : taskStatus x.2 a x.1 = stOk)
    (hloading : (progPins x.2 (progOf a x.1 (maskLanterns x.2 a.mask).length)).any (fun k => tableLoading x.2 k.1 k.2) = true) :
    pilotChecked c pi ring a s x = (.later, s) := by
  simp only [pilotChecked, hobjs]
  rw [if_neg (not_not_intro hstatus), if_pos (.inr hloading)]

/-- A PILOT_START that finds its number, its ring's object and its wicks reads its program, which is then checked (R308). -/
theorem pilotStart_fetches {c : Call} {s : State} {pi ring : Nat} (hring : pilotRingObj s c.owner c.req = .ok ring)
    (hroom : (pilotsOf s c.owner).length < pdef s c.owner 6 1) (hfree : tfind {} s.fe.pilots 64 (fun x => x.state == .absent) = some pi)
    (hprog : rangeWaits s false (pilotAsk c.owner pi c.req).prog 64 = false)
    (hargs : rangeWaits s false (pilotAsk c.owner pi c.req).argsAddr 368 = false)
    (hset : setOk s c.owner (pilotAsk c.owner pi c.req).mask (pilotAsk c.owner pi c.req).w = true) :
    pilotStart c s = pilotChecked c pi ring (pilotAsk c.owner pi c.req) s (fetchProgram c.ue (pilotAsk c.owner pi c.req) s) := by
  have hready : ¬ (rangeWaits s false (pilotAsk c.owner pi c.req).prog 64 = true ∨
      rangeWaits s false (pilotAsk c.owner pi c.req).argsAddr 368 = true) :=
    not_or.2 ⟨ne_true_of_eq_false hprog, ne_true_of_eq_false hargs⟩
  simp only [pilotStart, hring, if_neg (Nat.not_le.2 hroom), hfree, pilotFetch, if_neg hready, if_neg (not_not_intro hset)]

/-! ## The counterexample -/

/-- The manager may have one pilot, one context, a carve-out of 2 MiB in the interleaved window, and 2 KiB of sheets and one wick in lantern 0
(R260). -/
def managerDefinition : Bytes := put (put (put (put (put (zeros 240) 6 (le 1 1)) 14 (le 2 1)) 36 (le 4 1)) 56 (le 2 2)) 64 (le 1 1)

/-- A block in Mission of two lanterns, lantern 0 of them ready, that serves its mailboxes. The manager has fence 0, object 0 and routing group
15, which goes by placement table 7; the table is loaded, and a TABLE_LOAD that waits for East is loading it anew. -/
def reloading : State :=
  setPlacement 7 { loaded := true, owner := 16 } (setGroup 15 { live := true, owner := 16, placement := 7 }
    (setFence 0 { state := .active, owner := 16 } (setObj 0 { state := .live, owner := 16, length := 0x200000 }
      (setPart 16 { state := .active, definition := managerDefinition }
        { State.reset with
          build := { lanterns := 2, wicks := 16, spares := 0, links := 2, caps := 2, parts := 4 }
          trust := { pwrOk := true, shadow := [1] }
          ll := { ready := true }
          path := { lanterns := [(0, { ready := true })] }
          boxes := { homeGib := 1, waiting := [⟨16, 1, .eastFetch 1 3 7 1, []⟩] } }))))

/-- A program of two descriptors and eight arguments for one lantern: an EXPERT_SEND by routing group 15 out of a sheet of 2,048 B (R175), and
END. -/
def sendProgram : Bytes :=
  fit 64 ([1#8, 0#8] ++ le 2 2 ++ [8#8] ++ zeros 3 ++ le 2 8) ++
    fit 32 ([1#8, 0x29#8, 0#8, 0#8] ++ le 4 0x3000000 ++ le 4 0x3000000 ++ le 4 0x3000000 ++ [0#8, 0#8, 15#8, 0#8, 0#8, 0#8] ++ le 2 64 ++ le 2 64 ++
      le 2 0 ++ le 4 1) ++
    fit 32 [1#8, 1#8]

/-- A PILOT_START of pilot 63 on the program at 0x100 and the arguments at 0x180, with fence 0 and a ring in object 0 (R308). -/
def startRequest : Bytes :=
  fit 256 ([1#8, 3#8] ++ le 2 0x0128 ++ le 2 0 ++ le 2 64 ++ zeros 8 ++ [63#8, 1#8] ++ le 2 1 ++ le 2 0 ++ [4#8, 0#8] ++
    le 8 (reqAddr 0xFFF 0x100) ++ le 8 (reqAddr 0xFFF 0x180) ++ le 4 0x10000 ++ le 4 0x10000 ++ le 8 0 ++ le 8 0x1000)

/-- The program stands in memory, in the clear, and the request in slot 0 of the manager's mailbox. -/
def pinning : State :=
  modBox 16 (fun b => { b with major := 1, minor := 3, slots := [(0, { state := .pending, request := startRequest })] })
    (memWrite { part := 16 } {} (reqAddr 0xFFF 0x100) (fit 256 sendProgram) reloading).2

/-- The request by its slot. -/
def pinningSlot : MbReq := ⟨16, 0, {}⟩

/-- The request as its operation has it, the state it starts from, and the program it reads there. -/
def pinningCall : Call := callOf pinningSlot pinning
def pinningStart : State := begun pinningSlot pinning
def pinningFetch : Fetched × State := fetchProgram {} (pilotAsk 16 0 pinningCall.req) pinningStart

/-- It finds its number, its ring's object and its wicks. -/
theorem pinning_fetches : pilotStart pinningCall pinningStart =
    pilotChecked pinningCall 0 0 (pilotAsk 16 0 pinningCall.req) pinningStart pinningFetch :=
  pilotStart_fetches (gives_eq (by decide +kernel)) (by decide +kernel) (by decide +kernel) (by decide +kernel) (by decide +kernel) (by decide +kernel)

/-- Its program passes the checks, and pins the placement table that is loading: the request waits as it was. -/
theorem pinning_later : exec (.pilotStart pinningSlot) pinning = .next (served pinning pinning) := by
  have hadmitted : admitted pinning 0x0128 0 pinningSlot = true := by decide +kernel
  have hchecked : pilotStart pinningCall pinningStart = (.later, pinningStart) :=
    pinning_fetches.trans (pilotChecked_later (objs := []) (gives_eq (by decide +kernel)) (by decide +kernel) (by decide +kernel))
  exact (whenServing_next _ (admitted_run hadmitted).1).trans
    (congrArg (fun t => Host.Outcome.next (served pinning t)) (serve_later hadmitted hchecked))

/-- A pilot that has its wicks and sheets and stands WAITING, its objects held (R308). -/
abbrev startedPilot (c : Call) (pi ring : Nat) (objs : List Nat) (s : State) : State :=
  let a := pilotAsk c.owner pi c.req
  let f := fetchProgram c.ue a s
  let t := prepareTask a f.1 f.2
  holdObjs objs (bindObj ring (setPilot pi
    { state := .waiting, part := c.owner, n := arg c.req 0 1, ctx := arg c.req 4 2, fence := arg c.req 24 4, v0 := arg c.req 32 8
      ring := BitVec.ofNat 64 (arg c.req 40 8), ringObj := ring, log2 := arg c.req 6 1, task := t.1, objs := objs } (allotTask a t.1 t.2)))

/-- A started pilot would stand WAITING in place of the absent one. -/
theorem pinning_started : (pilotAt (served pinning (settle {} (reply 16 0 stOk (created (arg pinningCall.req 0 1) 0)
    (startedPilot pinningCall 0 0 [] pinningStart)))) 0).state = .waiting := by decide +kernel

/-- Refutes O11: its clause on PILOT_START asks that no table the program names is loading, but a program pins the placement tables of its
EXPERT_SENDs too (R87, R173), so that in `pinning` the request waits and no pilot stands WAITING. -/
theorem not_queueAndPilotRequestsComplete : ¬ Obligations.QueueAndPilotRequestsComplete := by
  unfold Obligations.QueueAndPilotRequestsComplete
  rintro ⟨-, -, -, hstart, -⟩
  have hstarts := hstart 0 0 [] pinningSlot pinning (by decide +kernel) (by decide +kernel)
  rw [pinning_later] at hstarts
  have hstate := congrArg (fun t => (pilotAt t 0).state) (Host.Outcome.next.inj hstarts)
  have habsent : (pilotAt (served pinning pinning) 0).state = .absent := by decide +kernel
  have hstates : PilotState.absent = .waiting := habsent.symm.trans (hstate.trans pinning_started)
  exact absurd hstates (by decide)

end Sys2Proof.Proofs.Pilots
end

section
/-! SUPPORT. What the front end does with a doorbell (R291), at a cycle of its arbiter (R292), with a fetch that comes back (R288, R289) and with
a fetched command (R300), case by case, and the statement about them. -/
namespace Sys2Proof.Proofs.Submission

open Sys2Proof Sys2Proof.Machine Sys2Proof.Safety Sys2Proof.Laws

variable {qi : Nat} {ue : Ue} {s : State}

/-! ## Doorbells (R290, R291) -/

section
variable {a : RegAccess} {p off : Nat}

/-- A doorbell that reaches a queue rings it, and the queue and its partition take it. -/
structure BellTaken (a : RegAccess) (p off qi : Nat) (s : State) : Prop where
  rings : doorbell a s = ringDoorbell p ((off - 0x1000) / 8) (a.data.setWidth 32) s
  named : queueNamed s p ((off - 0x1000) / 8) = some qi
  stays : (queueAt s qi).state ≠ .destroying
  unlocked : ¬ ((partAt s p).tdi = .configLocked ∨ (partAt s p).tdi = .error)
  there : ¬ (p < 16 ∧ (partAt s p).state ≠ .active ∧ (partAt s p).state ≠ .halted)

theorem bellReaches_taken (h : bellReaches a p off qi s = true) : BellTaken a p off qi s := by
  simp only [bellReaches, Bool.and_eq_true, Bool.or_eq_true, Bool.not_eq_true', decide_eq_true_eq, bne_iff_ne] at h
  obtain ⟨⟨⟨⟨⟨⟨hpage, hreset⟩, hfunc, hlow, hhigh⟩, hadmits⟩, hhalf⟩, hnamed⟩, hstate, hlocked, herror, hpart⟩ := h
  refine ⟨?rings, hnamed, hstate, not_or.2 ⟨hlocked, herror⟩, fun ⟨hp, hactive, hhalted⟩ => ?there⟩
  case rings =>
    have hport : ¬ (s.faults.inBlockReset = true ∨ a.func > 16) := not_or.2 ⟨ne_true_of_eq_false hreset, Nat.not_lt.2 hfunc⟩
    have hword : ¬ (¬ a.size8 = true ∧ off % 8 = 4) := fun ⟨hsize, hoff⟩ => hhalf.elim hsize (absurd hoff)
    simp only [doorbell, hpage]
    rw [if_neg hport, if_neg (not_not_intro ⟨hlow, hhigh⟩), if_neg (not_not_intro hadmits), if_neg hword]
  case there => exact hpart.elim (Nat.not_le.2 hp) fun hstates => hstates.elim hactive hhalted

/-- The queue judges the value of a doorbell that it takes (R291). -/
theorem doorbell_taken (h : BellTaken a p off qi s) : doorbell a s =
    if doorbellOk (queueAt s qi) (a.data.setWidth 32) then setQueue qi { queueAt s qi with tail := a.data.setWidth 32, rung := true } s
    else recordFault { cls := clsBadDoorbell, kind := kindFrontEnd, inst := 0, status := stBadArg, part := p, master := 0
                       masterId := (off - 0x1000) / 8 } (countDoorbell p ((off - 0x1000) / 8) s) := by
  obtain ⟨hrings, hnamed, hstays, hunlocked, hthere⟩ := h
  rw [hrings]
  simp only [ringDoorbell, hnamed]
  rw [if_neg hstays, if_neg hunlocked, if_neg hthere]

end

/-! ## Fetch (R288, R289, R292) -/

theorem arbiterCycle_serves {k : Nat} (hopen : dispatchOpen s = true) (hnext : nextServed s = some k) :
    arbiterCycle s = decideIdle (serveQueue k s) := by
  rw [arbiterCycle, if_neg (not_not_intro hopen), hnext]

theorem arbiterCycle_rests (hopen : dispatchOpen s = true) (hnext : nextServed s = none) : arbiterCycle s = decideIdle s := by
  rw [arbiterCycle, if_neg (not_not_intro hopen), hnext]

/-- A fetch under way of a queue that is served comes back from the host, or from the memory of its ring. -/
theorem fetchReturn_served {h : HostRead} (hbusy : (queueAt s qi).fetching ≠ 0) (hserved : queueServed s (queueAt s qi) = true) :
    fetchReturn qi h ue s =
      if ¬ (queueAt s qi).device then (if h.status ≠ stOk then settle ue (fetchFailed qi h.status s) else fetchDone qi h.data s)
      else if rangeWaits s false (ringAddr s (queueAt s qi)) (64 * (queueAt s qi).fetching) then s
      else ringRead qi ue (memRead (ringReq (queueAt s qi)) ue (ringAddr s (queueAt s qi)) (64 * (queueAt s qi).fetching) s) := by
  simp only [fetchReturn]
  rw [if_neg hbusy, if_neg (not_not_intro hserved)]

theorem ringRead_ok {x : MemRead × State} (hok : x.1.status = stOk) : ringRead qi ue x = fetchDone qi x.1.data x.2 :=
  if_neg (not_not_intro hok)

theorem fetchReturn_host {h : HostRead} (hbusy : (queueAt s qi).fetching ≠ 0) (hserved : queueServed s (queueAt s qi) = true)
    (hhost : (queueAt s qi).device = false) (hok : h.status = stOk) : fetchReturn qi h ue s = fetchDone qi h.data s := by
  rw [fetchReturn_served hbusy hserved, if_pos (ne_true_of_eq_false hhost), if_neg (not_not_intro hok)]

/-! ## The checks of a command (R300) -/

/-- The next command of a queue that may be looked at goes to dispatch, or fails with the status of its checks. -/
theorem dispatchNext_ready {c : Bytes} {rest : List Bytes} (hnext : (queueAt s qi).fetched = c :: rest)
    (hready : dispatchReady s (queueAt s qi) = true) :
    dispatchNext qi ue s =
      let k := checkCommand ue qi c s
      let t := setQueue qi { queueAt s qi with fetched := rest } s
      if k.status ≠ stOk then failAtDispatch ue qi (put c 8 (le 4 k.fence)) k.status t
      else modQueue qi (fun q => { q with atDispatch := some ⟨c, k.objs, k.fences, k.handles⟩ }) t := by
  simp only [dispatchNext, hnext]
  exact if_neg (not_not_intro hready)

/-! ## The statement -/

/-- Settles O28: each clause is one of the cases above. That a doorbell of a HALTED partition moves TAIL is the model's reading
(notes/assumptions/76.md). -/
theorem submissionCommandsComplete : Obligations.SubmissionCommandsComplete := by
  unfold Obligations.SubmissionCommandsComplete
  refine ⟨?rung, ?refused, ?serves, ?rests, ?host, ?device, ?passes, ?fails⟩
  case rung =>
    intro a p off qi
    refine does_served (fun _ => rfl) fun s h => ?_
    rw [Bool.and_eq_true] at h
    rw [doorbell_taken (bellReaches_taken h.1), if_pos h.2]
  case refused =>
    intro a p off qi
    refine does_served (fun _ => rfl) fun s h => ?_
    rw [Bool.and_eq_true, Bool.not_eq_true'] at h
    rw [doorbell_taken (bellReaches_taken h.1), if_neg (ne_true_of_eq_false h.2)]
  case serves =>
    intro k
    refine does_served (fun _ => rfl) fun s h => ?_
    rw [Bool.and_eq_true, decide_eq_true_eq] at h
    exact arbiterCycle_serves h.1 h.2
  case rests =>
    refine does_served (fun _ => rfl) fun s h => ?_
    rw [Bool.and_eq_true, decide_eq_true_eq] at h
    exact arbiterCycle_rests h.1 h.2
  case host =>
    intro qi h ue
    refine does_served (fun _ => rfl) fun s hc => ?_
    simp only [Bool.and_eq_true, Bool.not_eq_true', bne_iff_ne, beq_iff_eq] at hc
    obtain ⟨⟨⟨hbusy, hserved⟩, hhost⟩, hok⟩ := hc
    exact fetchReturn_host hbusy hserved hhost hok
  case device =>
    intro qi h ue
    refine does_served (fun _ => rfl) fun s hc => ?_
    simp only [Bool.and_eq_true, Bool.not_eq_true', bne_iff_ne, beq_iff_eq] at hc
    obtain ⟨⟨⟨⟨hbusy, hserved⟩, hdevice⟩, hready⟩, hok⟩ := hc
    rw [fetchReturn_served hbusy hserved, if_neg (not_not_intro hdevice), if_neg (ne_true_of_eq_false hready), ringRead_ok hok]
  case passes =>
    intro qi ue c rest
    refine does_served (fun _ => rfl) fun s h => ?_
    simp only [Bool.and_eq_true, decide_eq_true_eq, beq_iff_eq] at h
    obtain ⟨⟨hnext, hready⟩, hok⟩ := h
    exact (dispatchNext_ready hnext hready).trans (if_neg (not_not_intro hok))
  case fails =>
    intro qi ue c rest
    refine does_served (fun _ => rfl) fun s h => ?_
    simp only [Bool.and_eq_true, decide_eq_true_eq, bne_iff_ne] at h
    obtain ⟨⟨hnext, hready⟩, hbad⟩ := h
    exact (dispatchNext_ready hnext hready).trans (if_pos hbad)

end Sys2Proof.Proofs.Submission
end

section
/-! SUPPORT. The refutation of the statement about held commands: the deadline that a COPY takes as it starts (R297, R305). -/
namespace Sys2Proof.Proofs.HeldCommands

open Sys2Proof Sys2Proof.Machine Sys2Proof.Safety Sys2Proof.Laws

/-- A COPY that is held, without a deadline. -/
def heldCopy : InFlight := { cmd := fit 64 [1#8, 2#8], serial := 9 }

/-- A COPY of the same number that has started, with DEADLINE_US 1. -/
def hurriedCopy : InFlight := { cmd := put heldCopy.cmd 12 (le 4 1), serial := 9, started := true }

/-- Both stand in queue 5 of a powered block. -/
def twins : State :=
  setQueue 5 { state := .active, inflight := [heldCopy, hurriedCopy], serial := 10 } (onTrust (fun t => { t with pwrOk := true }) State.reset)

/-- The deadlines of the commands that queue 5 has dispatched. -/
def deadlines (s : State) : List Nat := (queueAt s 5).inflight.map (fun c => c.deadline)

theorem twins_resume : exec (.dispatchResume 5 {}) twins = .next (served twins (resumeQueue 5 {} twins)) :=
  whenServing_next _ (by decide +kernel)

/-- As the held COPY starts, each command of its number takes the deadline of its own DEADLINE_US: none, and 1 us from now. -/
theorem twins_deadlines : deadlines (served twins (resumeQueue 5 {} twins)) = [0, 1000] := by decide +kernel

/-- With the deadline of the held COPY both would have none. -/
theorem twins_sameDeadline : deadlines (served twins (sendDispatch (.copyChunk 5)
    (modInFlight 5 heldCopy.serial (fun x => { x with started := true, deadline := deadlineOf twins heldCopy.cmd }) twins))) = [0, 0] := by
  decide +kernel

/-- Refutes O29: its clause on COPY and IMPORT gives every command in flight of the held one's number the held one's deadline, but each takes
that of its own DEADLINE_US (R305). The statement asks for no state in which numbers differ, and in `twins` two commands of one number have
different deadlines. -/
theorem not_heldCommandsStart : ¬ Obligations.HeldCommandsStart := by
  unfold Obligations.HeldCommandsStart
  rintro ⟨-, hcopy, -⟩
  have hstarts := hcopy 5 {} heldCopy twins (by decide +kernel) (by decide +kernel)
  rw [twins_resume] at hstarts
  have hstate := congrArg deadlines (Host.Outcome.next.inj hstarts)
  have hlists : [0, 1000] = [0, 0] := twins_deadlines.symm.trans (hstate.trans twins_sameDeadline)
  exact absurd hlists (by decide)

end Sys2Proof.Proofs.HeldCommands
end

section
/-! SUPPORT. What admission makes of a command that stands at dispatch (R274, R296 to R299, R302), and the statement about it. -/
namespace Sys2Proof.Proofs.QueueCommands

open Sys2Proof Sys2Proof.Machine Sys2Proof.Safety Sys2Proof.Laws

variable {qi ty st : Nat} {ue : Ue} {d : AtDispatch} {s : State}

/-! ## Admission (R274, R302) -/

/-- A command stands at dispatch only in a queue that is ACTIVE. -/
theorem atType_active (h : atType s qi ty = some d) : (queueAt s qi).state = .active := by
  unfold atType at h
  split at h
  next => cases h
  next hserved =>
    simp only [not_or, Decidable.not_not, queueServed, Bool.and_eq_true, beq_iff_eq] at hserved
    obtain ⟨-, hactive, -⟩ := hserved
    exact hactive

/-- A command whose own checks pass and whose handles still hold is admitted in an ACTIVE queue, and starts where it can. -/
theorem passType_admits {task : Option Nat} (hhold : handlesHold s qi d = true) (hactive : (queueAt s qi).state = .active) :
    passType ue qi d stOk task s = resumeQueue qi ue (admitCommand qi d task s) := by
  simp only [handlesHold, beq_iff_eq] at hhold
  simp only [passType]
  rw [if_neg (not_not_intro hhold), if_neg (not_not_intro rfl), if_neg (not_not_intro hactive)]

theorem passType_refuses {task : Option Nat} (hhold : handlesHold s qi d = true) (hbad : st ≠ stOk) :
    passType ue qi d st task s = failAtDispatch ue qi d.cmd st (takeDispatch qi s) := by
  simp only [handlesHold, beq_iff_eq] at hhold
  simp only [passType]
  rw [if_neg (not_not_intro hhold), if_pos hbad]

/-- A command that names what was freed in the meantime fails, and may signal only the fence that still is. -/
theorem passType_revoked {task : Option Nat} (hfreed : handlesHold s qi d = false) : passType ue qi d st task s =
    failAtDispatch ue qi (put d.cmd 8 (le 4 (handlesNow s qi d).fence)) (handlesNow s qi d).status (takeDispatch qi s) := by
  simp only [handlesHold, beq_eq_false_iff_ne] at hfreed
  exact if_pos hfreed

/-! ## TASK (R296) -/

/-- A TASK in order has its program read. -/
theorem taskCommand_reads (hat : atType s qi 1 = some d) (hfields : taskFieldsOk d.cmd = true)
    (hset : setOk s (queueAt s qi).part (fld d.cmd 56 2) (fld d.cmd 58 1) = true) (hready : rangeWaits s false (fld d.cmd 40 8) 64 = false) :
    taskCommand qi ue s = taskChecked qi ue d (taskAskOf s qi d.cmd (queueAt s qi).serial) (taskFetch qi ue d s) := by
  have hvalid : ¬ (¬ taskFieldsOk d.cmd = true ∨ ¬ setOk s (queueAt s qi).part (fld d.cmd 56 2) (fld d.cmd 58 1) = true) :=
    not_or.2 ⟨not_not_intro hfields, not_not_intro hset⟩
  simp only [taskCommand, hat]
  exact (if_neg hvalid).trans (if_neg (ne_true_of_eq_false hready))

/-- A TASK whose program passes its checks passes with its task. -/
theorem taskChecked_passes {a : TaskAsk} {x : Fetched × State} (hchecks : taskChecks x.2 a x.1 = stOk) (hhold : handlesHold x.2 qi d = true) :
    taskChecked qi ue d a x = passType ue qi d stOk (some (prepareTask a x.1 x.2).1) (prepareTask a x.1 x.2).2 := by
  simp only [handlesHold, beq_iff_eq] at hhold
  exact if_neg (not_or.2 ⟨not_not_intro hchecks, not_not_intro hhold⟩)

/-! ## The other types (R297 to R299) -/

theorem copyCommand_passes (h : atType s qi 2 = some d) : copyCommand qi s = passType {} qi d (copyStatus s (queueAt s qi).part d.cmd) none s := by
  simp only [copyCommand, h]

theorem importCommand_passes (h : atType s qi 3 = some d) (hcount : fld d.cmd 58 2 ≠ 0) : importCommand qi s = passType {} qi d stOk none s := by
  simp only [importCommand, h, if_neg hcount]

theorem fabricCommand_passes (h : atType s qi 4 = some d) : fabricCommand qi ue s = passType ue qi d (fabricStatus d.cmd) none s := by
  simp only [fabricCommand, h]

theorem signalCommand_passes (h : atType s qi 5 = some d) : signalCommand qi ue s = passType ue qi d stOk none s := by
  simp only [signalCommand, h]

theorem waitCommand_passes (h : atType s qi 6 = some d) :
    waitCommand qi ue s = passType ue qi d (if fld d.cmd 48 8 ≥ 2 ^ 63 then stFenceRange else stOk) none s := by
  simp only [waitCommand, h]

theorem postCommand_passes (h : atType s qi 7 = some d) (hpilot : fld d.cmd 40 1 ≤ 63) : postCommand qi ue s = passType ue qi d stOk none s := by
  simp only [postCommand, h, if_neg (Nat.not_lt.2 hpilot)]

/-! ## The statement -/

/-- Settles O30: each type gives its own status, and admission does the rest (`passType_admits`, `passType_refuses`, `passType_revoked`). -/
theorem queueCommandsComplete : Obligations.QueueCommandsComplete := by
  unfold Obligations.QueueCommandsComplete
  refine ⟨?task, ?copy, ?importCmd, ?fabric, ?signal, ?wait, ?post, ?copyRefused, ?fabricRefused, ?waitRefused, ?signalRevoked⟩
  case task =>
    intro qi ue d
    refine does_served (fun _ => rfl) fun s h => ?_
    simp only [Bool.and_eq_true, Bool.not_eq_true', beq_iff_eq, decide_eq_true_eq] at h
    obtain ⟨⟨⟨⟨⟨⟨⟨hat, hfields⟩, hset⟩, hready⟩, hchecks⟩, hhold⟩, hstill⟩, hactive⟩ := h
    rw [taskCommand_reads hat hfields hset hready, taskChecked_passes hchecks hhold, passType_admits hstill hactive]
  case copy =>
    intro qi d
    refine does_served (fun _ => rfl) fun s h => ?_
    simp only [Bool.and_eq_true, beq_iff_eq, decide_eq_true_eq] at h
    obtain ⟨⟨hat, hok⟩, hhold⟩ := h
    rw [copyCommand_passes hat, hok, passType_admits hhold (atType_active hat)]
  case importCmd =>
    intro qi d
    refine does_served (fun _ => rfl) fun s h => ?_
    simp only [Bool.and_eq_true, bne_iff_ne, decide_eq_true_eq] at h
    obtain ⟨⟨hat, hcount⟩, hhold⟩ := h
    rw [importCommand_passes hat hcount, passType_admits hhold (atType_active hat)]
  case fabric =>
    intro qi ue d
    refine does_served (fun _ => rfl) fun s h => ?_
    simp only [Bool.and_eq_true, beq_iff_eq, decide_eq_true_eq] at h
    obtain ⟨⟨hat, hok⟩, hhold⟩ := h
    rw [fabricCommand_passes hat, hok, passType_admits hhold (atType_active hat)]
  case signal =>
    intro qi ue d
    refine does_served (fun _ => rfl) fun s h => ?_
    simp only [Bool.and_eq_true, decide_eq_true_eq] at h
    rw [signalCommand_passes h.1, passType_admits h.2 (atType_active h.1)]
  case wait =>
    intro qi ue d
    refine does_served (fun _ => rfl) fun s h => ?_
    simp only [Bool.and_eq_true, decide_eq_true_eq] at h
    obtain ⟨⟨hat, htarget⟩, hhold⟩ := h
    rw [waitCommand_passes hat, if_neg (Nat.not_le.2 htarget), passType_admits hhold (atType_active hat)]
  case post =>
    intro qi ue d
    refine does_served (fun _ => rfl) fun s h => ?_
    simp only [Bool.and_eq_true, decide_eq_true_eq] at h
    obtain ⟨⟨hat, hpilot⟩, hhold⟩ := h
    rw [postCommand_passes hat hpilot, passType_admits hhold (atType_active hat)]
  case copyRefused =>
    intro qi d
    refine does_served (fun _ => rfl) fun s h => ?_
    simp only [Bool.and_eq_true, bne_iff_ne, decide_eq_true_eq] at h
    obtain ⟨⟨hat, hbad⟩, hhold⟩ := h
    rw [copyCommand_passes hat, passType_refuses hhold hbad]
  case fabricRefused =>
    intro qi ue d
    refine does_served (fun _ => rfl) fun s h => ?_
    simp only [Bool.and_eq_true, bne_iff_ne, decide_eq_true_eq] at h
    obtain ⟨⟨hat, hbad⟩, hhold⟩ := h
    rw [fabricCommand_passes hat, passType_refuses hhold hbad]
  case waitRefused =>
    intro qi ue d
    refine does_served (fun _ => rfl) fun s h => ?_
    simp only [Bool.and_eq_true, decide_eq_true_eq] at h
    obtain ⟨⟨hat, htarget⟩, hhold⟩ := h
    rw [waitCommand_passes hat, if_pos htarget, passType_refuses hhold (by decide)]
  case signalRevoked =>
    intro qi ue d
    refine does_served (fun _ => rfl) fun s h => ?_
    simp only [Bool.and_eq_true, Bool.not_eq_true', decide_eq_true_eq] at h
    rw [signalCommand_passes h.1, passType_revoked h.2]

end Sys2Proof.Proofs.QueueCommands
end

section
/-! SUPPORT. What the copy-and-cipher engine makes of its chunks (R250, R297), what the halves make of each other's records (R10, R23), how a
task that has ended ends its command (R61), and the statement about them. -/
namespace Sys2Proof.Proofs.Engines

open Sys2Proof Sys2Proof.Machine Sys2Proof.Safety Sys2Proof.Laws

variable {qi t : Nat} {ue : Ue} {c : InFlight} {s : State}

/-! ## COPY (R297) -/

/-- A chunk whose source is read is stored. -/
theorem copyChunkDone_stores {h : HostRead} (hmoves : chunkMoves qi h ue c s = true) :
    copyChunkDone qi h ue s = chunkStored qi ue c (chunkDst c) (chunkLen c) s (chunkData qi h ue c s) := by
  simp only [chunkMoves, Bool.and_eq_true, Bool.or_eq_true, Bool.not_eq_true', beq_iff_eq, decide_eq_true_eq] at hmoves
  obtain ⟨⟨⟨⟨hflying, hruns⟩, hsource⟩, hdest⟩, hread⟩ := hmoves
  have hfetched : chunkFetched qi ue c (chunkSrc c) (chunkDst c) (chunkLen c) s (chunkRead qi h ue c s) =
      chunkStored qi ue c (chunkDst c) (chunkLen c) s (chunkData qi h ue c s) := if_neg (not_not_intro hread)
  have hready : ¬ (islandStopped s .copyEngine = true ∨ (¬ srcHost c.cmd = true ∧ rangeWaits s false (chunkSrc c) (chunkLen c) = true) ∨
      (¬ dstHost c.cmd = true ∧ rangeWaits s true (chunkDst c) (chunkLen c) = true)) := by
    rintro (hstop | ⟨hmem, hwait⟩ | ⟨hmem, hwait⟩)
    · exact ne_true_of_eq_false hruns hstop
    · exact hsource.elim hmem fun hfree => ne_true_of_eq_false hfree hwait
    · exact hdest.elim hmem fun hfree => ne_true_of_eq_false hfree hwait
  rw [← hfetched]
  simp only [copyChunkDone, hflying]
  exact if_neg hready

/-! ## IMPORT (R108, R250) -/

/-- A chunk of an IMPORT whose engines run and whose ranges are free goes on to the use of its key slot. -/
theorem importChunkDone_keyed (hflying : flyingCommand s qi 3 = some c) (hstoring : c.storing = false)
    (hengine : islandStopped s .copyEngine = false) (hcrypto : islandStopped s (.crypto (partLantern s c)) = false)
    (hsource : rangeWaits s false (partSrc c) 1048704 = false) (hdest : rangeWaits s true (partDst c) 1048576 = false)
    (hsound : lanternSnuffed s (partLantern s c) = false) :
    importChunkDone qi ue s = importKeyed qi ue c (slotKey s (lanternWest s (partLantern s c)) (fld c.cmd 56 2)) (partLantern s c) (partIndex c)
      (partSrc c) (partDst c) s (partKey qi c s) := by
  have hready : ¬ (islandStopped s .copyEngine = true ∨ islandStopped s (.crypto (partLantern s c)) = true ∨
      rangeWaits s false (partSrc c) 1048704 = true ∨ rangeWaits s true (partDst c) 1048576 = true) := by
    simp [hengine, hcrypto, hsource, hdest]
  simp only [importChunkDone, hflying]
  exact (if_neg (ne_true_of_eq_false hstoring)).trans ((if_neg hready).trans (if_neg (ne_true_of_eq_false hsound)))

/-- A chunk whose key slot, header and body are in order is stored with its plain text. -/
theorem importKeyed_stores (hkey : (partKey qi c s).1 = stOk) (hhead : (partHead qi ue c s).1.status = stOk)
    (hform : wcOk (partHead qi ue c s).1.data (partIndex c) = true) (hbody : (partBody qi ue c s).1.status = stOk) :
    importKeyed qi ue c (slotKey s (lanternWest s (partLantern s c)) (fld c.cmd 56 2)) (partLantern s c) (partIndex c) (partSrc c) (partDst c) s
        (partKey qi c s) =
      importStored qi ue c (partLantern s c) (partDst c) (wcLength (partHead qi ue c s).1.data) s (partPlain qi ue c s)
        (chargeCopyRead c.cmd s (partSrc c) (80 + wcLength (partHead qi ue c s).1.data) (partBody qi ue c s).2) := by
  have hheader : importHead qi ue c (slotKey s (lanternWest s (partLantern s c)) (fld c.cmd 56 2)) (partLantern s c) (partIndex c) (partSrc c)
      (partDst c) s (partHead qi ue c s) = importBody qi ue c (slotKey s (lanternWest s (partLantern s c)) (fld c.cmd 56 2))
        (partHead qi ue c s).1.data (partLantern s c) (partSrc c) (partDst c) s (partBody qi ue c s) :=
    (if_neg (not_not_intro hhead)).trans (if_neg (not_not_intro hform))
  exact (if_neg (not_not_intro hkey)).trans (hheader.trans (if_neg (not_not_intro hbody)))

/-- A chunk whose bytes have all landed has ended. -/
theorem importChunkDone_landed (hflying : flyingCommand s qi 3 = some c) (hstoring : c.storing = true) (hlanded : c.exch = []) :
    importChunkDone qi ue s = chunkEnded {} qi c c.result (modInFlight qi c.serial (fun c => { c with storing := false }) s) := by
  simp only [importChunkDone, importWaiting, hflying, if_pos hstoring]
  exact if_pos ⟨hstoring, hlanded⟩

/-! ## Records between the halves (R10, R23) -/

section
variable {r : SealedRecord} {b : Bytes}

/-- What the agent's and the front end's looks at a record leave: whether the record is spoilt, and the state then. -/
abbrev agentLook (s : State) : Bool × State := injectCheck clsDispatchPath kindFeAgent 0 0 0 s
abbrev reportLook (s : State) : Bool × State := injectCheck clsDispatchPath kindFrontEnd 0 0 0 s

/-- What the agent does for a dispatch record that it obeys (R10). -/
def obeyed (body : DispatchBody) (s : State) : State :=
  match body with
  | .startTask k => startEast k s
  | .abortTask k => modTask k (fun x => if x.live then { x with aborting := true } else x) s
  | .copyChunk qi => beginCopies qi s
  | .fabric qi => settle {} (driveFabric {} (takeFabric qi s))

/-- What the front end does for a completion report (R23). -/
def reported (ue : Ue) (body : ReportBody) (s : State) : State :=
  match body with
  | .taskDone k nan sat => finishTask ue k (eastReported k nan sat s)
  | .copyDone qi => endReported ue qi [2, 3] s
  | .fabricDone qi => endReported ue qi [4] s

theorem takeDispatchRecord_obeys {body : DispatchBody} (hrun : islandStopped s .feAgent = false) (hsound : (agentLook s).1 = false)
    (hcounter : r.counter = (agentLook s).2.keys.dispatchRx + 1) (hopen : openRecord (agentLook s).2 true r = some b)
    (hbody : dispatchBodyOf b = some body) :
    takeDispatchRecord r s = obeyed body (onKeys (fun k => { k with dispatchRx := r.counter }) (agentLook s).2) := by
  have hgood : ¬ ((agentLook s).1 = true ∨ r.counter ≠ (agentLook s).2.keys.dispatchRx + 1) :=
    not_or.2 ⟨ne_true_of_eq_false hsound, not_not_intro hcounter⟩
  simp only [takeDispatchRecord, if_neg (ne_true_of_eq_false hrun), if_neg hgood, hopen, hbody]
  cases body <;> rfl

/-- A record that is spoilt, out of turn or not to be opened is rejected (R10). -/
theorem takeDispatchRecord_rejects (hrun : islandStopped s .feAgent = false)
    (hbad : (agentLook s).1 = true ∨ r.counter ≠ (agentLook s).2.keys.dispatchRx + 1 ∨ openRecord (agentLook s).2 true r = none) :
    takeDispatchRecord r s = dispatchPathFault kindFeAgent (agentLook s).2 := by
  have hnone : (if (agentLook s).1 = true ∨ r.counter ≠ (agentLook s).2.keys.dispatchRx + 1 then none
      else openRecord (agentLook s).2 true r) = none := by
    rw [← or_assoc] at hbad
    split
    next => rfl
    next hgood => exact hbad.resolve_left hgood
  simp only [takeDispatchRecord, if_neg (ne_true_of_eq_false hrun), hnone]

theorem takeReport_reported {body : ReportBody} (hrun : islandStopped s .frontEnd = false) (hsound : (reportLook s).1 = false)
    (hcounter : r.counter = (reportLook s).2.keys.reportRx + 1) (hopen : openRecord (reportLook s).2 false r = some b)
    (hbody : reportBodyOf b = some body) :
    takeReport r ue s = reported ue body (onKeys (fun k => { k with reportRx := r.counter }) (reportLook s).2) := by
  have hgood : ¬ ((reportLook s).1 = true ∨ r.counter ≠ (reportLook s).2.keys.reportRx + 1) :=
    not_or.2 ⟨ne_true_of_eq_false hsound, not_not_intro hcounter⟩
  simp only [takeReport, if_neg (ne_true_of_eq_false hrun), if_neg hgood, hopen, hbody]
  cases body <;> rfl

end

/-- A command whose East engine has ended ends with what the engine reported; without one nothing does. -/
theorem endReported_elim (tys : List Nat) (s : State) : endReported ue qi tys s =
    (eastEnded s qi tys).elim s (fun c => settle ue (endCommand qi c.serial c.result s)) := by
  unfold endReported
  cases eastEnded s qi tys <;> rfl

/-! ## The end of a task (R23, R61) -/

/-- A task that has ended everywhere and whose East part owes no report ends its command. -/
theorem reportTask_ends {n : Nat} (heast : eastReady s t = false) (hrun : islandStopped s .frontEnd = false) (hended : taskEnded s t = true)
    (hfor : (taskAt s t).purpose = .command qi n) :
    reportTask t ue s = settle ue (if (taskAt s t).failed then endCommand qi n (taskAt s t).status (freeTask t (endRun t s))
      else if (taskAt s t).aborting then endKilled qi n (freeTask t (endRun t s)) else endCommand qi n stOk (freeTask t (endRun t s))) := by
  rw [reportTask, if_neg (ne_true_of_eq_false heast), if_neg (ne_true_of_eq_false hrun)]
  simp only [finishTask, hfor]
  exact if_neg (not_not_intro hended)

/-! ## The statement -/

/-- Settles O31: each clause is one of the cases above. -/
theorem engineCompletionsComplete : Obligations.EngineCompletionsComplete := by
  unfold Obligations.EngineCompletionsComplete
  refine ⟨?toHost, ?toMemory, ?deciphered, ?landed, ?obeyed, ?rejected, ?reports, ?eastTask, ?taskEnds, ?deadline⟩
  case toHost =>
    intro qi h ue c
    refine does_served (fun _ => rfl) fun s hc => ?_
    rw [Bool.and_eq_true] at hc
    exact (copyChunkDone_stores hc.1).trans (if_pos hc.2)
  case toMemory =>
    intro qi h ue c
    refine does_served (fun _ => rfl) fun s hc => ?_
    rw [Bool.and_eq_true, Bool.not_eq_true'] at hc
    exact (copyChunkDone_stores hc.1).trans (if_neg (ne_true_of_eq_false hc.2))
  case deciphered =>
    intro qi ue c plain
    refine does_served (fun _ => rfl) fun s h => ?_
    simp only [Bool.and_eq_true, Bool.not_eq_true', beq_iff_eq, decide_eq_true_eq] at h
    obtain ⟨⟨⟨⟨⟨⟨⟨⟨⟨⟨⟨hflying, hstoring⟩, hengine⟩, hcrypto⟩, hsource⟩, hdest⟩, hsound⟩, hkey⟩, hhead⟩, hform⟩, hbody⟩, hplain⟩ := h
    rw [importChunkDone_keyed hflying hstoring hengine hcrypto hsource hdest hsound, importKeyed_stores hkey hhead hform hbody, hplain]
    rfl
  case landed =>
    intro qi ue c
    refine does_served (fun _ => rfl) fun s h => ?_
    simp only [Bool.and_eq_true, beq_iff_eq, decide_eq_true_eq] at h
    obtain ⟨⟨hflying, hstoring⟩, hlanded⟩ := h
    exact importChunkDone_landed hflying hstoring hlanded
  case obeyed =>
    intro r b body
    refine does_served (fun _ => rfl) fun s h => ?_
    simp only [Bool.and_eq_true, Bool.not_eq_true', beq_iff_eq] at h
    obtain ⟨⟨⟨⟨hrun, hsound⟩, hcounter⟩, hopen⟩, hbody⟩ := h
    rw [takeDispatchRecord_obeys hrun hsound hcounter hopen hbody]
    cases body <;> rfl
  case rejected =>
    intro r
    refine does_served (fun _ => rfl) fun s h => ?_
    simp only [Bool.and_eq_true, Bool.or_eq_true, Bool.not_eq_true', bne_iff_ne, beq_iff_eq, or_assoc] at h
    exact takeDispatchRecord_rejects h.1 h.2
  case reports =>
    intro r ue b body
    refine does_served (fun _ => rfl) fun s h => ?_
    simp only [Bool.and_eq_true, Bool.not_eq_true', beq_iff_eq] at h
    obtain ⟨⟨⟨⟨hrun, hsound⟩, hcounter⟩, hopen⟩, hbody⟩ := h
    rw [takeReport_reported hrun hsound hcounter hopen hbody]
    cases body with
    | taskDone k nan sat => rfl
    | copyDone qi => exact endReported_elim ..
    | fabricDone qi => exact endReported_elim ..
  case eastTask => exact fun t ue => does_served (fun _ => rfl) fun s h => if_pos h
  case taskEnds =>
    intro t ue qi n
    refine does_served (fun _ => rfl) fun s h => ?_
    simp only [Bool.and_eq_true, Bool.not_eq_true', decide_eq_true_eq] at h
    obtain ⟨⟨⟨heast, hrun⟩, hended⟩, hfor⟩ := h
    exact reportTask_ends heast hrun hended hfor
  case deadline => exact fun ue => does_served (fun _ => rfl) fun _ _ => rfl

end Sys2Proof.Proofs.Engines
end

section
/-! SUPPORT. How an item of a pilot begins and how it retires (R181, R310, R311), case by case, and the statement about both. -/
namespace Sys2Proof.Proofs.PilotItems

open Sys2Proof Sys2Proof.Machine Sys2Proof.Safety Sys2Proof.Laws

variable {pi : Nat} {ue : Ue} {s : State}

/-! ## The next item begins (R310) -/

section
variable {item : Bytes} {rest : List Bytes}

/-- What a pilot that may begin an item has, in the words of the start. -/
theorem pilotReady_free (h : pilotReady s pi = true) :
    ¬ (¬ dispatchOpen s = true ∨ (partAt s (pilotAt s pi).part).state ≠ .active ∨
      ¬ ((pilotAt s pi).state = .waiting ∨ (pilotAt s pi).state = .running ∨
        ((pilotAt s pi).state = .stopping ∧ (pilotAt s pi).drain = true)) ∨
      (pilotAt s pi).current.isSome = true) := by
  simp only [pilotReady, Bool.and_eq_true, Bool.or_eq_true, beq_iff_eq, Option.isNone_iff_eq_none] at h
  obtain ⟨⟨⟨hopen, hpart⟩, hstate⟩, hidle⟩ := h
  rw [or_assoc] at hstate
  simp [hopen, hpart, hstate, hidle]

variable (hready : pilotReady s pi = true) (hitems : (pilotAt s pi).items = item :: rest)
include hready hitems

/-- An item whose own checks fail, fails the pilot (R311). -/
theorem startItem_fails
    (hbad : itemStatus s (taskAt s (pilotAt s pi).task) (itemArgs (taskAt s (pilotAt s pi).task) item) ≠ stOk) :
    startItem pi ue s = settle ue (failItem ue pi
      (itemStatus s (taskAt s (pilotAt s pi).task) (itemArgs (taskAt s (pilotAt s pi).task) item)) (itemTaken pi item rest s)) := by
  simp only [startItem, if_neg (pilotReady_free hready), hitems]
  exact if_pos hbad

/-- An item that passes and whose sequences are free holds them, and runs with its arguments (R149, R310). -/
theorem startItem_runs
    (hok : itemStatus s (taskAt s (pilotAt s pi).task) (itemArgs (taskAt s (pilotAt s pi).task) item) = stOk)
    (hfree : seqsFree s (pilotAt s pi).task
      (progSeqs (itemProg (taskAt s (pilotAt s pi).task) (itemArgs (taskAt s (pilotAt s pi).task) item))) = true) :
    startItem pi ue s =
      let k := (pilotAt s pi).task
      let args := itemArgs (taskAt s k) item
      let qs := progSeqs (itemProg (taskAt s k) args)
      settle ue (runTask k args (modTask k (fun y => { y with
        seqHold := seqHolds qs, seqShare := seqSet qs, start := now s
        biasPins := (progGroups (itemProg (taskAt s k) args)).map (fun g => (g, (groupAt s g).active)) })
        (nameSeqs (seqSet qs) (itemTaken pi item rest s)))) := by
  simp only [startItem, if_neg (pilotReady_free hready), hitems]
  exact (if_neg (not_not_intro hok)).trans (if_neg (not_not_intro hfree))

end

/-! ## An item has ended (R181, R310, R311) -/

/-- The state in which an item has ended and its task is quiet again. -/
abbrev itemEnded (pi : Nat) (s : State) : State :=
  modTask (pilotAt s pi).task (fun y => { y with biasPins := [] }) (endRun (pilotAt s pi).task s)

/-- An item that has ended, with its answers sent unless it aborts, fails its pilot, gives up its slice, or retires. -/
theorem retireItem_ended (hrun : islandStopped s .frontEnd = false) (hitem : (pilotAt s pi).current.isSome = true)
    (hended : taskEnded s (pilotAt s pi).task = true) (hsent : (taskAt s (pilotAt s pi).task).aborting = true ∨ answersSent s pi = true) :
    retireItem pi ue s =
      let p := pilotAt s pi
      let x := taskAt s p.task
      let n := p.retired + 1
      if x.failed then settle ue (failItem ue pi x.status (itemEnded pi s))
      else if x.aborting then settle ue (freeSlice pi (modPilot pi (fun q => { q with current := none }) (itemEnded pi s)))
      else settle ue (freeSlice pi (modPilot pi (fun q => { q with
          current := none, retired := n, state := if p.state = .stopping then .stopping else if p.items = [] then .waiting else .running })
        (fenceByHandle ue p.part p.fence (.signal (p.v0 + n)) (itemEnded pi s)))) := by
  have hover : ¬ (islandStopped s .frontEnd = true ∨ (pilotAt s pi).current.isNone = true ∨ ¬ taskEnded s (pilotAt s pi).task = true) := by
    rintro (hstop | hnone | hgoing)
    · exact ne_true_of_eq_false hrun hstop
    · exact Option.isSome_iff_ne_none.1 hitem (Option.isNone_iff_eq_none.1 hnone)
    · exact hgoing hended
  have hanswered : ¬ (¬ (taskAt s (pilotAt s pi).task).aborting = true ∧ ¬ answersSent s pi = true) :=
    fun ⟨hruns, hunsent⟩ => hsent.elim hruns hunsent
  simp only [retireItem, if_neg hover, if_neg hanswered]

/-! ## The statement -/

/-- Settles O38: an item begins by `startItem_fails` or `startItem_runs`, and ends by one of the cases of `retireItem_ended`. That its limits are
checked again as it begins, and its bias pins taken anew, is the model's reading (notes/assumptions/65.md). -/
theorem pilotItemsComplete : Obligations.PilotItemsComplete := by
  unfold Obligations.PilotItemsComplete
  refine ⟨?refused, ?begins, ?failed, ?retired, ?aborted⟩
  case refused =>
    intro pi ue item rest
    refine does_served (fun _ => rfl) fun s h => ?_
    simp only [Bool.and_eq_true, bne_iff_ne, decide_eq_true_eq] at h
    obtain ⟨⟨hready, hitems⟩, hbad⟩ := h
    exact startItem_fails hready hitems hbad
  case begins =>
    intro pi ue item rest
    refine does_served (fun _ => rfl) fun s h => ?_
    simp only [Bool.and_eq_true, beq_iff_eq, decide_eq_true_eq] at h
    obtain ⟨⟨⟨hready, hitems⟩, hok⟩, hfree⟩ := h
    exact startItem_runs hready hitems hok hfree
  case failed =>
    intro pi ue
    refine does_served (fun _ => rfl) fun s h => ?_
    simp only [Bool.and_eq_true, Bool.not_eq_true'] at h
    obtain ⟨⟨⟨⟨⟨hrun, hitem⟩, hended⟩, -⟩, hsent⟩, hfailed⟩ := h
    exact (retireItem_ended hrun hitem hended (.inr hsent)).trans (if_pos hfailed)
  case retired =>
    intro pi ue
    refine does_served (fun _ => rfl) fun s h => ?_
    simp only [Bool.and_eq_true, Bool.not_eq_true'] at h
    obtain ⟨⟨⟨⟨⟨hrun, hitem⟩, hended⟩, hruns⟩, hsent⟩, hsound⟩ := h
    exact (retireItem_ended hrun hitem hended (.inr hsent)).trans
      ((if_neg (ne_true_of_eq_false hsound)).trans (if_neg (ne_true_of_eq_false hruns)))
  case aborted =>
    intro pi ue
    refine does_served (fun _ => rfl) fun s h => ?_
    simp only [Bool.and_eq_true, Bool.not_eq_true'] at h
    obtain ⟨⟨⟨⟨hrun, hitem⟩, hended⟩, haborts⟩, hsound⟩ := h
    exact (retireItem_ended hrun hitem hended (.inl haborts)).trans ((if_neg (ne_true_of_eq_false hsound)).trans (if_pos haborts))

end Sys2Proof.Proofs.PilotItems
end

section
/-! SUPPORT. The registers of a mailbox (R325 to R327): what a submission, a write, a release, a move of READ and an event do to its slots
and its event ring, and the statement about them. -/
namespace Sys2Proof.Proofs.Mailboxes

open Sys2Proof Sys2Proof.Machine Sys2Proof.Safety Sys2Proof.Laws

variable {mb k : Nat} {m : BitVec 4} {s : State}

/-! ## Slots (R326) -/

/-- The release of one slot of a mailbox's table. -/
def releaseSlot (m : BitVec 4) (t : Tab MbSlot) (k : Nat) : Tab MbSlot :=
  if m.getLsbD k ∧ (tget {} t k).state = .done then tset {} t k {} else t

theorem slots_mbRelease : (boxAt (mbRelease mb m s) mb).slots = (List.range 4).foldl (releaseSlot m) (boxAt s mb).slots := by
  unfold mbRelease
  rw [boxAt_modBox, if_pos rfl]
  rfl

theorem tget_releaseSlot (t : Tab MbSlot) (j : Nat) :
    tget {} (releaseSlot m t j) k = if k = j ∧ m.getLsbD k = true ∧ (tget {} t k).state = .done then {} else tget {} t k := by
  unfold releaseSlot
  by_cases hk : k = j
  · subst hk
    by_cases hdone : m.getLsbD k = true ∧ (tget {} t k).state = .done
    · rw [if_pos hdone, if_pos ⟨rfl, hdone⟩, tget_tset_self]
    · rw [if_neg hdone, if_neg (fun h => hdone h.2)]
  · refine Eq.trans ?_ (if_neg fun h => hk h.1).symm
    split
    · exact tget_tset_ne _ _ _ _ _ hk
    · rfl

/-- Releases one after another free the DONE slots among those named: a slot once FREE is not DONE, so that its turn comes once. -/
theorem tget_foldl_releaseSlot (ks : List Nat) (t : Tab MbSlot) :
    tget {} (ks.foldl (releaseSlot m) t) k = if k ∈ ks ∧ m.getLsbD k = true ∧ (tget {} t k).state = .done then {} else tget {} t k := by
  induction ks generalizing t with
  | nil => simp
  | cons j ks ih =>
    rw [List.foldl_cons, ih, tget_releaseSlot]
    by_cases hfreed : k = j ∧ m.getLsbD k = true ∧ (tget {} t k).state = .done
    · rw [if_pos hfreed, ite_self, if_pos ⟨hfreed.1 ▸ List.mem_cons_self, hfreed.2⟩]
    · rw [if_neg hfreed]
      refine if_congr ⟨fun h => ⟨List.mem_cons_of_mem _ h.1, h.2⟩, fun h => ⟨?_, h.2⟩⟩ rfl rfl
      exact (List.mem_cons.1 h.1).resolve_left fun hj => hfreed ⟨hj, h.2⟩

theorem tget_mbRelease (hk : k < 4) : tget {} (boxAt (mbRelease mb m s) mb).slots k =
    if m.getLsbD k = true ∧ (tget {} (boxAt s mb).slots k).state = .done then {} else tget {} (boxAt s mb).slots k := by
  rw [slots_mbRelease, tget_foldl_releaseSlot]
  simp [hk]

/-! ## The event ring (R327) -/

/-- READ that moves on towards WRITE, by no more than the unread entries, leaves no more of them. -/
theorem unread_le_of_read_le {w r v : BitVec 16} (h : (v - r).toNat ≤ (w - r).toNat) : (w - v).toNat ≤ (w - r).toNat := by
  bv_omega

theorem unread_mbRead (v : BitVec 16) : unread (boxAt (mbRead mb v s) mb) ≤ unread (boxAt s mb) ∧
    (boxAt (mbRead mb v s) mb).write = (boxAt s mb).write := by
  unfold mbRead
  rw [boxAt_modBox, if_pos rfl]
  split
  · exact ⟨unread_le_of_read_le ‹_›, rfl⟩
  · exact ⟨Nat.le_refl _, rfl⟩

/-- An event that meets a full ring of a mailbox whose owner exists counts as lost and takes its number; no more. -/
theorem postEvent_full {code : Nat} {a : Bytes} (hthere : mb < 16 → partExists s mb = true) (hfull : 16 ≤ unread (boxAt s mb)) :
    postEvent mb code a s =
      setBox mb { boxAt s mb with evSeq := ((boxAt s mb).evSeq + 1) % 2 ^ 32, lost := satTo 16 ((boxAt s mb).lost + 1) } s :=
  (if_neg (fun h => h.2 (hthere h.1))).trans (if_pos hfull)

/-! ## The statement -/

/-- Settles O57: the slots by `tget_mbRelease`, the event ring by `unread_mbRead` and `postEvent_full`. -/
theorem mailboxSlotsAndEventRing : Obligations.MailboxSlotsAndEventRing := by
  unfold Obligations.MailboxSlotsAndEventRing
  refine ⟨?submit, ?write, ?release, ?read, ?event⟩
  case submit => exact fun mb k s hbusy => if_pos hbusy
  case write => exact fun a mb off s hslots hbusy => (if_pos hslots).trans (if_neg hbusy)
  case release => exact fun mb m k s hk => tget_mbRelease hk
  case read => exact fun mb v s => unread_mbRead v
  case event =>
    intro mb code a s hthere hfull
    rw [postEvent_full hthere hfull, boxAt_setBox, if_pos rfl]
    exact ⟨rfl, rfl, rfl⟩

end Sys2Proof.Proofs.Mailboxes
end

section
/-! SUPPORT. What GET_VERSION, NEGOTIATE (R330, R331), SETTING_GET and SETTING_SET (R37, R340) answer, and the statement about them. -/
namespace Sys2Proof.Proofs.Settings

open Sys2Proof Sys2Proof.Machine Sys2Proof.Safety Sys2Proof.Laws

variable {c : Call} {s : State}

/-- A version not above PROTO_MAX is taken where no other request of the mailbox is PENDING. -/
theorem negotiate_takes (hmajor : arg c.req 0 1 = 1) (hminor : arg c.req 1 1 ≤ s.ll.protoMax)
    (halone : (pendingSlots s c.mb).all (fun e => e.1 == c.slot) = true) :
    negotiate c s = accept
      (le 1 1 ++ le 1 (arg c.req 1 1) ++ le 1 4 ++ le 1 (b2n s.build.mldsa + 2 * b2n s.ll.mgmtActive) ++ le 4 s.ll.svn ++
        le 2 s.ll.relMajor ++ le 2 s.ll.relMinor ++ le 4 s.ll.relPatch)
      (modBox c.mb (fun b => { b with major := 1, minor := arg c.req 1 1 }) s) := by
  have hversion : ¬ (arg c.req 0 1 ≠ 1 ∨ arg c.req 1 1 > s.ll.protoMax) := not_or.2 ⟨not_not_intro hmajor, Nat.not_lt.2 hminor⟩
  have hfree : ¬ (pendingSlots s c.mb).any (fun e => e.1 ≠ c.slot) = true := by simpa using halone
  unfold negotiate
  rw [if_neg hversion, if_neg hfree, hmajor]
  rfl

theorem settingSet_sets (hknown : settingKnown s (arg c.req 0 2) (arg c.req 2 2) = true)
    (hopen : settingOpen s (arg c.req 0 2) (arg c.req 2 2) = true) (hlow : (settingRange (arg c.req 0 2)).1 ≤ arg c.req 8 8)
    (hhigh : arg c.req 8 8 ≤ (settingRange (arg c.req 0 2)).2) :
    settingSet c s = accept (le 8 (arg c.req 8 8)) (putSetting (arg c.req 0 2) (arg c.req 2 2) (arg c.req 8 8) s) :=
  (if_neg (not_or.2 ⟨not_not_intro hknown, not_or.2 ⟨Nat.not_lt.2 hlow, Nat.not_lt.2 hhigh⟩⟩)).trans (if_neg (not_not_intro hopen))

/-- Settles O8: each clause is one of the operation's cases above, served by the mailbox. -/
theorem versionAndSettingRequestsComplete : Obligations.VersionAndSettingRequestsComplete := by
  unfold Obligations.VersionAndSettingRequestsComplete
  refine ⟨?versions, ?negotiate, ?get, ?set⟩
  case versions => exact repliesOk_served (fun _ _ => rfl) fun c s _ => rfl
  case negotiate =>
    refine repliesOk_served (fun _ _ => rfl) fun c s h => ?_
    simp only [Bool.and_eq_true, beq_iff_eq, decide_eq_true_eq] at h
    obtain ⟨⟨hmajor, hminor⟩, halone⟩ := h
    exact negotiate_takes hmajor hminor halone
  case get => exact repliesOk_served (fun _ _ => rfl) fun c s hknown => if_pos hknown
  case set =>
    refine repliesOk_served (fun _ _ => rfl) fun c s h => ?_
    simp only [Bool.and_eq_true, decide_eq_true_eq] at h
    obtain ⟨⟨hknown, hopen⟩, hlow, hhigh⟩ := h
    exact settingSet_sets hknown hopen hlow hhigh

end Sys2Proof.Proofs.Settings
end

section
/-! SUPPORT. What the watches of a running block do, case by case: vigil (R322), the scrub of the Lamplighter's memory (R316) and the
life-cycle code (R440); and the statement about them. -/
namespace Sys2Proof.Proofs.Watches

open Sys2Proof Sys2Proof.Machine Sys2Proof.Safety Sys2Proof.Laws

variable {v : Word32} {n : Nat} {s : State}

/-! ## Vigil (R322) -/

/-- A kick that carries the next value, and is the first or comes in time, moves the watchdog on. -/
theorem vigilKick_moves (harmed : s.trust.vigilArmed = true) (hvalue : v = nextKick s.trust.vigilValue)
    (htime : s.trust.vigilKicks = 0 ∨ s.trust.vigilLast + 50000 ≤ now s) :
    vigilKick v s = onTrust (fun t => { t with vigilValue := v, vigilKicks := t.vigilKicks + 1, vigilLast := now s
                                               vigilMaxUs := max t.vigilMaxUs (satTo 16 ((now s - t.vigilLast) / 1000)) }) s := by
  refine (if_neg (not_not_intro harmed)).trans (if_neg ?_)
  rintro (hwrong | ⟨hlater, hearly⟩)
  · exact hwrong hvalue
  · exact htime.elim hlater (Nat.not_le.2 hearly)

/-- A wrong kick is a vigil fault, and so is an early one that is not the first. -/
theorem vigilKick_fails (harmed : s.trust.vigilArmed = true)
    (hbad : v ≠ nextKick s.trust.vigilValue ∨ (s.trust.vigilKicks ≠ 0 ∧ now s < s.trust.vigilLast + 50000)) : vigilKick v s = vigilFails s :=
  (if_neg (not_not_intro harmed)).trans (if_pos hbad)

/-! ## The scrub of the Lamplighter's memory (R316) -/

/-- Without an uncorrectable word, read or injected, a scrub records the corrected ones. -/
theorem sramScrubbed_corrects (hsound : (injectCheck clsLlIntegrity kindLamplighter 0 0 0 (injectCheck clsLlCe kindLamplighter 0 0 0 s).2).1 = false) :
    sramScrubbed n false s =
      scrubCorrected (n + b2n (injectCheck clsLlCe kindLamplighter 0 0 0 s).1)
        (injectCheck clsLlIntegrity kindLamplighter 0 0 0 (injectCheck clsLlCe kindLamplighter 0 0 0 s).2).2 :=
  if_neg (not_or.2 ⟨ne_true_of_eq_false hsound, Bool.false_ne_true⟩)

/-- An uncorrectable word stops the sequencer after the corrected ones are recorded. -/
theorem sramScrubbed_stops : sramScrubbed n true s =
    integrityFails (scrubCorrected (n + b2n (injectCheck clsLlCe kindLamplighter 0 0 0 s).1)
      (injectCheck clsLlIntegrity kindLamplighter 0 0 0 (injectCheck clsLlCe kindLamplighter 0 0 0 s).2).2) :=
  if_pos (.inr rfl)

/-! ## The life-cycle code (R440) -/

theorem lcCorrupt_records (hidle : inTransition s = false) : lcCorrupt s = simpleFault clsLcCorrupt kindTrust 0 s :=
  if_neg (ne_true_of_eq_false hidle)

/-! ## The statement -/

/-- Settles O44: each clause is one of the cases above. That the first kick may come at any time after the arming is the model's reading
(notes/assumptions/33.md). -/
theorem watchesComplete : Obligations.WatchesComplete := by
  unfold Obligations.WatchesComplete
  refine ⟨?kick, ?badKick, ?noKick, ?integrity, ?corrected, ?uncorrectable, ?slots, ?entropy, ?codeHolds, ?codeLost, ?shadows⟩
  case kick =>
    refine fun v => does_served (fun _ => rfl) fun s h => ?_
    simp only [Bool.and_eq_true, Bool.or_eq_true, beq_iff_eq, decide_eq_true_eq] at h
    obtain ⟨⟨harmed, hvalue⟩, htime⟩ := h
    exact vigilKick_moves harmed hvalue htime
  case badKick =>
    refine fun v => does_served (fun _ => rfl) fun s h => ?_
    simp only [Bool.and_eq_true, Bool.or_eq_true, bne_iff_ne, decide_eq_true_eq] at h
    exact vigilKick_fails h.1 h.2
  case noKick =>
    refine does_served (fun _ => rfl) fun s h => ?_
    simp only [Bool.and_eq_true, decide_eq_true_eq] at h
    exact if_pos h
  case integrity => exact does_served (fun _ => rfl) fun s _ => rfl
  case corrected =>
    refine fun n u => does_served (fun _ => rfl) fun s h => ?_
    simp only [Bool.and_eq_true, Bool.not_eq_true'] at h
    obtain ⟨⟨hnone, rfl⟩, hsound⟩ := h
    rw [sramScrubbed_corrects hsound, hnone]
    rfl
  case uncorrectable => exact fun n => does_served (fun _ => rfl) fun s _ => sramScrubbed_stops
  case slots => exact fun ks => does_served (fun _ => rfl) fun s _ => rfl
  case entropy => exact does_served (fun _ => rfl) fun s _ => rfl
  case codeHolds => exact fun a b c => does_served (fun _ => rfl) fun s hsame => if_pos (beq_iff_eq.1 hsame)
  case codeLost =>
    refine fun a b c => does_served (fun _ => rfl) fun s h => ?_
    simp only [Bool.and_eq_true, Bool.not_eq_true', bne_iff_ne] at h
    exact (if_neg h.1).trans (lcCorrupt_records h.2)
  case shadows => exact does_served (fun _ => rfl) fun s hidle => lcCorrupt_records ((Bool.not_eq_true' _).mp hidle)

end Sys2Proof.Proofs.Watches
end

section
/-! SUPPORT. What the management port does with a message (R334, R513), an endpoint ID (R512) and a common command code (R511), case by
case, and the statement about it. -/
namespace Sys2Proof.Proofs.ManagementPort

open Sys2Proof Sys2Proof.Machine Sys2Proof.Safety Sys2Proof.Laws

variable {m : MctpMsg} {msg : Bytes} {k a n v : Nat} {s : State}

/-! ## MCTP messages (R334, R513) -/

/-- A served message is taken where none of the reasons to drop it holds. -/
theorem mctpTaken_iff : mctpTaken s m = true ↔ boxServed s 17 = true ∧
    ¬ (¬ m.inSequence = true ∨ m.body.length + 5 > 285 ∨ m.body.length < 16 ∨ m.vendor ≠ s.build.mgmtPen) := by
  simp [mctpTaken, and_assoc]

/-- Without a session a message has no trailer (R257), and what it carries is a request. -/
theorem takeMctp_takes (htaken : mctpTaken s m = true) (hsession : s.ll.mgmtActive = false) :
    takeMctp m s = takeMgmt m m.body s := by
  obtain ⟨hserved, hformed⟩ := mctpTaken_iff.1 htaken
  have hplain : openTrailer s m.body = some m.body := if_pos (ne_true_of_eq_false hsession)
  unfold takeMctp
  rw [if_neg (not_not_intro hserved), if_neg hformed, hplain]
  dsimp only
  rw [if_neg (ne_true_of_eq_false hsession)]

theorem takeMctp_drops (hserved : boxServed s 17 = true) (hbad : mctpTaken s m = false) : takeMctp m s = dropMctp s :=
  (if_neg (not_not_intro hserved)).trans
    (if_pos (not_not.1 fun hformed => ne_true_of_eq_false hbad (mctpTaken_iff.2 ⟨hserved, hformed⟩)))

/-- A request whose LENGTH is its payload's goes into the lowest free slot. -/
theorem takeMgmt_pends (hlen : reqLen msg + 16 = msg.length)
    (hfree : (List.range 4).find? (fun k => (tget {} (boxAt s 17).slots k).state == .free) = some k) :
    takeMgmt m msg s =
      settle {} (setBox 17 { boxAt s 17 with
        order := (boxAt s 17).order + 1
        slots := tset {} (boxAt s 17).slots k
          { state := .pending, request := fit 256 msg, order := (boxAt s 17).order, mctpTag := m.tag, mctpEid := m.eid } } s) := by
  simp only [takeMgmt, if_neg (not_not_intro hlen), hfree]

theorem takeMgmt_busy (hlen : reqLen msg + 16 = msg.length)
    (hfull : (List.range 4).find? (fun k => (tget {} (boxAt s 17).slots k).state == .free) = none) :
    takeMgmt m msg s = mctpSend m.eid m.tag (responseOf (boxAt s 17) msg stBusy []) s := by
  simp only [takeMgmt, if_neg (not_not_intro hlen), hfull]

/-! ## Common command codes (R511) -/

theorem takeCcc_entdaa (hnone : s.boxes.i3cAddr = 0) :
    takeCcc (.entdaa a) s = emit (.i3c s.build.mgmtPid) (onBoxes (fun b => { b with i3cAddr := a % 128 }) s) :=
  if_pos (beq_iff_eq.2 hnone)

theorem takeCcc_setmwl (haddr : s.boxes.i3cAddr ≠ 0) : takeCcc (.setmwl n) s = onBoxes (fun b => { b with mwl := min n 69 }) s :=
  if_neg (fun h => haddr (beq_iff_eq.1 h))

theorem cccAnswer_addressed (haddr : s.boxes.i3cAddr ≠ 0) : cccAnswer v s = emit (.i3c v) s := if_neg haddr

/-! ## The statement -/

/-- Settles O48: each clause is one of the cases above. That ENTDAA acts only without an address, that SETMWL stops at 69, and that an
endpoint ID outside 0x08 to 0xFE is answered false, are the model's readings (notes/assumptions/54.md). -/
theorem managementPortCompletes : Obligations.ManagementPortCompletes := by
  unfold Obligations.ManagementPortCompletes
  refine ⟨?request, ?busy, ?dropped, ?endpoint, ?noEndpoint, ?entdaa, ?rstdaa, ?setmwl, ?getbcr, ?session, ?digests⟩
  case request =>
    refine fun m k => does_served (fun _ => rfl) fun s h => ?_
    simp only [Bool.and_eq_true, Bool.not_eq_true', beq_iff_eq] at h
    obtain ⟨⟨⟨htaken, hsession⟩, hlen⟩, hfree⟩ := h
    exact (takeMctp_takes htaken hsession).trans (takeMgmt_pends hlen hfree)
  case busy =>
    refine fun m => does_served (fun _ => rfl) fun s h => ?_
    simp only [Bool.and_eq_true, Bool.not_eq_true', beq_iff_eq] at h
    obtain ⟨⟨⟨htaken, hsession⟩, hlen⟩, hfull⟩ := h
    exact (takeMctp_takes htaken hsession).trans (takeMgmt_busy hlen hfull)
  case dropped =>
    refine fun m => does_served (fun _ => rfl) fun s h => ?_
    simp only [Bool.and_eq_true, Bool.not_eq_true'] at h
    exact takeMctp_drops h.1 h.2
  case endpoint => exact fun e => does_served (fun _ => rfl) fun s h => if_pos (of_decide_eq_true h)
  case noEndpoint =>
    refine fun e => does_served (fun _ => rfl) fun s h => if_neg ?_
    have hout := of_decide_eq_true h
    omega
  case entdaa => exact fun a => does_served (fun _ => rfl) fun s hnone => takeCcc_entdaa (beq_iff_eq.1 hnone)
  case rstdaa => exact does_served (fun _ => rfl) fun s _ => rfl
  case setmwl => exact fun n => does_served (fun _ => rfl) fun s haddr => takeCcc_setmwl (bne_iff_ne.1 haddr)
  case getbcr => exact does_served (fun _ => rfl) fun s haddr => cccAnswer_addressed (bne_iff_ne.1 haddr)
  case session =>
    refine does_served (fun _ => rfl) fun s h => ?_
    simp only [Bool.and_eq_true, decide_eq_true_eq] at h
    exact if_pos h
  case digests => exact does_served (fun _ => rfl) fun s _ => rfl

end Sys2Proof.Proofs.ManagementPort
end

section
/-! SUPPORT. What a step does to the queue, the build and the fuses: the form of every command's effect (R380, R442, R490), and the
statements about the steps of the block. -/
namespace Sys2Proof.Proofs.Steps

open Sys2Proof Sys2Proof.Machine Sys2Proof.Safety Sys2Proof.Laws

variable {c : Instr} {f : State → State} {s t : State}

/-! ## The fuses under a command's effect -/

theorem rowsGrow_powerFall (s : State) : RowsGrow s (powerFall s) := by
  unfold powerFall
  split
  · exact rowsGrow_refl s
  · exact rowsGrow_of (otpOf_coreLost _)

/-- A block reset that is due boots the block again; without one nothing happens. -/
theorem rowsGrow_resetWhenDue (inp : BootIn) (s : State) :
    RowsGrow s (match s.faults.blockDue with
      | none => s
      | some n => blockReset_ inp n s) := by
  cases s.faults.blockDue with
  | none => exact rowsGrow_refl s
  | some n => exact rowsGrow_blockReset inp n s

/-! ## The form of a command -/

/-- Every command's effect is held to a running block, unless the command acts on a stopped one (R380, R490). -/
theorem exec_form (c : Instr) : ∃ f, ∀ s, exec c s = if actsStopped c then step1 f s else whenRunning f s := by
  cases c
  all_goals exact ⟨_, fun _ => rfl⟩

/-- An outcome held to a running block is the effect, framed, or the state as it was. -/
theorem whenRunning_cases (h : whenRunning f s = .next t) : t = framed f s ∨ t = s := by
  unfold whenRunning at h
  split at h
  · exact .inl (Host.Outcome.next.inj h).symm
  · exact .inr (Host.Outcome.next.inj h).symm

theorem exec_cases (h : exec c s = .next t) : ∃ f, t = framed f s ∨ t = s := by
  obtain ⟨f, hf⟩ := exec_form c
  rw [hf s] at h
  split at h
  · exact ⟨f, .inl (Host.Outcome.next.inj h).symm⟩
  · exact ⟨f, whenRunning_cases h⟩

theorem exec_frame (h : exec c s = .next t) : t.build = s.build ∧ t.pending = s.pending := by
  obtain ⟨f, rfl | rfl⟩ := exec_cases h
  · exact ⟨rfl, rfl⟩
  · exact ⟨rfl, rfl⟩

theorem exec_stopped (hc : actsStopped c = false) (hs : running s = false) : exec c s = .next s := by
  obtain ⟨f, hf⟩ := exec_form c
  rw [hf, if_neg (ne_true_of_eq_false hc), whenRunning_stopped hs]

/-! ## The life cycle and the fuses under a command (R442) -/

theorem step1_lc (h : step1 f s = .next t) (hlc : (f s).lc = s.lc) : t.lc = s.lc := by
  rw [← Host.Outcome.next.inj h]
  exact hlc

theorem whenRunning_lc (h : whenRunning f s = .next t) (hlc : (f s).lc = s.lc) : t.lc = s.lc := by
  obtain rfl | rfl := whenRunning_cases h
  · exact hlc
  · rfl

theorem rowsGrow_step1 (h : step1 f s = .next t) (hrows : RowsGrow s (f s)) : RowsGrow s t := by
  rw [← Host.Outcome.next.inj h]
  exact rowsGrow_framed f s hrows

theorem rowsGrow_whenRunning (h : whenRunning f s = .next t) (hrows : RowsGrow s (f s)) : RowsGrow s t := by
  obtain rfl | rfl := whenRunning_cases h
  · exact rowsGrow_framed f s hrows
  · exact rowsGrow_refl t

/-- A command that may not burn fuses is `inCore` or `keepFuses` of its effect, which leave the life cycle alone. -/
theorem exec_lc (hburn : mayBurn c = false) (h : exec c s = .next t) : t.lc = s.lc := by
  cases c
  case powerOn => cases hburn
  case pwrOkFall => cases hburn
  case powerEventEnd => cases hburn
  case blockResetSequence => cases hburn
  case lcTransition => cases hburn
  case debugUnlockChallenge => cases hburn
  case debugUnlockUnlock => cases hburn
  case fwCommit => cases hburn
  case dusk => exact step1_lc h (by dsimp only [inCore])
  case tamperEvent => exact step1_lc h (by dsimp only [keepFuses])
  case ptMbRelease => exact step1_lc h (by dsimp only [inCore])
  case ptMbEventPtr => exact step1_lc h (by dsimp only [inCore])
  case lnTgenStart => exact step1_lc h (by dsimp only [inCore])
  case lnTgenStop => exact step1_lc h (by dsimp only [inCore])
  case registerWrite => exact step1_lc h (by dsimp only [inCore])
  case registerRead => exact step1_lc h (by dsimp only [inCore])
  case jtagInstruction => exact step1_lc h (by dsimp only [keepFuses])
  case debugAccess => exact step1_lc h (by dsimp only [keepFuses])
  all_goals exact whenRunning_lc h (by dsimp only [inCore, keepFuses])

/-- No command takes a bit out of an OTP row: one that may burn by its own law, the others leave the rows alone. -/
theorem rowsGrow_exec (h : exec c s = .next t) : RowsGrow s t := by
  cases hburn : mayBurn c
  case false => exact rowsGrow_of (congrArg LifeCycle.otp (exec_lc hburn h))
  case true =>
    cases c
    case powerOn v inp => exact rowsGrow_step1 h (rowsGrow_powerOn v inp s)
    case pwrOkFall => exact rowsGrow_step1 h (rowsGrow_powerFall s)
    case powerEventEnd => exact rowsGrow_step1 h (rowsGrow_duskEnds s)
    case blockResetSequence inp => exact rowsGrow_whenRunning h (rowsGrow_resetWhenDue inp s)
    case lcTransition r => exact rowsGrow_whenRunning h (rowsGrow_serve _ _ _ r s rowsGrow_lcTransition)
    case debugUnlockChallenge r => exact rowsGrow_whenRunning h (rowsGrow_serve _ _ _ r s rowsGrow_debugChallenge)
    case debugUnlockUnlock r => exact rowsGrow_whenRunning h (rowsGrow_serve _ _ _ r s rowsGrow_debugUnlock)
    case fwCommit r => exact rowsGrow_whenRunning h (rowsGrow_serve _ _ _ r s rowsGrow_fwCommit)
    all_goals cases hburn

/-! ## A step -/

/-- A step runs the front command in the state without it, or passes a nanosecond. -/
theorem step_cases (h : step s = .next t) :
    (s.pending = [] ∧ t = tick s) ∨ ∃ c rest, s.pending = c :: rest ∧ exec c { s with pending := rest } = .next t := by
  unfold step at h
  split at h
  · next hnone => exact .inl ⟨hnone, (Host.Outcome.next.inj h).symm⟩
  · next c rest hcons => exact .inr ⟨c, rest, hcons, h⟩

theorem step_front {rest : List Instr} (h : s.pending = c :: rest) : step s = exec c { s with pending := rest } := by
  unfold step
  rw [h]

theorem step_idle (h : s.pending = []) : step s = .next (tick s) := by
  unfold step
  rw [h]

theorem rowsGrow_step (h : step s = .next t) : RowsGrow s t := by
  obtain ⟨-, rfl⟩ | ⟨c, rest, -, hexec⟩ := step_cases h
  · exact rowsGrow_tick s
  · exact rowsGrow_left (s' := { s with pending := rest }) rfl (rowsGrow_exec hexec)

theorem tick_frame (s : State) : (tick s).build = s.build ∧ (tick s).pending = s.pending := by
  unfold tick framed
  exact ⟨rfl, rfl⟩

/-- A step leaves the build and drops the front of the queue. -/
theorem step_frame (h : step s = .next t) : t.build = s.build ∧ t.pending = s.pending.drop 1 := by
  obtain ⟨hnone, rfl⟩ | ⟨c, rest, hcons, hexec⟩ := step_cases h
  · rw [hnone]
    exact ⟨(tick_frame s).1, (tick_frame s).2.trans hnone⟩
  · rw [hcons]
    exact exec_frame hexec

theorem framed_eq (hpending : (f s).pending = s.pending) (hbuild : (f s).build = s.build) : framed f s = f s := by
  unfold framed
  rw [← hpending, ← hbuild]

theorem rtcTick_pending (s : State) : (rtcTick s).pending = s.pending := by rw [rtcTick, onTrust_pending]
theorem rtcTick_build (s : State) : (rtcTick s).build = s.build := by rw [rtcTick, onTrust_build]

theorem rtcTick_pwrOk (s : State) : (rtcTick s).trust.pwrOk = s.trust.pwrOk := by
  rw [rtcTick, onTrust_trust]
  split
  · rfl
  · rfl

/-- Without power nothing but the real-time clock counts. -/
theorem tick_unpowered (h : s.trust.pwrOk = false) : tick s = rtcTick s := by
  have hbody : tickBody s = rtcTick s := if_neg (ne_true_of_eq_false ((rtcTick_pwrOk s).trans h))
  rw [tick, framed_eq, hbody]
  · rw [hbody, rtcTick_pending]
  · rw [hbody, rtcTick_build]

/-! ## The statements -/

/-- Settles O4: the codes by their table, a nanosecond by `rowsGrow_tick`, a command by the form of its effect. -/
theorem fusesOnlyGainBits : Obligations.FusesOnlyGainBits := by
  unfold Obligations.FusesOnlyGainBits
  refine ⟨rfl, rfl, rfl, rfl, fun a b hab hb => ?_, fun s t h => rowsGrow_step h⟩
  have hcodes : ∀ b ≤ 3, ∀ a ≤ b, lcCode a &&& lcCode b = lcCode a := by decide
  exact hcodes b hb a hab

/-- Settles O7: every command has the form `ActsAs`. -/
theorem stoppedBlockIgnoresCommands : Obligations.StoppedBlockIgnoresCommands := by
  unfold Obligations.StoppedBlockIgnoresCommands
  refine ⟨fun c s hc hs => exec_stopped hc hs, fun c s t h => ?_⟩
  obtain ⟨hbuild, hpending⟩ := exec_frame h
  exact ⟨hbuild, hpending, fun hburn => exec_lc hburn h⟩

/-- Settles O3: what is left of the queue is legal with it. -/
theorem everyStepKeepsTheQueue : Obligations.EveryStepKeepsTheQueue := by
  unfold Obligations.EveryStepKeepsTheQueue
  intro s t h
  obtain ⟨hbuild, hpending⟩ := step_frame h
  refine ⟨hbuild, hpending, fun hlegal => ?_⟩
  simp only [queueLegal, Bool.and_eq_true, List.all_eq_true] at hlegal ⊢
  rw [hbuild, hpending]
  exact ⟨hlegal.1, fun c hc => hlegal.2 c (List.mem_of_mem_drop hc)⟩

/-- Settles O1: by the definition of a step; without power a nanosecond is the real-time clock's alone. That an idle step is a nanosecond is
the model's choice (notes/assumptions/1.md). -/
theorem stepRunsTheFrontCommand : Obligations.StepRunsTheFrontCommand := by
  unfold Obligations.StepRunsTheFrontCommand
  exact ⟨fun c rest s h => step_front h, fun s h => ⟨step_idle h, (tick_frame s).2.trans h, (tick_frame s).1⟩, fun s h => tick_unpowered h⟩

/-- Settles O2: every field of the state after reset is at its default. -/
theorem resetIsLegal : Obligations.ResetIsLegal := by
  unfold Obligations.ResetIsLegal
  have hbuild : queueLegal State.reset = true := by decide
  exact ⟨hbuild, rfl, rfl, rfl, fun k => rfl, _, step_idle rfl⟩

end Sys2Proof.Proofs.Steps
end

section
/-! SUPPORT. What the power, sensor, reservation, fault, injection and dump requests by mailbox answer (R364, R367 to R369, R379, R381,
R403 to R405), case by case, and the statement about them. -/
namespace Sys2Proof.Proofs.FaultRequests

open Sys2Proof Sys2Proof.Machine Sys2Proof.Safety Sys2Proof.Laws

variable {c : Call} {s : State}

/-! ## The cap and the reservations (R364, R369) -/

theorem powerCapSet_sets (h : arg c.req 0 4 = 0 ∨ (s.build.capMin ≤ arg c.req 0 4 ∧ arg c.req 0 4 ≤ s.build.capMax)) :
    powerCapSet c s = accept (capPayload (onReg (fun g => { g with cap := arg c.req 0 4 }) s)) (onReg (fun g => { g with cap := arg c.req 0 4 }) s) := by
  refine if_neg ?_
  rintro ⟨hsome, hlow | hhigh⟩
  · exact h.elim hsome fun hrange => Nat.not_lt.2 hrange.1 hlow
  · exact h.elim hsome fun hrange => Nat.not_lt.2 hrange.2 hhigh

/-- The payload of RESERVATION_QUERY for an owner and a resource. -/
def reservationPayload (s : State) (p kind i : Nat) : Bytes :=
  let r := resOf kind i
  let x := resourceAt s r
  le 1 1 ++ le 1 (b2n x.derated + 2 * b2n x.bgShed + 4 * b2n (x.inReset || resInReset s r)) ++ le 2 (bwShare s p kind) ++ le 2 (rtUnits s p r) ++
    le 2 x.fNormal ++ le 2 x.fRt ++ le 2 x.avail ++ le 4 (effectiveMbps s p r) ++ le 4 (tget 0 s.reg.missedRes r) ++ le 4 (guaranteed s p r) ++ zeros 8

theorem reservationQuery_answers {p : Nat} (howner : queriedOwner s c = .ok p) (hkind : arg c.req 1 1 ≤ 2)
    (hindex : arg c.req 2 1 < resCount s (arg c.req 1 1)) :
    reservationQuery c s = accept (reservationPayload s p (arg c.req 1 1) (arg c.req 2 1)) s := by
  simp only [reservationQuery, howner]
  exact if_neg (not_or.2 ⟨Nat.not_lt.2 hkind, Nat.not_le.2 hindex⟩)

/-! ## Fault records (R379, R404) -/

theorem faultRead_lists (hmin : 1 ≤ arg c.req 4 1) (hmax : arg c.req 4 1 ≤ 3) :
    faultRead c s =
      let rs := ((storedRecords s).filter (fun r => readable c.mb r && decide (arg c.req 0 4 ≤ r.seq) && (!bit (arg c.req 5 1) 0 || !r.acked) &&
        (!bit (arg c.req 5 1) 1 || decide (2 ≤ r.severity)))).take (arg c.req 4 1)
      accept (le 4 ((rs.getLast?.map (fun r => (r.seq + 1) % 2 ^ 32)).getD (arg c.req 0 4)) ++ le 1 rs.length ++ zeros 3 ++ rs.flatMap FaultRec.bytes) s :=
  if_neg (by omega)

theorem faultAck_acknowledges {x : FaultRec} (hfind : (storedRecords s).find? (fun r => r.seq == arg c.req 0 4) = some x)
    (hmay : mayAck c.mb x = true) : faultAck c s = accept [] (ackRecords (fun y => y.origin == x.origin && mayAck c.mb y) s) := by
  simp only [faultAck, hfind]
  exact if_neg (not_not_intro hmay)

/-! ## INJECT (R381) -/

/-- The injection a request asks for. -/
def askedInjection (r : Bytes) : Injection :=
  { cls := arg r 0 1, kind := arg r 1 1, inst := arg r 2 1, mode := arg r 3 1, sub := arg r 4 2, count := arg r 6 2, addr := BitVec.ofNat 64 (arg r 8 8) }

/-- What INJECT asks of the life cycle: not Blank, and for the trust's own sources and the code of the life cycle Test. -/
abbrev injectable (r : Bytes) (s : State) : Prop :=
  lcState s ≠ 0 ∧ (lcState s = 1 ∨ ¬ (((arg r 1 1 = kindKeyStore ∨ arg r 1 1 = kindKeyMirror) ∨ arg r 1 1 = kindTrust) ∨ arg r 0 1 = clsLcCorrupt))

theorem inject_acts (hen : s.faults.injectEn = true) (hlc : injectable c.req s) (hcls : arg c.req 0 1 ≠ 0)
    (hkind : (classKinds (arg c.req 0 1)).contains (arg c.req 1 1) = true) (hsource : sourceExists s (arg c.req 1 1) (arg c.req 2 1) = true)
    (hmode : arg c.req 3 1 ≤ 1) (hcount : arg c.req 6 2 ≠ 0) :
    inject c s = accept [] (if arg c.req 3 1 = 1 then signalFault (askedInjection c.req) s
      else onFaults (fun f => { f with inject := f.inject ++ [askedInjection c.req] }) s) := by
  have hstate : ¬ (lcState s = 0 ∨ ((arg c.req 1 1 = kindKeyStore ∨ arg c.req 1 1 = kindKeyMirror ∨ arg c.req 1 1 = kindTrust ∨
      arg c.req 0 1 = clsLcCorrupt) ∧ lcState s ≠ 1)) := by
    rintro (hblank | ⟨hown, htest⟩)
    · exact hlc.1 hblank
    · exact hlc.2.elim htest fun hother => hother (by simpa only [or_assoc] using hown)
  have hform : ¬ (arg c.req 0 1 = 0 ∨ ¬ (classKinds (arg c.req 0 1)).contains (arg c.req 1 1) = true ∨
      ¬ sourceExists s (arg c.req 1 1) (arg c.req 2 1) = true ∨ arg c.req 3 1 > 1 ∨ arg c.req 6 2 = 0) :=
    not_or.2 ⟨hcls, not_or.2 ⟨not_not_intro hkind, not_or.2 ⟨not_not_intro hsource, not_or.2 ⟨Nat.not_lt.2 hmode, hcount⟩⟩⟩⟩
  refine (if_neg (not_not_intro hen)).trans ((if_neg hstate).trans ((if_neg hform).trans ?_))
  exact (apply_ite (accept []) _ _ _).symm

/-! ## The statement -/

/-- Settles O17: each clause is one of the operation's cases above, served by the mailbox. That FAULT_ACK acknowledges those records of the
ORIGIN that its caller may acknowledge, and that NEXT is START where nothing is found, are the model's readings (notes/assumptions/47.md). -/
theorem powerAndFaultRequestsComplete : Obligations.PowerAndFaultRequestsComplete := by
  unfold Obligations.PowerAndFaultRequestsComplete
  refine ⟨?capSet, ?capGet, ?sensors, ?reservation, ?read, ?ack, ?summary, ?inject, ?dump, ?reset⟩
  case capSet =>
    refine repliesOk_served (fun _ _ => rfl) fun c s h => ?_
    simp only [Bool.or_eq_true, beq_iff_eq, decide_eq_true_eq] at h
    exact powerCapSet_sets h
  case capGet => exact repliesOk_served (fun _ _ => rfl) fun c s _ => rfl
  case sensors => exact fun temps => repliesOk_served (fun _ _ => rfl) fun c s _ => rfl
  case reservation =>
    refine fun p => repliesOk_served (fun _ _ => rfl) fun c s h => ?_
    simp only [Bool.and_eq_true, decide_eq_true_eq] at h
    obtain ⟨howner, hkind, hindex⟩ := h
    exact reservationQuery_answers (gives_eq howner) hkind hindex
  case read =>
    refine repliesOk_served (fun _ _ => rfl) fun c s h => ?_
    obtain ⟨hmin, hmax⟩ := of_decide_eq_true h
    exact faultRead_lists hmin hmax
  case ack =>
    refine fun x => repliesOk_served (fun _ _ => rfl) fun c s h => ?_
    simp only [Bool.and_eq_true, decide_eq_true_eq] at h
    exact faultAck_acknowledges h.1 h.2
  case summary => exact repliesOk_served (fun _ _ => rfl) fun c s _ => rfl
  case inject =>
    refine repliesOk_served (fun _ _ => rfl) fun c s h => ?_
    simp only [Bool.and_eq_true, Bool.or_eq_true, Bool.not_eq_true', ← Bool.not_eq_true, beq_iff_eq, bne_iff_ne, decide_eq_true_eq] at h
    obtain ⟨⟨⟨⟨⟨⟨⟨hen, hset⟩, hlc⟩, hcls⟩, hkind⟩, hsource⟩, hmode⟩, hcount⟩ := h
    exact inject_acts hen ⟨hset, hlc⟩ hcls hkind hsource hmode hcount
  case dump => exact repliesOk_served (fun _ _ => rfl) fun c s _ => rfl
  case reset => exact repliesOk_served (fun _ _ => rfl) fun c s _ => rfl

end Sys2Proof.Proofs.FaultRequests
end

section
/-! SUPPORT. What the regulator does: its evaluations and the end of DERATED (R352, R363), the windows (R360), the factors (R362), the
power cap (R365, R366, R498); and the statements about it. -/
namespace Sys2Proof.Proofs.Regulation

open Sys2Proof Sys2Proof.Machine Sys2Proof.Safety Sys2Proof.Laws

variable {l n sum lo hi step w e m i rt : Nat} {xs : List Nat} {waited : Bool} {s : State}

/-! ## Windows (R360) -/

/-- The sum of the fill levels, as the commands take it. -/
abbrev levelSum (xs : List Nat) : Nat := (xs.map (fun x => min x 15)).foldl (· + ·) 0

/-- Levels that the four bits of a channel hold are taken as they are. -/
theorem levelSum_eq_sum (h : ∀ x ∈ xs, x ≤ 15) : levelSum xs = xs.sum := by
  have hsame : xs.map (fun x => min x 15) = xs := (List.map_congr_left fun x hx => Nat.min_eq_left (h x hx)).trans (List.map_id xs)
  rw [levelSum, hsame, List.sum_eq_foldl]

theorem nextWindow_eq_adjusted : nextWindow w sum n waited lo hi step = adjusted w sum n waited lo hi step := rfl

/-- W stays between its bounds. -/
theorem adjusted_bounds (hlo : lo ≤ w) (hhi : w ≤ hi) :
    lo ≤ adjusted w sum n waited lo hi step ∧ adjusted w sum n waited lo hi step ≤ hi := by
  unfold adjusted
  split
  · omega
  split
  · omega
  · exact ⟨hlo, hhi⟩

theorem windowAdjust_lantern (hrun : running s = true) (hl : l < s.build.lanterns) (hne : xs ≠ []) :
    exec (.windowAdjust (.lantern l) xs waited) s = .next (served s (modLantern l (fun x => { x with
      window := adjusted x.window (levelSum xs) xs.length waited 1024 8192 64, qlevel := levelSum xs / xs.length }) s)) :=
  (whenServing_next _ hrun).trans
    (congrArg (fun t => Host.Outcome.next (served s t)) ((if_neg (mt List.length_eq_zero_iff.1 hne)).trans (if_neg (Nat.not_le.2 hl))))

theorem windowAdjust_capacity {c : Nat} (hrun : running s = true) (hc : c < s.build.caps) (hne : xs ≠ []) :
    exec (.windowAdjust (.capacity c) xs waited) s = .next (served s (modCap c (fun x => { x with
      window := adjusted x.window (levelSum xs) xs.length waited 64 1024 8, qlevel := levelSum xs / xs.length }) s)) :=
  (whenServing_next _ hrun).trans
    (congrArg (fun t => Host.Outcome.next (served s t)) ((if_neg (mt List.length_eq_zero_iff.1 hne)).trans (if_neg (Nat.not_le.2 hc))))

/-- What a served command leaves of the units is what its effect left. -/
theorem lanternAt_served (s t : State) (k : Nat) : lanternAt (served s t) k = lanternAt t k := rfl
theorem capAt_served (s t : State) (k : Nat) : capAt (served s t) k = capAt t k := rfl

/-- Settles O59: the window of the command's unit is the adjusted one, every other unit's stands. -/
theorem windowsFollowTheFillLevel : Obligations.WindowsFollowTheFillLevel := by
  unfold Obligations.WindowsFollowTheFillLevel
  refine ⟨?lanterns, ?capacity, fun l => rfl, fun c => rfl⟩
  case lanterns =>
    intro l xs w s hrun hl hne hlevels
    refine ⟨_, windowAdjust_lantern hrun hl hne, ?_⟩
    simp only [lanternAt_served, capAt_served, lanternAt_modLantern, if_true, levelSum_eq_sum hlevels]
    exact ⟨trivial, fun k hk => by rw [if_neg hk], fun c => rfl, fun h => adjusted_bounds h.1 h.2⟩
  case capacity =>
    intro c xs w s hrun hc hne hlevels
    refine ⟨_, windowAdjust_capacity hrun hc hne, ?_⟩
    simp only [lanternAt_served, capAt_served, capAt_modCap, if_true, levelSum_eq_sum hlevels]
    exact ⟨trivial, fun k hk => by rw [if_neg hk], fun l => rfl, fun h => adjusted_bounds h.1 h.2⟩

/-! ## Factors (R362) -/

/-- With the isochronous part and the real-time reservations covered, REALTIME keeps its whole reservation. -/
theorem factorsOf_covered (h : i + rt ≤ m) : factorsOf m i rt n = (if n = 0 then 1024 else min 1024 (1024 * (m - i - rt) / n), 1024) := if_pos h

/-- Without, the rest has nothing. -/
theorem factorsOf_short (h : m < i + rt) : factorsOf m i rt n = (0, min 1024 (1024 * (m - i) / rt)) := if_neg (Nat.not_le.2 h)

/-- A share of a bandwidth, capped at 1, grants no more than the bandwidth. -/
theorem min_div_mul_le (k b n : Nat) : min k (b / n) * n ≤ b :=
  (Nat.mul_le_mul_right n (Nat.min_le_right k (b / n))).trans (Nat.div_mul_le_self b n)

/-! ## The throttle (R365, R498) -/

theorem clampInt_bounds {a b v : Int} (h : a ≤ b) : a ≤ clampInt a b v ∧ clampInt a b v ≤ b := by
  unfold clampInt
  omega

/-- T stays from 8 to 64. -/
theorem nextThrottle_bounds (s : State) (e : Nat) : 8 ≤ nextThrottle s e ∧ nextThrottle s e ≤ 64 := by
  unfold nextThrottle
  dsimp only
  split
  · omega
  split
  · omega
  · generalize (s.reg.throttle : Int) + _ = v
    have h := clampInt_bounds (a := 8) (b := 64) (v := v) (by decide)
    omega

theorem nextThrottle_dusk (h : s.trust.dusk = true) : nextThrottle s e = 8 := if_pos h

theorem nextThrottle_uncapped (hdusk : s.trust.dusk = false) (hcap : s.reg.cap = 0) : nextThrottle s e = 64 :=
  (if_neg (ne_true_of_eq_false hdusk)).trans (if_pos hcap)

/-- Settles O60: the factors in the two cases of R362, the throttle by its clamp. That a factor is capped at 1 where M exceeds the sum is the
model's choice (notes/assumptions/50.md). -/
theorem factorsAndThrottleKeepTheirBounds : Obligations.FactorsAndThrottleKeepTheirBounds := by
  unfold Obligations.FactorsAndThrottleKeepTheirBounds
  refine ⟨fun m i rt n => ?factors, fun s e => ?throttle⟩
  case factors =>
    by_cases hcovered : i + rt ≤ m
    · rw [factorsOf_covered hcovered]
      refine ⟨?_, Nat.le_refl _, fun _ => rfl, fun _ => ⟨rfl, fun hn => ?_⟩, fun hshort => absurd hcovered (Nat.not_le.2 hshort)⟩
      · dsimp only
        split
        · exact Nat.le_refl _
        · exact Nat.min_le_left _ _
      · exact (congrArg (· * n) (if_neg hn.ne')).trans_le (min_div_mul_le _ _ n)
    · have hshort := Nat.not_le.1 hcovered
      rw [factorsOf_short hshort]
      exact ⟨Nat.zero_le _, Nat.min_le_left _ _, fun hne => absurd rfl hne, fun h => absurd h hcovered,
        fun _ => ⟨rfl, min_div_mul_le _ _ rt⟩⟩
  case throttle =>
    obtain ⟨hlow, hhigh⟩ := nextThrottle_bounds s e
    exact ⟨hlow, hhigh, nextThrottle_dusk, nextThrottle_uncapped⟩

/-! ## Evaluations and the cap's steps (R352, R363, R365, R366) -/

/-- The state after a step has the throttle that was computed. -/
theorem capStepped_eq (e : Nat) (s : State) : capStepped e s =
    watchCap ((estimatesWith s e).foldl (· + ·) 0) (estimatesWith s e).length
      (if nextThrottle s e = s.reg.throttle then throttleSet e s else sendSetting 0 (nextThrottle s e) (throttleSet e s)) := rfl

/-- Settles O46: each clause is its step's case. -/
theorem regulationCompletes : Obligations.RegulationCompletes := by
  unfold Obligations.RegulationCompletes
  refine ⟨?evaluation, ?exit, ?lantern, ?capacity, ?same, ?moved⟩
  case evaluation =>
    exact fun a => does_served (fun _ => rfl) fun s h => if_neg (Nat.not_lt.2 (of_decide_eq_true h))
  case exit =>
    refine fun r t => does_served (fun _ => rfl) fun s h => ?_
    simp only [Bool.and_eq_true, Bool.not_eq_true', beq_iff_eq, decide_eq_true_eq] at h
    obtain ⟨⟨⟨hsince, hderated⟩, hreset⟩, hdue⟩ := h
    simp only [hsince]
    exact if_pos ⟨hderated, ne_true_of_eq_false hreset, hdue⟩
  case lantern =>
    intro l xs w s hrun h
    simp only [Bool.and_eq_true, Bool.not_eq_true', List.isEmpty_eq_false_iff, decide_eq_true_eq] at h
    exact windowAdjust_lantern hrun h.2 h.1
  case capacity =>
    intro c xs w s hrun h
    simp only [Bool.and_eq_true, Bool.not_eq_true', List.isEmpty_eq_false_iff, decide_eq_true_eq] at h
    exact windowAdjust_capacity hrun h.2 h.1
  case same =>
    refine fun e => does_served (fun _ => rfl) fun s h => ?_
    simp only [Bool.and_eq_true, beq_iff_eq, decide_eq_true_eq] at h
    rw [if_neg (Nat.not_lt.2 h.1), capStepped_eq, if_pos h.2]
  case moved =>
    refine fun e => does_served (fun _ => rfl) fun s h => ?_
    simp only [Bool.and_eq_true, bne_iff_ne, decide_eq_true_eq] at h
    rw [if_neg (Nat.not_lt.2 h.1), capStepped_eq, if_neg h.2]

end Sys2Proof.Proofs.Regulation
end

section
/-! SUPPORT. What the operations of TRACE_CONFIG answer by mailbox (R413 to R418, R422, R425), case by case, and the statement about
them. -/
namespace Sys2Proof.Proofs.TraceRequests

open Sys2Proof Sys2Proof.Machine Sys2Proof.Safety Sys2Proof.Laws

variable {c : Call} {s : State}

/-- The buffer or watch a request names. -/
abbrev named (c : Call) : Nat := arg c.req 1 1

/-! ## BUFFER -/

/-- A buffer as BUFFER configures it for its requester. -/
abbrev configured (c : Call) (o : Option Nat) (s : State) : State :=
  modBuf (named c) (fun b => { b with owner := some c.mb, policy := arg c.req 2 1, obj := o.getD noObj, remote := o.isNone, offset := arg c.req 8 8
                                      length := arg c.req 16 4, post := if arg c.req 2 1 = 2 then arg c.req 20 4 else 0, fired := false }) s

theorem traceBuffer_enables {o : Option Nat} (hindex : named c < 32) (hfields : bufFieldsOk c.req = true) (hmay : mayBuf s c.mb (named c) = true)
    (hoff : bufEnabled s (named c) = false) (hplace : bufPlace s c.mb c.req = .ok o) :
    traceBuffer c s = accept [] (controlBoth (named c) 0 (o.elim (configured c o s) (fun i => holdObjs [i] (configured c o s)))) := by
  unfold traceBuffer
  rw [if_neg (not_or.2 ⟨Nat.not_le.2 hindex, not_not_intro hfields⟩), if_neg (not_not_intro hmay), if_neg (ne_true_of_eq_false hoff)]
  simp only [Call.owner, hplace]
  cases o with
  | none => rfl
  | some i => rfl

/-! ## SOURCES, TRIGGER, WATCH -/

theorem traceSources_sets (hindex : named c < 32) (hmin : arg c.req 16 4 ≠ 0) (hmax : arg c.req 16 4 ≤ 65536)
    (hmay : mayBuf s c.mb (named c) = true)
    (hctx : arg c.req 20 4 = 0xFFFF ∨ ctxOk s ((bufAt s (named c)).owner.getD c.mb) (arg c.req 20 4) = true) :
    traceSources c s = accept [] (modBuf (named c) (fun b => { b with types := arg c.req 4 4, maskW := BitVec.ofNat 64 (arg c.req 8 8)
                                                                      maskE := BitVec.ofNat 64 (arg c.req 24 8), sample := arg c.req 16 4
                                                                      ctx := arg c.req 20 4 }) (claimBuf (named c) c.mb s)) := by
  have hctxOk : ¬ (arg c.req 20 4 ≠ 0xFFFF ∧ ¬ ctxOk s ((bufAt s (named c)).owner.getD c.mb) (arg c.req 20 4) = true) :=
    fun h => hctx.elim h.1 h.2
  exact (if_neg (not_or.2 ⟨Nat.not_le.2 hindex, not_or.2 ⟨hmin, Nat.not_lt.2 hmax⟩⟩)).trans
    ((if_neg (not_not_intro hmay)).trans (if_neg hctxOk))

theorem traceTrigger_sets (hindex : named c < 32) (hcond : arg c.req 2 1 ≤ 6) (hwatch : arg c.req 2 1 ≠ 4 ∨ arg c.req 4 4 < 32)
    (hmay : mayBuf s c.mb (named c) = true) (hown : 16 ≤ c.mb ∨ condConcerns s c.mb (arg c.req 2 1) (arg c.req 4 4) = true) :
    traceTrigger c s = accept [] (modBuf (named c) (fun b => { b with cond := arg c.req 2 1, arg := arg c.req 4 4 }) (claimBuf (named c) c.mb s)) := by
  have hform : ¬ (named c ≥ 32 ∨ arg c.req 2 1 > 6 ∨ (arg c.req 2 1 = 4 ∧ arg c.req 4 4 ≥ 32)) := by omega
  have hright : ¬ (¬ mayBuf s c.mb (named c) = true ∨ (c.mb < 16 ∧ ¬ condConcerns s c.mb (arg c.req 2 1) (arg c.req 4 4) = true)) :=
    not_or.2 ⟨not_not_intro hmay, fun h => hown.elim (Nat.not_le.2 h.1) h.2⟩
  exact (if_neg hform).trans (if_neg hright)

theorem traceWatch_drops (hindex : named c < 32) (hoff : arg c.req 2 1 = 0) (hmay : mayWatch s c.mb (named c) = true) :
    traceWatch c s = accept [] (setWatch (named c) {} s) :=
  (if_neg (show ¬ (named c ≥ 32 ∨ arg c.req 2 1 > 1) by omega)).trans ((if_neg (not_not_intro hmay)).trans (if_pos hoff))

theorem traceWatch_sets (hindex : named c < 32) (hon : arg c.req 2 1 = 1) (hbuf : arg c.req 3 1 < 32) (hmin : arg c.req 8 4 ≠ 0)
    (hmax : arg c.req 8 4 ≤ 65536) (hmay : mayWatch s c.mb (named c) = true) (hctx : ctxOk s c.mb (arg c.req 4 2) = true)
    (howner : (bufAt s (arg c.req 3 1)).owner = some c.mb) :
    traceWatch c s = accept [] (setWatch (named c)
      { on := true, owner := c.mb, ctx := arg c.req 4 2, desc := arg c.req 6 2, every := arg c.req 8 4, buf := arg c.req 3 1 } s) := by
  have hform : ¬ (arg c.req 3 1 ≥ 32 ∨ arg c.req 8 4 = 0 ∨ arg c.req 8 4 > 65536 ∨ ¬ ctxOk s c.mb (arg c.req 4 2) = true) :=
    not_or.2 ⟨Nat.not_le.2 hbuf, not_or.2 ⟨hmin, not_or.2 ⟨Nat.not_lt.2 hmax, not_not_intro hctx⟩⟩⟩
  exact (if_neg (show ¬ (named c ≥ 32 ∨ arg c.req 2 1 > 1) by omega)).trans ((if_neg (not_not_intro hmay)).trans
    ((if_neg (show ¬ arg c.req 2 1 = 0 by omega)).trans ((if_neg hform).trans (if_neg (not_not_intro howner)))))

/-! ## FIRE, STOP, REARM, DISABLE -/

/-- A further operation acts on a buffer that its requester may name and that is enabled, where the operation asks for that. -/
theorem onEnabled_acts {off : Bool} (f : Nat → State → Answer × State) (hindex : named c < 32) (hmay : mayBuf s c.mb (named c) = true)
    (hon : off = true ∨ bufEnabled s (named c) = true) : onEnabled c off f s = f (named c) s :=
  (if_neg (Nat.not_le.2 hindex)).trans ((if_neg (not_not_intro hmay)).trans (if_neg fun h => hon.elim h.1 h.2))

theorem traceRearm_starts (hindex : named c < 32) (hmay : mayBuf s c.mb (named c) = true) (hon : bufEnabled s (named c) = true)
    (hplace : (bufAt s (named c)).remote = true ∨ (bufAt s (named c)).obj ≠ noObj) :
    traceRearm c s = accept [] (controlBoth (named c) 6 s) :=
  (onEnabled_acts _ hindex hmay (.inr hon)).trans (if_neg fun h => hplace.elim h.1 fun hobj => hobj h.2)

/-! ## The statement -/

/-- Settles O18: each clause is one of the operation's cases above, served by the mailbox. That SOURCES and TRIGGER claim a free buffer, and
that DISABLE drops the watches that name the buffer, are the model's readings (notes/assumptions/72.md). -/
theorem traceRequestsComplete : Obligations.TraceRequestsComplete := by
  unfold Obligations.TraceRequestsComplete
  refine ⟨?buffer, ?sources, ?trigger, ?unwatch, ?watch, ?fire, ?stop, ?rearm, ?disable⟩
  case buffer =>
    refine fun o => repliesOk_served (fun _ _ => rfl) fun c s h => ?_
    simp only [Bool.and_eq_true, Bool.not_eq_true', decide_eq_true_eq] at h
    obtain ⟨⟨⟨⟨hindex, hfields⟩, hmay⟩, hoff⟩, hplace⟩ := h
    exact traceBuffer_enables hindex hfields hmay hoff (gives_eq hplace)
  case sources =>
    refine repliesOk_served (fun _ _ => rfl) fun c s h => ?_
    simp only [Bool.and_eq_true, Bool.or_eq_true, beq_iff_eq, decide_eq_true_eq] at h
    obtain ⟨⟨⟨hindex, hmin, hmax⟩, hmay⟩, hctx⟩ := h
    exact traceSources_sets hindex hmin hmax hmay hctx
  case trigger =>
    refine repliesOk_served (fun _ _ => rfl) fun c s h => ?_
    simp only [Bool.and_eq_true, Bool.or_eq_true, bne_iff_ne, decide_eq_true_eq] at h
    obtain ⟨⟨⟨⟨hindex, hcond⟩, hwatch⟩, hmay⟩, hown⟩ := h
    exact traceTrigger_sets hindex hcond hwatch hmay hown
  case unwatch =>
    refine repliesOk_served (fun _ _ => rfl) fun c s h => ?_
    simp only [Bool.and_eq_true, decide_eq_true_eq] at h
    obtain ⟨⟨hindex, hoff⟩, hmay⟩ := h
    exact traceWatch_drops hindex hoff hmay
  case watch =>
    refine repliesOk_served (fun _ _ => rfl) fun c s h => ?_
    simp only [Bool.and_eq_true, beq_iff_eq, decide_eq_true_eq] at h
    obtain ⟨⟨⟨⟨hindex, hon, hbuf, hmin, hmax⟩, hmay⟩, hctx⟩, howner⟩ := h
    exact traceWatch_sets hindex hon hbuf hmin hmax hmay hctx howner
  case fire =>
    refine repliesOk_served (fun _ _ => rfl) fun c s h => ?_
    simp only [Bool.and_eq_true, decide_eq_true_eq] at h
    obtain ⟨⟨hindex, hmay⟩, hon⟩ := h
    exact onEnabled_acts _ hindex hmay (.inr hon)
  case stop =>
    refine repliesOk_served (fun _ _ => rfl) fun c s h => ?_
    simp only [Bool.and_eq_true, decide_eq_true_eq] at h
    obtain ⟨⟨hindex, hmay⟩, hon⟩ := h
    exact onEnabled_acts _ hindex hmay (.inr hon)
  case rearm =>
    refine repliesOk_served (fun _ _ => rfl) fun c s h => ?_
    simp only [Bool.and_eq_true, Bool.or_eq_true, bne_iff_ne, decide_eq_true_eq] at h
    obtain ⟨⟨⟨hindex, hmay⟩, hon⟩, hplace⟩ := h
    exact traceRearm_starts hindex hmay hon hplace
  case disable =>
    refine repliesOk_served (fun _ _ => rfl) fun c s h => ?_
    simp only [Bool.and_eq_true, decide_eq_true_eq] at h
    exact onEnabled_acts _ h.1 h.2 (.inl rfl)

end Sys2Proof.Proofs.TraceRequests
end

section
/-! SUPPORT. What power, power events and tamper do (R490 to R494, R497 to R499, R517), the Terminal state's entry (R380) and the request of
the flash bus (R510); the levels of the fault classes (R377); and the statements about them. -/
namespace Sys2Proof.Proofs.Power

open Sys2Proof Sys2Proof.Machine Sys2Proof.Safety Sys2Proof.Laws

variable {a : RegAccess} {c d : Nat} {causes : BitVec 16} {s : State}

/-! ## Power and power events (R490 to R492, R497 to R499, R517) -/

theorem powerOn_unpowered {vbatKept : Bool} {inp : BootIn} (hoff : s.trust.pwrOk = false) : powerOn vbatKept inp s = poweredUp vbatKept inp s :=
  if_neg (ne_true_of_eq_false hoff)

theorem powerFall_powered (hon : s.trust.pwrOk = true) :
    powerFall s = coreLost (onTrust (fun t => { t with unsafeLast := t.unsafeLast || !t.safe }) s) :=
  if_neg (not_not_intro hon)

theorem duskFalls_holds (hrun : running s = true) (hday : s.trust.dusk = false) :
    duskFalls s = reachSafe (writeThrough (sendSetting 0 8 (onReg (fun g => { g with throttle := 8 })
      (onTrust (fun t => { t with dusk := true, dawn := false, duskCount := satTo 16 (t.duskCount + 1) }) s)))) := by
  obtain ⟨hon, hlive⟩ := running_parts hrun
  exact (if_neg (not_or.2 ⟨not_not_intro hon, ne_true_of_eq_false hday⟩)).trans (if_neg (ne_true_of_eq_false hlive))

theorem duskEnds_resumes (hrun : running s = true) (hdusk : s.trust.dusk = true) :
    duskEnds s = settle {} (resumeBoot (lcAdvance (keepFuses writeCached
      (onTrust (fun t => { t with dusk := false, dawn := true, safe := false }) s)))) := by
  obtain ⟨hon, hlive⟩ := running_parts hrun
  exact (if_neg (not_or.2 ⟨not_not_intro hon, not_not_intro hdusk⟩)).trans (if_neg (ne_true_of_eq_false hlive))

/-! ## Tamper (R240, R494) -/

/-- The enabled causes among those that fire. -/
def effective (causes : BitVec 16) (s : State) : BitVec 16 :=
  causes &&& s.trust.tamperEn &&& tamperMask (onTrust (fun t => { t with inputs := causes.setWidth 8 }) s) &&& 0x1FFF#16

/-- The trust island with an enabled cause taken: the root secret is gone, the cause latched and counted. -/
abbrev tampered (causes : BitVec 16) (s : State) : State :=
  onTrust (fun t => { t with inputs := causes.setWidth 8, rootSecret := [], rootValid := false, cause := t.cause ||| effective causes s
                             count := satTo 16 (t.count + 1), tamperTime := t.rtc }) s

/-- An enabled cause is taken; in a running block it is a Terminal fault. -/
theorem tamper_fires (hcause : effective causes s ≠ 0) : tamper causes s =
    if running s then enterTerminal (simpleFault clsTamper kindTrust 0 (tampered causes s)) else tampered causes s :=
  if_neg hcause

/-- Without power the causes of the off-core detectors can fire. -/
theorem effective_unpowered (hoff : s.trust.pwrOk = false) : effective causes s = causes &&& s.trust.tamperEn &&& 0x1BFF#16 := by
  have hmask : tamperMask (onTrust (fun t => { t with inputs := causes.setWidth 8 }) s) = 0x1BFF#16 := by
    simp [tamperMask, hoff]
  rw [effective, hmask, BitVec.and_assoc]
  rfl

theorem tamperEvent_unpowered (hoff : s.trust.pwrOk = false) (hcause : effective causes s ≠ 0) :
    exec (.tamperEvent causes) s = .next (fused s (tampered causes s)) := by
  have hstopped : running s = false := by rw [running, hoff]; rfl
  have htamper : tamper causes s = tampered causes s := (tamper_fires hcause).trans (if_neg (ne_true_of_eq_false hstopped))
  show step1 (keepFuses (tamper causes)) s = _
  unfold step1 framed keepFuses
  rw [htamper]
  rfl

/-- Settles O43: each clause is one of the cases above. That isolation opens with POWER_ON, that any fall without the safe point sets
UNSAFE_LAST, and which causes can fire without power, are the model's choices (notes/assumptions/32.md). -/
theorem powerAndTamperComplete : Obligations.PowerAndTamperComplete := by
  unfold Obligations.PowerAndTamperComplete
  refine ⟨?on, ?fall, ?dusk, ?dawn, ?tamper, ?unpowered, ?terminal, ?request, ?release⟩
  case on => exact fun k inp s hoff => congrArg (fun t => Host.Outcome.next (kept s t)) (powerOn_unpowered hoff)
  case fall => exact fun s hon => congrArg (fun t => Host.Outcome.next (kept s t)) (powerFall_powered hon)
  case dusk => exact does_core (fun _ => rfl) fun s hrun hday => duskFalls_holds hrun ((Bool.not_eq_true' _).mp hday)
  case dawn => exact does_always (fun _ => rfl) fun s hrun hdusk => duskEnds_resumes hrun hdusk
  case tamper =>
    exact fun causes => does_trust (fun _ => rfl) fun s hrun hcause => (tamper_fires (bne_iff_ne.1 hcause)).trans (if_pos hrun)
  case unpowered =>
    intro causes s hoff hcause
    rw [← effective_unpowered hoff] at hcause ⊢
    exact ⟨_, tamperEvent_unpowered hoff hcause, rfl, rfl, rfl, rfl⟩
  case terminal => exact does_fused (fun _ => rfl) fun s hdue => if_pos hdue
  case request =>
    refine does_fused (fun _ => rfl) fun s h => if_pos ?_
    simpa only [Bool.or_eq_true, Bool.and_eq_true, beq_iff_eq, bne_iff_ne] using h
  case release => exact does_fused (fun _ => rfl) fun s _ => rfl

/-! ## Severity (R377) -/

/-- A write to an unlocked class sets its level. -/
theorem writeSeverity_sets (hcover : (coverOf a).getLsbD 0 = true) (hopen : (classDefault c).2 = false) (hlevel : a.data.toNat % 8 ≤ 4) :
    writeSeverity a c s = onFaults (fun f => { f with levels := tset 0 f.levels c (a.data.toNat % 8 + 1) }) s :=
  if_neg (not_or.2 ⟨ne_true_of_eq_false hopen, not_or.2 ⟨Nat.not_lt.2 hlevel, not_not_intro hcover⟩⟩)

theorem writeSeverity_ignored (h : (classDefault c).2 = true ∨ 5 ≤ a.data.toNat % 8) : writeSeverity a c s = s :=
  if_pos (h.imp_right .inl)

/-- Settles O58: the level of a class is the number its write left. That the reserved levels are ignored is the model's reading
(notes/assumptions/47.md). -/
theorem severityIsProgrammed : Obligations.SeverityIsProgrammed := by
  unfold Obligations.SeverityIsProgrammed
  refine ⟨?sets, fun s a c h => writeSeverity_ignored h, ?records, ?slots, fun s => rfl⟩
  case sets =>
    intro s a c d hcover hopen hlevel
    rw [writeSeverity_sets hcover hopen hlevel]
    simp only [programmedLevel, onFaults_faults, tget_tset]
    split
    · next hsame =>
      rw [hsame, if_neg (not_or.2 ⟨Nat.succ_ne_zero _, ne_true_of_eq_false hopen⟩), Nat.add_sub_cancel]
    · rfl
  case records =>
    intro s a hnone hcls
    simp only [baseLevel, hnone]
    exact if_neg fun h => hcls.elim (fun hne => hne h.1) h.2
  case slots =>
    intro s a hnone hcls hpart
    simp only [baseLevel, hnone]
    exact if_pos ⟨hcls, Nat.not_lt.2 hpart⟩

end Sys2Proof.Proofs.Power
end

section
/-! SUPPORT. What the curfew requests by mailbox answer (R426, R431), what an island does at T and at dawn (R427, R430, R431), the rewriting
of trace headers (R414, R419); and the statements about them. -/
namespace Sys2Proof.Proofs.Curfews

open Sys2Proof Sys2Proof.Machine Sys2Proof.Safety Sys2Proof.Laws

variable {c : Call} {i : Island} {h b : Nat} {s : State}

/-! ## Requests (R426, R431) -/

theorem curfewSchedule_arms {k : Nat} (harea : areaOf s (arg c.req 16 4) = some k) (hahead : now s + 100000 ≤ arg c.req 8 8)
    (hmin : arg c.req 4 4 ≠ 0) (hmax : arg c.req 4 4 ≤ 60000) (hfree : curfewBusy s = false) :
    curfewSchedule c s = (.wait .curfewArmed [], armCurfew (arg c.req 8 8) (arg c.req 8 8 + arg c.req 4 4 * 1000000) k s) := by
  simp only [curfewSchedule, harea]
  exact (if_neg (not_or.2 ⟨Nat.not_lt.2 hahead, not_or.2 ⟨hmin, Nat.not_lt.2 hmax⟩⟩)).trans (if_neg (ne_true_of_eq_false hfree))

theorem curfewCancel_cancels (hbusy : curfewBusy s = true) (harmed : s.curfew.state = 1) (htime : now s + 20000 ≤ s.curfew.t) :
    curfewCancel c s = accept [] (seamSend true 4 (.curfew .cancel)
      (dropObjs [s.curfew.area] (onKeys (fun k => { k with captureKey := [] }) (onCurfew (fun _ => {}) s)))) :=
  (if_neg (not_not_intro hbusy)).trans (if_neg (not_or.2 ⟨not_not_intro harmed, Nat.not_lt.2 htime⟩))

theorem dawnSet_moves (hforce : s.curfew.inForce = true) (hahead : now s + 100000 ≤ arg c.req 8 8) (hearlier : arg c.req 8 8 < s.curfew.maxDawn) :
    dawnSet c s = accept [] (seamSend true 4 (.curfew (.dawn (arg c.req 8 8)))
      (onCurfew (fun x => { x with dawn := arg c.req 8 8, state := if x.state = 3 then 4 else x.state }) s)) :=
  (if_neg (not_not_intro hforce)).trans (if_neg (not_or.2 ⟨Nat.not_lt.2 hahead, Nat.not_le.2 hearlier⟩))

/-- Settles O19: each clause is one of the operation's cases above, served by the mailbox. That DAWN takes state 4 only from STOPPED is the
model's reading (notes/assumptions/74.md). -/
theorem curfewRequestsComplete : Obligations.CurfewRequestsComplete := by
  unfold Obligations.CurfewRequestsComplete
  refine ⟨?schedule, ?cancel, ?dawn⟩
  case schedule =>
    refine fun k => repliesLater_served (fun _ _ => rfl) fun c s h => ?_
    simp only [Bool.and_eq_true, Bool.not_eq_true', beq_iff_eq, decide_eq_true_eq] at h
    obtain ⟨⟨⟨harea, hahead⟩, hmin, hmax⟩, hfree⟩ := h
    exact curfewSchedule_arms harea hahead hmin hmax hfree
  case cancel =>
    refine repliesOk_served (fun _ _ => rfl) fun c s h => ?_
    simp only [Bool.and_eq_true, beq_iff_eq, decide_eq_true_eq] at h
    obtain ⟨⟨hbusy, harmed⟩, htime⟩ := h
    exact curfewCancel_cancels hbusy harmed htime
  case dawn =>
    refine repliesOk_served (fun _ _ => rfl) fun c s h => ?_
    simp only [Bool.and_eq_true, decide_eq_true_eq] at h
    obtain ⟨hforce, hahead, hearlier⟩ := h
    exact dawnSet_moves hforce hahead hearlier

/-! ## The stop (R427, R430) -/

/-- An island that may stop runs, and its half's counter has reached T or the curfew is in force. -/
theorem mayStop_parts (hmay : mayStop s i = true) : s.curfew.stopped.contains i = false ∧
    (s.curfew.inForce = true ∨ (s.curfew.state = 1 ∧ s.curfew.t ≤ clock s ((islandsOf s true).contains i))) := by
  simpa only [mayStop, Bool.and_eq_true, Bool.or_eq_true, Bool.not_eq_true', beq_iff_eq, decide_eq_true_eq] using hmay

/-- Any island that may stop, of a half that is armed, stops; East's tells West. -/
theorem stopIsland_stops {west : Bool} (hmay : mayStop s i = true) (hwest : (islandsOf s true).contains i = west)
    (hthere : west = true ∨ (islandsOf s false).contains i = true) (harmed : (if west then s.curfew.armedW else s.curfew.armedE) = true) :
    stopIsland i s = stoppedIfReady (if west then islandStops i s else tellStopped (islandStops i s)) := by
  obtain ⟨hruns, htime⟩ := mayStop_parts hmay
  subst hwest
  exact (if_neg (not_or.2 ⟨ne_true_of_eq_false hruns, not_not_intro hthere⟩)).trans
    (if_neg (not_or.2 ⟨not_not_intro htime, not_not_intro harmed⟩))

/-! ## Headers (R414, R419) -/

/-- A header that is due is written anew; what waits for remote buffers leaves either way. -/
theorem rewriteHeader_eq (hh : h ≤ 1) (hb : b < 32) :
    rewriteHeader h b s = settle {} (driveFabric {} (sendRemote h (if headerDue s h b then writeHeader b h s else s))) :=
  if_neg (not_or.2 ⟨Nat.not_lt.2 hh, Nat.not_le.2 hb⟩)

/-- Settles O47: the stops by `stopIsland_stops`, the headers by `rewriteHeader_eq`, the dawn by its definition. -/
theorem curfewAndHeadersComplete : Obligations.CurfewAndHeadersComplete := by
  unfold Obligations.CurfewAndHeadersComplete
  refine ⟨?west, ?east, ?dawn, ?due, ?rests⟩
  case west =>
    refine fun i => does_served (fun _ => rfl) fun s h => ?_
    simp only [Bool.and_eq_true] at h
    obtain ⟨⟨hmay, hwest⟩, harmed⟩ := h
    rw [stopIsland_stops hmay hwest (.inl rfl) harmed, if_pos rfl, islandStops]
  case east =>
    refine fun i => does_served (fun _ => rfl) fun s h => ?_
    simp only [Bool.and_eq_true, Bool.not_eq_true'] at h
    obtain ⟨⟨⟨hmay, hwest⟩, heast⟩, harmed⟩ := h
    rw [stopIsland_stops hmay hwest (.inr heast) harmed, if_neg Bool.false_ne_true, islandStops]
  case dawn =>
    refine fun ue => does_fused (fun _ => rfl) fun s h => ?_
    simp only [Bool.and_eq_true, decide_eq_true_eq] at h
    exact if_pos h
  case due =>
    refine fun h b => does_served (fun _ => rfl) fun s hc => ?_
    simp only [Bool.and_eq_true, decide_eq_true_eq] at hc
    obtain ⟨⟨hh, hb⟩, hdue⟩ := hc
    rw [rewriteHeader_eq hh hb, if_pos hdue]
  case rests =>
    refine fun h b => does_served (fun _ => rfl) fun s hc => ?_
    simp only [Bool.and_eq_true, Bool.not_eq_true', decide_eq_true_eq] at hc
    obtain ⟨⟨hh, hb⟩, hrests⟩ := hc
    rw [rewriteHeader_eq hh hb, if_neg (ne_true_of_eq_false hrests)]

end Sys2Proof.Proofs.Curfews
end

section
/-! SUPPORT. What the life-cycle, debug and firmware requests by mailbox answer (R348 to R350, R441, R442, R446, R449), case by case, and
the statement about them. -/
namespace Sys2Proof.Proofs.LifeRequests

open Sys2Proof Sys2Proof.Machine Sys2Proof.Safety Sys2Proof.Laws

variable {c : Call} {s : State}

/-! ## LC_TRANSITION (R441, R442) -/

/-- What every transition asks: an allowed target, no transition and no burn under way, a digest for Production. -/
structure TransitionFits (c : Call) (s : State) : Prop where
  target : arg c.req 0 1 ≠ 0 ∧ arg c.req 0 1 ≤ 3
  allowed : targetAllowed (shadowState s) (arg c.req 0 1) = true
  noIntent : s.lc.intent = 0
  noOps : s.lc.ops = []
  digest : arg c.req 0 1 ≠ 2 ∨ argBytes c.req 8 48 ≠ zeros 48

theorem lcTransition_fits (h : TransitionFits c s) : lcTransition c s =
    if shadowState s = 2 ∧ s.flash.extAck then (.later, s)
    else if shadowState s = 2 ∧ ¬ tokenOk s 2 0 (argBytes c.req 56 160) then refuse stLcDenied (useChallenge s)
    else (.kept, beginTransition c (arg c.req 0 1) (if arg c.req 0 1 = 2 then argBytes c.req 8 48 else [])
      (if shadowState s = 2 then useChallenge s else s)) := by
  obtain ⟨⟨hnone, hmax⟩, hallowed, hintent, hops, hdigest⟩ := h
  have hidle : ¬ (s.lc.intent ≠ 0 ∨ s.lc.ops.any (fun o => o == .done true) = true) := by
    rw [hintent, hops]
    exact not_or.2 ⟨not_not_intro rfl, Bool.false_ne_true⟩
  have hgiven : ¬ (arg c.req 0 1 = 2 ∧ argBytes c.req 8 48 = zeros 48) := fun h => hdigest.elim (fun hne => hne h.1) fun hne => hne h.2
  exact (if_neg (not_or.2 ⟨hnone, Nat.not_lt.2 hmax⟩)).trans ((if_neg (not_not_intro hallowed)).trans ((if_neg hidle).trans
    ((if_neg (not_not_intro hops)).trans (if_neg hgiven))))

theorem lcTransition_begins (h : TransitionFits c s) (hstate : shadowState s ≠ 2) : lcTransition c s =
    (.kept, beginTransition c (arg c.req 0 1) (if arg c.req 0 1 = 2 then argBytes c.req 8 48 else []) s) := by
  rw [lcTransition_fits h, if_neg fun hp => hstate hp.1, if_neg fun hp => hstate hp.1, if_neg hstate]

/-- From Production only End of life is left, under a token. -/
theorem lcTransition_ends (htarget : arg c.req 0 1 = 3) (hstate : shadowState s = 2) (hintent : s.lc.intent = 0) (hops : s.lc.ops = [])
    (hbus : s.flash.extAck = false) (htoken : tokenOk s 2 0 (argBytes c.req 56 160) = true) :
    lcTransition c s = (.kept, beginTransition c 3 [] (useChallenge s)) := by
  have hfits : TransitionFits c s :=
    { target := by omega, allowed := by rw [hstate, htarget]; rfl, noIntent := hintent, noOps := hops, digest := .inl (by omega) }
  rw [lcTransition_fits hfits, if_neg fun hp => ne_true_of_eq_false hbus hp.2, if_neg fun hp => hp.2 htoken, if_pos hstate, htarget]
  rfl

/-! ## DEBUG_UNLOCK (R446) -/

theorem debugChallenge_gives (hdrbg : s.ll.drbgRunning = true) : debugChallenge c s =
    accept (drbg 32 s).1 (onLc (fun l => { l with nonce := (drbg 32 s).1, nonceTime := now s, nonceLive := true }) (drbg 32 s).2) :=
  if_neg (not_not_intro hdrbg)

/-- Outside Production, and to relock, no token is asked for. -/
theorem debugUnlock_free (hfree : lcState s ≠ 2 ∨ arg c.req 1 1 = 0) (hnone : argBytes c.req 8 160 = zeros 160) :
    debugUnlock c s = acceptUnlock (arg c.req 1 1) s :=
  (if_pos hfree).trans (if_pos hnone)

theorem debugUnlock_token (hstate : lcState s = 2) (hcats : arg c.req 1 1 ≠ 0) (hbus : s.flash.extAck = false)
    (htoken : tokenOk s 1 (arg c.req 1 1) (argBytes c.req 8 160) = true) :
    debugUnlock c s = acceptUnlock (arg c.req 1 1) (useChallenge s) :=
  (if_neg (not_or.2 ⟨not_not_intro hstate, hcats⟩)).trans ((if_neg (ne_true_of_eq_false hbus)).trans (if_pos htoken))

/-! ## FW_STAGE (R348) -/

/-- A stage whose image R318 accepts leaves its slot VALID. -/
abbrev staged (t : State) : State := markSlotState t.ll.fwStage.slot 1 (onLl (fun l => { l with fwStage := { l.fwStage with active := false } }) t)

theorem endStage_accepts {t : State} (hok : imageOk t t.ll.fwStage.slot = true) : endStage t = accept [] (staged t) := by
  simp only [endStage, hok, if_true]

/-- The state in which a piece has gone to its slot; the first piece begins the stage. -/
abbrev pieceStored (c : Call) (d : Bytes) (s : State) : State :=
  stageBytes (arg c.req 0 4) d (if arg c.req 0 4 = 0 then beginStage c.mb s else s)

/-- The image of the manager's form, as it is read, and the state in which it has gone to the slot. -/
abbrev wholeImage (c : Call) (s : State) : Nat × Bytes × State := readImage c 0 (fun n => decide (0 < n ∧ n ≤ 0x100000)) s
abbrev wholeStored (c : Call) (s : State) : State := stageBytes 0 (wholeImage c s).2.1 (beginStage c.mb (wholeImage c s).2.2)

theorem fwStage_whole (hbox : c.mb ≠ 17) (hfree : s.ll.fwStage.active = false) (hbus : flashHeld s = false) (hready : imageWaits s c 0 = false)
    (hread : (wholeImage c s).1 = stOk) (hok : imageOk (wholeStored c s) (wholeStored c s).ll.fwStage.slot = true) :
    fwStageOp c s = accept [] (staged (wholeStored c s)) := by
  have hstage : stageImage c s = endStage (wholeStored c s) :=
    (if_neg (ne_true_of_eq_false hready)).trans (if_neg (not_not_intro hread))
  unfold fwStageOp
  rw [if_neg fun h => ne_true_of_eq_false hfree h.1, if_neg (ne_true_of_eq_false hbus), if_neg hbox, hstage, endStage_accepts hok]

/-- What a piece of `n` bytes by the management mailbox asks: a first piece begins a stage, a later one goes on with it; its length is the
request's; it stays inside the slot. -/
structure PieceFits (c : Call) (n : Nat) (s : State) : Prop where
  box : c.mb = 17
  stage : (if arg c.req 0 4 = 0 then !s.ll.fwStage.active else s.ll.fwStage.active) = true
  bus : flashHeld s = false
  some : n ≠ 0
  short : n ≤ 192
  length : 8 + n = reqLen c.req
  room : arg c.req 0 4 + n ≤ 0x100000

theorem fwStage_piece {n : Nat} (h : PieceFits c n s) (hn : arg c.req 4 2 % 2 ^ 15 = n) : fwStageOp c s =
    if arg c.req 4 2 ≥ 2 ^ 15 then endStage (pieceStored c (argBytes c.req 8 n) s) else accept [] (pieceStored c (argBytes c.req 8 n) s) := by
  obtain ⟨hbox, hstage, hbus, hsome, hshort, hlength, hroom⟩ := h
  have hturn : ¬ (s.ll.fwStage.active = true ∧ (c.mb ≠ 17 ∨ arg c.req 0 4 = 0)) := by
    rintro ⟨hactive, hother | hfirst⟩
    · exact hother hbox
    · rw [if_pos hfirst, hactive] at hstage
      exact Bool.false_ne_true hstage
  have hgoes : ¬ (arg c.req 0 4 ≠ 0 ∧ ¬ s.ll.fwStage.active = true) := by
    rintro ⟨hlater, hidle⟩
    rw [if_neg hlater] at hstage
    exact hidle hstage
  unfold fwStageOp
  rw [if_neg hturn, if_neg (ne_true_of_eq_false hbus), if_pos hbox]
  unfold stagePiece
  simp only [hn]
  exact (if_neg (by omega)).trans (if_neg hgoes)

/-! ## FW_ACTIVATE, FW_COMMIT (R349, R449) -/

theorem fwActivate_tries (hvalid : slotStateOf s (otherSlot s) = 1) (hbus : flashHeld s = false) :
    fwActivate c s = accept [] (dueBlockReset 4 none false (rewriteBoot (fun b => put b 2 (le 1 (otherSlot s + 1))) s)) := by
  have hold : slotStateOf s (otherSlot s) ≠ 2 := by omega
  unfold fwActivate
  rw [if_neg hold, if_neg (not_not_intro hvalid), if_neg (ne_true_of_eq_false hbus)]

theorem fwCommit_burns (htrial : s.ll.trial = true) (hops : s.lc.ops = []) (hlc : arg c.req 0 1 % 4 = 0 ∨ lcPermits s = true)
    (hbus : flashHeld s = false) :
    fwCommit c s = (.kept, lcAdvance (onLc (fun l => { l with req := some (c.mb, c.slot), opOn := false
                                                              ops := commitBurns s (arg c.req 0 1 % 4) ++ [.done false] })
      (onLl (fun l => { l with trial := false }) (rewriteBoot (fun b => put b 1 (le 1 s.ll.image)) s)))) :=
  (if_neg (not_or.2 ⟨not_not_intro htrial, not_not_intro hops⟩)).trans
    ((if_neg fun h => hlc.elim h.1 h.2).trans (if_neg (ne_true_of_eq_false hbus)))

/-! ## The statement -/

/-- Settles O20: each clause is one of the operation's cases above. -/
theorem lifeCycleAndFirmwareRequestsComplete : Obligations.LifeCycleAndFirmwareRequestsComplete := by
  unfold Obligations.LifeCycleAndFirmwareRequestsComplete
  refine ⟨?begins, ?ends, ?challenge, ?unlock, ?unlockToken, ?whole, ?piece, ?lastPiece, ?activate, ?commit, ?status⟩
  case begins =>
    refine takes_kept (fun _ _ => rfl) fun c s h => ?_
    simp only [Bool.and_eq_true, Bool.or_eq_true, beq_iff_eq, bne_iff_ne, decide_eq_true_eq] at h
    obtain ⟨⟨⟨⟨⟨htarget, hallowed⟩, hstate⟩, hintent⟩, hops⟩, hdigest⟩ := h
    exact lcTransition_begins ⟨htarget, hallowed, hintent, hops, hdigest⟩ hstate
  case ends =>
    refine takes_kept (fun _ _ => rfl) fun c s h => ?_
    simp only [Bool.and_eq_true, Bool.not_eq_true', beq_iff_eq, decide_eq_true_eq] at h
    obtain ⟨⟨⟨⟨⟨htarget, hstate⟩, hintent⟩, hops⟩, hbus⟩, htoken⟩ := h
    exact lcTransition_ends htarget hstate hintent hops hbus htoken
  case challenge => exact repliesOk_kept (fun _ _ => rfl) fun c s hdrbg => debugChallenge_gives hdrbg
  case unlock =>
    refine repliesOk_kept (fun _ _ => rfl) fun c s h => ?_
    simp only [Bool.and_eq_true, Bool.or_eq_true, beq_iff_eq, bne_iff_ne] at h
    exact debugUnlock_free h.1 h.2
  case unlockToken =>
    refine repliesOk_kept (fun _ _ => rfl) fun c s h => ?_
    simp only [Bool.and_eq_true, Bool.not_eq_true', beq_iff_eq, bne_iff_ne] at h
    obtain ⟨⟨⟨hstate, hcats⟩, hbus⟩, htoken⟩ := h
    exact debugUnlock_token hstate hcats hbus htoken
  case whole =>
    refine repliesOk_fused (fun _ _ => rfl) fun c s h => ?_
    simp only [Bool.and_eq_true, Bool.not_eq_true', beq_iff_eq, bne_iff_ne] at h
    obtain ⟨⟨⟨⟨⟨hbox, hfree⟩, hbus⟩, hready⟩, hread⟩, hok⟩ := h
    exact fwStage_whole hbox hfree hbus hready hread hok
  case piece =>
    refine repliesOk_fused (fun _ _ => rfl) fun c s h => ?_
    simp only [Bool.and_eq_true, Bool.not_eq_true', beq_iff_eq, decide_eq_true_eq] at h
    obtain ⟨⟨⟨hbox, hstage⟩, hbus⟩, hinner, hsome, hshort, hlength, hroom⟩ := h
    have hfits : PieceFits c (arg c.req 4 2) s := ⟨hbox, hstage, hbus, hsome, hshort, hlength, hroom⟩
    rw [fwStage_piece hfits (Nat.mod_eq_of_lt hinner), if_neg (Nat.not_le.2 hinner)]
    rfl
  case lastPiece =>
    refine repliesOk_fused (fun _ _ => rfl) fun c s h => ?_
    simp only [Bool.and_eq_true, Bool.not_eq_true', beq_iff_eq, decide_eq_true_eq] at h
    obtain ⟨⟨⟨⟨hbox, hstage⟩, hbus⟩, hlast, hshort, hlength, hroom⟩, hok⟩ := h
    have hfits : PieceFits c (arg c.req 4 2 - 2 ^ 15) s :=
      ⟨hbox, hstage, hbus, by omega, hshort, hlength, hroom⟩
    rw [fwStage_piece hfits (by omega), if_pos hlast.le, endStage_accepts hok]
    rfl
  case activate =>
    refine repliesOk_fused (fun _ _ => rfl) fun c s h => ?_
    simp only [Bool.and_eq_true, Bool.not_eq_true', beq_iff_eq] at h
    exact fwActivate_tries h.1 h.2
  case commit =>
    refine takes_kept (fun _ _ => rfl) fun c s h => ?_
    simp only [Bool.and_eq_true, Bool.or_eq_true, Bool.not_eq_true', beq_iff_eq, decide_eq_true_eq] at h
    obtain ⟨⟨⟨htrial, hops⟩, hlc⟩, hbus⟩ := h
    exact fwCommit_burns htrial hops hlc hbus
  case status => exact repliesOk_served (fun _ _ => rfl) fun c s hbus => if_neg (ne_true_of_eq_false ((Bool.not_eq_true' _).mp hbus))

end Sys2Proof.Proofs.LifeRequests
end

section
/-! SUPPORT. What the SNUFF, CURFEW, TIME, FAULT, MAILBOX, TRACE and CREDIT messages of the seam do (R15, R25, R26, R372, R389, R416, R426,
R427), case by case, and the statement about them. -/
namespace Sys2Proof.Proofs.SeamMessages

open Sys2Proof Sys2Proof.Machine Sys2Proof.Safety Sys2Proof.Laws Sys2Proof.Proofs.Seam

variable {m : SeamMsg} {s : State}

/-! ## SNUFF (R389) -/

/-- A phase of fence or release for a domain of the build is East's to take, and to answer. -/
theorem takeSnuff_answers {a : Nat} (ha : hdrArg m.header = a) (heast : m.toEast = true) (hphase : bits a 31 24 = 1 ∨ bits a 31 24 = 3)
    (hdomain : (bits a 23 16 = 1 ∧ bits a 15 8 < s.build.lanterns) ∨ (bits a 23 16 = 2 ∧ bits a 15 8 < s.build.links) ∨ bits a 23 16 = 3) :
    takeSnuff m s = seamSend false 3 (.words (snuffArg 4 (bits a 23 16) (bits a 15 8)) [])
      (modSnuff (snuffMsgKey (bits a 23 16) (bits a 15 8)) (fun x => { x with fencedE := decide (bits a 31 24 = 1) }) s) := by
  unfold takeSnuff
  dsimp only
  rw [ha, if_neg (by omega), if_pos ⟨heast, hphase⟩]

/-! ## CURFEW (R426, R427, R431) -/

theorem takeCurfewMsg_arm_east {t dawn : Nat} (h : m.toEast = true) : takeCurfewMsg m (.arm t dawn) s =
    seamSend false 4 (.curfew (.arm t dawn)) (onCurfew (fun c => { c with armedE := true }) s) := by simp only [takeCurfewMsg, h]

theorem takeCurfewMsg_arm_west {t dawn : Nat} (h : m.toEast = false) : takeCurfewMsg m (.arm t dawn) s =
    settle {} (onBoxes (fun b => { b with waiting := b.waiting.map (fun w =>
      if w.cond = .curfewArmed then { w with cond := .eastKeys 0 } else w) }) s) := by simp only [takeCurfewMsg, h]

theorem takeCurfewMsg_cancel (h : m.toEast = true) : takeCurfewMsg m .cancel s = onCurfew (fun c => { c with armedE := false }) s := by
  simp only [takeCurfewMsg, h]

theorem takeCurfewMsg_dawn {t : Nat} (h : m.toEast = true) : takeCurfewMsg m (.dawn t) s = onCurfew (fun c => { c with dawn := t }) s := by
  simp only [takeCurfewMsg, h]

theorem takeCurfewMsg_stopped (h : m.toEast = false) :
    takeCurfewMsg m .stopped s = stoppedIfReady (onCurfew (fun c => { c with eastStop := true }) s) := by
  simp only [takeCurfewMsg, h]

/-! ## TIME (R25, R26) -/

/-- The follower's counter forward by `d` ns, or held by as much. -/
def steered (d : Int) (s : State) : State :=
  onTime (fun t => if 0 ≤ d then { t with east := t.east + d.toNat } else { t with hold := t.hold + (-d).toNat }) s

theorem steered_eq_ite (d : Int) (s : State) : steered d s =
    if d ≥ 0 then onTime (fun t => { t with east := t.east + d.toNat }) s else onTime (fun t => { t with hold := t.hold + (-d).toNat }) s := by
  unfold steered onTime
  split
  · rfl
  · rfl

theorem takeSync_steers {b : TimeSyncBody} (h : m.toEast = true) : takeSync m b s =
    if b.steer = 0 then seamSend false 5 (.echo (steered (min b.correction 2) (steered b.steer s)).time.east)
      (steered (min b.correction 2) (steered b.steer s))
    else steered (min b.correction 2) (steered b.steer s) := by
  simp only [steered_eq_ite]
  exact if_neg (not_not_intro h)

theorem syncSend_due (h : s.time.lastSync + 4000 ≤ now s) : syncSend s =
    onTime (fun t => { t with lastSync := t.now, correction := 0 }) (seamSend true 5 (.sync ⟨now s, s.time.correction, 0⟩) s) :=
  if_neg (Nat.not_lt.2 h)

/-! ## FAULT (R372) -/

theorem takeFaultMsg_stores (heast : m.toEast = false) (hlen : m.payload.length = 8) :
    takeFaultMsg m s = settle {} (seamSend true 6 (.words 0 []) (storeRecord (recordOf (bytesOf m.payload)) s)) :=
  if_neg (not_or.2 ⟨ne_true_of_eq_false heast, not_not_intro hlen⟩)

theorem takeFaultAck_frees (heast : m.toEast = true) (hnone : m.payload = []) : takeFaultAck m s =
    s.faults.eastHold.foldl (fun t e => eastRecord e.2 t) (onFaults (fun f => { f with eastBuf := f.eastBuf.drop 1, eastHold := [] }) s) :=
  if_neg (not_or.2 ⟨not_not_intro heast, not_not_intro hnone⟩)

/-! ## MAILBOX, TRACE (R21, R88, R416) -/

theorem takeMailboxMsg_fetch {ue : Ue} {t kind i n len : Nat} {digest : Bytes} (h : m.toEast = true) :
    takeMailboxMsg m (.fetch t kind i n len digest) ue s = eastFetches t kind i len digest s := by
  unfold takeMailboxMsg
  rw [h]

theorem takeMailboxMsg_drop {ue : Ue} {t kind i n : Nat} (h : m.toEast = true) :
    takeMailboxMsg m (.drop t kind i n) ue s = eastDrops t kind i n s := by
  unfold takeMailboxMsg
  rw [h]

theorem takeMailboxMsg_reply {ue : Ue} {t st : Nat} (h : m.toEast = false) :
    takeMailboxMsg m (.reply t st) ue s = settle ue (fetchReplied t st s) := by
  unfold takeMailboxMsg
  rw [h]

theorem takeTraceMsg_control {k sub : Nat} (heast : m.toEast = true) (howned : (bufAt s k).owner ≠ none) :
    takeTraceMsg m (.control k sub) s = seamSend false 8 (.trace (.status k ((bufAt (controlSub k 1 sub s) k).east.state))) (controlSub k 1 sub s) :=
  if_pos ⟨heast, howned⟩

/-! ## The statement -/

/-- Settles O33: each message by the case above that takes it. The layouts of CREDIT and of the FAULT acknowledgement, and East's echo of an
arming, are the model's (notes/assumptions/42.md), the bodies of CURFEW, TIME, MAILBOX and TRACE too (notes/assumptions/78.md). -/
theorem seamMessagesComplete : Obligations.SeamMessagesComplete := by
  unfold Obligations.SeamMessagesComplete
  refine ⟨?snuff, ?armEast, ?armWest, ?cancel, ?dawn, ?stopped, ?sync, ?echo, ?syncSend, ?fault, ?faultAck, ?fetch, ?drop, ?reply, ?control,
    ?trigger, ?credit⟩
  case snuff =>
    refine fun m => seamDoes_served_then (after := settle {}) (fun _ => rfl) fun s h => ?_
    simp only [Bool.and_eq_true, Bool.or_eq_true, beq_iff_eq, decide_eq_true_eq] at h
    obtain ⟨⟨heast, hphase⟩, hdomain⟩ := h
    rw [takeSnuff_answers rfl heast hphase hdomain]
  case armEast => exact fun m t dawn => seamDoes_served (fun _ => rfl) fun s h => takeCurfewMsg_arm_east h
  case armWest => exact fun m t dawn => seamDoes_served (fun _ => rfl) fun s h => takeCurfewMsg_arm_west ((Bool.not_eq_true' _).mp h)
  case cancel => exact fun m => seamDoes_served (fun _ => rfl) fun s h => takeCurfewMsg_cancel h
  case dawn => exact fun m t => seamDoes_served (fun _ => rfl) fun s h => takeCurfewMsg_dawn h
  case stopped => exact fun m => seamDoes_served (fun _ => rfl) fun s h => takeCurfewMsg_stopped ((Bool.not_eq_true' _).mp h)
  case sync => exact fun m b => seamDoes_fused_then (after := fun t => t) (fun _ => rfl) fun s h => takeSync_steers h
  case echo =>
    exact fun m e => seamDoes_fused_then (after := fun t => t) (fun _ => rfl) fun s h => if_neg (ne_true_of_eq_false ((Bool.not_eq_true' _).mp h))
  case syncSend => exact does_fused (fun _ => rfl) fun s h => syncSend_due (of_decide_eq_true h)
  case fault =>
    refine fun m => seamDoes_served (fun _ => rfl) fun s h => ?_
    simp only [Bool.and_eq_true, Bool.not_eq_true', beq_iff_eq] at h
    exact takeFaultMsg_stores h.1 h.2
  case faultAck =>
    refine fun m => seamDoes_served (fun _ => rfl) fun s h => ?_
    simp only [Bool.and_eq_true, decide_eq_true_eq] at h
    exact takeFaultAck_frees h.1 h.2
  case fetch => exact fun m ue t kind i n len digest => seamDoes_served (fun _ => rfl) fun s h => takeMailboxMsg_fetch h
  case drop => exact fun m ue t kind i n => seamDoes_served (fun _ => rfl) fun s h => takeMailboxMsg_drop h
  case reply => exact fun m ue t st => seamDoes_served (fun _ => rfl) fun s h => takeMailboxMsg_reply ((Bool.not_eq_true' _).mp h)
  case control =>
    refine fun m k sub => seamDoes_served (fun _ => rfl) fun s h => ?_
    simp only [Bool.and_eq_true, decide_eq_true_eq] at h
    exact takeTraceMsg_control h.1 h.2
  case trigger => exact fun m k t a b => seamDoes_served (fun _ => rfl) fun s _ => rfl
  case credit => exact fun m => seamDoes_served (fun _ => rfl) fun s _ => rfl

end Sys2Proof.Proofs.SeamMessages
end

section
/-! SUPPORT. What a request port does with a READ, a WRITE and a MESSAGE, with the data of a read and with a verdict (R55, R57, R427, R456
to R465), case by case, and the statement about it. -/
namespace Sys2Proof.Proofs.RequestPorts

open Sys2Proof Sys2Proof.Machine Sys2Proof.Safety Sys2Proof.Laws

variable {r : PortReq} {d b : Bytes} {be : List Bool} {ue : Ue} {port id c k : Nat} {addr : Word64} {w : PortWait} {v : Verdict}
  {vs : List Verdict} {s : State}

/-! ## READ and WRITE (R456 to R461) -/

/-- A request that enters its port's list counts as the next arrival. -/
theorem portEnter_eq_setPortOf (w : PortWait) (s : State) : portEnter w s = setPortOf w.req w s := rfl

theorem takePortRead_enters (hopen : portOpen s r.port = true) (hok : (portStatus s r false).1 = stOk) : takePortRead r s =
    portEnter { req := r, write := false, phase := 0, status := stOk, data := [], poison := [] } s :=
  (if_neg (not_not_intro hopen)).trans (if_neg (not_not_intro hok))

theorem takePortRead_refused (hopen : portOpen s r.port = true) (hbad : (portStatus s r false).1 ≠ stOk) :
    takePortRead r s = portRefuse {} r false (portStatus s r false) s :=
  (if_neg (not_not_intro hopen)).trans (if_pos hbad)

theorem takePortWrite_enters (hopen : portOpen s r.port = true) (hgoes : portStalls s r.port = false) (hok : (portStatus s r true).1 = stOk)
    (hdata : d.length = portBytes r) (hcount : be.length = portBytes r) (henables : enablesOk s r be = true) : takePortWrite r d be ue s =
    settle ue (pumpPort ue r.port
      (portEnter { req := r, write := true, phase := 0, status := stOk, data := [], poison := [], wdata := d, wbe := be } s)) := by
  have hform : ¬ (d.length ≠ portBytes r ∨ be.length ≠ portBytes r ∨ ¬ enablesOk s r be = true) :=
    not_or.2 ⟨not_not_intro hdata, not_or.2 ⟨not_not_intro hcount, not_not_intro henables⟩⟩
  unfold takePortWrite
  rw [if_neg (not_not_intro hopen), if_neg (ne_true_of_eq_false hgoes)]
  dsimp only
  rw [if_neg (not_not_intro hok), if_neg hform]

/-- A WRITE that meets a curfew stalls its port (R427, R463). -/
theorem takePortWrite_stalls (hopen : portOpen s r.port = true) (hstalls : portStalls s r.port = true) :
    takePortWrite r d be ue s = onCurfew (fun c => { c with blockedPorts := c.blockedPorts ++ [r.port] }) s :=
  (if_neg (not_not_intro hopen)).trans (if_pos hstalls)

/-! ## MESSAGE (R465) -/

/-- A port that takes messages answers one without its form with BAD_ARG, one with it with OK; the record waits where its endpoint is one. -/
theorem takeMessage_taken (h : messageTaken s port = true) : takeMessage port addr b s =
    if messageForm port addr b = true then
      if addr.toNat % 256 > 3 then emit (.writeResponse port 0 stOk) s
      else { (emit (.writeResponse port 0 stOk) s) with inbox := s.inbox ++ [⟨port, bits addr.toNat 15 8, addr.toNat % 256, b⟩] }
    else emit (.writeResponse port 0 stBadArg) s := by
  simp only [messageTaken, Bool.and_eq_true, Bool.or_eq_true, Bool.not_eq_true', beq_iff_eq, decide_eq_true_eq] at h
  obtain ⟨hport, hlantern⟩ := h
  have hthere : ¬ (port > 16 ∨ (port < 16 ∧ port ≥ s.build.lanterns)) := by
    obtain rfl | ⟨⟨hlt, -⟩, -⟩ := hlantern
    · omega
    · omega
  have hsnuff : ¬ (port < 16 ∧ lanternSnuffed s port = true) := by
    rintro ⟨hlt, hsnuffed⟩
    obtain rfl | ⟨⟨-, hfree⟩, -⟩ := hlantern
    · omega
    · exact ne_true_of_eq_false hfree hsnuffed
  have hready : ¬ (port < 16 ∧ ¬ (lanternAt s port).ready = true) := by
    rintro ⟨hlt, hnot⟩
    obtain rfl | ⟨-, hr⟩ := hlantern
    · omega
    · exact hnot hr
  unfold takeMessage
  dsimp only
  rw [if_neg hthere, if_neg hsnuff, if_neg hready]
  by_cases hform : messageForm port addr b = true
  · have hparts := hform
    simp only [messageForm, Bool.and_eq_true, beq_iff_eq, decide_eq_true_eq] at hparts
    rw [if_pos hform, if_neg (by omega)]
    rfl
  · have hparts := hform
    simp only [messageForm, Bool.and_eq_true, beq_iff_eq, decide_eq_true_eq] at hparts
    rw [if_neg hform, if_pos (by omega)]

/-! ## Data and verdicts (R55, R57, R462) -/

theorem readReturned_places {cap : Bool} (h : returning s port id cap = some (k, w)) :
    readReturned port id cap ue s = settle ue (pumpPort ue port (readPlaced port id k w (readUnits ue w s))) := by
  simp only [readReturned, h]

theorem capVerdict_ticket {l : Nat} (h : (capAt s c).verdicts = v :: vs) (ht : v.target = .ticket l k) : capVerdict c s =
    settle {} (ticketVerdict {} l k v.addr.toNat v.pass (modCap c (fun x => { x with verdicts := vs }) s)) := by
  simp only [capVerdict, h, ht]

theorem capVerdict_port {p : Nat} (h : (capAt s c).verdicts = v :: vs) (ht : v.target = .port p id) :
    capVerdict c s = settle {} (portVerdict c p id v (modCap c (fun x => { x with verdicts := vs }) s)) := by
  simp only [capVerdict, h, ht]

/-! ## The statement -/

/-- Settles O35: each clause is one of the cases above. That a MESSAGE without its form is answered with BAD_ARG is the model's deduction
(notes/assumptions/45.md). -/
theorem portRequestsComplete : Obligations.PortRequestsComplete := by
  unfold Obligations.PortRequestsComplete
  refine ⟨?read, ?readRefused, ?write, ?stall, ?message, ?reserved, ?malformed, ?stacked, ?capacity, ?ticket, ?verdict⟩
  case read =>
    refine fun r => does_served (fun _ => rfl) fun s h => ?_
    simp only [Bool.and_eq_true, beq_iff_eq] at h
    rw [takePortRead_enters h.1 h.2, portEnter_eq_setPortOf]
  case readRefused =>
    refine fun r => does_served (fun _ => rfl) fun s h => ?_
    simp only [Bool.and_eq_true, bne_iff_ne] at h
    exact takePortRead_refused h.1 h.2
  case write =>
    refine fun r d be ue => does_served (fun _ => rfl) fun s h => ?_
    simp only [Bool.and_eq_true, Bool.not_eq_true', beq_iff_eq] at h
    obtain ⟨⟨⟨⟨⟨hopen, hgoes⟩, hok⟩, hdata⟩, hcount⟩, henables⟩ := h
    rw [takePortWrite_enters hopen hgoes hok hdata hcount henables, portEnter_eq_setPortOf]
  case stall =>
    refine fun r d be ue => does_served (fun _ => rfl) fun s h => ?_
    simp only [Bool.and_eq_true] at h
    exact takePortWrite_stalls h.1 h.2
  case message =>
    refine fun port addr b => does_fused (fun _ => rfl) fun s h => ?_
    simp only [Bool.and_eq_true, decide_eq_true_eq] at h
    obtain ⟨⟨htaken, hform⟩, hendpoint⟩ := h
    rw [takeMessage_taken htaken, if_pos hform, if_neg (Nat.not_lt.2 hendpoint)]
  case reserved =>
    refine fun port addr b => does_fused (fun _ => rfl) fun s h => ?_
    simp only [Bool.and_eq_true, decide_eq_true_eq] at h
    obtain ⟨⟨htaken, hform⟩, hendpoint⟩ := h
    rw [takeMessage_taken htaken, if_pos hform, if_pos hendpoint]
  case malformed =>
    refine fun port addr b => does_fused (fun _ => rfl) fun s h => ?_
    simp only [Bool.and_eq_true, Bool.not_eq_true'] at h
    rw [takeMessage_taken h.1, if_neg (ne_true_of_eq_false h.2)]
  case stacked =>
    refine fun port id ue k w => does_served (fun _ => rfl) fun s h => ?_
    exact readReturned_places (eq_of_beq h)
  case capacity =>
    refine fun port id ue k w => does_served (fun _ => rfl) fun s h => ?_
    exact readReturned_places (eq_of_beq h)
  case ticket =>
    refine fun c v vs l k => does_served (fun _ => rfl) fun s h => ?_
    simp only [Bool.and_eq_true, beq_iff_eq, decide_eq_true_eq] at h
    exact capVerdict_ticket h.1 h.2
  case verdict =>
    refine fun c v vs p id => does_served (fun _ => rfl) fun s h => ?_
    simp only [Bool.and_eq_true, beq_iff_eq, decide_eq_true_eq] at h
    exact capVerdict_port h.1 h.2

end Sys2Proof.Proofs.RequestPorts
end

section
/-! SUPPORT. What an access at the register port does (R478, R485 to R488, R520 to R522), the registers of a mailbox among them (R325 to
R327), what an instruction and a scan of a test access port do (R514, R515); and the statement about them. -/
namespace Sys2Proof.Proofs.Accesses

open Sys2Proof Sys2Proof.Machine Sys2Proof.Safety Sys2Proof.Laws

variable {a : RegAccess} {h o : Nat} {ir : Byte} {d : BitVec 96} {s : State}

/-! ## Writes and reads (R478, R520 to R522) -/

theorem accessGoes_parts (hgo : accessGoes s a true = true) : s.trust.pwrOk = true ∧ formedAccess a = true ∧ a.func ≤ 16 ∧
    regAdmits s a true = true ∧ regServed s a.offset = true := by
  simpa only [accessGoes, Bool.and_eq_true, decide_eq_true_eq, and_assoc] using hgo

theorem regWrite_goes (hgo : accessGoes s a true = true) : regWrite a s = writeWindow a s := by
  obtain ⟨hpower, hformed, hfunc, hadmits, hserved⟩ := accessGoes_parts hgo
  unfold regWrite
  rw [if_neg (not_or.2 ⟨not_not_intro hpower, not_not_intro hformed⟩), if_neg (not_or.2 ⟨Nat.not_lt.2 hfunc, not_not_intro hadmits⟩),
    if_neg (not_not_intro hserved)]

/-- An access whose function does not exist, or that its page shuts out, is one of those the port refuses. -/
theorem refused_of_not_admitted {write : Bool} (hnot : (decide (a.func ≤ 16) && regAdmits s a write) = false) :
    a.func > 16 ∨ ¬ regAdmits s a write = true := by
  rw [Bool.and_eq_false_iff, decide_eq_false_iff_not] at hnot
  exact hnot.imp Nat.lt_of_not_le ne_true_of_eq_false

theorem regWrite_refused (hpower : s.trust.pwrOk = true) (hformed : formedAccess a = true)
    (hnot : (decide (a.func ≤ 16) && regAdmits s a true) = false) : regWrite a s = refuseReg a s :=
  (if_neg (not_or.2 ⟨not_not_intro hpower, not_not_intro hformed⟩)).trans (if_pos (refused_of_not_admitted hnot))

/-- A well-formed read is in the window, and aligned. -/
theorem formed_of_formedAccess (hformed : formedAccess a = true) :
    ¬ (a.offset ≥ 0x4000000 ∨ a.offset % (if a.size8 then 8 else 4) ≠ 0) := by
  simp only [formedAccess, decide_eq_true_eq] at hformed
  omega

theorem registerRead_reads (hformed : formedAccess a = true) (hfunc : a.func ≤ 16) (hadmits : regAdmits s a false = true) :
    registerRead a s = emit (.regData (BitVec.ofNat 64 (regRead s a))) s :=
  (if_neg (formed_of_formedAccess hformed)).trans (if_neg (not_or.2 ⟨Nat.not_lt.2 hfunc, not_not_intro hadmits⟩))

theorem registerRead_refused (hformed : formedAccess a = true) (hnot : (decide (a.func ≤ 16) && regAdmits s a false) = false) :
    registerRead a s = emit (.regData 0) (refuseReg a s) :=
  (if_neg (formed_of_formedAccess hformed)).trans (if_pos (refused_of_not_admitted hnot))

/-! ## The registers of a mailbox (R325 to R327) -/

/-- An offset into a mailbox's registers is one into the manager's page or a partition's. -/
theorem mailboxOffset_cases (hoff : mailboxOffset a = some o) : o < 0x1000 ∧
    (a.offset = 0x1000 + o ∨ (0x100000 ≤ a.offset ∧ a.offset < 0x200000 ∧ a.offset % 0x10000 = o)) := by
  unfold mailboxOffset at hoff
  split at hoff
  · have ho := Option.some.inj hoff
    omega
  split at hoff
  · have ho := Option.some.inj hoff
    omega
  · cases hoff

/-- A write to a mailbox's register of 8 B is the mailbox's. -/
theorem writeWindow_mailbox (hoff : mailboxOffset a = some o) (halign : o % 8 = 0) (hthere : boxThere s a = true) :
    writeWindow a s = writeMailbox a (accessBox a) o s := by
  obtain ⟨hlt, hmanager | ⟨hlow, hhigh, hmod⟩⟩ := mailboxOffset_cases hoff
  · have hbase : 0x1000 ≤ registerBase a ∧ registerBase a < 0x2000 := by
      unfold registerBase
      omega
    have hrest : a.offset - 0x1000 = o := by omega
    unfold writeWindow
    dsimp only
    rw [if_pos hbase, accessBox, if_pos (show a.offset < 0x2000 by omega), hrest]
  · have hbase : registerBase a = a.offset := by
      unfold registerBase
      omega
    have hpart : partExists s (a.offset / 0x10000 - 16) = true := by
      simp only [boxThere, accessBox, if_neg (show ¬ a.offset < 0x2000 by omega), Bool.or_eq_true, decide_eq_true_eq] at hthere
      exact hthere.resolve_left (by omega)
    unfold writeWindow
    dsimp only
    rw [hbase, if_neg (by omega), if_neg (by omega), if_neg (by omega), if_neg (by omega), if_pos ⟨hlow, hhigh⟩, hmod, accessBox,
      if_neg (show ¬ a.offset < 0x2000 by omega)]
    unfold writePartition
    rw [if_neg (not_not_intro hpart), if_pos hlt]

/-- An access at the base of a register covers its low bit, in 4 B and in 8. -/
theorem coverOf_low (halign : a.offset % 8 = 0) : (coverOf a).getLsbD 0 = true := by
  unfold coverOf
  rw [if_pos halign]
  split
  · decide
  · decide

theorem offset_aligned (hoff : mailboxOffset a = some o) (halign : o % 8 = 0) : a.offset % 8 = 0 := by
  obtain ⟨-, hmanager | ⟨-, -, hmod⟩⟩ := mailboxOffset_cases hoff
  · omega
  · omega

theorem writeMailbox_release {mb : Nat} (hlow : (coverOf a).getLsbD 0 = true) :
    writeMailbox a mb 0x810 s = mbRelease mb (a.data.setWidth 4) s := by
  simp [writeMailbox, hlow]

theorem writeMailbox_eventPtr {mb : Nat} (hlow : (coverOf a).getLsbD 0 = true) :
    writeMailbox a mb 0x820 s = mbRead mb (a.data.setWidth 16) s := by
  simp [writeMailbox, hlow]

/-- PT_MB_RELEASE frees the slots it names (R325). -/
theorem regWrite_release (hgo : accessGoes s a true = true) (hoff : mailboxOffset a = some 0x810) (hthere : boxThere s a = true) :
    regWrite a s = mbRelease (accessBox a) (a.data.setWidth 4) s := by
  rw [regWrite_goes hgo, writeWindow_mailbox hoff rfl hthere, writeMailbox_release (coverOf_low (offset_aligned hoff rfl))]

/-- PT_MB_EVENT_PTR moves the read pointer within what is unread (R327). -/
theorem regWrite_eventPtr (hgo : accessGoes s a true = true) (hoff : mailboxOffset a = some 0x820) (hthere : boxThere s a = true) :
    regWrite a s = mbRead (accessBox a) (a.data.setWidth 16) s := by
  rw [regWrite_goes hgo, writeWindow_mailbox hoff rfl hthere, writeMailbox_eventPtr (coverOf_low (offset_aligned hoff rfl))]

/-! ## Instructions of a test access port (R514, R515) -/

/-- Whether an instruction's category is closed to a half. -/
def irDenied (s : State) (half : Nat) (ir : Byte) : Bool := (irCategory half ir).any (fun c => !categoryOpen s half c)

theorem loadIr_eq (h : Nat) (ir : Byte) (s : State) : loadIr h ir s =
    captureDr h (onJtag (fun d =>
      if h = 0 then { d with irW := if irDenied s h ir || !irDefined h ir then 0xFF else ir, deniedW := satTo 16 (d.deniedW + b2n (irDenied s h ir)) }
      else { d with irE := if irDenied s h ir || !irDefined h ir then 0xFF else ir, deniedE := satTo 16 (d.deniedE + b2n (irDenied s h ir)) }) s) := by
  unfold loadIr irDenied
  cases irCategory h ir with
  | none => rfl
  | some c => rfl

theorem irDenied_of_open (hopen : (irCategory h ir).all (fun c => categoryOpen s h c) = true) : irDenied s h ir = false := by
  unfold irDenied
  cases hcat : irCategory h ir with
  | none => rfl
  | some c =>
    rw [hcat] at hopen
    exact congrArg (!·) hopen

theorem loadIr_open (hdef : irDefined h ir = true) (hopen : (irCategory h ir).all (fun c => categoryOpen s h c) = true) : loadIr h ir s =
    captureDr h (onJtag (fun d => if h = 0 then { d with irW := ir, deniedW := satTo 16 d.deniedW }
      else { d with irE := ir, deniedE := satTo 16 d.deniedE }) s) := by
  rw [loadIr_eq, irDenied_of_open hopen, hdef]
  rfl

theorem loadIr_closed (hclosed : irDenied s h ir = true) : loadIr h ir s =
    captureDr h (onJtag (fun d => if h = 0 then { d with irW := 0xFF, deniedW := satTo 16 (d.deniedW + 1) }
      else { d with irE := 0xFF, deniedE := satTo 16 (d.deniedE + 1) }) s) := by
  rw [loadIr_eq, hclosed]
  rfl

/-! ## Scans (R514) -/

/-- What an open instruction's scan does, by the instruction. -/
theorem debugScan_ll (hopen : (irCategory h (irOf s h)).any (fun c => categoryOpen s h c) = true) (hir : irOf s h = 0x10#8) :
    debugScan h d s =
      setResult h (llAccess (bits d.toNat 95 88) (bits d.toNat 87 64) (d.setWidth 64) (emit (.jtag h (captureOf (resultOf s h))) s)).1
        (llAccess (bits d.toNat 95 88) (bits d.toNat 87 64) (d.setWidth 64) (emit (.jtag h (captureOf (resultOf s h))) s)).2 := by
  unfold debugScan
  dsimp only
  rw [if_neg (not_not_intro hopen), hir]
  rfl

theorem debugScan_wick (hopen : (irCategory h (irOf s h)).any (fun c => categoryOpen s h c) = true) (hir : irOf s h = 0x11#8) :
    debugScan h d s =
      setResult h (wickAccess h (bits d.toNat 95 88) (bits d.toNat 87 64) (d.setWidth 64) (emit (.jtag h (captureOf (resultOf s h))) s)).1
        (wickAccess h (bits d.toNat 95 88) (bits d.toNat 87 64) (d.setWidth 64) (emit (.jtag h (captureOf (resultOf s h))) s)).2 := by
  unfold debugScan
  dsimp only
  rw [if_neg (not_not_intro hopen), hir]
  rfl

theorem debugScan_loopback (hopen : (irCategory h (irOf s h)).any (fun c => categoryOpen s h c) = true) (hir : irOf s h = 0x12#8) :
    debugScan h d s = setLoopback h (d.toNat % 2 ^ 16) (emit (.jtag h (loopbackBits s h)) s) :=
  (if_neg (not_not_intro hopen)).trans (if_pos hir)

theorem scan_parts {v : Byte} (hc : (decide (h < 2) && irOf s h == v && (irCategory h (irOf s h)).any (fun c => categoryOpen s h c)) = true) :
    h < 2 ∧ irOf s h = v ∧ (irCategory h (irOf s h)).any (fun c => categoryOpen s h c) = true := by
  simpa only [Bool.and_eq_true, decide_eq_true_eq, beq_iff_eq, and_assoc] using hc

/-! ## The statement -/

/-- Settles O50: each clause is one of the cases above, in a powered block. BYPASS stored for a denied instruction, the saturation of DENIED
and the loopback bits of a LINK_LB scan are the model's choice (notes/assumptions/39.md). -/
theorem registerAndDebugAccessesComplete : Obligations.RegisterAndDebugAccessesComplete := by
  unfold Obligations.RegisterAndDebugAccessesComplete
  refine ⟨?write, ?writeRefused, ?release, ?eventPtr, ?start, ?stop, ?read, ?readRefused, ?load, ?denied, ?lamplighter, ?wick, ?loopback⟩
  case write => exact fun a => does_core (fun _ => rfl) fun s _ hc => regWrite_goes hc
  case writeRefused =>
    refine fun a => does_core (fun _ => rfl) fun s _ hc => ?_
    rw [Bool.and_eq_true, Bool.and_eq_true, Bool.not_eq_true'] at hc
    exact regWrite_refused hc.1.1 hc.1.2 hc.2
  case release =>
    refine fun a => does_core (fun _ => rfl) fun s _ hc => ?_
    simp only [Bool.and_eq_true, beq_iff_eq] at hc
    obtain ⟨⟨hgo, hoff⟩, hthere⟩ := hc
    exact (if_pos (congrArg (Option.map (· / 8)) hoff)).trans (regWrite_release hgo hoff hthere)
  case eventPtr =>
    refine fun a => does_core (fun _ => rfl) fun s _ hc => ?_
    simp only [Bool.and_eq_true, beq_iff_eq] at hc
    obtain ⟨⟨hgo, hoff⟩, hthere⟩ := hc
    exact (if_pos (congrArg (Option.map (· / 8)) hoff)).trans (regWrite_eventPtr hgo hoff hthere)
  case start =>
    refine fun a => does_core (fun _ => rfl) fun s _ hc => ?_
    simp only [Bool.and_eq_true] at hc
    exact (if_pos ⟨hc.1.2, hc.2⟩).trans (regWrite_goes hc.1.1)
  case stop =>
    refine fun a => does_core (fun _ => rfl) fun s _ hc => ?_
    simp only [Bool.and_eq_true] at hc
    exact (if_pos ⟨hc.1.2, hc.2⟩).trans (regWrite_goes hc.1.1)
  case read =>
    refine fun a => does_core (fun _ => rfl) fun s hrun hc => ?_
    simp only [Bool.and_eq_true, decide_eq_true_eq] at hc
    exact (if_pos (running_parts hrun).1).trans (registerRead_reads hc.1.1 hc.1.2 hc.2)
  case readRefused =>
    refine fun a => does_core (fun _ => rfl) fun s hrun hc => ?_
    rw [Bool.and_eq_true, Bool.not_eq_true'] at hc
    exact (if_pos (running_parts hrun).1).trans (registerRead_refused hc.1 hc.2)
  case load =>
    refine fun h ir => does_trust (fun _ => rfl) fun s hrun hc => ?_
    simp only [Bool.and_eq_true, decide_eq_true_eq] at hc
    obtain ⟨⟨hhalf, hdef⟩, hopen⟩ := hc
    exact (if_pos ⟨(running_parts hrun).1, hhalf⟩).trans (loadIr_open hdef hopen)
  case denied =>
    refine fun h ir => does_trust (fun _ => rfl) fun s hrun hc => ?_
    simp only [Bool.and_eq_true, decide_eq_true_eq] at hc
    exact (if_pos ⟨(running_parts hrun).1, hc.1⟩).trans (loadIr_closed hc.2)
  case lamplighter =>
    refine fun h d => does_trust (fun _ => rfl) fun s hrun hc => ?_
    obtain ⟨hhalf, hir, hopen⟩ := scan_parts hc
    exact (if_pos ⟨(running_parts hrun).1, hhalf⟩).trans (debugScan_ll hopen hir)
  case wick =>
    refine fun h d => does_trust (fun _ => rfl) fun s hrun hc => ?_
    obtain ⟨hhalf, hir, hopen⟩ := scan_parts hc
    exact (if_pos ⟨(running_parts hrun).1, hhalf⟩).trans (debugScan_wick hopen hir)
  case loopback =>
    refine fun h d => does_trust (fun _ => rfl) fun s hrun hc => ?_
    obtain ⟨hhalf, hir, hopen⟩ := scan_parts hc
    exact (if_pos ⟨(running_parts hrun).1, hhalf⟩).trans (debugScan_loopback hopen hir)

end Sys2Proof.Proofs.Accesses
end

section
/-! SUPPORT. The recovery of the units: the moves of a snuff (R383 to R388, R223), hung units (R391), wicks and their scratchpads (R105,
R139), trained channels (R470, R517); and the statement about them. -/
namespace Sys2Proof.Proofs.Recovery

open Sys2Proof Sys2Proof.Machine Sys2Proof.Safety Sys2Proof.Laws Sys2Proof.Proofs.Sweep

variable {l k p : Nat} {ws : List Nat} {ue : Ue} {w : ScratchWord} {s : State}

/-! ## The snuff of a lantern (R385, R388) -/

theorem snuffGoes_parts (h : snuffGoes s l = true) :
    ¬ (l ≥ s.build.lanterns ∨ ¬ (snuffAt s l).due = true) ∧ ¬ (lanternAt s l).incarnation ≥ 65535 := by
  simp only [snuffGoes, Bool.and_eq_true, decide_eq_true_eq] at h
  obtain ⟨⟨hlt, hdue⟩, hroom⟩ := h
  exact ⟨not_or.2 ⟨Nat.not_le.2 hlt, not_not_intro hdue⟩, Nat.not_le.2 hroom⟩

theorem lanternSnuff_fences (hgo : snuffGoes s l = true) (hfence : (snuffAt s l).fencedW = false) :
    lanternSnuff l ws ue s = beginFence l 1 l s := by
  obtain ⟨hdue, hroom⟩ := snuffGoes_parts hgo
  unfold lanternSnuff
  dsimp only
  rw [if_neg hdue, if_neg hroom, if_pos (ne_true_of_eq_false hfence)]

/-- Behind both halves' fences: released once cleared and trained, else aborted, else reset once drained. -/
theorem lanternSnuff_fenced (hgo : snuffGoes s l = true) (hwest : (snuffAt s l).fencedW = true) (heast : (snuffAt s l).fencedE = true) :
    lanternSnuff l ws ue s =
      if (snuffAt s l).cleared then
        if (lanternAt s l).trained.length < 64 ∨ (s.seam.paired ∧ ¬ eastHeard s (snuffAt s l).keyMessage) then s
        else pumpHeld {} (releaseFence l 1 l (modLantern l (fun y => { y with ready := true }) (restoreStore l s)))
      else if ¬ (snuffAt s l).draining then settle ue (modSnuff l (fun y => { y with draining := true, since := now s }) (lanternAbort l s))
      else if lanternDrained s l ∨ (snuffAt s l).timedOut then settle ue (lanternReset ue l ws (sayQuiet (!lanternWest s l) 1 l s))
      else s := by
  obtain ⟨hdue, hroom⟩ := snuffGoes_parts hgo
  unfold lanternSnuff
  dsimp only
  rw [if_neg hdue, if_neg hroom, if_neg (not_not_intro hwest), if_neg (not_not_intro heast)]

/-- Without a further incarnation the whole block resets (R108). -/
theorem lanternSnuff_exhausted (hlt : l < s.build.lanterns) (hdue : (snuffAt s l).due = true) (hlast : 65535 ≤ (lanternAt s l).incarnation) :
    lanternSnuff l ws ue s = modSnuff l (fun y => { fencedE := y.fencedE }) (dueBlockReset 1 (unitCause s true l) true s) :=
  (if_neg (not_or.2 ⟨Nat.not_le.2 hlt, not_not_intro hdue⟩)).trans (if_pos hlast)

/-! ## The snuff of a link port (R388, R223) -/

theorem portSnuffGoes_parts (h : portSnuffGoes s p = true) : ¬ (p ≥ s.build.links ∨ ¬ (snuffAt s (100 + p)).due = true) := by
  simp only [portSnuffGoes, Bool.and_eq_true, decide_eq_true_eq] at h
  exact not_or.2 ⟨Nat.not_le.2 h.1, not_not_intro h.2⟩

theorem linkSnuff_fences (hgo : portSnuffGoes s p = true) (hfence : (snuffAt s (100 + p)).fencedW = false) :
    linkSnuff p s = beginFence (100 + p) 2 p s := by
  unfold linkSnuff
  dsimp only
  rw [if_neg (portSnuffGoes_parts hgo), if_pos (ne_true_of_eq_false hfence)]

/-- Behind both halves' fences: drained, then reset and released. -/
theorem linkSnuff_fenced (hgo : portSnuffGoes s p = true) (hwest : (snuffAt s (100 + p)).fencedW = true)
    (heast : (snuffAt s (100 + p)).fencedE = true) :
    linkSnuff p s =
      if ¬ (snuffAt s (100 + p)).draining then modSnuff (100 + p) (fun y => { y with draining := true, since := now s }) s
      else if (snuffAt s (100 + p)).timedOut ∨
          (s.fabric.west.ops ++ s.fabric.east.ops).all (fun e => !(e.2.used && e.2.sent.isSome && e.2.port == p)) then
        settle {} (driveFabric {} (releaseFence (100 + p) 2 p (resetPort p (unitDump {} false p (sayQuiet (!linkWest s p) 2 p s)))))
      else s := by
  unfold linkSnuff
  dsimp only
  rw [if_neg (portSnuffGoes_parts hgo), if_neg (not_not_intro hwest), if_neg (not_not_intro heast)]

/-! ## Scratchpads (R105, R139) -/

theorem wick_there (hl : l < s.build.lanterns) (hk : k < s.build.wicks + s.build.spares) :
    ¬ (l ≥ s.build.lanterns ∨ k ≥ s.build.wicks + s.build.spares) :=
  not_or.2 ⟨Nat.not_le.2 hl, Nat.not_le.2 hk⟩

/-- A fault leaves the clocks and the halves' lanterns alone. -/
theorem clock_lanternWest_recordFault (a : FaultArg) (s : State) (l : Nat) :
    clock (recordFault a s) (lanternWest (recordFault a s) l) = clock s (lanternWest s l) := by
  have h := beyondFaults_recordFault a s
  simp only [beyondFaults, Prod.mk.injEq] at h
  obtain ⟨-, hbuild, -, -, -, -, -, htime, -⟩ := h
  unfold clock lanternWest
  rw [hbuild, htime]

/-- An uncorrectable error poisons its word, and marks the wick if it is its second within 24 h. -/
theorem scratchError_poisons (hl : l < s.build.lanterns) (hk : k < s.build.wicks + s.build.spares) : scratchError l k w s =
    if (lanternAt s l).scratchLog.any (fun e => e.1 == k && decide (clock s (lanternWest s l) < e.2 + 86400000000000)) then
      markWick l k (scratchPoisoned l k w s)
    else scratchPoisoned l k w s := by
  unfold scratchError
  rw [if_neg (wick_there hl hk)]
  simp only [clock_lanternWest_recordFault]
  rfl

/-! ## The statement -/

/-- Settles O45: each clause is one of the cases above. That one command moves one phase of a snuff, and that a port's fence opens right after
its reset, are the model's choice (notes/assumptions/49.md); that WICK_FAILED carries the corrected errors of scratchpads too, by
notes/assumptions/84.md. -/
theorem recoveryCompletes : Obligations.RecoveryCompletes := by
  unfold Obligations.RecoveryCompletes
  refine ⟨?fence, ?abort, ?reset, ?release, ?exhausted, ?portFence, ?portDrain, ?portReset, ?timeout, ?hungLantern, ?hungCopy, ?test, ?failed,
    ?scratch, ?scratchAgain, ?corrected, ?trained, ?trainedCapacity, ?blockReset⟩
  case fence =>
    refine fun l ws ue => does_recorded (fun _ => rfl) fun s h => ?_
    rw [Bool.and_eq_true, Bool.not_eq_true'] at h
    exact lanternSnuff_fences h.1 h.2
  case abort =>
    refine fun l ws ue => does_recorded (fun _ => rfl) fun s h => ?_
    simp only [Bool.and_eq_true, Bool.not_eq_true'] at h
    obtain ⟨⟨⟨⟨hgo, hwest⟩, heast⟩, hcleared⟩, hdraining⟩ := h
    rw [lanternSnuff_fenced hgo hwest heast, if_neg (ne_true_of_eq_false hcleared), if_pos (ne_true_of_eq_false hdraining)]
  case reset =>
    refine fun l ws ue => does_recorded (fun _ => rfl) fun s h => ?_
    simp only [Bool.and_eq_true, Bool.or_eq_true, Bool.not_eq_true'] at h
    obtain ⟨⟨⟨⟨⟨hgo, hwest⟩, heast⟩, hcleared⟩, hdraining⟩, hquiet⟩ := h
    rw [lanternSnuff_fenced hgo hwest heast, if_neg (ne_true_of_eq_false hcleared), if_neg (not_not_intro hdraining), if_pos hquiet]
  case release =>
    refine fun l ws ue => does_recorded (fun _ => rfl) fun s h => ?_
    simp only [Bool.and_eq_true, Bool.or_eq_true, Bool.not_eq_true', decide_eq_true_eq] at h
    obtain ⟨⟨⟨⟨⟨hgo, hwest⟩, heast⟩, hcleared⟩, htrained⟩, hheard⟩ := h
    have hready : ¬ ((lanternAt s l).trained.length < 64 ∨ (s.seam.paired = true ∧ ¬ eastHeard s (snuffAt s l).keyMessage = true)) :=
      not_or.2 ⟨Nat.not_lt.2 htrained, fun hnot => hheard.elim (fun hun => ne_true_of_eq_false hun hnot.1) hnot.2⟩
    rw [lanternSnuff_fenced hgo hwest heast, if_pos hcleared, if_neg hready]
  case exhausted =>
    refine fun l ws ue => does_recorded (fun _ => rfl) fun s h => ?_
    simp only [Bool.and_eq_true, decide_eq_true_eq] at h
    exact lanternSnuff_exhausted h.1.1 h.1.2 h.2
  case portFence =>
    refine fun p => does_served (fun _ => rfl) fun s h => ?_
    rw [Bool.and_eq_true, Bool.not_eq_true'] at h
    exact linkSnuff_fences h.1 h.2
  case portDrain =>
    refine fun p => does_served (fun _ => rfl) fun s h => ?_
    simp only [Bool.and_eq_true, Bool.not_eq_true'] at h
    obtain ⟨⟨⟨hgo, hwest⟩, heast⟩, hdraining⟩ := h
    rw [linkSnuff_fenced hgo hwest heast, if_pos (ne_true_of_eq_false hdraining)]
  case portReset =>
    refine fun p => does_served (fun _ => rfl) fun s h => ?_
    rw [Bool.and_eq_true, Bool.and_eq_true, Bool.and_eq_true, Bool.and_eq_true, Bool.or_eq_true] at h
    obtain ⟨⟨⟨⟨hgo, hwest⟩, heast⟩, hdraining⟩, hquiet⟩ := h
    rw [linkSnuff_fenced hgo hwest heast, if_neg (not_not_intro hdraining), if_pos hquiet]
  case timeout =>
    refine fun l => does_served (fun _ => rfl) fun s h => ?_
    simp only [Bool.and_eq_true, decide_eq_true_eq] at h
    exact if_pos h
  case hungLantern =>
    refine fun l => does_served (fun _ => rfl) fun s h => ?_
    simp only [Bool.and_eq_true, decide_eq_true_eq] at h
    exact (if_neg (not_not_intro h.2)).trans (congrArg (settle {}) (if_neg (Nat.not_le.2 h.1)))
  case hungCopy => exact does_served (fun _ => rfl) fun s h => if_neg (not_not_intro h)
  case test =>
    refine fun l k pass => does_recorded (fun _ => rfl) fun s h => ?_
    simp only [Bool.and_eq_true, Bool.not_eq_true', decide_eq_true_eq] at h
    obtain ⟨⟨hl, hk⟩, hfree⟩ := h
    exact if_neg (not_or.2 ⟨Nat.not_le.2 hl, not_or.2 ⟨Nat.not_le.2 hk, ne_true_of_eq_false hfree⟩⟩)
  case failed => exact fun l k => does_recorded (fun _ => rfl) fun s _ => rfl
  case scratch =>
    refine fun l k w => does_recorded (fun _ => rfl) fun s h => ?_
    rw [Bool.and_eq_true, Bool.and_eq_true, decide_eq_true_eq, decide_eq_true_eq, Bool.not_eq_true'] at h
    obtain ⟨⟨hl, hk⟩, hfirst⟩ := h
    exact congrArg (settle {}) ((scratchError_poisons hl hk).trans (if_neg (ne_true_of_eq_false hfirst)))
  case scratchAgain =>
    refine fun l k w => does_recorded (fun _ => rfl) fun s h => ?_
    rw [Bool.and_eq_true, Bool.and_eq_true, decide_eq_true_eq, decide_eq_true_eq] at h
    obtain ⟨⟨hl, hk⟩, hagain⟩ := h
    exact congrArg (settle {}) ((scratchError_poisons hl hk).trans (if_pos hagain))
  case corrected =>
    refine fun l k => does_recorded (fun _ => rfl) fun s h => ?_
    simp only [Bool.and_eq_true, decide_eq_true_eq] at h
    exact congrArg (settle {}) (if_neg (wick_there h.1 h.2))
  case trained =>
    refine fun l c => does_served (fun _ => rfl) fun s h => ?_
    simp only [Bool.and_eq_true, decide_eq_true_eq] at h
    exact if_neg (not_or.2 ⟨Nat.not_le.2 h.1, Nat.not_le.2 h.2⟩)
  case trainedCapacity =>
    exact fun c ch v => does_served (fun _ => rfl) fun s h => if_neg (Nat.not_le.2 (of_decide_eq_true h))
  case blockReset =>
    refine fun inp t => does_kept (fun _ => rfl) fun s h => ?_
    simp only [eq_of_beq h]

end Sys2Proof.Proofs.Recovery
end
